-- ==== Sys2Proof/Word.lean ====
section
/-! DEFINITION. The word types of the device and their plainest arithmetic. -/

namespace Sys2Proof

/-- One byte of a payload, an image or a memory. -/
abbrev Byte := BitVec 8

/-- The 64-bit register word of R4. -/
abbrev W64 := BitVec 64

/-- Field [hi:lo] of a natural number read as bits (bit 0 the least significant, 00.3). -/
def natField (v hi lo : Nat) : Nat := (v / 2 ^ lo) % 2 ^ (hi + 1 - lo)

/-- `b` as 1 or 0. -/
def boolNat (b : Bool) : Nat := if b then 1 else 0

end Sys2Proof
end

