-- ==== Sys2Proof/Syntax.lean ====
section
/-! DEFINITION. The commands: one constructor of `Instr` for each row of the table of operations and events,
with the operands the row's rules name. Outcomes of a physical process (a checksum, a training, a temperature)
are operands, because they come from outside the logic that the rules describe. -/

namespace Sys2Proof

/-- Privilege mode of a hart's access (12.1, R224, R462). -/
inductive Mode where
  | m | s | u | vs | vu
  deriving DecidableEq, Repr

/-- The requester of a register access: the Keeper or a hart in a mode (R612). -/
inductive Actor where
  | keeper
  | hart (h : Nat) (mode : Mode)
  deriving DecidableEq, Repr

/-- The KX instructions (Table 12-4). -/
inductive KxOp where
  | efence | lclean | lflush | lzero
  deriving DecidableEq, Repr

/-- What the CBCFE and CBZE bits give a cache-management instruction in its mode (R430): enabled, an illegal-instruction exception,
or a virtual-instruction exception. -/
inductive CboGate where
  | on | illegal | virt
  deriving DecidableEq, Repr

/-- What translation and protection give it (R430): its permission, a page fault, or an access fault. -/
inductive CboPerm where
  | ok | page | access
  deriving DecidableEq, Repr

/-- The two board reference inputs (R25). -/
inductive RefClock where
  | r156 | r100
  deriving DecidableEq, Repr

/-- The five die-to-die traffic classes of Table 1-3. -/
inductive D2dClass where
  | interrupt | management | coherence | memory | debug
  deriving DecidableEq, Repr

/-- One flit of a die-to-die port: its class, its sequence number, the dies that it has yet to reach, and its 64 bytes
(R17, R18). -/
structure Flit where
  cls  : D2dClass
  seq  : Nat
  path : List Nat
  data : List Byte
  deriving DecidableEq, Repr

/-- What a unit reports of a fault: the fields of the fault record of Table 15-2 that the unit supplies. -/
structure FaultReport where
  code : Nat
  cls  : Nat
  unit : Nat
  die  : Nat
  slot : Nat
  lbed : Nat
  cell : Nat
  pav  : Nat
  row  : Nat
  col  : Nat
  port : Nat
  info : Nat
  deriving DecidableEq, Repr

/-- A slot operation as it reaches its unit: the issuing pavilion, the modifier and operand bits of R184, the
value of the index its IX field selects (R227), the fault policy that stood at its issue (R266; true: poison)
and its place in the pavilion's issue order. -/
structure UnitOp where
  pav      : Nat
  modifier : BitVec 8
  operands : BitVec 48
  index    : Nat
  poison   : Bool
  seq      : Nat
  deriving DecidableEq, Repr

/-- A slot operation at one of the beds that it reaches: the array groups and the converters of each bed take it on their own. -/
structure BedOp where
  bed : Nat
  op  : UnitOp
  deriving DecidableEq, Repr

/-- A custom-0 word that a hart has fetched (R427). -/
structure KxFetch where
  hart : Nat
  word : BitVec 32
  deriving DecidableEq, Repr

/-- Where a trace record comes from (Table 17-10): its die, unit and pavilion, and the event. -/
structure TraceSrc where
  die  : Nat
  unit : Nat
  pav  : Nat
  ev   : Nat
  deriving DecidableEq, Repr

/-- Atomic operations of Table 9-5 on 4 or 8 bytes. -/
inductive AtomicOp where
  | add | and | or | xor | smin | smax | umin | umax | swap | cas
  deriving DecidableEq, Repr

/-- What an atomic access asks of the home agent: an operation of Table 9-5, or a hart's LR or SC (R416). -/
inductive HomeOp where
  | amo (op : AtomicOp)
  | lr | sc
  deriving DecidableEq, Repr

/-- Accumulator formats of Table 2-5. -/
inductive AccFmt where
  | a64l | a64i | a128
  deriving DecidableEq, Repr

/-- A requester at a home agent (R331, R386, R349); a hart's access with its privilege mode (R315) and its mapping's kind
(R397). -/
inductive Requester where
  | hart (h : Nat) (mode : Mode) (io : Bool)
  | keeper
  | window (pav : Nat)
  | engine (eng pav : Nat)
  | slice (pav : Nat)
  deriving DecidableEq, Repr

/-- The permission a translation needs (Table 10-1). -/
inductive PermNeed where
  | r | w | x
  deriving DecidableEq, Repr

/-- The unit whose translation is walked: a stream engine or the prefetcher of a slice on a die (R360). -/
inductive XlatUnit where
  | engine (eng : Nat)
  | fetch (die : Nat)
  deriving DecidableEq, Repr

/-- Kinds of access a hart makes through the remote window aperture (R367). -/
inductive ApertureKind where
  | load | store
  | amo (op : AtomicOp) (cmp : BitVec 64)
  deriving DecidableEq, Repr

/-- Line states of Table 11-1. -/
inductive LineState where
  | d | c | s | f | i
  deriving DecidableEq, Repr

/-- Where line data goes: to a requesting core die or to the home (R391). -/
inductive CohDst where
  | home
  | cd (n : Nat)
  deriving DecidableEq, Repr

/-- What a HELLO carries (R467): the outcome of the chain checks of step 2 as they bear on R469, the partner's
key hash, its ephemeral key and nonce, its device ID (0xFFFF while unassigned) and, for KMT, its session field and the MAC address
that sent it. -/
structure HelloMsg where
  session   : Nat
  chain     : List Byte
  pubKey    : List Byte
  ephemeral : List Byte
  nonce     : List Byte
  devId     : Nat
  mac       : Nat
  deriving DecidableEq, Repr

/-- A received SLP frame: the header of Table 14-5, the payload, and the outcomes of the CRC and tag checks. -/
structure SlpFrame where
  vc      : Nat
  kph     : Bool
  final   : Bool
  lenOk   : Bool
  lseq    : Nat
  dst     : Nat
  src     : Nat
  srcpav  : Nat
  hops    : Nat
  keyid   : Nat
  status  : Nat
  window  : Nat
  offset  : Nat
  tag     : Nat
  eng     : Nat
  arg     : Nat
  cstile  : Nat
  eseq    : Nat
  payload : List Byte
  crcOk   : Bool
  tagOk   : Bool
  deriving DecidableEq, Repr

/-- A received KMT message: the header of Table 14-8, the body, and the outcome of the tag check. -/
structure KmtMsg where
  session : Nat
  seq     : Nat
  ack     : Nat
  qpw     : Nat
  pav     : Nat
  status  : Nat
  offset  : Nat
  cinc    : Nat
  cstile  : Nat
  body    : List Byte
  mac     : Nat
  formOk  : Bool
  tagOk   : Bool
  deriving DecidableEq, Repr

/-- An alarm as a source offers it (Table 15-12): its code, its count, its first and last MTIME, its flags and the
fault report behind it. -/
structure AlarmRec where
  code  : Nat
  flags : Nat
  count : Nat
  first : Nat
  last  : Nat
  report : FaultReport
  deriving DecidableEq, Repr

/-- One rail's telemetry read (R548, R549, R556): whether it succeeded, mV and mA, and whether the regulator still asserts
its alert. -/
structure RailSample where
  ok    : Bool
  mv    : Nat
  ma    : Nat
  alert : Bool
  deriving DecidableEq, Repr

/-- The three kinds of upkeep (16.7) with the resource concerned. -/
inductive Upkeep where
  | gddr (die : Nat)
  | link (port : Nat)
  | bed (die : Nat)
  deriving DecidableEq, Repr

/-- The timer comparators of a hart (R432). -/
inductive TimerSel where
  | mtimecmp | stimecmp | vstimecmp
  deriving DecidableEq, Repr

/-- What the physical world answers during cold boot (Table 17-6, Table 17-7): the references, the trained
die-to-die ports and dies reached, the trained GDDR7 components with the temperatures of the three of each die, the random
nonce drawn, and whether the power-up kept the
order of Table 19-10. -/
structure BootInputs where
  ref156    : Bool
  ref100    : Bool
  selftest  : Bool
  d2dFail   : List (Nat × Nat)
  dieLost   : List Nat
  gddrFail  : List (Nat × Nat)
  gddrTemps : List Nat
  nonce     : BitVec 64
  ordered   : Bool
  deriving DecidableEq, Repr


/-- How a request reaches the Keeper (R599 to R601): `head`, the one at the head of its queue, from whichever side; or one
that arrives in a REQUEST message of a management session and is served when it is at the head. -/
inductive KSrc where
  | head
  | port (session : Nat) (msg : List Byte)
  deriving DecidableEq, Repr

/-- The commands of the device: one constructor for each row of the table of operations and events.
Each docstring gives the row's mnemonic and the rule that governs it. -/
inductive Instr where
  /-- REGISTER_WRITE (R8). -/
  | registerWrite (a : Actor) (addr size : Nat) (v : BitVec 64)
  /-- D2D_FLIT_RECEIVE (R18): a flit with the CRC-32C that came with it. -/
  | d2dFlitReceive (die port : Nat) (f : Flit) (crc : Nat)
  /-- D2D_FLIT_TRANSMIT (R17). -/
  | d2dFlitTransmit (die port : Nat)
  /-- D2D_FLIT_RETRANSMIT (R18). -/
  | d2dFlitRetransmit (die port seq : Nat)
  /-- D2D_LANE_FAILOVER (R19). -/
  | d2dLaneFailover (die port lane : Nat)
  /-- D2D_LANE_DEGRADE (R20). -/
  | d2dLaneDegrade (die port lane : Nat)
  /-- D2D_PORT_DOWN (R21). -/
  | d2dPortDown (die port : Nat)
  /-- D2D_REROUTE (R21). -/
  | d2dReroute (src dst : Nat)
  /-- LODGE_BUS_FAIL (R23). -/
  | lodgeBusFail (die : Nat)
  /-- REFERENCE_LOST (R27). -/
  | referenceLost (ref : RefClock)
  /-- CONTAINED_FAULT (R31). -/
  | containedFault (f : FaultReport)
  /-- SHARED_FAULT_EVENT (R32). -/
  | sharedFaultEvent (f : FaultReport)
  /-- LANE_STEP (R71). -/
  | laneStep (cell row col : Nat)
  /-- CELL_STORE_BANK_ACCESS (R73). -/
  | cellStoreBankAccess (cell bank : Nat)
  /-- FEEDER_DELIVER (R87). -/
  | feederDeliver (cell : Nat) (west : Bool)
  /-- DRAIN_ROW_ACCEPT (R108). -/
  | drainRowAccept (cell : Nat)
  /-- BED_BUS_TRANSFER (R96). -/
  | bedBusTransfer (bed track : Nat) (parityOk : Bool)
  /-- BED_RESET (R105). -/
  | bedReset (a : Actor) (bed : Nat)
  /-- TRL_STAGE (R158). -/
  | trlStage (a : Actor) (v : BitVec 64)
  /-- TRL_STAGE_COPY_END (R155). -/
  | trlStageCopyEnd
  /-- TRL_VERIFY (R151). -/
  | trlVerify (a : Actor) (v : BitVec 64)
  /-- TRL_VERIFY_DONE (R151). -/
  | trlVerifyDone
  /-- TRL_COMMIT (R159). -/
  | trlCommit (a : Actor) (v : BitVec 64)
  /-- TRL_PAV_COMMIT_DONE (R162). -/
  | trlPavCommitDone
  /-- TRL_ABORT (R157). -/
  | trlAbort (a : Actor) (v : BitVec 64)
  /-- DIGEST_RECOMPUTE_DONE (R176). -/
  | digestRecomputeDone
  /-- TRL_DIGEST_CAPTURE (R176). -/
  | trlDigestCapture (a : Actor)
  /-- TRL_AGD_CAPTURE (R176). -/
  | trlAgdCapture (a : Actor) (p : Nat)
  /-- TRL_AGREE_CLEAR (R179). -/
  | trlAgreeClear (a : Actor) (n i : Nat)
  /-- BEACON_SEND (R178). -/
  | beaconSend (n i : Nat)
  /-- GRACE_TIMER_EXPIRE (R180). -/
  | graceTimerExpire (n i : Nat)
  /-- ORG_RGN_COMMIT_GO (R325). -/
  | orgRgnCommitGo (a : Actor)
  /-- ORG_RGN_COMMIT_APPLY (R325). -/
  | orgRgnCommitApply (die : Nat)
  /-- SMMU_CTX_COMMIT_GO (R355). -/
  | smmuCtxCommitGo (a : Actor) (p : Nat)
  /-- SMMU_CTX_COMMIT_APPLY (R355). -/
  | smmuCtxCommitApply (p : Nat)
  /-- WS_COMMIT_GO (R377). -/
  | wsCommitGo (a : Actor)
  /-- WS_COMMIT_APPLY (R377). -/
  | wsCommitApply
  /-- WS_OUT_COMMIT_GO (R368). -/
  | wsOutCommitGo (a : Actor)
  /-- WS_OUT_COMMIT_APPLY (R368). -/
  | wsOutCommitApply
  /-- COH_BIAS_COMMIT_GO (R167). -/
  | cohBiasCommitGo (a : Actor)
  /-- COH_BIAS_COMMIT_APPLY (R167). -/
  | cohBiasCommitApply
  /-- PAV_PROG_COMMIT_GO (R446). -/
  | pavProgCommitGo (a : Actor) (p : Nat)
  /-- PAV_PROG_COMMIT_APPLY (R446). -/
  | pavProgCommitApply (p : Nat)
  /-- PROGRAM_REGISTRATION_DONE (R446). -/
  | programRegistrationDone (p : Nat)
  /-- PAV_QP_COMMIT_GO (R447). -/
  | pavQpCommitGo (a : Actor) (p : Nat)
  /-- PAV_QP_COMMIT_APPLY (R447). -/
  | pavQpCommitApply (p : Nat)
  /-- WORD_ISSUE (R187). -/
  | wordIssue (p die : Nat)
  /-- PREFETCH_WORD (R190). -/
  | prefetchWord (p die : Nat)
  /-- REPEAT (R194). -/
  | ctlRepeat (p die n : Nat)
  /-- LOOP (R195). -/
  | ctlLoop (p die n last : Nat)
  /-- BRP (R198). -/
  | ctlBrp (p die bed pred cond target : Nat)
  /-- BRANCH_OUTCOME (R198). -/
  | branchOutcome (p die : Nat) (taken : Bool) (target : Nat)
  /-- WAIT (R203). -/
  | ctlWait (p die stile t sc level : Nat)
  /-- HALT (R200). -/
  | ctlHalt (p die : Nat)
  /-- PAVILION_HALTED (R200). -/
  | pavilionHalted (p : Nat)
  /-- MARK (R209). -/
  | ctlMark (p die : Nat) (writeOk : Bool)
  /-- MARK_COMPLETE (R209). -/
  | markComplete (p : Nat)
  /-- QUIET (R215). -/
  | ctlQuiet (p die classes len : Nat)
  /-- QUIET_CLOSE (R217). -/
  | quietClose (p : Nat)
  /-- PFH (R191). -/
  | ctlPfh (p die target count : Nat)
  /-- SIGNAL_PART (R204). -/
  | signalPart (p die sig : Nat)
  /-- REPLAY_RESTORE (R213). -/
  | replayRestore (p : Nat)
  /-- STL_STATE_WRITE (R224). -/
  | stlStateWrite (a : Actor) (st : Nat) (v : BitVec 64)
  /-- STL_GROUP_WRITE (R225). -/
  | stlGroupWrite (a : Actor) (g : Nat) (v : BitVec 64)
  /-- MMUL (R235). -/
  | mmul (ag : Nat) (x : BedOp)
  /-- CVTA (R245). -/
  | cvta (x : BedOp)
  /-- CVTM (R246). -/
  | cvtm (x : BedOp)
  /-- SEED (R121). -/
  | cvtSeed (x : BedOp)
  /-- SCLD (R249). -/
  | scld (x : BedOp)
  /-- RSLD (R249). -/
  | rsld (x : BedOp)
  /-- RSADD (R249). -/
  | rsadd (x : BedOp)
  /-- RSCLR (R249). -/
  | rsclr (x : BedOp)
  /-- STEX (R249). -/
  | stex (x : BedOp)
  /-- DLD (R252). -/
  | dld (o : UnitOp)
  /-- RUN (R253). -/
  | run (o : UnitOp)
  /-- STREAM_REQUEST_ISSUE (R278). -/
  | streamRequestIssue (eng ctx : Nat)
  /-- STREAM_RESPONSE (R283). -/
  | streamResponse (eng ctx tag : Nat)
  /-- BURST_DELIVER (R289). -/
  | burstDeliver (eng ctx : Nat)
  /-- CARAVAN_BURST_FORWARD (R296). -/
  | caravanBurstForward (eng ctx stop : Nat)
  /-- CARAVAN_STOP_CONFIRM (R298). -/
  | caravanStopConfirm (eng ctx stop : Nat)
  /-- RUN_COMPLETE (R270). -/
  | runComplete (eng ctx : Nat)
  /-- CONTEXT_STOPPED (R301). -/
  | contextStopped (eng ctx : Nat)
  /-- MOVE_RELEASE (R311). -/
  | moveRelease (p : Nat)
  /-- VADD (R256). -/
  | vadd (bed : Nat) (o : UnitOp)
  /-- VSUB (R256). -/
  | vsub (bed : Nat) (o : UnitOp)
  /-- VMUL (R256). -/
  | vmul (bed : Nat) (o : UnitOp)
  /-- VFMA (R256). -/
  | vfma (bed : Nat) (o : UnitOp)
  /-- VMIN (R256). -/
  | vmin (bed : Nat) (o : UnitOp)
  /-- VMAX (R256). -/
  | vmax (bed : Nat) (o : UnitOp)
  /-- VDIV (R256). -/
  | vdiv (bed : Nat) (o : UnitOp)
  /-- VSQRT (R256). -/
  | vsqrt (bed : Nat) (o : UnitOp)
  /-- VEXP2 (R256). -/
  | vexp2 (bed : Nat) (o : UnitOp)
  /-- VLOG2 (R256). -/
  | vlog2 (bed : Nat) (o : UnitOp)
  /-- VCMP (R256). -/
  | vcmp (bed : Nat) (o : UnitOp)
  /-- VSEL (R256). -/
  | vsel (bed : Nat) (o : UnitOp)
  /-- VRED (R66). -/
  | vred (bed : Nat) (o : UnitOp)
  /-- VBCS (R256). -/
  | vbcs (bed : Nat) (o : UnitOp)
  /-- VCVT (R256). -/
  | vcvt (bed : Nat) (o : UnitOp)
  /-- VLD (R257). -/
  | vld (bed : Nat) (o : UnitOp)
  /-- VST (R257). -/
  | vst (bed : Nat) (o : UnitOp)
  /-- VRCV (R248). -/
  | vrcv (bed : Nat) (o : UnitOp)
  /-- VBSND (R257). -/
  | vbsnd (bed : Nat) (o : UnitOp)
  /-- VBRCV (R257). -/
  | vbrcv (bed : Nat) (o : UnitOp)
  /-- PLOG (R256). -/
  | plog (bed : Nat) (o : UnitOp)
  /-- FLCLR (R256). -/
  | flclr (bed : Nat) (o : UnitOp)
  /-- SLI (R256). -/
  | sli (bed : Nat) (o : UnitOp)
  /-- SGET (R256). -/
  | sget (bed : Nat) (o : UnitOp)
  /-- ORDF (R261). -/
  | ordf (o : UnitOp)
  /-- ENDF (R261). -/
  | endf (o : UnitOp)
  /-- SIGNAL (R262). -/
  | xchSignal (o : UnitOp)
  /-- SET (R207). -/
  | xchSet (o : UnitOp)
  /-- TOKEN (R263). -/
  | xchToken (o : UnitOp)
  /-- BIND (R262). -/
  | xchBind (o : UnitOp)
  /-- UNBIND (R262). -/
  | xchUnbind (o : UnitOp)
  /-- SEND (R264). -/
  | xchSend (o : UnitOp)
  /-- ALLRED (R265). -/
  | allred (o : UnitOp)
  /-- RSCAT (R265). -/
  | rscat (o : UnitOp)
  /-- AGATH (R265). -/
  | agath (o : UnitOp)
  /-- COLLECTIVE_DONE (R265). -/
  | collectiveDone (p eng plan : Nat)
  /-- FPOL (R266). -/
  | fpol (o : UnitOp)
  /-- HOME_AGENT_ACCESS (R386). -/
  | homeAgentAccess (die : Nat)
  /-- NEXT_LINE_PREFETCH (R326). -/
  | nextLinePrefetch (die : Nat)
  /-- ORG_FLUSH (R327). -/
  | orgFlush (a : Actor) (die : Nat) (v : BitVec 64)
  /-- ORG_FLUSH_DONE (R327). -/
  | orgFlushDone (die : Nat)
  /-- ATOMIC (R331). -/
  | atomic (r : Requester) (addr size : Nat) (op : HomeOp) (v cmp : BitVec 64)
  /-- BLKADD (R331). -/
  | blkadd (r : Requester) (addr : Nat) (fmt : AccFmt) (data : List Byte)
  /-- GDDR_ACCESS (R336). -/
  | gddrAccess (die : Nat)
  /-- GDDR_TRACKING_READ (R342). -/
  | gddrTrackingRead (die : Nat) (temps margins : List Nat)
  /-- GDDR_RETRAIN_DONE (R343). -/
  | gddrRetrainDone (die : Nat) (failed : Option Nat) (temps : List Nat)
  /-- SCRUB_GROUP (R344). -/
  | scrubGroup (die comp : Nat)
  /-- GDR_PLOT_WRITE (R350). -/
  | gdrPlotWrite (a : Actor) (die plot : Nat) (v : BitVec 64)
  /-- PLOT_ZERO_FILL_DONE (R350). -/
  | plotZeroFillDone (die plot : Nat)
  /-- TRANSLATION_WALK (R359). -/
  | translationWalk (p va : Nat) (need : PermNeed) (u : XlatUnit)
  /-- SMMU_INV_RANGE (R364). -/
  | smmuInvRange (a : Actor) (size : Nat) (v : BitVec 64)
  /-- SMMU_INV_TAG (R365). -/
  | smmuInvTag (a : Actor) (size : Nat) (v : BitVec 64)
  /-- SMMU_INV_ALL (R365). -/
  | smmuInvAll (a : Actor) (size : Nat) (v : BitVec 64)
  /-- SMMU_INV_TAKE_EFFECT (R363). -/
  | smmuInvTakeEffect
  /-- SMMU_INV_COMPLETE (R366). -/
  | smmuInvComplete
  /-- APERTURE_ACCESS (R367). -/
  | apertureAccess (hart addr size : Nat) (kind : ApertureKind) (v : BitVec 64)
  /-- RETRY_RESEND (R374). -/
  | retryResend (port tag : Nat)
  /-- COMMIT_STILE_APPLY (R376). -/
  | commitStileApply (k : Nat)
  /-- CORE_LOAD (R385). -/
  | coreLoad (hart : Nat) (mode : Mode) (pa size : Nat) (io fetch : Bool)
  /-- CORE_STORE (R385). -/
  | coreStore (hart : Nat) (mode : Mode) (pa size : Nat) (io : Bool) (v : BitVec 64)
  /-- CORE_EVICTION (R385). -/
  | coreEviction (cd : Nat) (la : Nat)
  /-- READ_SHARED (R385). -/
  | readShared (cd la : Nat)
  /-- READ_OWN (R385). -/
  | readOwn (cd la : Nat)
  /-- UPGRADE (R385). -/
  | upgrade (cd la : Nat)
  /-- CLEAN_EVICT (R385). -/
  | cleanEvict (cd la : Nat)
  /-- WRITE_BACK (R385). -/
  | writeBack (cd la : Nat)
  /-- SNP_SHARED (R385). -/
  | snpShared (cd la : Nat)
  /-- SNP_CLEAN (R385). -/
  | snpClean (cd la : Nat)
  /-- SNP_OWN (R385). -/
  | snpOwn (cd la : Nat)
  /-- SNP_INV (R385). -/
  | snpInv (cd la : Nat)
  /-- BACK_INVALIDATION (R382). -/
  | backInvalidation (cd la : Nat)
  /-- PROMOTE (R385). -/
  | promote (cd la : Nat)
  /-- SNP_QUERY (R395). -/
  | snpQuery (die cd : Nat)
  /-- PRESENCE_RECORD (R395). -/
  | presenceRecord (die cd la : Nat) (st : LineState)
  /-- END_RECORD (R395). -/
  | endRecord (die cd : Nat)
  /-- ACK (R385). -/
  | cohAck (cd la : Nat)
  /-- ACK_WB (R390). -/
  | ackWb (cd la : Nat)
  /-- COMPLETE (R391). -/
  | cohComplete (cd la : Nat)
  /-- COHERENCE_DATA (R391). -/
  | coherenceData (dst : CohDst) (la : Nat) (data : List Byte)
  /-- COH_OO_FORCE (R393). -/
  | cohOoForce (a : Actor) (die : Nat) (v : BitVec 64)
  /-- OWNER_ORDER_DRAINED (R393). -/
  | ownerOrderDrained (die : Nat)
  /-- BIAS_RELEASE (R404). -/
  | biasRelease (a : Actor) (v : BitVec 64)
  /-- BIAS_RECALL (R404). -/
  | biasRecall (a : Actor) (v : BitVec 64)
  /-- BIAS_DONE (R404). -/
  | biasDone
  /-- KX_EFENCE (R428), and every custom-0 word whose funct3 no KX instruction has (R427). -/
  | kxEfence (x : KxFetch)
  /-- KX_LCLEAN (R429): a custom-0 word of its funct3. -/
  | kxLclean (x : KxFetch) (pa : Nat) (gate : CboGate) (perm : CboPerm)
  /-- KX_LFLUSH (R429): a custom-0 word of its funct3. -/
  | kxLflush (x : KxFetch) (pa : Nat) (gate : CboGate) (perm : CboPerm)
  /-- KX_LZERO (R429): a custom-0 word of its funct3. -/
  | kxLzero (x : KxFetch) (pa : Nat) (gate : CboGate) (perm : CboPerm)
  /-- CBO_CLEAN (R423). -/
  | cboClean (hart pa : Nat) (gate : CboGate) (perm : CboPerm)
  /-- CBO_FLUSH (R423). -/
  | cboFlush (hart pa : Nat) (gate : CboGate) (perm : CboPerm)
  /-- CBO_INVAL (R423). -/
  | cboInval (hart pa : Nat) (gate : CboGate) (perm : CboPerm)
  /-- CBO_ZERO (R423). -/
  | cboZero (hart pa : Nat) (gate : CboGate) (perm : CboPerm)
  /-- MSI_WRITE (R433). -/
  | msiWrite (hart file ident : Nat)
  /-- KXS_REG_WRITE (R438). -/
  | kxsRegWrite (hart pa : Nat) (v : BitVec 64)
  /-- KXS_REG_READ (R437). -/
  | kxsRegRead (hart pa : Nat)
  /-- KXS_KEEPER (R440). -/
  | kxsKeeper (hart pa len : Nat)
  /-- SRST_WARM_REBOOT (R436). -/
  | srstWarmReboot (hart : Nat)
  /-- SRST_COLD_REBOOT (R436). -/
  | srstColdReboot (hart : Nat)
  /-- PAV_RESET (R459). -/
  | pavReset (a : Actor) (p : Nat) (v : BitVec 64)
  /-- PAV_RESET_DONE (R444). -/
  | pavResetDone (p : Nat)
  /-- PAV_RELEASE (R444). -/
  | pavRelease (a : Actor) (p : Nat) (v : BitVec 64)
  /-- PAV_FENCE_WRITE (R445). -/
  | pavFenceWrite (a : Actor) (p : Nat) (v : BitVec 64)
  /-- SQ_ENTRY_TAKE (R448). -/
  | sqEntryTake (p : Nat)
  /-- SQ_DOORBELL (R450). -/
  | sqDoorbell (a : Actor) (p q : Nat) (v : BitVec 64)
  /-- CQ_HEAD_WRITE (R450). -/
  | cqHeadWrite (a : Actor) (p q : Nat) (v : BitVec 64)
  /-- PAV_QP_TOKEN_WRITE (R453). -/
  | pavQpTokenWrite (a : Actor) (p q word : Nat) (v : BitVec 64)
  /-- PAV_EVEC_WRITE (R456). -/
  | pavEvecWrite (a : Actor) (p vec : Nat) (v : BitVec 64)
  /-- PMD_UP (R495). -/
  | pmdUp (port : Nat)
  /-- PMD_TRAINING_FAIL (R495). -/
  | pmdTrainingFail (port : Nat)
  /-- HELLO (R467). -/
  | hello (port : Nat) (h : HelloMsg)
  /-- FINISH (R467). -/
  | finish (port : Nat) (session : Nat) (sig : List Byte)
  /-- HANDSHAKE_TIMEOUT (R471). -/
  | handshakeTimeout (port : Nat)
  /-- HANDSHAKE_RETRY (R471). -/
  | handshakeRetry (port : Nat)
  /-- SLP_WRITE (R472). -/
  | slpWrite (port : Nat) (f : SlpFrame)
  /-- SLP_READ (R472). -/
  | slpRead (port : Nat) (f : SlpFrame)
  /-- SLP_ATOMIC (R472). -/
  | slpAtomic (port : Nat) (f : SlpFrame)
  /-- SLP_TOKEN (R475). -/
  | slpToken (port : Nat) (f : SlpFrame)
  /-- SLP_COLL (R504). -/
  | slpColl (port : Nat) (f : SlpFrame)
  /-- SLP_ACK (R477). -/
  | slpAck (port : Nat) (f : SlpFrame)
  /-- SLP_RDATA (R477). -/
  | slpRdata (port : Nat) (f : SlpFrame)
  /-- SLP_REFUSE (R477). -/
  | slpRefuse (port : Nat) (f : SlpFrame)
  /-- SLP_RETRY (R374). -/
  | slpRetry (port : Nat) (f : SlpFrame)
  /-- SLP_BEACON (R179). -/
  | slpBeacon (port : Nat) (f : SlpFrame)
  /-- SLP_CREDIT (R478). -/
  | slpCredit (port : Nat) (f : SlpFrame)
  /-- LACK (R479). -/
  | lack (port : Nat) (f : SlpFrame)
  /-- LNAK (R479). -/
  | lnak (port : Nat) (f : SlpFrame)
  /-- IDLE (R480). -/
  | linkIdle (port : Nat) (f : SlpFrame)
  /-- DEGRADE (R481). -/
  | degrade (port : Nat) (f : SlpFrame)
  /-- FAILOVER (R482). -/
  | failover (port : Nat) (f : SlpFrame)
  /-- PORT_FRAME_SEND (R493). -/
  | portFrameSend (port : Nat)
  /-- LACK_TIMER (R479). -/
  | lackTimer (port : Nat)
  /-- CREDIT_RETURN_TIMER (R478). -/
  | creditReturnTimer (port : Nat)
  /-- REPLAY_TIMEOUT (R479). -/
  | replayTimeout (port : Nat)
  /-- IDLE_TIMER (R480). -/
  | idleTimer (port : Nat)
  /-- PARTNER_ABSENCE_TIMEOUT (R495). -/
  | partnerAbsenceTimeout (port : Nat)
  /-- CREDIT_TIMEOUT (R495). -/
  | creditTimeout (port vc : Nat)
  /-- SLOW_TIMEOUT (R495). -/
  | slowTimeout (port : Nat)
  /-- LOST_HOLD_EXPIRE (R495). -/
  | lostHoldExpire (port : Nat)
  /-- FEC_DEGRADE (R481). -/
  | fecDegrade (port lane : Nat) (counts : List Nat) (codewordFailed : Bool)
  /-- UNQUAR (R495). -/
  | unquar (a : Actor) (port : Nat) (v : BitVec 64)
  /-- RETRAIN (R483). -/
  | lpRetrain (a : Actor) (port : Nat) (v : BitVec 64)
  /-- PRESET (R495). -/
  | preset (a : Actor) (port : Nat) (v : BitVec 64)
  /-- PORT_RETRAIN_DONE (R483). -/
  | portRetrainDone (port : Nat)
  /-- RETRAIN_TIMEOUT (R495). -/
  | retrainTimeout (port : Nat)
  /-- END_TO_END_TIMEOUT (R497). -/
  | endToEndTimeout (k : Nat)
  /-- LP_DEVLOST_WRITE (R497). -/
  | lpDevlostWrite (a : Actor) (i : Nat) (v : BitVec 64)
  /-- LP_DEVCLR_WRITE (R497). -/
  | lpDevclrWrite (a : Actor) (i : Nat) (v : BitVec 64)
  /-- KMT_ATTACH (R453). -/
  | kmtAttach (port : Nat) (m : KmtMsg)
  /-- KMT_SUBMIT (R451). -/
  | kmtSubmit (port : Nat) (m : KmtMsg)
  /-- KMT_CQ_ACK (R451). -/
  | kmtCqAck (port : Nat) (m : KmtMsg)
  /-- KMT_WRITE (R488). -/
  | kmtWrite (port : Nat) (m : KmtMsg)
  /-- KMT_READ (R488). -/
  | kmtRead (port : Nat) (m : KmtMsg)
  /-- KMT_RDATA (R486). -/
  | kmtRdata (port : Nat) (m : KmtMsg)
  /-- KMT_TOKEN (R486). -/
  | kmtToken (port : Nat) (m : KmtMsg)
  /-- KMT_ACK (R487). -/
  | kmtAck (port : Nat) (m : KmtMsg)
  /-- KMT_REFUSE (R486). -/
  | kmtRefuse (port : Nat) (m : KmtMsg)
  /-- KMT_KEEPALIVE (R487). -/
  | kmtKeepalive (port : Nat) (m : KmtMsg)
  /-- KMT_CLOSE (R487). -/
  | kmtClose (port : Nat) (m : KmtMsg)
  /-- KMT_RETRANSMIT_TIMEOUT (R487). -/
  | kmtRetransmitTimeout (session : Nat)
  /-- KMT_ACK_TIMER (R487). -/
  | kmtAckTimer (session : Nat)
  /-- KMT_KEEPALIVE_TIMER (R487). -/
  | kmtKeepaliveTimer (session : Nat)
  /-- KMT_SESSION_TIMEOUT (R487). -/
  | kmtSessionTimeout (session : Nat)
  /-- IBUF_PARITY_ERROR (R508). -/
  | ibufParityError (p die word : Nat) (again : Bool)
  /-- CONTROL_STATE_FAULT (R509). -/
  | controlStateFault (p die : Nat) (bed : Option Nat)
  /-- BED_REPLACEMENT (R516). -/
  | bedReplacement (bed : Nat)
  /-- HANG_WINDOW_EXPIRE (R524). -/
  | hangWindowExpire (p : Nat)
  /-- STALL_TIMEOUT (R525). -/
  | stallTimeout (p : Nat)
  /-- DEVICE_LOSS_DECLARE (R529). -/
  | deviceLossDeclare (cause die : Nat)
  /-- KEEPER_MISMATCH (R532). -/
  | keeperMismatch
  /-- KEEPER_SELFTEST_DONE (R532). -/
  | keeperSelftestDone (ok : Bool)
  /-- KEEPER_PERIODIC_SELFTEST (R532). -/
  | keeperPeriodicSelftest (ok : Bool)
  /-- KEEPER_WATCHDOG_EXPIRE (R532). -/
  | keeperWatchdogExpire
  /-- KEEPER_RESUME (R535). -/
  | keeperResume (digestMatches reloadOk : Bool)
  /-- LODGE_ALARM (R538). -/
  | lodgeAlarm (die : Nat) (r : AlarmRec)
  /-- LODGE_SUMMARY_SEND (R538). -/
  | lodgeSummarySend (die : Nat)
  /-- KEEPER_ALARM_ENQUEUE (R539). -/
  | keeperAlarmEnqueue (die : Nat) (r : AlarmRec)
  /-- ALARM_SUMMARY_ENQUEUE (R539). -/
  | alarmSummaryEnqueue
  /-- ALARM_SEND (R540). -/
  | alarmSend
  /-- ALARM_ACK (R540). -/
  | alarmAck
  /-- LOG_RECORD (R541). -/
  | logRecord (die unit : Nat) (r : FaultReport)
  /-- TRACE_RECORD (R542). -/
  | traceRecord (src : TraceSrc) (data : BitVec 64) (credit : Bool)
  /-- TELEMETRY_READ (R548). -/
  | telemetryRead (rs : List RailSample)
  /-- GOVERNOR_TICK (R552). -/
  | governorTick (paces : List Nat)
  /-- PACE_REQUEST_WRITE (R551). -/
  | paceRequestWrite (a : Actor) (v : BitVec 64)
  /-- BRAKE_LEVEL_WRITE (R555). -/
  | brakeLevelWrite (a : Actor) (v : BitVec 64)
  /-- REGULATOR_ALERT (R556). -/
  | regulatorAlert (reg : Nat)
  /-- ACLR (R556). -/
  | aclr (a : Actor) (v : BitVec 64)
  /-- DROOP_DETECT (R561). -/
  | droopDetect (die det : Nat)
  /-- DROOP_END (R561). -/
  | droopEnd (die : Nat)
  /-- DROOP_HOLD_END (R562). -/
  | droopHoldEnd (rail : Nat)
  /-- SENSOR_READ (R564). -/
  | sensorRead (die : Nat) (ts : List Nat)
  /-- THERMAL_PACE_STEP (R566). -/
  | thermalPaceStep
  /-- UPKEEP_GRANT (R570). -/
  | upkeepGrant (r : Upkeep)
  /-- UPKEEP_DEADLINE (R570). -/
  | upkeepDeadline (r : Upkeep)
  /-- SPARE_SELFTEST (R572). -/
  | spareSelftest (die : Nat) (ok : Bool)
  /-- ROTATION_REQUEST (R573). -/
  | rotationRequest (die : Nat)
  /-- SYS_RESET_N (R579). -/
  | sysResetN (level : Bool)
  /-- PWR_GOOD_FALL (R630). -/
  | pwrGoodFall
  /-- VAUX_OUT_OF_RANGE (R622). -/
  | vauxOutOfRange
  /-- WARM_RESET_N_FALL (R577). -/
  | warmResetNFall
  /-- WARM_RESET_N_RISE (R581). -/
  | warmResetNRise
  /-- KPR_RESET_COLD (R577). -/
  | kprResetCold (a : Actor) (v : BitVec 64)
  /-- KPR_RESET_WARM (R577). -/
  | kprResetWarm (a : Actor) (v : BitVec 64)
  /-- KPR_RESET_DIE (R577). -/
  | kprResetDie (a : Actor) (v : BitVec 64)
  /-- KPR_RESET_KEEPER (R577). -/
  | kprResetKeeper (a : Actor) (v : BitVec 64)
  /-- WARM_RESET_SEQUENCE (R580). -/
  | warmResetSequence
  /-- DIE_RESET (R583). -/
  | dieReset (die : Nat) (answers : Bool)
  /-- COLD_BOOT (R590). -/
  | coldBoot (b : BootInputs)
  /-- UART_RECOVERY (R593). -/
  | uartRecovery (bundle : List Byte)
  /-- KPR_MBX_SUBMIT (R601). -/
  | kprMbxSubmit (a : Actor) (v : BitVec 64)
  /-- INFO (R600). -/
  | reqInfo (k : KSrc)
  /-- WARM_RESET (R600). -/
  | reqWarmReset (k : KSrc)
  /-- COLD_RESET (R600). -/
  | reqColdReset (k : KSrc)
  /-- DIE_RESET_REQUEST (R600). -/
  | reqDieReset (k : KSrc)
  /-- KEEPER_RESET (R600). -/
  | reqKeeperReset (k : KSrc)
  /-- ASSIGN_ID (R602). -/
  | reqAssignId (k : KSrc)
  /-- EPOCH_FLOOR (R600). -/
  | reqEpochFloor (k : KSrc)
  /-- FLASH_WRITE (R603). -/
  | reqFlashWrite (k : KSrc)
  /-- FLASH_ACTIVATE (R604). -/
  | reqFlashActivate (k : KSrc)
  /-- SVN_COMMIT (R600). -/
  | reqSvnCommit (k : KSrc)
  /-- DEVICE_LOSS (R600). -/
  | reqDeviceLoss (k : KSrc)
  /-- SUBSCRIBE (R598). -/
  | reqSubscribe (k : KSrc)
  /-- DEBUG_UNLOCK (R605). -/
  | reqDebugUnlock (k : KSrc)
  /-- GET_VERSION (R595). -/
  | spdmGetVersion (via : Option Nat) (msg : List Byte)
  /-- GET_CAPABILITIES (R595). -/
  | spdmGetCapabilities (via : Option Nat) (msg : List Byte)
  /-- NEGOTIATE_ALGORITHMS (R595). -/
  | spdmNegotiateAlgorithms (via : Option Nat) (msg : List Byte)
  /-- GET_DIGESTS (R595). -/
  | spdmGetDigests (via : Option Nat) (msg : List Byte)
  /-- GET_CERTIFICATE (R595). -/
  | spdmGetCertificate (via : Option Nat) (msg : List Byte)
  /-- CHALLENGE (R595). -/
  | spdmChallenge (via : Option Nat) (msg : List Byte)
  /-- GET_MEASUREMENTS (R596). -/
  | spdmGetMeasurements (via : Option Nat) (msg : List Byte)
  /-- KEY_EXCHANGE (R595). -/
  | spdmKeyExchange (via : Option Nat) (msg : List Byte)
  /-- SPDM_FINISH (R595). -/
  | spdmFinish (via : Option Nat) (msg : List Byte)
  /-- HEARTBEAT (R595). -/
  | spdmHeartbeat (via : Option Nat) (msg : List Byte)
  /-- KEY_UPDATE (R595). -/
  | spdmKeyUpdate (via : Option Nat) (msg : List Byte)
  /-- END_SESSION (R595). -/
  | spdmEndSession (via : Option Nat) (msg : List Byte)
  /-- BYPASS (R605). -/
  | jtagBypass
  /-- IDCODE (R605). -/
  | jtagIdcode
  /-- SAMPLE_PRELOAD (R605). -/
  | jtagSamplePreload (cells : List Bool)
  /-- EXTEST (R605). -/
  | jtagExtest
  /-- CLAMP (R605). -/
  | jtagClamp
  /-- HIGHZ (R605). -/
  | jtagHighz
  /-- DTMCS (R605). -/
  | jtagDtmcs (v : BitVec 32)
  /-- DMI (R605). -/
  | jtagDmi (v : BitVec 64)
  /-- SMB_ALERT_N (R618). -/
  | smbAlertN (level : Bool)
  /-- MTIMECMP_EXPIRE (R432). -/
  | mtimecmpExpire (hart : Nat) (which : TimerSel)
  /-- ARP_REQUEST (R465). -/
  | arpRequest (port ip : Nat) (mac : Nat)
  /-- NEIGHBOUR_SOLICITATION (R465). -/
  | neighbourSolicitation (port : Nat) (ip : Nat) (mac : Nat)
  deriving DecidableEq, Repr

end Sys2Proof
end

