-- ==== Sys2Proof/Decode.lean ====
section
/-! DEFINITION. The table of operations and events gives no row any bits: no word spells a command. The KX instructions of the
harts have the encodings of Table 12-4. -/

namespace Sys2Proof

/-- The command that a word spells by the table's bits: none, since no row has bits. -/
def decodeTableWord (_nbits _w : Nat) : Option Instr := none

/-- funct3 of a KX instruction. -/
def KxOp.funct3 : KxOp → Nat
  | .efence => 0
  | .lclean => 1
  | .lflush => 2
  | .lzero => 3

/-- The KX instruction that a custom-0 word spells (R427, Table 12-4): funct7, rs2 and rd are 0, and rs1 of KX.EFENCE too. -/
def kxOf (w : BitVec 32) : Option KxOp :=
  let n := w.toNat
  if n % 4096 ≠ 0x0B ∨ n / 2 ^ 20 ≠ 0 then none
  else
    match n / 4096 % 8 with
    | 0 => if n / 2 ^ 15 = 0 then some .efence else none
    | 1 => some .lclean
    | 2 => some .lflush
    | 3 => some .lzero
    | _ => none

/-- The word of a KX instruction with its address register (Table 12-4). -/
def kxWord (op : KxOp) (rs1 : BitVec 5) : BitVec 32 :=
  BitVec.ofNat 32 (0x0B + op.funct3 * 4096 + (if op = .efence then 0 else rs1.toNat) * 2 ^ 15)

end Sys2Proof
end

