-- ==== Sys2Proof/Machine/Reg.lean ====
section
/-! DEFINITION. The registers of Table 18-3 (R4, R8, R12, R611): their names and, for each, the fields of its
register map with bits, access type and reset value, as the defining chapters list them. A field that is not
listed here is reserved (R5). -/

namespace Sys2Proof.Machine

/-- The registers of Table 18-3, each name once; a family of registers is one constructor with indexes beside it. -/
inductive Reg where
  | bedStatus | bedProgress | bedStall | bedTrackWait | bedVflags | bedCtl | cellEcc | cellShape
  | drnCtl | drnPosLo | drnPosHi | drnZp | drnLfsr | drnSatunf | drnPoison | drnStatus | drnScale
  | orgRgnCommit | smmuCtxCommit | wsCommit | wsOutCommit | cohBiasCommit | pavProgCommit | pavQpCommit
  | trlCtl | trlStatus | trlStageBase | trlStageLen | trlEpoch | trlKeys | trlDigest | trlAgd | trlPavEpoch
  | trlAgreeCtl | trlAgree | trlSpareLive
  | stlState | stlGroup
  | seCfg | seStatus | seStall | sePoison | seFaultVa | seCtxStatus | seCtxDesc | snSplit | snTaguse
  | orgCtl | orgStatus | orgEcc | orgFlush | orgPf | orgAtomic | orgWaymap | orgRgnBase | orgRgnSize
  | orgRgnAttr | gdrCfg | gdrStatus | gdrCap | gdrTrain | gdrEcc | gdrScrub | gdrRetireCtl | gdrRetire
  | gdrErrlog | gdrPlot
  | smmuInv | smmuInvStatus | smmuStats | smmuCtxRoot | smmuCtxTag | smmuFaultVa | smmuFault | wsEntry0
  | wsEntry1 | wsEntry2 | wsEntry3 | wsCnt | wsLastref | wsOut
  | cohCtl | cohStatus | cohCnt | cohLost | cohBiasBase | cohBiasSize | cohBiasCtl
  | coreErr | coreEcc
  | pavStatus | pavView | pavCtl | pavFence | pavFenceInfo | pavSundial | pavProgBase | pavProgLen | pavMovelog
  | pavMovelogHead | pavQuota | pavEvtStat | pavQpSq | pavQpCq | pavQpState | pavQpToken0 | pavQpToken1
  | pavSqTail | pavCqHead | pavEvec | pavEroute
  | lpStatus | lpCtl | lpTmo | lpFec | lpLinkcnt | lpGatecnt | lpQuar | lpEth | lpMac | lpIpv4 | lpIpv6Lo
  | lpIpv6Hi | lpTopo | lpKmt | lpDevlost | lpDevclr | lpRoute | lpWfill
  | telCtl | telKeeper | telLoss | telAlq | telLog | telTrace | telRing | telRingHead | telRecov | telBadslice
  | telHang | telCoal
  | pwrPaceReq | pwrStatus | pwrCap | pwrBrake | pwrClass | pwrTherm | pwrDroop | pwrCal | pwrPower | pwrRail
  | pwrDie
  | kprId | kprDevid | kprFw | kprBoot | kprReset | kprStrap | kprMbxSubmit | kprMbxStatus | kprDbg
  | kprDbgNonce | ldgStatus | ldgFw | ldgD2d
  deriving DecidableEq, Repr

/-- The access types of Table 0-3; `ST` is the separate bit of a field row. -/
inductive Access where
  | ro | rw | wo | w1c | w1s | sc
  deriving DecidableEq, Repr

/-- The Reset column of a register map (R12). -/
inductive Rst where
  | val (n : Nat) | trellis | fuse | strap
  deriving DecidableEq, Repr

/-- One field row of a register map: bits, access type, `ST`, reset. -/
structure FieldRow where
  hi  : Nat
  lo  : Nat
  acc : Access
  st  : Bool
  rst : Rst
  deriving DecidableEq, Repr

/-- The field rows of each register. -/
def Reg.fields : Reg → List FieldRow
  -- BED_STATUS (R106): SLOT PAV_V PAV STATE
  | .bedStatus => [
      ⟨23, 20, .ro, false, .trellis⟩, ⟨16, 16, .ro, false, .trellis⟩, ⟨13, 8, .ro, false, .trellis⟩,
      ⟨3, 0, .ro, false, (.val 0)⟩]
  -- BED_PROGRESS (R106): COUNT
  | .bedProgress => [⟨63, 0, .ro, false, (.val 0)⟩]
  -- BED_STALL (R106): DRAIN_WAIT FEED_WAIT
  | .bedStall => [⟨63, 32, .ro, false, (.val 0)⟩, ⟨31, 0, .ro, false, (.val 0)⟩]
  -- BED_TRACK_WAIT (R106): COUNT
  | .bedTrackWait => [⟨31, 0, .ro, false, (.val 0)⟩]
  -- BED_VFLAGS (R106): NV DZ OF UF NX
  | .bedVflags => [
      ⟨4, 4, .ro, false, (.val 0)⟩, ⟨3, 3, .ro, false, (.val 0)⟩, ⟨2, 2, .ro, false, (.val 0)⟩,
      ⟨1, 1, .ro, false, (.val 0)⟩, ⟨0, 0, .ro, false, (.val 0)⟩]
  -- BED_CTL (R106): RESET
  | .bedCtl => [⟨0, 0, .wo, false, (.val 0)⟩]
  -- CELL_ECC (R106): UE_COUNT CE_COUNT
  | .cellEcc => [⟨47, 32, .ro, true, (.val 0)⟩, ⟨31, 0, .ro, true, (.val 0)⟩]
  -- CELL_SHAPE (R106): JOIN SHAPE AG_V AG
  | .cellShape => [
      ⟨11, 8, .ro, false, .trellis⟩, ⟨5, 4, .ro, false, .trellis⟩, ⟨3, 3, .ro, false, .trellis⟩,
      ⟨2, 0, .ro, false, .trellis⟩]
  -- DRN_CTL (R142): TARGET SAT_LIMIT HISTORY
  | .drnCtl => [⟨47, 32, .rw, false, (.val 0x5C00)⟩, ⟨31, 16, .rw, false, (.val 64)⟩, ⟨3, 0, .rw, false, (.val 3)⟩]
  -- DRN_POS_LO (R142): POS
  | .drnPosLo => [⟨63, 0, .rw, false, (.val 0)⟩]
  -- DRN_POS_HI (R142): POS
  | .drnPosHi => [⟨63, 0, .rw, false, (.val 0)⟩]
  -- DRN_ZP (R142): ZA ZW
  | .drnZp => [⟨15, 8, .rw, false, (.val 0)⟩, ⟨7, 0, .rw, false, (.val 0)⟩]
  -- DRN_LFSR (R142): STATE
  | .drnLfsr => [⟨31, 0, .ro, false, (.val 0x00000001)⟩]
  -- DRN_SATUNF (R142): UNF_TOTAL SAT_TOTAL
  | .drnSatunf => [⟨63, 32, .ro, false, (.val 0)⟩, ⟨31, 0, .ro, false, (.val 0)⟩]
  -- DRN_POISON (R142): POI_TOTAL
  | .drnPoison => [⟨31, 0, .ro, false, (.val 0)⟩]
  -- DRN_STATUS (R142): CLAMP ADVICE
  | .drnStatus => [⟨1, 1, .w1c, false, (.val 0)⟩, ⟨0, 0, .w1c, false, (.val 0)⟩]
  -- DRN_SCALE (R142): SCALE3 SCALE2 SCALE1 SCALE0
  | .drnScale => [
      ⟨63, 48, .ro, false, (.val 0x4000)⟩, ⟨47, 32, .ro, false, (.val 0x4000)⟩,
      ⟨31, 16, .ro, false, (.val 0x4000)⟩, ⟨15, 0, .ro, false, (.val 0x4000)⟩]
  -- ORG_RGN_COMMIT (R166): REASON ERROR PENDING GO
  | .orgRgnCommit => [
      ⟨15, 8, .ro, false, (.val 0)⟩, ⟨2, 2, .w1c, false, (.val 0)⟩, ⟨1, 1, .ro, false, (.val 0)⟩,
      ⟨0, 0, .w1s, false, (.val 0)⟩]
  -- SMMU_CTX_COMMIT (R166): REASON ERROR PENDING GO
  | .smmuCtxCommit => [
      ⟨15, 8, .ro, false, (.val 0)⟩, ⟨2, 2, .w1c, false, (.val 0)⟩, ⟨1, 1, .ro, false, (.val 0)⟩,
      ⟨0, 0, .w1s, false, (.val 0)⟩]
  -- WS_COMMIT (R166): REASON ERROR PENDING GO
  | .wsCommit => [
      ⟨15, 8, .ro, false, (.val 0)⟩, ⟨2, 2, .w1c, false, (.val 0)⟩, ⟨1, 1, .ro, false, (.val 0)⟩,
      ⟨0, 0, .w1s, false, (.val 0)⟩]
  -- WS_OUT_COMMIT (R166): REASON ERROR PENDING GO
  | .wsOutCommit => [
      ⟨15, 8, .ro, false, (.val 0)⟩, ⟨2, 2, .w1c, false, (.val 0)⟩, ⟨1, 1, .ro, false, (.val 0)⟩,
      ⟨0, 0, .w1s, false, (.val 0)⟩]
  -- COH_BIAS_COMMIT (R166): REASON ERROR PENDING GO
  | .cohBiasCommit => [
      ⟨15, 8, .ro, false, (.val 0)⟩, ⟨2, 2, .w1c, false, (.val 0)⟩, ⟨1, 1, .ro, false, (.val 0)⟩,
      ⟨0, 0, .w1s, false, (.val 0)⟩]
  -- PAV_PROG_COMMIT (R166): REASON ERROR PENDING GO
  | .pavProgCommit => [
      ⟨15, 8, .ro, false, (.val 0)⟩, ⟨2, 2, .w1c, false, (.val 0)⟩, ⟨1, 1, .ro, false, (.val 0)⟩,
      ⟨0, 0, .w1s, false, (.val 0)⟩]
  -- PAV_QP_COMMIT (R166): REASON ERROR PENDING GO
  | .pavQpCommit => [
      ⟨15, 8, .ro, false, (.val 0)⟩, ⟨2, 2, .w1c, false, (.val 0)⟩, ⟨1, 1, .ro, false, (.val 0)⟩,
      ⟨0, 0, .w1s, false, (.val 0)⟩]
  -- TRL_CTL (R182): ABORT COMMIT VERIFY STAGE
  | .trlCtl => [
      ⟨3, 3, .wo, false, (.val 0)⟩, ⟨2, 2, .wo, false, (.val 0)⟩, ⟨1, 1, .wo, false, (.val 0)⟩,
      ⟨0, 0, .wo, false, (.val 0)⟩]
  -- TRL_STATUS (R182): REJECTS SECTION REASON DRIFT DIGEST_BUSY STATE
  | .trlStatus => [
      ⟨63, 48, .ro, false, (.val 0)⟩, ⟨47, 32, .ro, false, (.val 0xFFFF)⟩, ⟨31, 24, .ro, false, (.val 0)⟩,
      ⟨9, 9, .ro, false, (.val 0)⟩, ⟨8, 8, .ro, false, (.val 0)⟩, ⟨3, 0, .ro, false, (.val 0)⟩]
  -- TRL_STAGE_BASE (R182): BASE
  | .trlStageBase => [⟨51, 0, .rw, false, (.val 0)⟩]
  -- TRL_STAGE_LEN (R182): LEN
  | .trlStageLen => [⟨21, 0, .rw, false, (.val 0)⟩]
  -- TRL_EPOCH (R182): FLOOR EPOCH
  | .trlEpoch => [⟨63, 32, .rw, true, (.val 0)⟩, ⟨31, 0, .ro, false, .trellis⟩]
  -- TRL_KEYS (R182): REVOKED LOADED
  | .trlKeys => [⟨7, 4, .ro, false, .fuse⟩, ⟨3, 0, .ro, false, (.val 0)⟩]
  -- TRL_DIGEST (R182): WORD
  | .trlDigest => [⟨63, 0, .ro, false, (.val 0)⟩]
  -- TRL_AGD (R182): WORD
  | .trlAgd => [⟨63, 0, .ro, false, (.val 0)⟩]
  -- TRL_PAV_EPOCH (R182): GROUP EPOCH
  | .trlPavEpoch => [⟨47, 32, .ro, false, .trellis⟩, ⟨31, 0, .ro, false, .trellis⟩]
  -- TRL_AGREE_CTL (R182): UNKNOWN GRACE
  | .trlAgreeCtl => [⟨63, 32, .ro, false, (.val 0)⟩, ⟨15, 0, .rw, false, (.val 100)⟩]
  -- TRL_AGREE (R182): PEER_EPOCH GROUP MISMATCH CLEAR STATE
  | .trlAgree => [
      ⟨63, 32, .ro, false, (.val 0)⟩, ⟨31, 16, .ro, false, .trellis⟩, ⟨15, 8, .ro, false, (.val 0)⟩,
      ⟨3, 3, .wo, false, (.val 0)⟩, ⟨1, 0, .ro, false, (.val 0)⟩]
  -- TRL_SPARE_LIVE (R182): BAD SPARE SLOT
  | .trlSpareLive => [⟨48, 40, .ro, true, (.val 0)⟩, ⟨39, 36, .ro, false, .trellis⟩, ⟨31, 0, .ro, false, .trellis⟩]
  -- STL_STATE (R223): WAITERS BOUND BROKEN COUNT
  | .stlState => [
      ⟨39, 36, .ro, false, (.val 0)⟩, ⟨35, 35, .ro, false, (.val 0)⟩, ⟨34, 34, .w1c, false, (.val 0)⟩,
      ⟨31, 0, .rw, false, (.val 0)⟩]
  -- STL_GROUP (R223): V PAV
  | .stlGroup => [⟨6, 6, .rw, false, (.val 0)⟩, ⟨5, 0, .rw, false, (.val 0)⟩]
  -- SE_CFG (R305): E ON_BED PAV_V PAV
  | .seCfg => [
      ⟨9, 8, .ro, false, (.val 0)⟩, ⟨7, 7, .ro, false, .trellis⟩, ⟨6, 6, .ro, false, .trellis⟩,
      ⟨5, 0, .ro, false, .trellis⟩]
  -- SE_STATUS (R305): CARAVAN BUF RTAGS
  | .seStatus => [⟨35, 32, .ro, false, (.val 0)⟩, ⟨24, 16, .ro, false, (.val 0)⟩, ⟨6, 0, .ro, false, (.val 0)⟩]
  -- SE_STALL (R305): CREDIT_WAIT TAG_WAIT
  | .seStall => [⟨63, 32, .ro, false, (.val 0)⟩, ⟨31, 0, .ro, false, (.val 0)⟩]
  -- SE_POISON (R305): DROPPED ELEMENTS
  | .sePoison => [⟨63, 32, .ro, false, (.val 0)⟩, ⟨31, 0, .ro, false, (.val 0)⟩]
  -- SE_FAULT_VA (R305): VA
  | .seFaultVa => [⟨63, 0, .ro, false, (.val 0)⟩]
  -- SE_CTX_STATUS (R305): BURSTS DETAIL CODE STATE
  | .seCtxStatus => [
      ⟨63, 32, .ro, false, (.val 0)⟩, ⟨23, 16, .ro, false, (.val 0)⟩, ⟨15, 8, .ro, false, (.val 0)⟩,
      ⟨2, 0, .ro, false, (.val 0)⟩]
  -- SE_CTX_DESC (R305): WORD
  | .seCtxDesc => [⟨63, 0, .ro, false, (.val 0)⟩]
  -- SN_SPLIT (R307): REMOTE WRITE READ
  | .snSplit => [⟨11, 8, .ro, false, .trellis⟩, ⟨7, 4, .ro, false, .trellis⟩, ⟨3, 0, .ro, false, .trellis⟩]
  -- SN_TAGUSE (R307): QUOTA USED
  | .snTaguse => [⟨41, 32, .ro, false, .trellis⟩, ⟨9, 0, .ro, false, (.val 0)⟩]
  -- ORG_CTL (R352): WB_ON_WARM
  | .orgCtl => [⟨0, 0, .rw, true, (.val 1)⟩]
  -- ORG_STATUS (R352): ZERO WB INVAL
  | .orgStatus => [⟨15, 8, .ro, false, (.val 0)⟩, ⟨1, 1, .ro, false, (.val 0)⟩, ⟨0, 0, .ro, false, (.val 0)⟩]
  -- ORG_ECC (R352): UE_COUNT CE_COUNT
  | .orgEcc => [⟨47, 32, .ro, true, (.val 0)⟩, ⟨31, 0, .ro, true, (.val 0)⟩]
  -- ORG_FLUSH (R352): OWNER GO
  | .orgFlush => [⟨15, 8, .rw, false, (.val 0)⟩, ⟨0, 0, .w1s, false, (.val 0)⟩]
  -- ORG_PF (R352): MULTI DROPPED
  | .orgPf => [⟨63, 32, .ro, false, (.val 0)⟩, ⟨31, 0, .ro, false, (.val 0)⟩]
  -- ORG_ATOMIC (R352): REFUSED DONE
  | .orgAtomic => [⟨63, 32, .ro, false, (.val 0)⟩, ⟨31, 0, .ro, false, (.val 0)⟩]
  -- ORG_WAYMAP (R352): OWNER MODE
  | .orgWaymap => [⟨15, 8, .ro, false, .trellis⟩, ⟨1, 0, .ro, false, .trellis⟩]
  -- ORG_RGN_BASE (R352): BASE
  | .orgRgnBase => [⟨51, 16, .sc, false, (.val 0)⟩]
  -- ORG_RGN_SIZE (R352): LOG2
  | .orgRgnSize => [⟨5, 0, .sc, false, (.val 16)⟩]
  -- ORG_RGN_ATTR (R352): OWNER INSERT PF V
  | .orgRgnAttr => [
      ⟨15, 8, .rw, false, (.val 0)⟩, ⟨3, 2, .rw, false, (.val 0)⟩, ⟨1, 1, .rw, false, (.val 0)⟩,
      ⟨0, 0, .rw, false, (.val 0)⟩]
  -- GDR_CFG (R352): DENSITY RATE
  | .gdrCfg => [⟨3, 3, .ro, false, .strap⟩, ⟨2, 0, .rw, false, .strap⟩]
  -- GDR_STATUS (R352): ABSENT FAILED STATE
  | .gdrStatus => [⟨8, 8, .ro, true, (.val 0)⟩, ⟨5, 4, .ro, true, (.val 0)⟩, ⟨3, 0, .ro, false, (.val 0)⟩]
  -- GDR_CAP (R352): USABLE
  | .gdrCap => [⟨35, 0, .ro, false, (.val 0)⟩]
  -- GDR_TRAIN (R352): DEFERRED DONE TEMP PENDING MARGIN
  | .gdrTrain => [
      ⟨63, 48, .ro, false, (.val 0)⟩, ⟨47, 32, .ro, false, (.val 0)⟩, ⟨31, 24, .ro, false, (.val 0)⟩,
      ⟨8, 8, .ro, false, (.val 0)⟩, ⟨7, 0, .rw, false, (.val 24)⟩]
  -- GDR_ECC (R352): POISON UE_COUNT CE_COUNT
  | .gdrEcc => [⟨63, 48, .ro, true, (.val 0)⟩, ⟨47, 32, .ro, true, (.val 0)⟩, ⟨31, 0, .ro, true, (.val 0)⟩]
  -- GDR_SCRUB (R352): PASSES INTERVAL
  | .gdrScrub => [⟨63, 32, .ro, false, (.val 0)⟩, ⟨15, 0, .rw, false, (.val 10)⟩]
  -- GDR_RETIRE_CTL (R352): OVF COUNT LIMIT
  | .gdrRetireCtl => [⟨63, 32, .ro, true, (.val 0)⟩, ⟨13, 8, .ro, true, (.val 0)⟩, ⟨7, 0, .rw, false, (.val 8)⟩]
  -- GDR_RETIRE (R352): V UE BLOCK
  | .gdrRetire => [⟨63, 63, .ro, true, (.val 0)⟩, ⟨62, 62, .ro, true, (.val 0)⟩, ⟨17, 0, .ro, true, (.val 0)⟩]
  -- GDR_ERRLOG (R352): COMP LINE
  | .gdrErrlog => [⟨39, 38, .ro, true, (.val 0)⟩, ⟨33, 8, .ro, true, (.val 0)⟩]
  -- GDR_PLOT (R352): ZFILL OWNER
  | .gdrPlot => [⟨8, 8, .ro, false, (.val 0)⟩, ⟨7, 0, .rw, false, (.val 0xFF)⟩]
  -- SMMU_INV (R379): KIND LOG2 AST VPN
  | .smmuInv => [
      ⟨63, 62, .wo, false, (.val 0)⟩, ⟨61, 56, .wo, false, (.val 0)⟩, ⟨55, 40, .wo, false, (.val 0)⟩,
      ⟨31, 0, .wo, false, (.val 0)⟩]
  -- SMMU_INV_STATUS (R379): COMPLETED ISSUED
  | .smmuInvStatus => [⟨63, 32, .ro, false, (.val 0)⟩, ⟨31, 0, .ro, false, (.val 0)⟩]
  -- SMMU_STATS (R379): REJECTS WALKS
  | .smmuStats => [⟨63, 48, .ro, false, (.val 0)⟩, ⟨47, 0, .ro, false, (.val 0)⟩]
  -- SMMU_CTX_ROOT (R379): ROOT
  | .smmuCtxRoot => [⟨51, 12, .sc, false, (.val 0)⟩]
  -- SMMU_CTX_TAG (R379): V AST
  | .smmuCtxTag => [⟨16, 16, .sc, false, (.val 0)⟩, ⟨15, 0, .sc, false, (.val 0)⟩]
  -- SMMU_FAULT_VA (R379): VA
  | .smmuFaultVa => [⟨63, 0, .ro, false, (.val 0)⟩]
  -- SMMU_FAULT (R379): COUNT ENGINE FETCH LEVEL V CAUSE
  | .smmuFault => [
      ⟨63, 48, .ro, false, (.val 0)⟩, ⟨47, 40, .ro, false, (.val 0)⟩, ⟨39, 39, .ro, false, (.val 0)⟩,
      ⟨38, 37, .ro, false, (.val 0)⟩, ⟨36, 36, .ro, false, (.val 0)⟩, ⟨3, 0, .ro, false, (.val 0)⟩]
  -- WS_ENTRY0 (R379): BASE
  | .wsEntry0 => [⟨51, 0, .sc, false, .trellis⟩]
  -- WS_ENTRY1 (R379): SIZE
  | .wsEntry1 => [⟨63, 0, .sc, false, .trellis⟩]
  -- WS_ENTRY2 (R379): RATE KEYID PERM PAV SRCPAV SRCDEV
  | .wsEntry2 => [
      ⟨63, 48, .sc, false, .trellis⟩, ⟨47, 40, .sc, false, .trellis⟩, ⟨39, 32, .sc, false, .trellis⟩,
      ⟨31, 24, .sc, false, .trellis⟩, ⟨23, 16, .sc, false, .trellis⟩, ⟨15, 0, .sc, false, .trellis⟩]
  -- WS_ENTRY3 (R379): INDEX V BUCKET
  | .wsEntry3 => [⟨31, 16, .ro, false, (.val 0)⟩, ⟨8, 8, .sc, false, .trellis⟩, ⟨7, 0, .sc, false, .trellis⟩]
  -- WS_CNT (R379): RETRY REFUSED
  | .wsCnt => [⟨63, 32, .ro, false, (.val 0)⟩, ⟨31, 0, .ro, false, (.val 0)⟩]
  -- WS_LASTREF (R379): REASON SRCPAV SRCDEV PORT WINDOW
  | .wsLastref => [
      ⟨63, 56, .ro, false, (.val 0)⟩, ⟨55, 48, .ro, false, (.val 0)⟩, ⟨47, 39, .ro, false, (.val 0)⟩,
      ⟨38, 35, .ro, false, (.val 0)⟩, ⟨34, 23, .ro, false, (.val 0)⟩]
  -- WS_OUT (R379): V DEV WINDOW SRCPAV WBASE
  | .wsOut => [
      ⟨63, 63, .rw, false, (.val 0)⟩, ⟨61, 53, .sc, false, (.val 0)⟩, ⟨52, 41, .sc, false, (.val 0)⟩,
      ⟨40, 33, .sc, false, (.val 0)⟩, ⟨7, 0, .sc, false, (.val 0)⟩]
  -- COH_CTL (R419): OO_FORCE
  | .cohCtl => [⟨0, 0, .rw, false, (.val 0)⟩]
  -- COH_STATUS (R419): UNKNOWN CAUSE DRAIN MODE
  | .cohStatus => [
      ⟨47, 24, .ro, false, (.val 0)⟩, ⟨11, 8, .ro, false, (.val 0)⟩, ⟨1, 1, .ro, false, (.val 0)⟩,
      ⟨0, 0, .ro, false, (.val 0)⟩]
  -- COH_CNT (R419): C2C SNOOPS
  | .cohCnt => [⟨63, 32, .ro, false, (.val 0)⟩, ⟨31, 0, .ro, false, (.val 0)⟩]
  -- COH_LOST (R419): LINES
  | .cohLost => [⟨31, 0, .ro, true, (.val 0)⟩]
  -- COH_BIAS_BASE (R419): BASE
  | .cohBiasBase => [⟨51, 16, .sc, false, (.val 0)⟩]
  -- COH_BIAS_SIZE (R419): LOG2
  | .cohBiasSize => [⟨5, 0, .sc, false, (.val 16)⟩]
  -- COH_BIAS_CTL (R419): OWNER OP ERROR BUSY GO
  | .cohBiasCtl => [
      ⟨15, 8, .rw, false, (.val 0)⟩, ⟨5, 4, .rw, false, (.val 0)⟩, ⟨2, 2, .w1c, false, (.val 0)⟩,
      ⟨1, 1, .ro, false, (.val 0)⟩, ⟨0, 0, .w1s, false, (.val 0)⟩]
  -- CORE_ERR (R442): V MULTI SRC KIND PA
  | .coreErr => [
      ⟨63, 63, .w1c, true, (.val 0)⟩, ⟨62, 62, .ro, true, (.val 0)⟩, ⟨59, 56, .ro, true, (.val 0)⟩,
      ⟨55, 52, .ro, true, (.val 0)⟩, ⟨51, 0, .ro, true, (.val 0)⟩]
  -- CORE_ECC (R442): UE_COUNT CE_COUNT
  | .coreEcc => [⟨47, 32, .ro, true, (.val 0)⟩, ⟨31, 0, .ro, true, (.val 0)⟩]
  -- PAV_STATUS (R462): REJECTS LASTQP PROG_BUSY CLEAN STATE
  | .pavStatus => [
      ⟨63, 48, .ro, false, (.val 0)⟩, ⟨35, 32, .ro, false, (.val 0)⟩, ⟨9, 9, .ro, false, (.val 0)⟩,
      ⟨8, 8, .ro, false, (.val 0)⟩, ⟨2, 0, .ro, false, (.val 0)⟩]
  -- PAV_VIEW (R462): STATE
  | .pavView => [⟨2, 0, .ro, false, (.val 0)⟩]
  -- PAV_CTL (R462): SCRUB AUTOREL RELEASE RESET
  | .pavCtl => [
      ⟨10, 8, .rw, false, (.val 0)⟩, ⟨2, 2, .rw, false, (.val 0)⟩, ⟨1, 1, .wo, false, (.val 0)⟩,
      ⟨0, 0, .wo, false, (.val 0)⟩]
  -- PAV_FENCE (R462): CAUSE FENCE
  | .pavFence => [⟨15, 8, .ro, false, (.val 0)⟩, ⟨0, 0, .w1s, false, (.val 0)⟩]
  -- PAV_FENCE_INFO (R462): V COUNT DIE SLOT LBED CODE
  | .pavFenceInfo => [
      ⟨63, 63, .w1c, false, (.val 0)⟩, ⟨62, 48, .ro, false, (.val 0)⟩, ⟨39, 36, .ro, false, (.val 0)⟩,
      ⟨35, 32, .ro, false, (.val 0)⟩, ⟨31, 24, .ro, false, (.val 0)⟩, ⟨7, 0, .ro, false, (.val 0)⟩]
  -- PAV_SUNDIAL (R462): COUNT
  | .pavSundial => [⟨63, 0, .ro, false, (.val 0)⟩]
  -- PAV_PROG_BASE (R462): BASE
  | .pavProgBase => [⟨47, 7, .sc, false, (.val 0)⟩]
  -- PAV_PROG_LEN (R462): LEN
  | .pavProgLen => [⟨24, 0, .sc, false, (.val 0)⟩]
  -- PAV_MOVELOG (R462): LOG2N BASE V
  | .pavMovelog => [⟨55, 52, .rw, false, (.val 0)⟩, ⟨51, 12, .rw, false, (.val 0)⟩, ⟨0, 0, .rw, false, (.val 0)⟩]
  -- PAV_MOVELOG_HEAD (R462): OVERRUN HEAD
  | .pavMovelogHead => [⟨63, 32, .ro, false, (.val 0)⟩, ⟨31, 0, .ro, false, (.val 0)⟩]
  -- PAV_QUOTA (R462): WINDOWS STILES TAGS GDDR WAYS SCRATCH
  | .pavQuota => [
      ⟨63, 51, .ro, false, .trellis⟩, ⟨50, 42, .ro, false, .trellis⟩, ⟨41, 32, .ro, false, .trellis⟩,
      ⟨31, 24, .ro, false, .trellis⟩, ⟨23, 16, .ro, false, .trellis⟩, ⟨15, 0, .ro, false, .trellis⟩]
  -- PAV_EVT_STAT (R462): UNROUTED MULTI
  | .pavEvtStat => [⟨63, 32, .ro, false, (.val 0)⟩, ⟨31, 0, .ro, false, (.val 0)⟩]
  -- PAV_QP_SQ (R462): EN REMOTE LOG2 BASE
  | .pavQpSq => [
      ⟨63, 63, .sc, false, (.val 0)⟩, ⟨62, 62, .sc, false, (.val 0)⟩, ⟨59, 56, .sc, false, (.val 1)⟩,
      ⟨47, 12, .sc, false, (.val 0)⟩]
  -- PAV_QP_CQ (R462): LOG2 BASE
  | .pavQpCq => [⟨59, 56, .sc, false, (.val 1)⟩, ⟨47, 12, .sc, false, (.val 0)⟩]
  -- PAV_QP_STATE (R462): SQ_HEAD CQ_TAIL FAILS BADDB STATE
  | .pavQpState => [
      ⟨63, 48, .ro, false, (.val 0)⟩, ⟨47, 32, .ro, false, (.val 0)⟩, ⟨31, 24, .ro, false, (.val 0)⟩,
      ⟨23, 16, .ro, false, (.val 0)⟩, ⟨2, 0, .ro, false, (.val 0)⟩]
  -- PAV_QP_TOKEN0 (R462): TOKEN
  | .pavQpToken0 => [⟨63, 0, .wo, false, (.val 0)⟩]
  -- PAV_QP_TOKEN1 (R462): TOKEN
  | .pavQpToken1 => [⟨63, 0, .wo, false, (.val 0)⟩]
  -- PAV_SQ_TAIL (R462): TAIL
  | .pavSqTail => [⟨15, 0, .rw, false, (.val 0)⟩]
  -- PAV_CQ_HEAD (R462): HEAD
  | .pavCqHead => [⟨15, 0, .rw, false, (.val 0)⟩]
  -- PAV_EVEC (R462): V MASK PEND KIND QP HART FILE ID
  | .pavEvec => [
      ⟨63, 63, .rw, false, (.val 0)⟩, ⟨62, 62, .rw, false, (.val 0)⟩, ⟨61, 61, .w1c, false, (.val 0)⟩,
      ⟨60, 60, .rw, false, (.val 0)⟩, ⟨59, 56, .rw, false, (.val 0)⟩, ⟨24, 18, .rw, false, (.val 0)⟩,
      ⟨17, 14, .rw, false, (.val 0)⟩, ⟨8, 0, .rw, false, (.val 0)⟩]
  -- PAV_EROUTE (R462): V SEL SRC VEC
  | .pavEroute => [
      ⟨24, 24, .rw, false, (.val 0)⟩, ⟨23, 16, .rw, false, (.val 0xFF)⟩, ⟨15, 12, .rw, false, (.val 0)⟩,
      ⟨5, 0, .rw, false, (.val 0)⟩]
  -- LP_STATUS (R506): PEERID PEER_V KEYID LANES MODE STATE
  | .lpStatus => [
      ⟨56, 48, .ro, false, (.val 0)⟩, ⟨47, 47, .ro, false, (.val 0)⟩, ⟨39, 32, .ro, false, (.val 0)⟩,
      ⟨11, 8, .ro, false, (.val 0)⟩, ⟨7, 6, .ro, false, .trellis⟩, ⟨3, 0, .ro, false, (.val 0)⟩]
  -- LP_CTL (R506): TWT UNQUAR RETRAIN PRESET
  | .lpCtl => [
      ⟨11, 8, .rw, false, (.val 8)⟩, ⟨3, 3, .wo, false, (.val 0)⟩, ⟨2, 2, .wo, false, (.val 0)⟩,
      ⟨1, 1, .wo, false, (.val 0)⟩]
  -- LP_TMO (R506): SLOW CREDIT HOLD
  | .lpTmo => [⟨63, 48, .rw, false, (.val 1000)⟩, ⟨47, 32, .rw, false, (.val 100)⟩, ⟨31, 16, .rw, false, (.val 1000)⟩]
  -- LP_FEC (R506): CORR UNCORR BADLANES LIMIT
  | .lpFec => [
      ⟨63, 32, .ro, false, (.val 0)⟩, ⟨31, 24, .ro, false, (.val 0)⟩, ⟨23, 16, .ro, true, (.val 0)⟩,
      ⟨7, 0, .rw, false, (.val 20)⟩]
  -- LP_LINKCNT (R506): DEGRADES FAILOVERS DUP CRC
  | .lpLinkcnt => [
      ⟨63, 48, .ro, false, (.val 0)⟩, ⟨47, 32, .ro, false, (.val 0)⟩, ⟨31, 16, .ro, false, (.val 0)⟩,
      ⟨15, 0, .ro, false, (.val 0)⟩]
  -- LP_GATECNT (R506): AUTHFAIL MALFORMED SPOOF DENIED
  | .lpGatecnt => [
      ⟨63, 48, .ro, false, (.val 0)⟩, ⟨47, 32, .ro, false, (.val 0)⟩, ⟨31, 16, .ro, false, (.val 0)⟩,
      ⟨15, 0, .ro, false, (.val 0)⟩]
  -- LP_QUAR (R506): REFUSED HSFAIL QUARS MULTI LIMIT
  | .lpQuar => [
      ⟨63, 48, .ro, false, (.val 0)⟩, ⟨47, 32, .ro, false, (.val 0)⟩, ⟨31, 24, .ro, true, (.val 0)⟩,
      ⟨23, 16, .ro, false, (.val 0)⟩, ⟨7, 0, .rw, false, (.val 16)⟩]
  -- LP_ETH (R506): UDP PCP VID MACSEC IPV6
  | .lpEth => [
      ⟨63, 48, .rw, false, (.val 19288)⟩, ⟨47, 45, .rw, false, (.val 0)⟩, ⟨43, 32, .rw, false, (.val 0)⟩,
      ⟨1, 1, .rw, false, (.val 0)⟩, ⟨0, 0, .rw, false, (.val 0)⟩]
  -- LP_MAC (R506): MAC
  | .lpMac => [⟨47, 0, .ro, false, .fuse⟩]
  -- LP_IPV4 (R506): ADDR
  | .lpIpv4 => [⟨31, 0, .rw, false, (.val 0)⟩]
  -- LP_IPV6_LO (R506): ADDR
  | .lpIpv6Lo => [⟨63, 0, .rw, false, (.val 0)⟩]
  -- LP_IPV6_HI (R506): ADDR
  | .lpIpv6Hi => [⟨63, 0, .rw, false, (.val 0)⟩]
  -- LP_TOPO (R506): E2E SZ SY SX
  | .lpTopo => [
      ⟨31, 16, .rw, false, (.val 20)⟩, ⟨10, 8, .rw, false, (.val 0)⟩, ⟨6, 4, .rw, false, (.val 0)⟩,
      ⟨2, 0, .rw, false, (.val 0)⟩]
  -- LP_KMT (R506): SESSIONS RTO
  | .lpKmt => [⟨40, 32, .ro, false, (.val 0)⟩, ⟨15, 0, .rw, false, (.val 200)⟩]
  -- LP_DEVLOST (R506): LOST
  | .lpDevlost => [⟨63, 0, .w1s, false, (.val 0)⟩]
  -- LP_DEVCLR (R506): CLR
  | .lpDevclr => [⟨63, 0, .wo, false, (.val 0)⟩]
  -- LP_ROUTE (R506): V DIR
  | .lpRoute => [⟨3, 3, .rw, false, (.val 0)⟩, ⟨2, 0, .rw, false, (.val 0)⟩]
  -- LP_WFILL (R506): FILL
  | .lpWfill => [⟨63, 0, .rw, false, (.val 0xFFFFFFFFFFFFFFFF)⟩]
  -- TEL_CTL (R545): LOGBURST LOGRATE STALL WINDOW
  | .telCtl => [
      ⟨47, 40, .rw, false, (.val 128)⟩, ⟨39, 32, .rw, false, (.val 64)⟩, ⟨31, 16, .rw, false, (.val 10)⟩,
      ⟨15, 0, .rw, false, (.val 10)⟩]
  -- TEL_KEEPER (R545): KRESETS MISMATCH CHECKFAIL DEGRADED STATE
  | .telKeeper => [
      ⟨63, 48, .ro, true, (.val 0)⟩, ⟨47, 40, .ro, true, (.val 0)⟩, ⟨39, 32, .ro, true, (.val 0)⟩,
      ⟨8, 8, .ro, true, (.val 0)⟩, ⟨2, 0, .ro, false, (.val 0)⟩]
  -- TEL_LOSS (R545): DIE CAUSE
  | .telLoss => [⟨11, 8, .ro, true, (.val 0)⟩, ⟨7, 0, .ro, true, (.val 0)⟩]
  -- TEL_ALQ (R545): COALESCED SUMMARIES FILL
  | .telAlq => [⟨63, 32, .ro, false, (.val 0)⟩, ⟨31, 16, .ro, false, (.val 0)⟩, ⟨6, 0, .ro, false, (.val 0)⟩]
  -- TEL_LOG (R545): LIMITED DROPPED
  | .telLog => [⟨63, 32, .ro, false, (.val 0)⟩, ⟨31, 0, .ro, false, (.val 0)⟩]
  -- TEL_TRACE (R545): DROPPED
  | .telTrace => [⟨31, 0, .ro, false, (.val 0)⟩]
  -- TEL_RING (R545): LOG2N BASE V
  | .telRing => [⟨55, 52, .rw, false, (.val 0)⟩, ⟨51, 12, .rw, false, (.val 0)⟩, ⟨0, 0, .rw, false, (.val 0)⟩]
  -- TEL_RING_HEAD (R545): OVERRUN HEAD
  | .telRingHead => [⟨63, 32, .ro, false, (.val 0)⟩, ⟨31, 0, .ro, false, (.val 0)⟩]
  -- TEL_RECOV (R545): REPLACE CTXREC HANGS BADCOUNT
  | .telRecov => [
      ⟨63, 48, .ro, true, (.val 0)⟩, ⟨47, 32, .ro, true, (.val 0)⟩, ⟨31, 16, .ro, false, (.val 0)⟩,
      ⟨6, 0, .ro, true, (.val 0)⟩]
  -- TEL_BADSLICE (R545): BAD
  | .telBadslice => [⟨63, 0, .ro, true, (.val 0)⟩]
  -- TEL_HANG (R545): V KIND UNIT DIE LBED OBJ EDGES
  | .telHang => [
      ⟨63, 63, .w1c, false, (.val 0)⟩, ⟨62, 60, .ro, false, (.val 0)⟩, ⟨55, 48, .ro, false, (.val 0)⟩,
      ⟨47, 44, .ro, false, (.val 0)⟩, ⟨43, 36, .ro, false, (.val 0)⟩, ⟨35, 16, .ro, false, (.val 0)⟩,
      ⟨15, 0, .ro, false, (.val 0)⟩]
  -- TEL_COAL (R545): COUNT
  | .telCoal => [⟨31, 0, .ro, false, (.val 0)⟩]
  -- PWR_PACE_REQ (R576): REQ
  | .pwrPaceReq => [⟨10, 0, .rw, false, .trellis⟩]
  -- PWR_STATUS (R576): TARGET CAPPACE THERMPACE LATCHED SHORT ALERT LIMITER
  | .pwrStatus => [
      ⟨63, 48, .ro, false, (.val 0)⟩, ⟨47, 32, .ro, false, (.val 1450)⟩, ⟨31, 16, .ro, false, (.val 1450)⟩,
      ⟨15, 7, .ro, false, (.val 0)⟩, ⟨6, 6, .ro, false, (.val 0)⟩, ⟨5, 5, .ro, false, (.val 0)⟩,
      ⟨1, 0, .ro, false, (.val 0)⟩]
  -- PWR_CAP (R576): TCAP ORDER LINKS MEMORY LIMIT
  | .pwrCap => [
      ⟨63, 48, .ro, false, .trellis⟩, ⟨47, 40, .ro, false, .trellis⟩, ⟨31, 24, .ro, false, (.val 100)⟩,
      ⟨23, 16, .ro, false, (.val 100)⟩, ⟨15, 0, .rw, false, (.val 1800)⟩]
  -- PWR_BRAKE (R576): ACLR FORCE HWLEVEL LEVEL
  | .pwrBrake => [
      ⟨12, 12, .wo, false, (.val 0)⟩, ⟨11, 8, .ro, false, (.val 8)⟩, ⟨7, 4, .ro, false, (.val 8)⟩,
      ⟨3, 0, .rw, false, (.val 8)⟩]
  -- PWR_CLASS (R576): VBOOTA VBOOTL CLASS
  | .pwrClass => [⟨23, 16, .ro, false, .fuse⟩, ⟨15, 8, .ro, false, .fuse⟩, ⟨3, 0, .ro, false, .fuse⟩]
  -- PWR_THERM (R576): MAXT THROTTLE WARN
  | .pwrTherm => [⟨23, 16, .ro, false, (.val 0)⟩, ⟨15, 8, .rw, true, (.val 100)⟩, ⟨7, 0, .rw, true, (.val 95)⟩]
  -- PWR_DROOP (R576): LIMIT THRESH
  | .pwrDroop => [⟨31, 16, .rw, false, (.val 1000)⟩, ⟨7, 0, .rw, false, (.val 30)⟩]
  -- PWR_CAL (R576): BT_DEFERRED LINK_DEFERRED BT_PERIOD DEADLINE
  | .pwrCal => [
      ⟨63, 48, .ro, false, (.val 0)⟩, ⟨47, 32, .ro, false, (.val 0)⟩, ⟨31, 24, .rw, false, (.val 10)⟩,
      ⟨15, 0, .rw, false, (.val 100)⟩]
  -- PWR_POWER (R576): PACKAGE COMPUTE MEMORY LINKS
  | .pwrPower => [
      ⟨63, 48, .ro, false, (.val 0)⟩, ⟨47, 32, .ro, false, (.val 0)⟩, ⟨31, 16, .ro, false, (.val 0)⟩,
      ⟨15, 0, .ro, false, (.val 0)⟩]
  -- PWR_RAIL (R576): SETPT VOUT IOUT STALE
  | .pwrRail => [
      ⟨63, 48, .ro, false, (.val 0)⟩, ⟨47, 32, .ro, false, (.val 0)⟩, ⟨31, 8, .ro, false, (.val 0)⟩,
      ⟨0, 0, .ro, false, (.val 0)⟩]
  -- PWR_DIE (R576): DROOPS PACE TEMP
  | .pwrDie => [⟨63, 32, .ro, false, (.val 0)⟩, ⟨31, 16, .ro, false, (.val 0)⟩, ⟨7, 0, .ro, false, (.val 0)⟩]
  -- KPR_ID (R607): PART MAJOR MINOR
  | .kprId => [⟨31, 16, .ro, false, .fuse⟩, ⟨15, 8, .ro, false, .fuse⟩, ⟨7, 0, .ro, false, .fuse⟩]
  -- KPR_DEVID (R607): V ID
  | .kprDevid => [⟨9, 9, .ro, true, (.val 0)⟩, ⟨8, 0, .ro, true, (.val 0)⟩]
  -- KPR_FW (R607): VERSION SVN FUSE_SVN SLOT
  | .kprFw => [
      ⟨63, 32, .ro, false, (.val 0)⟩, ⟨31, 24, .ro, false, (.val 0)⟩, ⟨23, 16, .ro, false, .fuse⟩,
      ⟨0, 0, .ro, false, (.val 0)⟩]
  -- KPR_BOOT (R607): REASON CAUSE REFFAIL TSLOT RCAUSE STEP
  | .kprBoot => [
      ⟨47, 40, .ro, false, (.val 0)⟩, ⟨39, 32, .ro, true, (.val 0)⟩, ⟨23, 20, .ro, true, (.val 0)⟩,
      ⟨16, 16, .ro, false, (.val 0)⟩, ⟨15, 12, .ro, true, (.val 0)⟩, ⟨3, 0, .ro, false, (.val 0)⟩]
  -- KPR_RESET (R607): DIE KEEPER DIE_GO WARM COLD
  | .kprReset => [
      ⟨11, 8, .wo, false, (.val 0)⟩, ⟨3, 3, .wo, false, (.val 0)⟩, ⟨2, 2, .wo, false, (.val 0)⟩,
      ⟨1, 1, .wo, false, (.val 0)⟩, ⟨0, 0, .wo, false, (.val 0)⟩]
  -- KPR_STRAP (R607): BOOT_MODE SPI_QUAD DENSITY RATE
  | .kprStrap => [
      ⟨7, 6, .ro, false, .strap⟩, ⟨5, 5, .ro, false, .strap⟩, ⟨4, 4, .ro, false, .strap⟩,
      ⟨3, 1, .ro, false, .strap⟩]
  -- KPR_MBX_SUBMIT (R607): LEN16 ADDR
  | .kprMbxSubmit => [⟨63, 52, .wo, false, (.val 0)⟩, ⟨51, 4, .wo, false, (.val 0)⟩]
  -- KPR_MBX_STATUS (R607): REJECTS ANSWERED SUBMITTED
  | .kprMbxStatus => [⟨63, 48, .ro, false, (.val 0)⟩, ⟨47, 24, .ro, false, (.val 0)⟩, ⟨23, 0, .ro, false, (.val 0)⟩]
  -- KPR_DBG (R607): UNLOCKED
  | .kprDbg => [⟨0, 0, .ro, false, (.val 0)⟩]
  -- KPR_DBG_NONCE (R607): NONCE
  | .kprDbgNonce => [⟨63, 0, .ro, false, (.val 0)⟩]
  -- LDG_STATUS (R608): DIE FALLBACK LBUS STATE
  | .ldgStatus => [
      ⟨11, 8, .ro, false, .fuse⟩, ⟨5, 5, .ro, false, (.val 0)⟩, ⟨4, 4, .ro, false, (.val 0)⟩,
      ⟨2, 0, .ro, false, (.val 0)⟩]
  -- LDG_FW (R608): VERSION RESTARTS
  | .ldgFw => [⟨63, 32, .ro, false, (.val 0)⟩, ⟨15, 0, .ro, true, (.val 0)⟩]
  -- LDG_D2D (R608): RETRIES FAILOVERS PEER LANES STATE
  | .ldgD2d => [
      ⟨63, 48, .ro, false, (.val 0)⟩, ⟨47, 40, .ro, false, (.val 0)⟩, ⟨35, 32, .ro, false, (.val 0)⟩,
      ⟨13, 8, .ro, false, (.val 0)⟩, ⟨1, 0, .ro, false, (.val 0)⟩]

/-- A field of a register: the register and its bits. -/
structure Fld where
  r  : Reg
  hi : Nat
  lo : Nat
  deriving DecidableEq, Repr

namespace F

/-! The named fields that the meanings read or write, with the bits of their register maps. -/

@[inline] def bedStatus_SLOT : Fld := ⟨.bedStatus, 23, 20⟩
@[inline] def bedStatus_PAV_V : Fld := ⟨.bedStatus, 16, 16⟩
@[inline] def bedStatus_PAV : Fld := ⟨.bedStatus, 13, 8⟩
@[inline] def bedStatus_STATE : Fld := ⟨.bedStatus, 3, 0⟩
@[inline] def bedProgress_COUNT : Fld := ⟨.bedProgress, 63, 0⟩
@[inline] def bedStall_DRAIN_WAIT : Fld := ⟨.bedStall, 63, 32⟩
@[inline] def bedStall_FEED_WAIT : Fld := ⟨.bedStall, 31, 0⟩
@[inline] def bedTrackWait_COUNT : Fld := ⟨.bedTrackWait, 31, 0⟩
@[inline] def cellEcc_UE_COUNT : Fld := ⟨.cellEcc, 47, 32⟩
@[inline] def cellEcc_CE_COUNT : Fld := ⟨.cellEcc, 31, 0⟩
@[inline] def cellShape_JOIN : Fld := ⟨.cellShape, 11, 8⟩
@[inline] def cellShape_SHAPE : Fld := ⟨.cellShape, 5, 4⟩
@[inline] def cellShape_AG_V : Fld := ⟨.cellShape, 3, 3⟩
@[inline] def cellShape_AG : Fld := ⟨.cellShape, 2, 0⟩
@[inline] def drnCtl_TARGET : Fld := ⟨.drnCtl, 47, 32⟩
@[inline] def drnCtl_SAT_LIMIT : Fld := ⟨.drnCtl, 31, 16⟩
@[inline] def drnCtl_HISTORY : Fld := ⟨.drnCtl, 3, 0⟩
@[inline] def drnZp_ZA : Fld := ⟨.drnZp, 15, 8⟩
@[inline] def drnZp_ZW : Fld := ⟨.drnZp, 7, 0⟩
@[inline] def drnLfsr_STATE : Fld := ⟨.drnLfsr, 31, 0⟩
@[inline] def drnSatunf_UNF_TOTAL : Fld := ⟨.drnSatunf, 63, 32⟩
@[inline] def drnSatunf_SAT_TOTAL : Fld := ⟨.drnSatunf, 31, 0⟩
@[inline] def drnPoison_POI_TOTAL : Fld := ⟨.drnPoison, 31, 0⟩
@[inline] def drnStatus_CLAMP : Fld := ⟨.drnStatus, 1, 1⟩
@[inline] def drnStatus_ADVICE : Fld := ⟨.drnStatus, 0, 0⟩
@[inline] def trlStatus_REJECTS : Fld := ⟨.trlStatus, 63, 48⟩
@[inline] def trlStatus_SECTION : Fld := ⟨.trlStatus, 47, 32⟩
@[inline] def trlStatus_REASON : Fld := ⟨.trlStatus, 31, 24⟩
@[inline] def trlStatus_DRIFT : Fld := ⟨.trlStatus, 9, 9⟩
@[inline] def trlStatus_DIGEST_BUSY : Fld := ⟨.trlStatus, 8, 8⟩
@[inline] def trlStatus_STATE : Fld := ⟨.trlStatus, 3, 0⟩
@[inline] def trlStageBase_BASE : Fld := ⟨.trlStageBase, 51, 0⟩
@[inline] def trlStageLen_LEN : Fld := ⟨.trlStageLen, 21, 0⟩
@[inline] def trlEpoch_FLOOR : Fld := ⟨.trlEpoch, 63, 32⟩
@[inline] def trlEpoch_EPOCH : Fld := ⟨.trlEpoch, 31, 0⟩
@[inline] def trlKeys_REVOKED : Fld := ⟨.trlKeys, 7, 4⟩
@[inline] def trlKeys_LOADED : Fld := ⟨.trlKeys, 3, 0⟩
@[inline] def trlPavEpoch_GROUP : Fld := ⟨.trlPavEpoch, 47, 32⟩
@[inline] def trlPavEpoch_EPOCH : Fld := ⟨.trlPavEpoch, 31, 0⟩
@[inline] def trlAgreeCtl_UNKNOWN : Fld := ⟨.trlAgreeCtl, 63, 32⟩
@[inline] def trlAgree_PEER_EPOCH : Fld := ⟨.trlAgree, 63, 32⟩
@[inline] def trlAgree_GROUP : Fld := ⟨.trlAgree, 31, 16⟩
@[inline] def trlAgree_MISMATCH : Fld := ⟨.trlAgree, 15, 8⟩
@[inline] def trlAgree_STATE : Fld := ⟨.trlAgree, 1, 0⟩
@[inline] def trlSpareLive_BAD : Fld := ⟨.trlSpareLive, 48, 40⟩
@[inline] def trlSpareLive_SPARE : Fld := ⟨.trlSpareLive, 39, 36⟩
@[inline] def trlSpareLive_SLOT : Fld := ⟨.trlSpareLive, 31, 0⟩
@[inline] def stlState_BOUND : Fld := ⟨.stlState, 35, 35⟩
@[inline] def stlState_BROKEN : Fld := ⟨.stlState, 34, 34⟩
@[inline] def stlState_COUNT : Fld := ⟨.stlState, 31, 0⟩
@[inline] def stlGroup_V : Fld := ⟨.stlGroup, 6, 6⟩
@[inline] def stlGroup_PAV : Fld := ⟨.stlGroup, 5, 0⟩
@[inline] def seCfg_ON_BED : Fld := ⟨.seCfg, 7, 7⟩
@[inline] def seCfg_PAV_V : Fld := ⟨.seCfg, 6, 6⟩
@[inline] def seCfg_PAV : Fld := ⟨.seCfg, 5, 0⟩
@[inline] def seStall_CREDIT_WAIT : Fld := ⟨.seStall, 63, 32⟩
@[inline] def seStall_TAG_WAIT : Fld := ⟨.seStall, 31, 0⟩
@[inline] def sePoison_DROPPED : Fld := ⟨.sePoison, 63, 32⟩
@[inline] def sePoison_ELEMENTS : Fld := ⟨.sePoison, 31, 0⟩
@[inline] def seFaultVa_VA : Fld := ⟨.seFaultVa, 63, 0⟩
@[inline] def seCtxStatus_BURSTS : Fld := ⟨.seCtxStatus, 63, 32⟩
@[inline] def seCtxStatus_DETAIL : Fld := ⟨.seCtxStatus, 23, 16⟩
@[inline] def seCtxStatus_CODE : Fld := ⟨.seCtxStatus, 15, 8⟩
@[inline] def seCtxStatus_STATE : Fld := ⟨.seCtxStatus, 2, 0⟩
@[inline] def snSplit_REMOTE : Fld := ⟨.snSplit, 11, 8⟩
@[inline] def snSplit_WRITE : Fld := ⟨.snSplit, 7, 4⟩
@[inline] def snSplit_READ : Fld := ⟨.snSplit, 3, 0⟩
@[inline] def snTaguse_QUOTA : Fld := ⟨.snTaguse, 41, 32⟩
@[inline] def orgCtl_WB_ON_WARM : Fld := ⟨.orgCtl, 0, 0⟩
@[inline] def orgEcc_UE_COUNT : Fld := ⟨.orgEcc, 47, 32⟩
@[inline] def orgEcc_CE_COUNT : Fld := ⟨.orgEcc, 31, 0⟩
@[inline] def orgFlush_OWNER : Fld := ⟨.orgFlush, 15, 8⟩
@[inline] def orgFlush_GO : Fld := ⟨.orgFlush, 0, 0⟩
@[inline] def orgPf_MULTI : Fld := ⟨.orgPf, 63, 32⟩
@[inline] def orgPf_DROPPED : Fld := ⟨.orgPf, 31, 0⟩
@[inline] def orgAtomic_REFUSED : Fld := ⟨.orgAtomic, 63, 32⟩
@[inline] def orgAtomic_DONE : Fld := ⟨.orgAtomic, 31, 0⟩
@[inline] def orgWaymap_OWNER : Fld := ⟨.orgWaymap, 15, 8⟩
@[inline] def orgWaymap_MODE : Fld := ⟨.orgWaymap, 1, 0⟩
@[inline] def orgRgnBase_BASE : Fld := ⟨.orgRgnBase, 51, 16⟩
@[inline] def orgRgnSize_LOG2 : Fld := ⟨.orgRgnSize, 5, 0⟩
@[inline] def orgRgnAttr_OWNER : Fld := ⟨.orgRgnAttr, 15, 8⟩
@[inline] def orgRgnAttr_INSERT : Fld := ⟨.orgRgnAttr, 3, 2⟩
@[inline] def orgRgnAttr_PF : Fld := ⟨.orgRgnAttr, 1, 1⟩
@[inline] def orgRgnAttr_V : Fld := ⟨.orgRgnAttr, 0, 0⟩
@[inline] def gdrCfg_DENSITY : Fld := ⟨.gdrCfg, 3, 3⟩
@[inline] def gdrStatus_ABSENT : Fld := ⟨.gdrStatus, 8, 8⟩
@[inline] def gdrStatus_FAILED : Fld := ⟨.gdrStatus, 5, 4⟩
@[inline] def gdrStatus_STATE : Fld := ⟨.gdrStatus, 3, 0⟩
@[inline] def gdrCap_USABLE : Fld := ⟨.gdrCap, 35, 0⟩
@[inline] def gdrTrain_DEFERRED : Fld := ⟨.gdrTrain, 63, 48⟩
@[inline] def gdrTrain_DONE : Fld := ⟨.gdrTrain, 47, 32⟩
@[inline] def gdrTrain_TEMP : Fld := ⟨.gdrTrain, 31, 24⟩
@[inline] def gdrTrain_PENDING : Fld := ⟨.gdrTrain, 8, 8⟩
@[inline] def gdrTrain_MARGIN : Fld := ⟨.gdrTrain, 7, 0⟩
@[inline] def gdrEcc_POISON : Fld := ⟨.gdrEcc, 63, 48⟩
@[inline] def gdrEcc_UE_COUNT : Fld := ⟨.gdrEcc, 47, 32⟩
@[inline] def gdrEcc_CE_COUNT : Fld := ⟨.gdrEcc, 31, 0⟩
@[inline] def gdrScrub_PASSES : Fld := ⟨.gdrScrub, 63, 32⟩
@[inline] def gdrScrub_INTERVAL : Fld := ⟨.gdrScrub, 15, 0⟩
@[inline] def gdrRetireCtl_OVF : Fld := ⟨.gdrRetireCtl, 63, 32⟩
@[inline] def gdrRetireCtl_COUNT : Fld := ⟨.gdrRetireCtl, 13, 8⟩
@[inline] def gdrRetireCtl_LIMIT : Fld := ⟨.gdrRetireCtl, 7, 0⟩
@[inline] def gdrRetire_V : Fld := ⟨.gdrRetire, 63, 63⟩
@[inline] def gdrRetire_UE : Fld := ⟨.gdrRetire, 62, 62⟩
@[inline] def gdrRetire_BLOCK : Fld := ⟨.gdrRetire, 17, 0⟩
@[inline] def gdrErrlog_COMP : Fld := ⟨.gdrErrlog, 39, 38⟩
@[inline] def gdrErrlog_LINE : Fld := ⟨.gdrErrlog, 33, 8⟩
@[inline] def gdrPlot_ZFILL : Fld := ⟨.gdrPlot, 8, 8⟩
@[inline] def gdrPlot_OWNER : Fld := ⟨.gdrPlot, 7, 0⟩
@[inline] def smmuInvStatus_COMPLETED : Fld := ⟨.smmuInvStatus, 63, 32⟩
@[inline] def smmuInvStatus_ISSUED : Fld := ⟨.smmuInvStatus, 31, 0⟩
@[inline] def smmuStats_REJECTS : Fld := ⟨.smmuStats, 63, 48⟩
@[inline] def smmuStats_WALKS : Fld := ⟨.smmuStats, 47, 0⟩
@[inline] def smmuCtxRoot_ROOT : Fld := ⟨.smmuCtxRoot, 51, 12⟩
@[inline] def smmuCtxTag_V : Fld := ⟨.smmuCtxTag, 16, 16⟩
@[inline] def smmuCtxTag_AST : Fld := ⟨.smmuCtxTag, 15, 0⟩
@[inline] def smmuFaultVa_VA : Fld := ⟨.smmuFaultVa, 63, 0⟩
@[inline] def smmuFault_COUNT : Fld := ⟨.smmuFault, 63, 48⟩
@[inline] def smmuFault_ENGINE : Fld := ⟨.smmuFault, 47, 40⟩
@[inline] def smmuFault_FETCH : Fld := ⟨.smmuFault, 39, 39⟩
@[inline] def smmuFault_LEVEL : Fld := ⟨.smmuFault, 38, 37⟩
@[inline] def smmuFault_V : Fld := ⟨.smmuFault, 36, 36⟩
@[inline] def smmuFault_CAUSE : Fld := ⟨.smmuFault, 3, 0⟩
@[inline] def wsEntry0_BASE : Fld := ⟨.wsEntry0, 51, 0⟩
@[inline] def wsEntry1_SIZE : Fld := ⟨.wsEntry1, 63, 0⟩
@[inline] def wsEntry2_RATE : Fld := ⟨.wsEntry2, 63, 48⟩
@[inline] def wsEntry2_KEYID : Fld := ⟨.wsEntry2, 47, 40⟩
@[inline] def wsEntry2_PERM : Fld := ⟨.wsEntry2, 39, 32⟩
@[inline] def wsEntry2_PAV : Fld := ⟨.wsEntry2, 31, 24⟩
@[inline] def wsEntry2_SRCPAV : Fld := ⟨.wsEntry2, 23, 16⟩
@[inline] def wsEntry2_SRCDEV : Fld := ⟨.wsEntry2, 15, 0⟩
@[inline] def wsEntry3_V : Fld := ⟨.wsEntry3, 8, 8⟩
@[inline] def wsEntry3_BUCKET : Fld := ⟨.wsEntry3, 7, 0⟩
@[inline] def wsCnt_RETRY : Fld := ⟨.wsCnt, 63, 32⟩
@[inline] def wsCnt_REFUSED : Fld := ⟨.wsCnt, 31, 0⟩
@[inline] def wsLastref_REASON : Fld := ⟨.wsLastref, 63, 56⟩
@[inline] def wsLastref_SRCPAV : Fld := ⟨.wsLastref, 55, 48⟩
@[inline] def wsLastref_SRCDEV : Fld := ⟨.wsLastref, 47, 39⟩
@[inline] def wsLastref_PORT : Fld := ⟨.wsLastref, 38, 35⟩
@[inline] def wsLastref_WINDOW : Fld := ⟨.wsLastref, 34, 23⟩
@[inline] def wsOut_V : Fld := ⟨.wsOut, 63, 63⟩
@[inline] def wsOut_DEV : Fld := ⟨.wsOut, 61, 53⟩
@[inline] def wsOut_WINDOW : Fld := ⟨.wsOut, 52, 41⟩
@[inline] def wsOut_SRCPAV : Fld := ⟨.wsOut, 40, 33⟩
@[inline] def wsOut_WBASE : Fld := ⟨.wsOut, 7, 0⟩
@[inline] def cohCtl_OO_FORCE : Fld := ⟨.cohCtl, 0, 0⟩
@[inline] def cohStatus_UNKNOWN : Fld := ⟨.cohStatus, 47, 24⟩
@[inline] def cohStatus_CAUSE : Fld := ⟨.cohStatus, 11, 8⟩
@[inline] def cohStatus_DRAIN : Fld := ⟨.cohStatus, 1, 1⟩
@[inline] def cohStatus_MODE : Fld := ⟨.cohStatus, 0, 0⟩
@[inline] def cohCnt_C2C : Fld := ⟨.cohCnt, 63, 32⟩
@[inline] def cohCnt_SNOOPS : Fld := ⟨.cohCnt, 31, 0⟩
@[inline] def cohLost_LINES : Fld := ⟨.cohLost, 31, 0⟩
@[inline] def cohBiasBase_BASE : Fld := ⟨.cohBiasBase, 51, 16⟩
@[inline] def cohBiasSize_LOG2 : Fld := ⟨.cohBiasSize, 5, 0⟩
@[inline] def cohBiasCtl_OWNER : Fld := ⟨.cohBiasCtl, 15, 8⟩
@[inline] def cohBiasCtl_OP : Fld := ⟨.cohBiasCtl, 5, 4⟩
@[inline] def cohBiasCtl_ERROR : Fld := ⟨.cohBiasCtl, 2, 2⟩
@[inline] def cohBiasCtl_BUSY : Fld := ⟨.cohBiasCtl, 1, 1⟩
@[inline] def cohBiasCtl_GO : Fld := ⟨.cohBiasCtl, 0, 0⟩
@[inline] def coreErr_V : Fld := ⟨.coreErr, 63, 63⟩
@[inline] def coreErr_MULTI : Fld := ⟨.coreErr, 62, 62⟩
@[inline] def coreErr_SRC : Fld := ⟨.coreErr, 59, 56⟩
@[inline] def coreErr_KIND : Fld := ⟨.coreErr, 55, 52⟩
@[inline] def coreErr_PA : Fld := ⟨.coreErr, 51, 0⟩
@[inline] def coreEcc_UE_COUNT : Fld := ⟨.coreEcc, 47, 32⟩
@[inline] def coreEcc_CE_COUNT : Fld := ⟨.coreEcc, 31, 0⟩
@[inline] def pavStatus_REJECTS : Fld := ⟨.pavStatus, 63, 48⟩
@[inline] def pavStatus_LASTQP : Fld := ⟨.pavStatus, 35, 32⟩
@[inline] def pavStatus_PROG_BUSY : Fld := ⟨.pavStatus, 9, 9⟩
@[inline] def pavStatus_CLEAN : Fld := ⟨.pavStatus, 8, 8⟩
@[inline] def pavStatus_STATE : Fld := ⟨.pavStatus, 2, 0⟩
@[inline] def pavCtl_SCRUB : Fld := ⟨.pavCtl, 10, 8⟩
@[inline] def pavCtl_AUTOREL : Fld := ⟨.pavCtl, 2, 2⟩
@[inline] def pavFence_CAUSE : Fld := ⟨.pavFence, 15, 8⟩
@[inline] def pavFenceInfo_V : Fld := ⟨.pavFenceInfo, 63, 63⟩
@[inline] def pavFenceInfo_COUNT : Fld := ⟨.pavFenceInfo, 62, 48⟩
@[inline] def pavFenceInfo_DIE : Fld := ⟨.pavFenceInfo, 39, 36⟩
@[inline] def pavFenceInfo_SLOT : Fld := ⟨.pavFenceInfo, 35, 32⟩
@[inline] def pavFenceInfo_LBED : Fld := ⟨.pavFenceInfo, 31, 24⟩
@[inline] def pavFenceInfo_CODE : Fld := ⟨.pavFenceInfo, 7, 0⟩
@[inline] def pavSundial_COUNT : Fld := ⟨.pavSundial, 63, 0⟩
@[inline] def pavProgBase_BASE : Fld := ⟨.pavProgBase, 47, 7⟩
@[inline] def pavProgLen_LEN : Fld := ⟨.pavProgLen, 24, 0⟩
@[inline] def pavMovelog_LOG2N : Fld := ⟨.pavMovelog, 55, 52⟩
@[inline] def pavMovelog_BASE : Fld := ⟨.pavMovelog, 51, 12⟩
@[inline] def pavMovelog_V : Fld := ⟨.pavMovelog, 0, 0⟩
@[inline] def pavMovelogHead_OVERRUN : Fld := ⟨.pavMovelogHead, 63, 32⟩
@[inline] def pavMovelogHead_HEAD : Fld := ⟨.pavMovelogHead, 31, 0⟩
@[inline] def pavQuota_WINDOWS : Fld := ⟨.pavQuota, 63, 51⟩
@[inline] def pavQuota_STILES : Fld := ⟨.pavQuota, 50, 42⟩
@[inline] def pavQuota_TAGS : Fld := ⟨.pavQuota, 41, 32⟩
@[inline] def pavQuota_GDDR : Fld := ⟨.pavQuota, 31, 24⟩
@[inline] def pavQuota_WAYS : Fld := ⟨.pavQuota, 23, 16⟩
@[inline] def pavQuota_SCRATCH : Fld := ⟨.pavQuota, 15, 0⟩
@[inline] def pavEvtStat_UNROUTED : Fld := ⟨.pavEvtStat, 63, 32⟩
@[inline] def pavEvtStat_MULTI : Fld := ⟨.pavEvtStat, 31, 0⟩
@[inline] def pavQpSq_EN : Fld := ⟨.pavQpSq, 63, 63⟩
@[inline] def pavQpSq_REMOTE : Fld := ⟨.pavQpSq, 62, 62⟩
@[inline] def pavQpSq_LOG2 : Fld := ⟨.pavQpSq, 59, 56⟩
@[inline] def pavQpSq_BASE : Fld := ⟨.pavQpSq, 47, 12⟩
@[inline] def pavQpCq_LOG2 : Fld := ⟨.pavQpCq, 59, 56⟩
@[inline] def pavQpCq_BASE : Fld := ⟨.pavQpCq, 47, 12⟩
@[inline] def pavQpState_SQ_HEAD : Fld := ⟨.pavQpState, 63, 48⟩
@[inline] def pavQpState_CQ_TAIL : Fld := ⟨.pavQpState, 47, 32⟩
@[inline] def pavQpState_FAILS : Fld := ⟨.pavQpState, 31, 24⟩
@[inline] def pavQpState_BADDB : Fld := ⟨.pavQpState, 23, 16⟩
@[inline] def pavQpState_STATE : Fld := ⟨.pavQpState, 2, 0⟩
@[inline] def pavSqTail_TAIL : Fld := ⟨.pavSqTail, 15, 0⟩
@[inline] def pavCqHead_HEAD : Fld := ⟨.pavCqHead, 15, 0⟩
@[inline] def pavEvec_V : Fld := ⟨.pavEvec, 63, 63⟩
@[inline] def pavEvec_MASK : Fld := ⟨.pavEvec, 62, 62⟩
@[inline] def pavEvec_PEND : Fld := ⟨.pavEvec, 61, 61⟩
@[inline] def pavEvec_KIND : Fld := ⟨.pavEvec, 60, 60⟩
@[inline] def pavEvec_QP : Fld := ⟨.pavEvec, 59, 56⟩
@[inline] def pavEvec_HART : Fld := ⟨.pavEvec, 24, 18⟩
@[inline] def pavEvec_FILE : Fld := ⟨.pavEvec, 17, 14⟩
@[inline] def pavEvec_ID : Fld := ⟨.pavEvec, 8, 0⟩
@[inline] def pavEroute_V : Fld := ⟨.pavEroute, 24, 24⟩
@[inline] def pavEroute_SEL : Fld := ⟨.pavEroute, 23, 16⟩
@[inline] def pavEroute_SRC : Fld := ⟨.pavEroute, 15, 12⟩
@[inline] def pavEroute_VEC : Fld := ⟨.pavEroute, 5, 0⟩
@[inline] def lpStatus_PEERID : Fld := ⟨.lpStatus, 56, 48⟩
@[inline] def lpStatus_PEER_V : Fld := ⟨.lpStatus, 47, 47⟩
@[inline] def lpStatus_KEYID : Fld := ⟨.lpStatus, 39, 32⟩
@[inline] def lpStatus_LANES : Fld := ⟨.lpStatus, 11, 8⟩
@[inline] def lpStatus_MODE : Fld := ⟨.lpStatus, 7, 6⟩
@[inline] def lpStatus_STATE : Fld := ⟨.lpStatus, 3, 0⟩
@[inline] def lpCtl_TWT : Fld := ⟨.lpCtl, 11, 8⟩
@[inline] def lpFec_CORR : Fld := ⟨.lpFec, 63, 32⟩
@[inline] def lpFec_UNCORR : Fld := ⟨.lpFec, 31, 24⟩
@[inline] def lpFec_BADLANES : Fld := ⟨.lpFec, 23, 16⟩
@[inline] def lpFec_LIMIT : Fld := ⟨.lpFec, 7, 0⟩
@[inline] def lpLinkcnt_DEGRADES : Fld := ⟨.lpLinkcnt, 63, 48⟩
@[inline] def lpLinkcnt_FAILOVERS : Fld := ⟨.lpLinkcnt, 47, 32⟩
@[inline] def lpLinkcnt_DUP : Fld := ⟨.lpLinkcnt, 31, 16⟩
@[inline] def lpLinkcnt_CRC : Fld := ⟨.lpLinkcnt, 15, 0⟩
@[inline] def lpGatecnt_AUTHFAIL : Fld := ⟨.lpGatecnt, 63, 48⟩
@[inline] def lpGatecnt_MALFORMED : Fld := ⟨.lpGatecnt, 47, 32⟩
@[inline] def lpGatecnt_SPOOF : Fld := ⟨.lpGatecnt, 31, 16⟩
@[inline] def lpGatecnt_DENIED : Fld := ⟨.lpGatecnt, 15, 0⟩
@[inline] def lpQuar_REFUSED : Fld := ⟨.lpQuar, 63, 48⟩
@[inline] def lpQuar_HSFAIL : Fld := ⟨.lpQuar, 47, 32⟩
@[inline] def lpQuar_QUARS : Fld := ⟨.lpQuar, 31, 24⟩
@[inline] def lpQuar_MULTI : Fld := ⟨.lpQuar, 23, 16⟩
@[inline] def lpQuar_LIMIT : Fld := ⟨.lpQuar, 7, 0⟩
@[inline] def lpEth_IPV6 : Fld := ⟨.lpEth, 0, 0⟩
@[inline] def lpMac_MAC : Fld := ⟨.lpMac, 47, 0⟩
@[inline] def lpIpv4_ADDR : Fld := ⟨.lpIpv4, 31, 0⟩
@[inline] def lpIpv6Lo_ADDR : Fld := ⟨.lpIpv6Lo, 63, 0⟩
@[inline] def lpIpv6Hi_ADDR : Fld := ⟨.lpIpv6Hi, 63, 0⟩
@[inline] def lpTopo_SZ : Fld := ⟨.lpTopo, 10, 8⟩
@[inline] def lpTopo_SY : Fld := ⟨.lpTopo, 6, 4⟩
@[inline] def lpTopo_SX : Fld := ⟨.lpTopo, 2, 0⟩
@[inline] def lpKmt_RTO : Fld := ⟨.lpKmt, 15, 0⟩
@[inline] def lpRoute_V : Fld := ⟨.lpRoute, 3, 3⟩
@[inline] def lpRoute_DIR : Fld := ⟨.lpRoute, 2, 0⟩
@[inline] def telCtl_LOGBURST : Fld := ⟨.telCtl, 47, 40⟩
@[inline] def telCtl_LOGRATE : Fld := ⟨.telCtl, 39, 32⟩
@[inline] def telKeeper_KRESETS : Fld := ⟨.telKeeper, 63, 48⟩
@[inline] def telKeeper_MISMATCH : Fld := ⟨.telKeeper, 47, 40⟩
@[inline] def telKeeper_CHECKFAIL : Fld := ⟨.telKeeper, 39, 32⟩
@[inline] def telKeeper_DEGRADED : Fld := ⟨.telKeeper, 8, 8⟩
@[inline] def telKeeper_STATE : Fld := ⟨.telKeeper, 2, 0⟩
@[inline] def telLoss_DIE : Fld := ⟨.telLoss, 11, 8⟩
@[inline] def telLoss_CAUSE : Fld := ⟨.telLoss, 7, 0⟩
@[inline] def telAlq_COALESCED : Fld := ⟨.telAlq, 63, 32⟩
@[inline] def telAlq_SUMMARIES : Fld := ⟨.telAlq, 31, 16⟩
@[inline] def telAlq_FILL : Fld := ⟨.telAlq, 6, 0⟩
@[inline] def telLog_LIMITED : Fld := ⟨.telLog, 63, 32⟩
@[inline] def telLog_DROPPED : Fld := ⟨.telLog, 31, 0⟩
@[inline] def telTrace_DROPPED : Fld := ⟨.telTrace, 31, 0⟩
@[inline] def telRing_LOG2N : Fld := ⟨.telRing, 55, 52⟩
@[inline] def telRing_BASE : Fld := ⟨.telRing, 51, 12⟩
@[inline] def telRing_V : Fld := ⟨.telRing, 0, 0⟩
@[inline] def telRingHead_OVERRUN : Fld := ⟨.telRingHead, 63, 32⟩
@[inline] def telRingHead_HEAD : Fld := ⟨.telRingHead, 31, 0⟩
@[inline] def telRecov_REPLACE : Fld := ⟨.telRecov, 63, 48⟩
@[inline] def telRecov_CTXREC : Fld := ⟨.telRecov, 47, 32⟩
@[inline] def telRecov_HANGS : Fld := ⟨.telRecov, 31, 16⟩
@[inline] def telRecov_BADCOUNT : Fld := ⟨.telRecov, 6, 0⟩
@[inline] def telBadslice_BAD : Fld := ⟨.telBadslice, 63, 0⟩
@[inline] def telHang_V : Fld := ⟨.telHang, 63, 63⟩
@[inline] def telHang_KIND : Fld := ⟨.telHang, 62, 60⟩
@[inline] def telHang_UNIT : Fld := ⟨.telHang, 55, 48⟩
@[inline] def telHang_DIE : Fld := ⟨.telHang, 47, 44⟩
@[inline] def telHang_LBED : Fld := ⟨.telHang, 43, 36⟩
@[inline] def telHang_OBJ : Fld := ⟨.telHang, 35, 16⟩
@[inline] def telHang_EDGES : Fld := ⟨.telHang, 15, 0⟩
@[inline] def telCoal_COUNT : Fld := ⟨.telCoal, 31, 0⟩
@[inline] def pwrPaceReq_REQ : Fld := ⟨.pwrPaceReq, 10, 0⟩
@[inline] def pwrStatus_TARGET : Fld := ⟨.pwrStatus, 63, 48⟩
@[inline] def pwrStatus_CAPPACE : Fld := ⟨.pwrStatus, 47, 32⟩
@[inline] def pwrStatus_THERMPACE : Fld := ⟨.pwrStatus, 31, 16⟩
@[inline] def pwrStatus_LATCHED : Fld := ⟨.pwrStatus, 15, 7⟩
@[inline] def pwrStatus_SHORT : Fld := ⟨.pwrStatus, 6, 6⟩
@[inline] def pwrStatus_ALERT : Fld := ⟨.pwrStatus, 5, 5⟩
@[inline] def pwrStatus_LIMITER : Fld := ⟨.pwrStatus, 1, 0⟩
@[inline] def pwrCap_TCAP : Fld := ⟨.pwrCap, 63, 48⟩
@[inline] def pwrCap_ORDER : Fld := ⟨.pwrCap, 47, 40⟩
@[inline] def pwrCap_LINKS : Fld := ⟨.pwrCap, 31, 24⟩
@[inline] def pwrCap_MEMORY : Fld := ⟨.pwrCap, 23, 16⟩
@[inline] def pwrCap_LIMIT : Fld := ⟨.pwrCap, 15, 0⟩
@[inline] def pwrBrake_HWLEVEL : Fld := ⟨.pwrBrake, 7, 4⟩
@[inline] def pwrBrake_LEVEL : Fld := ⟨.pwrBrake, 3, 0⟩
@[inline] def pwrClass_CLASS : Fld := ⟨.pwrClass, 3, 0⟩
@[inline] def pwrTherm_MAXT : Fld := ⟨.pwrTherm, 23, 16⟩
@[inline] def pwrTherm_THROTTLE : Fld := ⟨.pwrTherm, 15, 8⟩
@[inline] def pwrTherm_WARN : Fld := ⟨.pwrTherm, 7, 0⟩
@[inline] def pwrDroop_LIMIT : Fld := ⟨.pwrDroop, 31, 16⟩
@[inline] def pwrCal_BT_DEFERRED : Fld := ⟨.pwrCal, 63, 48⟩
@[inline] def pwrCal_LINK_DEFERRED : Fld := ⟨.pwrCal, 47, 32⟩
@[inline] def pwrCal_BT_PERIOD : Fld := ⟨.pwrCal, 31, 24⟩
@[inline] def pwrPower_PACKAGE : Fld := ⟨.pwrPower, 63, 48⟩
@[inline] def pwrPower_COMPUTE : Fld := ⟨.pwrPower, 47, 32⟩
@[inline] def pwrPower_MEMORY : Fld := ⟨.pwrPower, 31, 16⟩
@[inline] def pwrPower_LINKS : Fld := ⟨.pwrPower, 15, 0⟩
@[inline] def pwrRail_SETPT : Fld := ⟨.pwrRail, 63, 48⟩
@[inline] def pwrRail_VOUT : Fld := ⟨.pwrRail, 47, 32⟩
@[inline] def pwrRail_IOUT : Fld := ⟨.pwrRail, 31, 8⟩
@[inline] def pwrRail_STALE : Fld := ⟨.pwrRail, 0, 0⟩
@[inline] def pwrDie_DROOPS : Fld := ⟨.pwrDie, 63, 32⟩
@[inline] def pwrDie_PACE : Fld := ⟨.pwrDie, 31, 16⟩
@[inline] def pwrDie_TEMP : Fld := ⟨.pwrDie, 7, 0⟩
@[inline] def kprDevid_V : Fld := ⟨.kprDevid, 9, 9⟩
@[inline] def kprDevid_ID : Fld := ⟨.kprDevid, 8, 0⟩
@[inline] def kprFw_VERSION : Fld := ⟨.kprFw, 63, 32⟩
@[inline] def kprFw_SVN : Fld := ⟨.kprFw, 31, 24⟩
@[inline] def kprFw_FUSE_SVN : Fld := ⟨.kprFw, 23, 16⟩
@[inline] def kprFw_SLOT : Fld := ⟨.kprFw, 0, 0⟩
@[inline] def kprBoot_REASON : Fld := ⟨.kprBoot, 47, 40⟩
@[inline] def kprBoot_CAUSE : Fld := ⟨.kprBoot, 39, 32⟩
@[inline] def kprBoot_REFFAIL : Fld := ⟨.kprBoot, 23, 20⟩
@[inline] def kprBoot_TSLOT : Fld := ⟨.kprBoot, 16, 16⟩
@[inline] def kprBoot_RCAUSE : Fld := ⟨.kprBoot, 15, 12⟩
@[inline] def kprBoot_STEP : Fld := ⟨.kprBoot, 3, 0⟩
@[inline] def kprMbxStatus_REJECTS : Fld := ⟨.kprMbxStatus, 63, 48⟩
@[inline] def kprMbxStatus_ANSWERED : Fld := ⟨.kprMbxStatus, 47, 24⟩
@[inline] def kprMbxStatus_SUBMITTED : Fld := ⟨.kprMbxStatus, 23, 0⟩
@[inline] def kprDbg_UNLOCKED : Fld := ⟨.kprDbg, 0, 0⟩
@[inline] def kprDbgNonce_NONCE : Fld := ⟨.kprDbgNonce, 63, 0⟩
@[inline] def ldgStatus_FALLBACK : Fld := ⟨.ldgStatus, 5, 5⟩
@[inline] def ldgStatus_LBUS : Fld := ⟨.ldgStatus, 4, 4⟩
@[inline] def ldgStatus_STATE : Fld := ⟨.ldgStatus, 2, 0⟩
@[inline] def ldgFw_VERSION : Fld := ⟨.ldgFw, 63, 32⟩
@[inline] def ldgD2d_RETRIES : Fld := ⟨.ldgD2d, 63, 48⟩
@[inline] def ldgD2d_FAILOVERS : Fld := ⟨.ldgD2d, 47, 40⟩
@[inline] def ldgD2d_PEER : Fld := ⟨.ldgD2d, 35, 32⟩
@[inline] def ldgD2d_LANES : Fld := ⟨.ldgD2d, 13, 8⟩
@[inline] def ldgD2d_STATE : Fld := ⟨.ldgD2d, 1, 0⟩

end F

end Sys2Proof.Machine
end

