-- ==== Sys2Proof/Config.lean ====
section
/-! DEFINITION. What the specification leaves open or names by a published standard: free values without a body,
and the cryptographic functions that the chapters use by reference. Nothing can be proved of their values, so a
statement holds whatever they are. -/

namespace Sys2Proof

/-- What the configuration component of a bundle holds (17.2): the four Trellis keys (empty where a slot has none), host
anchors with the revocation list, management anchors, the debug-unlock key, the KXS allowlist as ranges of physical
addresses, the current limits of the rails in mA, the system plots as die and plot, and the static IPv4 and IPv6
addresses of the management port. -/
structure FwConfig where
  keys    : List (List Byte)
  anchors : List (List Byte)
  revoked : List Byte
  mgmt    : List (List Byte)
  debug   : List Byte
  allow   : List (Nat × Nat)
  limits  : List Nat
  plots   : List (Nat × Nat)
  ipv4    : Nat
  ipv6    : Nat
  deriving DecidableEq, Repr, Inhabited

/-- No configuration. -/
def FwConfig.empty : FwConfig := ⟨[], [], [], [], [], [], [], [], 0, 0⟩

end Sys2Proof

namespace Sys2Proof.Config

/-- The free value number `n` of a run, a word of 64 bits: read with `State.freeCtr`, which each use advances
(values that the specification calls undefined). -/
opaque freeValue : Nat → BitVec 64

/-- The value of an entry of an accumulator block whose word cannot be read, of the bytes of the entry: R75 gives its poison bit
and no value. -/
opaque lostEntry : List (Option Byte) → Nat

/-- Whether IEEE 754-2019 tininess is detected before rounding: the standard allows either and R65 names none. -/
opaque tininessBefore : Bool

/-- Whether fusedMultiplyAdd(0, infinity, quiet NaN) signals invalid: the standard leaves it to the
implementation and R65 names no choice. -/
opaque fmaZeroInfNaNInvalid : Bool

/-- The CRC-16 of a frame of the Lodge bus: R22 names no polynomial. -/
opaque crc16 : List Byte → Nat

/-- Whether a voltage of VDDQ in mV lies in its range: Table 19-6 names JESD239 for it and states no value. -/
opaque vddqInRange : Nat → Bool

/-- The 48-byte SHA-384 digest of a byte string (FIPS 180-4). -/
opaque sha384 : List Byte → List Byte

/-- Whether a 96-byte ECDSA P-384 signature over a byte string verifies under a public key (FIPS 186-5). -/
opaque ecdsaVerify : (key msg sig : List Byte) → Bool

/-- The 96-byte ECDSA P-384 signature of a byte string under a private key (FIPS 186-5). -/
opaque ecdsaSign : (key msg : List Byte) → List Byte

/-- The public key of a private key on P-384. -/
opaque publicKey : (key : List Byte) → List Byte

/-- The ECDH shared secret of a private key and a public key on P-384. -/
opaque ecdh : (priv pub : List Byte) → List Byte

/-- HKDF of a secret, a salt and an info string to `n` bytes. -/
opaque hkdf : (secret salt info : List Byte) → (n : Nat) → List Byte

/-- HKDF-Expand of a key and an info string to `n` bytes. -/
opaque hkdfExpand : (key info : List Byte) → (n : Nat) → List Byte

/-- HMAC-SHA-384. -/
opaque hmac : (key msg : List Byte) → List Byte

/-- The 16-byte AES-256-GCM tag of associated data and ciphertext under a key and a nonce. -/
opaque gcmTag : (key nonce aad text : List Byte) → List Byte

/-- The SHA-384 hash of the root certificate to which an X.509 certificate chain verifies (RFC 5280); empty where the
chain does not verify. -/
opaque chainRoot : (chain : List Byte) → List Byte

/-- The public key that a certificate chain certifies, as DER SubjectPublicKeyInfo. -/
opaque chainKey : (chain : List Byte) → List Byte

/-- Whether a revocation list revokes a certificate of a chain. -/
opaque chainRevoked : (chain list : List Byte) → Bool

/-- The SHA-384 hash of the Kielaxia device root, which the boot ROM holds. -/
opaque deviceRoot : List Byte

/-- The SHA-384 hash of the signing key that the boot ROM holds in slot 0 or 1 (R589). -/
opaque romKeyHash : Nat → List Byte

/-- What a configuration component of the signed firmware says (R588): the specification names its contents and no
format. -/
opaque firmware : List Byte → FwConfig

/-- The SHA-384 digest of the boot ROM (Table 17-9). -/
opaque romDigest : List Byte

/-- The P-384 private key that FIPS 186-5 A.2.1 derives from a byte string (R594). -/
opaque deriveKey : List Byte → List Byte

/-- The level on each pin that a boundary-scan cell senses (R605). -/
opaque pinLevels : List Bool

end Sys2Proof.Config
end

