-- ==== Sys2Proof/Machine/Flags.lean ====
section
/-! DEFINITION. The array formats (02.1), the tables T8, T16 and TH (02.2, 04.2), the products of the lanes (02.3),
the accumulators with their poison and overflow flags (02.4) and their combination (02.5). -/

namespace Sys2Proof.Machine

/-- Operand formats of an MMUL (Table 7-3). -/
inductive ArrFmt where
  | l8 | l16 | i8
  deriving DecidableEq, Repr

/-- The value of a two's-complement field of `w` bits. -/
def toSigned (w v : Nat) : Int := if v % 2 ^ w < 2 ^ (w - 1) then (v % 2 ^ w : Nat) else (v % 2 ^ w : Nat) - (2 ^ w : Nat)

/-- The two's-complement field of `w` bits that holds `v` modulo 2^w. -/
def ofSigned (w : Nat) (v : Int) : Nat := (v % (2 ^ w : Nat)).toNat

/-- T8 of Table 2-2. -/
def t8 (j : Nat) : Nat := [2048, 2233, 2436, 2656, 2896, 3158, 3444, 3756].getD j 0

/-- The largest `n` below 2^k with `n ^ den ≤ bound`, found bit by bit from bit `k - 1` down. -/
def rootBelow (den bound : Nat) : Nat → Nat → Nat
  | 0, n => n
  | k + 1, n => rootBelow den bound k (if (n + 2 ^ k) ^ den ≤ bound then n + 2 ^ k else n)

/-- round(2^(num / den) × 2^frac) for 0 ≤ num < den: one less than half the odd bound that 2 × 2^(…) exceeds.
No entry but an exact power lies on a tie (R45). -/
def expRound (num den frac : Nat) : Nat :=
  (rootBelow den (2 ^ (num + den * (frac + 1))) (frac + 2) 0 + 1) / 2

/-- T16[j] = round(2^(j / 1,024) × 32,768) (R45). -/
def t16 (j : Nat) : Nat := expRound j 1024 15

/-- TH[j] = round(2^((2j + 1) / 2,048) × 2^23) (R110). -/
def th (j : Nat) : Nat := expRound (2 * j + 1) 2048 23

/-- NaR of each array format (R41 to R43). -/
def ArrFmt.nar : ArrFmt → Nat
  | .l8 => 0x80 | .l16 => 0x8000 | .i8 => 0x80

/-- Bytes of one code. -/
def ArrFmt.bytes : ArrFmt → Nat
  | .l8 => 1 | .l16 => 2 | .i8 => 1

/-- Linear value of a non-NaR L8 code in units of 2^-27 (R44). -/
def l8Value (c : Nat) : Int :=
  let m := c % 128
  if m = 0 then 0 else
    let v : Int := (t8 (m % 8) * 2 ^ (m / 8 + 8) : Nat)
    if c / 128 % 2 = 1 then -v else v

/-- Linear value of a non-NaR L16 code in units of 2^-47 (R46). -/
def l16Value (c : Nat) : Int :=
  let m := c % 32768
  if m = 0 then 0 else
    let v : Int := (t16 (m % 1024) * 2 ^ (m / 1024 + 16) : Nat)
    if c / 32768 % 2 = 1 then -v else v

/-- Integer of a non-NaR I8 code (R43). -/
def i8Value (c : Nat) : Int := toSigned 8 c

/-- The exact product of two non-NaR codes in the units of their accumulator (R49, R51, R52, R53). -/
def product (f : ArrFmt) (x w : Nat) : Int :=
  match f with
  | .i8 => i8Value x * i8Value w
  | .l8 =>
    if x % 128 = 0 ∨ w % 128 = 0 then 0 else
      let k := x % 128 + w % 128                     -- k + 128 of R49
      let p : Int := (t8 (k % 8) * 2 ^ (k / 8) : Nat)
      if (x / 128 + w / 128) % 2 = 1 then -p else p
  | .l16 =>
    if x % 32768 = 0 ∨ w % 32768 = 0 then 0 else
      let k := x % 32768 + w % 32768                 -- k + 32,768 of R51
      let p : Int := (t16 (k % 1024) * 2 ^ (k / 1024) : Nat)
      if (x / 32768 + w / 32768) % 2 = 1 then -p else p

/-- An accumulator: its value in the units of its format, its poison and its overflow bit (R54, R56). -/
structure Acc where
  val    : Int
  poison : Bool
  ovf    : Bool
  deriving DecidableEq, Repr

/-- A new sum before its first contribution (R56). -/
def Acc.zero : Acc := ⟨0, false, false⟩

/-- Bits of an accumulator format (Table 2-5). -/
def accWidth : AccFmt → Nat
  | .a64l => 64 | .a64i => 64 | .a128 => 128

/-- The accumulator format of a product format (R54, R55). -/
def ArrFmt.acc : ArrFmt → AccFmt
  | .l8 => .a64l | .l16 => .a128 | .i8 => .a64i

/-- Place of the binary point (Table 2-5). -/
def accPoint : AccFmt → Nat
  | .a64l => 27 | .a64i => 0 | .a128 => 47

/-- `a` combined with `b`, `a` the lower-numbered input: R58, with the saturation of R57. -/
def Acc.combine (f : AccFmt) (a b : Acc) : Acc :=
  let p := a.poison || b.poison
  if a.ovf then ⟨a.val, p, true⟩
  else if b.ovf then ⟨b.val, p, true⟩
  else
    let s := a.val + b.val
    let m : Int := (2 ^ (accWidth f - 1) : Nat)
    if m - 1 < s then ⟨m - 1, p, true⟩
    else if s < -m then ⟨-m, p, true⟩
    else ⟨s, p, false⟩

/-- One product as a contribution: NaR contributes 0 and poison (R53). -/
def contribution (f : ArrFmt) (x w : Nat) : Acc :=
  if x = f.nar ∨ w = f.nar then ⟨0, true, false⟩ else ⟨product f x w, false, false⟩

/-- One multiply-accumulate of a lane or gang (R49, R57). -/
def Acc.mac (f : ArrFmt) (a : Acc) (x w : Nat) : Acc := a.combine f.acc (contribution f x w)

/-- The 64-bit word of little-endian bytes, a missing byte zero (R3). -/
def leNat : List Byte → Nat
  | [] => 0
  | b :: bs => b.toNat + 256 * leNat bs

/-- `n` little-endian bytes of `v` (R3). -/
def leBytes : Nat → Nat → List Byte
  | 0, _ => []
  | n + 1, v => BitVec.ofNat 8 v :: leBytes n (v / 256)

/-- The natural number of big-endian bytes (R3: frames). -/
def beNat (bs : List Byte) : Nat := leNat bs.reverse

/-- `n` big-endian bytes of `v`. -/
def beBytes (n v : Nat) : List Byte := (leBytes n v).reverse

/-- Bytes `[off, off + n)` of a list, zero beyond its end. -/
def slice (bs : List Byte) (off n : Nat) : List Byte :=
  let t := (bs.drop off).take n
  t ++ List.replicate (n - t.length) 0

/-- The little-endian field of `n` bytes at `off`. -/
def fieldLe (bs : List Byte) (off n : Nat) : Nat := leNat (slice bs off n)

/-- Entries of an accumulator block (Table 2-6). -/
def accEntries : AccFmt → Nat
  | .a64l => 64 | .a64i => 64 | .a128 => 32

/-- Entry `i` of a 528-byte accumulator block (R63, R64). -/
def blockEntry (f : AccFmt) (b : List Byte) (i : Nat) : Acc :=
  let n := accWidth f / 8
  ⟨toSigned (accWidth f) (fieldLe b (i * n) n), (fieldLe b 512 8).testBit i, (fieldLe b 520 8).testBit i⟩

/-- A bitmap of flags, bit i the i-th. -/
def bitmap (l : List Bool) : Nat := l.foldr (fun b n => boolNat b + 2 * n) 0

/-- The 528-byte accumulator block of a list of entries (R63). -/
def blockOf (f : AccFmt) (l : List Acc) : List Byte :=
  (l.flatMap fun a => leBytes (accWidth f / 8) (ofSigned (accWidth f) a.val))
    ++ leBytes 8 (bitmap (l.map (·.poison))) ++ leBytes 8 (bitmap (l.map (·.ovf)))

/-- The entries of a block in order. -/
def blockEntries (f : AccFmt) (b : List Byte) : List Acc := (List.range (accEntries f)).map (blockEntry f b)

/-- Two blocks of one format combined entry by entry, `a` the first input (R58, R63). -/
def blockCombine (f : AccFmt) (a b : List Byte) : List Byte :=
  blockOf f (List.zipWith (Acc.combine f) (blockEntries f a) (blockEntries f b))

/-- A whole block as NaR: every entry 0 with its poison bit set (R268, R331). -/
def blockNaR (f : AccFmt) : List Byte := blockOf f (List.replicate (accEntries f) ⟨0, true, false⟩)

end Sys2Proof.Machine
end

