-- ==== Sys2Proof/Machine/Ieee.lean ====
section
/-! DEFINITION. Binary16 and binary32 arithmetic as IEEE 754-2019 defines it (R65, R67): exact values rounded once,
with the five exception flags. Only the canonical quiet NaN is produced. -/

namespace Sys2Proof.Machine

/-- An IEEE format by its exponent and fraction widths. -/
structure IeeeFmt where
  eb : Nat
  mb : Nat
  deriving DecidableEq, Repr

/-- Binary32. -/
def b32 : IeeeFmt := ⟨8, 23⟩

/-- Binary16. -/
def b16 : IeeeFmt := ⟨5, 10⟩

/-- The exponent of the smallest subnormal. -/
def IeeeFmt.qmin (f : IeeeFmt) : Int := 2 - 2 ^ (f.eb - 1) - f.mb

/-- The sign bit's weight. -/
def IeeeFmt.signW (f : IeeeFmt) : Nat := 2 ^ (f.eb + f.mb)

/-- The bits of +infinity. -/
def IeeeFmt.infBits (f : IeeeFmt) : Nat := (2 ^ f.eb - 1) * 2 ^ f.mb

/-- The canonical quiet NaN of R67. -/
def IeeeFmt.nan (f : IeeeFmt) : Nat := f.infBits + 2 ^ (f.mb - 1)

/-- A decoded datum: a NaN, an infinity, or (−1)^neg × n × 2^e. -/
inductive IVal where
  | nan (signaling : Bool)
  | inf (neg : Bool)
  | fin (neg : Bool) (n : Nat) (e : Int)
  deriving DecidableEq, Repr

/-- The exception flags of BED_VFLAGS (Table 3-15). -/
structure IFlags where
  nv : Bool
  dz : Bool
  of : Bool
  uf : Bool
  nx : Bool
  deriving DecidableEq, Repr

/-- No exception. -/
def IFlags.none : IFlags := ⟨false, false, false, false, false⟩

/-- Sticky union of two sets of flags. -/
def IFlags.or (a b : IFlags) : IFlags := ⟨a.nv || b.nv, a.dz || b.dz, a.of || b.of, a.uf || b.uf, a.nx || b.nx⟩

/-- The flags as bits [4:0] of BED_VFLAGS. -/
def IFlags.bits (a : IFlags) : Nat :=
  boolNat a.nx + 2 * boolNat a.uf + 4 * boolNat a.of + 8 * boolNat a.dz + 16 * boolNat a.nv

/-- The datum of a bit pattern. -/
def unpack (f : IeeeFmt) (w : Nat) : IVal :=
  let neg := w / f.signW % 2 == 1
  let ex := w / 2 ^ f.mb % 2 ^ f.eb
  let fr := w % 2 ^ f.mb
  if ex = 2 ^ f.eb - 1 then
    if fr = 0 then .inf neg else .nan (fr < 2 ^ (f.mb - 1))
  else if ex = 0 then .fin neg fr f.qmin
  else .fin neg (fr + 2 ^ f.mb) (f.qmin + ex - 1)

/-- A result: its bits and the flags it raises. -/
abbrev IRes := Nat × IFlags

/-- The bits of a sign. -/
def signBits (f : IeeeFmt) (neg : Bool) : Nat := if neg then f.signW else 0

/-- The canonical NaN with the invalid flag. -/
def invalid (f : IeeeFmt) : IRes := (f.nan, { IFlags.none with nv := true })

/-- The significand `n` of a value `(n + δ) × 2^e`, 0 ≤ δ < 1 and δ > 0 exactly when `sticky`, rounded to a
multiple of 2^q with q > e, and whether the rounding was inexact. -/
def roundAt (tz sticky : Bool) (n : Nat) (e q : Int) : Nat × Bool :=
  let sh := (q - e).toNat
  let m := n / 2 ^ sh
  let r := n % 2 ^ sh
  let half := 2 ^ (sh - 1)
  let up := !tz && (half < r || (r == half && (sticky || m % 2 == 1)))
  (if up then m + 1 else m, sticky || r != 0)

/-- The value `(n + δ) × 2^e` with its sign rounded once to the format (R65, R128). The result of a zero value
keeps its sign. -/
def roundTo (f : IeeeFmt) (tz neg sticky : Bool) (n : Nat) (e : Int) : IRes :=
  if n = 0 ∧ sticky = false then (signBits f neg, .none) else
    let k := f.mb + 3
    let n := n * 2 ^ k
    let e := e - k
    let len : Int := n.log2 + 1
    let qn := e + len - (f.mb + 1)                        -- quantum with an unbounded exponent
    let q := if qn < f.qmin then f.qmin else qn
    -- a value below the quantum leaves at least three guard bits
    let (m, nx) := roundAt tz sticky n e q
    let (m, q) := if 2 ^ (f.mb + 1) ≤ m then (m / 2, q + 1) else (m, q)
    let ex := if m < 2 ^ f.mb then 0 else (q - f.qmin + 1).toNat
    if 2 ^ f.eb - 1 ≤ ex then
      (signBits f neg + (if tz then f.infBits - 1 else f.infBits), { IFlags.none with of := true, nx := true })
    else
      let tinyPre := decide (qn < f.qmin)
      let ru := roundAt tz sticky n e qn
      let tinyPost := tinyPre && (decide (qn + 1 < f.qmin) || ru.1 < 2 ^ (f.mb + 1))
      let uf := nx && (tinyPost || (tinyPre && Config.tininessBefore))
      (signBits f neg + (if ex = 0 then m else (ex - 1) * 2 ^ f.mb + m), { IFlags.none with uf := uf, nx := nx })

/-- The exact sum of two finite values as sign, magnitude and exponent; `none` for an exact zero. -/
def exactAdd (na : Bool) (a : Nat) (ea : Int) (nb : Bool) (b : Nat) (eb : Int) : Option (Bool × Nat × Int) :=
  let e := if ea < eb then ea else eb
  let x : Int := (if na then -1 else 1) * (a * 2 ^ (ea - e).toNat : Nat)
    + (if nb then -1 else 1) * (b * 2 ^ (eb - e).toNat : Nat)
  if x = 0 then none else some (decide (x < 0), x.natAbs, e)

/-- A finite value plus a finite value, rounded once; an exact zero of unlike signs is +0. -/
def addFin (f : IeeeFmt) (tz na : Bool) (a : Nat) (ea : Int) (nb : Bool) (b : Nat) (eb : Int) : IRes :=
  match exactAdd na a ea nb b eb with
  | none => (if na && nb then signBits f true else 0, .none)
  | some (n, m, e) => roundTo f tz n false m e

/-- Whether a datum is a signaling NaN. -/
def IVal.snan : IVal → Bool
  | .nan s => s
  | _ => false

/-- Whether a datum is a NaN. -/
def IVal.isNan : IVal → Bool
  | .nan _ => true
  | _ => false

/-- The datum with the other sign. -/
def IVal.negate : IVal → IVal
  | .nan s => .nan s
  | .inf n => .inf (!n)
  | .fin n m e => .fin (!n) m e

/-- The NaN result of an operation with a NaN operand: invalid only for a signaling one. -/
def nanOf (f : IeeeFmt) (xs : List IVal) : IRes := (f.nan, { IFlags.none with nv := xs.any IVal.snan })

/-- Addition of two data. -/
def ieeeAdd (f : IeeeFmt) (tz : Bool) (a b : IVal) : IRes :=
  match a, b with
  | .nan s, y => nanOf f [.nan s, y]
  | x, .nan s => nanOf f [x, .nan s]
  | .inf n, .inf m => if n == m then (signBits f n + f.infBits, .none) else invalid f
  | .inf n, .fin _ _ _ => (signBits f n + f.infBits, .none)
  | .fin _ _ _, .inf n => (signBits f n + f.infBits, .none)
  | .fin na x ea, .fin nb y eb => addFin f tz na x ea nb y eb

/-- Multiplication of two data. -/
def ieeeMul (f : IeeeFmt) (tz : Bool) (a b : IVal) : IRes :=
  match a, b with
  | .nan s, y => nanOf f [.nan s, y]
  | x, .nan s => nanOf f [x, .nan s]
  | .inf n, .inf m => (signBits f (n != m) + f.infBits, .none)
  | .inf n, .fin m y _ => if y = 0 then invalid f else (signBits f (n != m) + f.infBits, .none)
  | .fin n x _, .inf m => if x = 0 then invalid f else (signBits f (n != m) + f.infBits, .none)
  | .fin na x ea, .fin nb y eb => roundTo f tz (na != nb) false (x * y) (ea + eb)

/-- Fused multiply-add with one rounding. -/
def ieeeFma (f : IeeeFmt) (tz : Bool) (a b c : IVal) : IRes :=
  let zeroInf := match a, b with
    | .inf _, .fin _ 0 _ => true
    | .fin _ 0 _, .inf _ => true
    | _, _ => false
  if a.isNan || b.isNan then nanOf f [a, b, c]
  else if c.isNan then
    (f.nan, { IFlags.none with nv := c.snan || (zeroInf && Config.fmaZeroInfNaNInvalid) })
  else if zeroInf then invalid f
  else match a, b, c with
    | .fin na x ea, .fin nb y eb, .fin nc z ec => addFin f tz (na != nb) (x * y) (ea + eb) nc z ec
    | .fin _ _ _, .fin _ _ _, c => (match c with | .inf n => signBits f n + f.infBits | _ => f.nan, .none)
    | a, b, c =>
      let n := (match a with | .inf n => n | .fin n _ _ => n | .nan _ => false)
        != (match b with | .inf n => n | .fin n _ _ => n | .nan _ => false)
      match c with
      | .inf m => if n == m then (signBits f n + f.infBits, .none) else invalid f
      | _ => (signBits f n + f.infBits, .none)

/-- Division of two data. -/
def ieeeDiv (f : IeeeFmt) (tz : Bool) (a b : IVal) : IRes :=
  match a, b with
  | .nan s, y => nanOf f [.nan s, y]
  | x, .nan s => nanOf f [x, .nan s]
  | .inf _, .inf _ => invalid f
  | .inf n, .fin m _ _ => (signBits f (n != m) + f.infBits, .none)
  | .fin n _ _, .inf m => (signBits f (n != m), .none)
  | .fin na x ea, .fin nb y eb =>
    if y = 0 then
      if x = 0 then invalid f else (signBits f (na != nb) + f.infBits, { IFlags.none with dz := true })
    else
      let k := 2 * f.mb + 8 + y.log2
      roundTo f tz (na != nb) (x * 2 ^ k % y != 0) (x * 2 ^ k / y) (ea - eb - k)

/-- The integer square root by digits, `k` bits down. -/
def isqrt (n : Nat) : Nat := rootBelow 2 n (n.log2 / 2 + 1) 0

/-- Square root of a datum; −0 keeps its sign. -/
def ieeeSqrt (f : IeeeFmt) (tz : Bool) (a : IVal) : IRes :=
  match a with
  | .nan s => nanOf f [.nan s]
  | .inf n => if n then invalid f else (f.infBits, .none)
  | .fin n x e =>
    if x = 0 then (signBits f n, .none) else if n then invalid f else
      let k : Nat := 2 * f.mb + 8 + (e % 2).toNat
      let y := x * 2 ^ (2 * f.mb + 8 + k)
      let r := isqrt y
      roundTo f tz false (r * r != y) r ((e - (e % 2) - (4 * f.mb + 16 : Nat)) / 2)

/-- `a < b` as real numbers, neither a NaN. -/
def IVal.lt (a b : IVal) : Bool :=
  match a, b with
  | .inf n, .inf m => n && !m
  | .inf n, _ => n
  | _, .inf m => !m
  | .fin na x ea, .fin nb y eb =>
    match exactAdd na x ea (!nb) y eb with
    | some (n, _, _) => n
    | none => false
  | _, _ => false

/-- Equality as real numbers. -/
def IVal.eqv (a b : IVal) : Bool :=
  match a, b with
  | .inf n, .inf m => n == m
  | .fin na x ea, .fin nb y eb => (exactAdd na x ea (!nb) y eb).isNone
  | _, _ => false

/-- minimumNumber (`mx` false) or maximumNumber (`mx` true) of two bit patterns, −0 below +0 (Table 7-15). -/
def ieeeMinMax (f : IeeeFmt) (mx : Bool) (wa wb : Nat) : IRes :=
  let a := unpack f wa
  let b := unpack f wb
  let fl : IFlags := { IFlags.none with nv := a.snan || b.snan }
  if a.isNan && b.isNan then (f.nan, fl)
  else if a.isNan then (wb, fl)
  else if b.isNan then (wa, fl)
  else
    let aLow := a.lt b || (a.eqv b && wa / f.signW % 2 == 1)
    (if aLow != mx then wa else wb, fl)

/-- The quiet comparisons of VCMP: 0 EQ, 1 NE, 2 LT, 3 LE, 4 unordered (Table 7-15). -/
def ieeeCmp (cond : Nat) (a b : IVal) : Bool × IFlags :=
  let fl : IFlags := { IFlags.none with nv := a.snan || b.snan }
  let un := a.isNan || b.isNan
  (match cond with
    | 0 => !un && a.eqv b
    | 1 => un || !a.eqv b
    | 2 => !un && a.lt b
    | 3 => !un && (a.lt b || a.eqv b)
    | _ => un, fl)

/-- A closed interval `[lo, hi]` of fixed-point numbers with `p` fraction bits, the lower and upper bounds of a
real number that is never a fixed-point number itself. -/
structure Encl where
  lo : Nat
  hi : Nat
  deriving DecidableEq, Repr

/-- Bounds of 2^(a / 2^k), 0 ≤ a < 2^k, from the square roots of 2: `r` bounds 2^(2^-i) as the bits of `a` are
taken from the highest. -/
def exp2Bounds (p : Nat) (a : Nat) : (k : Nat) → (r acc : Encl) → Encl
  | 0, _, acc => acc
  | k + 1, r, acc =>
    let r : Encl := ⟨isqrt (r.lo * 2 ^ p), isqrt (r.hi * 2 ^ p) + 1⟩
    exp2Bounds p a k r (if a.testBit k then ⟨acc.lo * r.lo / 2 ^ p, acc.hi * r.hi / 2 ^ p + 1⟩ else acc)

/-- The rounding of a real number bounded by `[lo, hi] × 2^e`, if both bounds agree. -/
def roundEncl (f : IeeeFmt) (tz neg : Bool) (b : Encl) (e : Int) : Option IRes :=
  let x := roundTo f tz neg true b.lo e
  let y := roundTo f tz neg true (b.hi - 1) e
  if x = y then some x else none

/-- The first of the precisions at which the bounds decide the rounding. -/
def firstDecided (g : Nat → Option IRes) (dflt : IRes) : List Nat → IRes
  | [] => dflt
  | p :: ps => (g p).getD (firstDecided g dflt ps)

/-- Working precisions of the enclosures: each is far beyond the hardest case of binary32. -/
def precisions : List Nat := [160, 320, 640, 1280]

/-- 2^x, correctly rounded (Table 7-15). -/
def ieeeExp2 (f : IeeeFmt) (tz : Bool) (a : IVal) : IRes :=
  match a with
  | .nan s => nanOf f [.nan s]
  | .inf n => (if n then 0 else f.infBits, .none)
  | .fin neg m e =>
    if m = 0 then roundTo f tz false false 1 0 else
      let k := (-e).toNat
      let x : Int := (if neg then -1 else 1) * (m * 2 ^ e.toNat : Nat)      -- x / 2^k is the operand
      let i := x / (2 ^ k : Nat)
      let fr := (x % (2 ^ k : Nat)).toNat
      -- beyond the range of every finite result only the side matters
      let i := if i < -1000 then -1000 else if 1000 < i then 1000 else i
      if fr = 0 then roundTo f tz false false 1 i
      else firstDecided
        (fun p => roundEncl f tz false (exp2Bounds p fr k ⟨2 * 2 ^ p, 2 * 2 ^ p⟩ ⟨2 ^ p, 2 ^ p⟩) (i - p))
        (roundTo f tz false true 1 i) precisions

/-- Bounds of the first `n` bits of log2 of a number in [1, 2) given with `p` fraction bits, by repeated
squaring; stops where the bounds no longer decide a bit. -/
def log2Bits (p : Nat) : (n : Nat) → (y : Encl) → (acc k : Nat) → Nat × Nat
  | 0, _, acc, k => (acc, k)
  | n + 1, y, acc, k =>
    let s : Encl := ⟨y.lo * y.lo / 2 ^ p, y.hi * y.hi / 2 ^ p + 1⟩
    if 2 * 2 ^ p ≤ s.lo then log2Bits p n ⟨s.lo / 2, s.hi / 2 + 1⟩ (2 * acc + 1) (k + 1)
    else if s.hi < 2 * 2 ^ p then log2Bits p n s (2 * acc) (k + 1)
    else (acc, k)

/-- log2 x, correctly rounded (Table 7-15). -/
def ieeeLog2 (f : IeeeFmt) (tz : Bool) (a : IVal) : IRes :=
  match a with
  | .nan s => nanOf f [.nan s]
  | .inf n => if n then invalid f else (f.infBits, .none)
  | .fin neg m e =>
    if m = 0 then (signBits f true + f.infBits, { IFlags.none with dz := true })
    else if neg then invalid f
    else
      let l := m.log2
      let ex : Int := e + l
      if m = 2 ^ l then
        (if ex = 0 then (0, .none) else roundTo f tz (decide (ex < 0)) false ex.natAbs 0)
      else firstDecided
        (fun p =>
          let y := m * 2 ^ (2 * p) / 2 ^ l
          let (b, k) := log2Bits (2 * p) p ⟨y, y⟩ 0 0
          let lo : Int := ex * (2 ^ k : Nat) + b
          if 0 ≤ ex then roundEncl f tz false ⟨lo.toNat, (lo + 1).toNat⟩ (-k)
          else roundEncl f tz true ⟨(-(lo + 1)).toNat, (-lo).toNat⟩ (-k))
        (roundTo f tz (decide (ex < 0)) true 0 0) precisions

/-- Binary32 to binary16 (rounded) or binary16 to binary32 (exact) (Table 7-15). -/
def ieeeCvt (src dst : IeeeFmt) (tz : Bool) (w : Nat) : IRes :=
  match unpack src w with
  | .nan s => nanOf dst [.nan s]
  | .inf n => (signBits dst n + dst.infBits, .none)
  | .fin n m e => roundTo dst tz n false m e

end Sys2Proof.Machine
end

