-- ==== Sys2Proof/Machine/Convert.lean ====
section
/-! DEFINITION. The arithmetic of the converter on one element: paths (04.1), extended code (04.2), scaling and
rounding to the logarithmic targets (04.3), range, underflow and poison (04.4), the linear targets (04.5), and the
LFSR (R119, R120). -/

namespace Sys2Proof.Machine

/-- Input formats of a converter operation, numbered by IFMT of Table 7-10. -/
inductive CIn where
  | l8 | l16 | i8 | bin32 | acc (f : AccFmt)
  deriving DecidableEq, Repr

/-- Output formats, numbered by OFMT of R243. -/
inductive COut where
  | l8 | l16 | i8 | bin16 | bin32
  deriving DecidableEq, Repr

/-- Rounding modes (R118). -/
inductive Rnd where
  | ne | tz | st
  deriving DecidableEq, Repr

/-- IFMT of Table 7-10; other values are reserved. -/
def cinOf : Nat → Option CIn
  | 0 => some .l8 | 1 => some .l16 | 2 => some .i8 | 4 => some .bin32
  | 5 => some (.acc .a64l) | 6 => some (.acc .a64i) | 7 => some (.acc .a128) | _ => none

/-- OFMT of R243; other values are reserved. -/
def coutOf : Nat → Option COut
  | 0 => some .l8 | 1 => some .l16 | 2 => some .i8 | 3 => some .bin16 | 4 => some .bin32 | _ => none

/-- Bytes of one output element. -/
def COut.bytes : COut → Nat
  | .l8 => 1 | .l16 => 2 | .i8 => 1 | .bin16 => 2 | .bin32 => 4

/-- Bytes of one input row of a CVTM (R246). -/
def CIn.rowBytes : CIn → Nat
  | .l8 => 128 | .l16 => 256 | .i8 => 128 | .bin32 => 512
  | .acc .a128 => 528 | .acc _ => 1056

/-- Elements of an input row (R108). -/
def CIn.elems : CIn → Nat
  | .acc .a128 => 32
  | _ => 128

/-- Table 4-1: whether a pair is a path, and whether it is a wide-to-narrow path. -/
def cpath : CIn → COut → Option Bool
  | .acc _, _ => some true
  | .bin32, .bin32 => none
  | .bin32, _ => some true
  | .l16, .l8 => some true
  | .l16, .l16 => none
  | .l16, .i8 => none
  | .l16, .bin16 => some false
  | .l16, .bin32 => some false
  | .l8, .l16 => some false
  | .l8, .bin16 => some false
  | .l8, .bin32 => some false
  | .l8, _ => none
  | .i8, .bin16 => some false
  | .i8, .bin32 => some false
  | .i8, _ => none

/-- One element as the converter takes it: a poisoned one, or (−1)^neg × n × 2^e; `l16` keeps an L16 code. -/
inductive Elem where
  | bad
  | val (neg : Bool) (n : Nat) (e : Int)
  | l16 (code : Nat)
  deriving DecidableEq, Repr

/-- The signed value `v × 2^e` as an element. -/
def elemOf (v : Int) (e : Int) : Elem := .val (decide (v < 0)) v.natAbs e

/-- A code or bit pattern read in an input format as an element (02.2, R67, R122). DESIGN CHOICE (log entry 141): a binary32
infinity is unrepresentable to every output format, binary16 among them, for which Table 2-7 has no row: the canonical
quiet NaN, counted as poison. -/
def elemOfCode (f : CIn) (c : Nat) : Elem :=
  match f with
  | .l8 => if c = 0x80 then .bad else elemOf (l8Value c) (-27)
  | .l16 => if c = 0x8000 then .bad else .l16 c
  | .i8 => if c = 0x80 then .bad else elemOf (i8Value c) 0
  | .bin32 =>
    match unpack b32 c with
    | .fin n m e => .val n m e
    | _ => .bad
  | .acc _ => .bad

/-- An accumulator as an element (R62). -/
def elemOfAcc (f : AccFmt) (a : Acc) : Elem :=
  if a.poison || a.ovf then .bad else elemOf a.val (-(accPoint f : Int))

/-- The number of indexes below 2^k at which a test that is true up to some index and false after it holds. -/
def countTrue (test : Nat → Bool) : Nat → Nat → Nat
  | 0, n => if test n then n + 1 else n
  | k + 1, n => countTrue test k (if test (n + 2 ^ k - 1) then n + 2 ^ k else n)

/-- The extended code under nearest-even and stochastic rounding (R111, R113), of a magnitude n × 2^e, n > 0. -/
def lambdaNe (n : Nat) (e : Int) : Int :=
  let p := n.log2
  let c := countTrue (fun j => decide (th j * 2 ^ p < n * 2 ^ 23)) 10 0
  let c := if c < 1024 && th c * 2 ^ p == n * 2 ^ 23 then c + c % 2 else c
  1024 * ((p : Int) + e) + c

/-- The extended code under toward-zero rounding (R112, R113). -/
def lambdaTz (n : Nat) (e : Int) : Int :=
  let p := n.log2
  1024 * ((p : Int) + e) + (countTrue (fun j => decide (t16 j * 2 ^ p ≤ n * 2 ^ 15)) 10 0 - 1 : Nat)

/-- What an element counts as (R122 to R125). -/
inductive Count where
  | none | sat | unf | poi
  deriving DecidableEq, Repr

/-- What the converter delivers for an element: its code, its count, and the unscaled λ it records (R131). -/
structure CRes where
  code  : Nat
  count : Count
  lam   : Option Int
  deriving DecidableEq, Repr

/-- The poison code of a target (R62, R67, R122). -/
def COut.nar : COut → Nat
  | .l8 => 0x80 | .l16 => 0x8000 | .i8 => 0x80 | .bin16 => b16.nan | .bin32 => b32.nan

/-- A result out of range above: the largest code of the sign, or NaR where the row asks for it (R123). -/
def satCode (t : COut) (neg pos : Bool) : Nat :=
  if pos then t.nar else
  match t with
  | .l8 => if neg then 0xFF else 0x7F
  | .l16 => if neg then 0xFFFF else 0x7FFF
  | .i8 => if neg then 0x81 else 0x7F
  | .bin16 => if neg then 0xFBFF else 0x7BFF
  | .bin32 => if neg then 0xFF7FFFFF else 0x7F7FFFFF

/-- A magnitude code of a logarithmic target with its range rules (R116, R117, R123, R124). -/
def logCode (t : COut) (neg pos : Bool) (m : Int) : Nat × Count :=
  let (top, sign) : Int × Nat := match t with
    | .l16 => (32767, 0x8000)
    | _ => (127, 0x80)
  if top < m then (satCode t neg pos, .sat)
  else if m < 1 then (0, .unf)
  else (m.toNat + (if neg then sign else 0), .none)

/-- λ′ rounded to the L8 step (R117). -/
def l8Step (r : Rnd) (u : Nat) (l : Int) : Int :=
  let d := l / 128
  let k := l % 128
  let up := match r with
    | .ne => decide (64 < k) || (k == 64 && d % 2 != 0)
    | .tz => false
    | .st => decide ((u % 128 : Nat) < k)
  64 + (if up then d + 1 else d)

/-- One element to a target: `sigma` the scale code of the row, or `none` on a path without scale, `u` the
element's draw, `pos` the row's poison-on-saturation bit (R115 to R128). -/
def convElem (t : COut) (r : Rnd) (sigma : Option Nat) (u : Nat) (pos : Bool) (x : Elem) : CRes :=
  let delta : Int := match sigma with
    | some s => s - 16384
    | none => 0
  match x with
  | .bad => ⟨t.nar, .poi, none⟩
  | .l16 c =>
    let m : Int := (c % 32768 : Nat)
    let neg := c / 32768 % 2 == 1
    if m = 0 then ⟨0, .none, none⟩ else
    match t with
    | .l8 => let (k, n) := logCode .l8 neg pos (l8Step r u (m - 16384 + delta)); ⟨k, n, some (m - 16384)⟩
    | .bin32 =>
      let v := l16Value c
      ⟨(roundTo b32 (r == .tz) neg false v.natAbs (-47)).1, .none, none⟩
    | _ =>
      let v := l16Value c
      let w := (roundTo b16 (r == .tz) neg false v.natAbs (-47)).1
      if w % b16.signW = 0 then ⟨0, .unf, none⟩ else ⟨w, .none, none⟩
  | .val neg n e =>
    if n = 0 then ⟨0, .none, none⟩ else
    let lam := lambdaNe n e
    let l := if r == .tz then lambdaTz n e else lam
    match t with
    | .l16 => let (k, c) := logCode .l16 neg pos (16384 + (l + delta)); ⟨k, c, some lam⟩
    | .l8 => let (k, c) := logCode .l8 neg pos (l8Step r u (l + delta)); ⟨k, c, some lam⟩
    | _ =>
      -- W = V × σ_lin exactly (R126)
      let (wn, we) : Nat × Int := match sigma with
        | some s => (n * t16 (s % 1024), e - 15 + ((s % 32768 / 1024 : Nat) - 16))
        | none => (n, e)
      match t with
      | .i8 =>
        let sh := (-we).toNat
        let whole := wn * 2 ^ we.toNat / 2 ^ sh
        let rem := wn * 2 ^ we.toNat % 2 ^ sh
        let up := match r with
          | .ne => decide (2 ^ sh < 2 * rem) || (2 * rem == 2 ^ sh && whole % 2 == 1)
          | .tz => false
          | .st => decide (u * 2 ^ sh < rem * 256)
        let k := if up then whole + 1 else whole
        if 127 < k then ⟨satCode .i8 neg pos, .sat, some lam⟩
        else if k = 0 then ⟨0, .unf, some lam⟩
        else ⟨if neg then 256 - k else k, .none, some lam⟩
      | .bin16 =>
        let (w, fl) := roundTo b16 (r == .tz) neg false wn we
        if fl.of then ⟨satCode .bin16 neg pos, .sat, some lam⟩
        else if w % b16.signW = 0 then ⟨0, .unf, some lam⟩
        else ⟨w, .none, some lam⟩
      | _ => ⟨(roundTo b32 (r == .tz) neg false wn we).1, .none, some lam⟩

/-- L8 to L16 in code space (R47); a NaR becomes NaR, counted as poison (R122). -/
def l8ToL16 (c : Nat) : CRes :=
  if c = 0x80 then ⟨0x8000, .poi, none⟩
  else if c = 0 then ⟨0, .none, none⟩
  else ⟨(16384 + 128 * (c % 128) - 8192) + c / 128 * 0x8000, .none, none⟩

/-- One step of the LFSR (R119). -/
def lfsrStep (s : Nat) : Nat :=
  2 * s % 2 ^ 32 + (s / 2 ^ 31 + s / 2 ^ 21 + s / 2 + s) % 2

/-- A draw: 8 steps of the LFSR and its low 8 bits (R120). -/
def lfsrDraw (s : Nat) : Nat × Nat :=
  let s := lfsrStep (lfsrStep (lfsrStep (lfsrStep (lfsrStep (lfsrStep (lfsrStep (lfsrStep s)))))))
  (s, s % 256)

/-- The state SEED loads into the drain of logical cell `c` (R121). -/
def seedOf (seed c : Nat) : Nat :=
  let s := seed ^^^ ((c + 1) * 0x6C8E9CF5 % 2 ^ 32)
  if s = 0 then 1 else s

end Sys2Proof.Machine
end

