-- ==== Sys2Proof/Machine/Tab.lean ====
section
/-! DEFINITION. Tables by key with a default, and byte memory as a strictly rising list of cells that differ from
what an unlisted address reads as (`Host.Cell`). -/

namespace Sys2Proof.Machine

/-- A finite table: the value of a key is that of its first entry, else the default the reader names. -/
abbrev Tab (κ α : Type) := List (κ × α)

/-- The entry of a key, if the table lists it. -/
def tfind {κ α : Type} [DecidableEq κ] : Tab κ α → κ → Option α
  | [], _ => none
  | (k, a) :: t, q => if k = q then some a else tfind t q

/-- The value of a key, or the default. -/
def tget {κ α : Type} [DecidableEq κ] (t : Tab κ α) (k : κ) (d : α) : α := (tfind t k).getD d

/-- The table without a key. -/
def terase {κ α : Type} [DecidableEq κ] (t : Tab κ α) (k : κ) : Tab κ α := t.filter fun e => e.1 ≠ k

/-- The table with a key set. -/
def tset {κ α : Type} [DecidableEq κ] (t : Tab κ α) (k : κ) (a : α) : Tab κ α := (k, a) :: terase t k

/-- Byte memory: cells by strictly rising address, none equal to 0, which every unlisted address reads as. -/
abbrev Mem := List Host.Cell

/-- The byte at an address. -/
def memGet : Mem → Nat → Byte
  | [], _ => 0
  | (a, b) :: m, q => if a = q then b else memGet m q

/-- The memory with the byte at an address set; the value 0 removes the cell. -/
def memSet : Mem → Nat → Byte → Mem
  | [], q, v => if v = 0 then [] else [(q, v)]
  | (a, b) :: m, q, v =>
    if q < a then (if v = 0 then (a, b) :: m else (q, v) :: (a, b) :: m)
    else if q = a then (if v = 0 then m else (q, v) :: m)
    else (a, b) :: memSet m q v

/-- Every cell of the list lies above `lo`, rising, and is not 0. -/
def Mem.above : Nat → Mem → Bool
  | _, [] => true
  | lo, (a, b) :: m => decide (lo ≤ a) && b != 0 && Mem.above (a + 1) m

/-- The canonical form: addresses strictly rising, no cell equal to what an unlisted address reads as. -/
def Mem.wf (m : Mem) : Bool := Mem.above 0 m

/-- `n` bytes from an address up. -/
def memRead (m : Mem) (a n : Nat) : List Byte := (List.range n).map fun i => memGet m (a + i)

/-- Bytes stored from an address up. -/
def memWrite : Mem → Nat → List Byte → Mem
  | m, _, [] => m
  | m, a, b :: bs => memWrite (memSet m a b) (a + 1) bs

end Sys2Proof.Machine
end

