-- ==== Sys2Proof/Machine/Units.lean ====
section
/-! DEFINITION. The state that the units of the data hierarchy and the pavilions hold beside their registers, as
plain data: lanes, cells, drains, vector units, bed buses, pavilion-controller slices, stiles and requests. -/

namespace Sys2Proof.Machine

/-- The queues of the bed dispatchers (R94): one for each array group of a bed, for the converters and the vector
unit of a bed, and for each stream engine. -/
inductive UnitKey where
  | ag (bed n : Nat)
  | cvt (bed : Nat)
  | vec (bed : Nat)
  | eng (e : Nat)
  deriving DecidableEq, Repr

/-- Modes of an MMUL (R76). -/
inductive MMode where
  | ws | os | is
  deriving DecidableEq, Repr

/-- An operand item on a lane channel: the code, whether it is an L16 code, whose two bytes travel side by side on the channels
of columns 4c and 4c + 1 of its gang (log entry 14), and its last-of-pass mark (Table 3-2). -/
structure Item where
  code : Nat
  wide : Bool
  last : Bool
  deriving DecidableEq, Repr

/-- The elements of a lane (Table 3-1) with the items waiting in the channels that lead to it (R70): the current and the next
stationary value of 8 bits, the latter absent while its register is empty, the accumulator and the drain latch. Of an L16 gang the
lanes at columns 4c and 4c + 1 hold the low and the high half of each (R55, R89). `pass` is the sequencer's number of the pass
that the lane works on, `loaded` that its stationary value is that pass's, `fresh` that its next step is the pass's first,
`moveDue` that a finished OS sum waits for its drain latch (R81), `kept` that the lane has kept its own of the next values now
passing (R83), and `fwd` how many sums of the rows above it has still to pass south in the drain under way (R80). -/
structure Lane where
  cur     : Nat
  next    : Option Nat
  acc     : Acc
  latch   : Option Acc
  rowIn   : List Item
  colIn   : List Item
  sumIn   : List Acc
  pass    : Nat
  loaded  : Bool
  fresh   : Bool
  moveDue : Bool
  kept    : Bool
  fwd     : Nat
  deriving DecidableEq, Repr

/-- A lane after bed reset (R104). -/
def Lane.init : Lane := ⟨0, none, .zero, none, [], [], [], 0, false, true, false, false, 0⟩

/-- One pass of an array group on one cell (R235 to R242): its operation, its streams as byte offsets of the cell
store with their sources (0 the store, 4 to 7 a track), how far feeders, lanes and drain have come, and the sums of the weight
codes that its feeder has delivered (R137). -/
structure Pass where
  id     : Nat
  op     : UnitOp
  mode   : MMode
  fmt    : ArrFmt
  cont   : Bool
  keep   : Bool
  raw    : Bool
  zsum   : Bool
  len    : Nat
  xOff   : Nat
  yOff   : Nat
  nOff   : Nat
  oOff   : Nat
  xSrc   : Nat
  ySrc   : Nat
  nSrc   : Nat
  xStep  : Nat
  yStep  : Nat
  nStep  : Nat
  lanes  : Nat
  rows   : Nat
  colsum : Tab Nat Int
  deriving DecidableEq, Repr

/-- An array output that a drain keeps until a CVTA converts it (R245): its format, mode, rows of the shape, the
rows that have arrived, each with its row position, whether all have arrived, and the COLSUM of its own MMUL. -/
structure ArrOut where
  seq    : Nat
  fmt    : ArrFmt
  mode   : MMode
  shapeR : Nat
  rows   : List (Nat × List Acc)
  full   : Bool
  colsum : Tab Nat Int
  deriving DecidableEq, Repr

/-- A request waiting at a bank of a cell store (R72, R73): requester 0 west feeder, 1 north feeder, 2 drain, 3
bed-bus port, 4 vector unit; the line's byte offset; for a write its offset and bytes; `tag` is what a read is for (0 row operand,
1 column or sums, 2 stationary, 3 pass entry, 4 conversion entry, 5 converter input, 6 vector load, from 8 on an engine and
context of the bed) or, of a bed-bus write, the number of its transfer with the track, 4 for an engine's own write. A write carries the place in program order of its operation and the SCOPE bits of its
units. -/
structure BankReq where
  who   : Nat
  line  : Nat
  write : Option (Nat × List Byte)
  tag   : Nat
  seq   : Nat
  bits  : Nat
  deriving DecidableEq, Repr

/-- What a cell holds beside its lanes: the passes of its sequencer, the queues of its feeders (R87), the lines
read by stream and offset, the lines asked for, the bytes of transfers not yet taken by feeder and track, the sums waiting at the drain, the kept outputs, and the sequencer's checks (R214, R238, R240). -/
structure CellSt where
  passes    : List Pass
  nextId    : Nat
  westQ     : Tab Nat (List Item)
  northQ    : Tab Nat (List Item)
  sumQ      : Tab Nat (List Acc)
  drainIn   : Tab Nat (List Acc)
  lines     : Tab (Nat × Nat) (List (Option Byte))
  asked     : List (Nat × Nat)
  westBytes : Tab Nat (List Byte)
  northBytes : Tab Nat (List Byte)
  outs      : List ArrOut
  held      : Option ArrFmt
  statFmt   : Option ArrFmt
  needStart : Bool
  deriving DecidableEq, Repr

/-- A cell after bed reset (R104). -/
def CellSt.init : CellSt := ⟨[], 0, [], [], [], [], [], [], [], [], [], none, none, false⟩

/-- An entry of the statistics record (Table 4-6). -/
structure StatEnt where
  sat   : Nat
  unf   : Nat
  poi   : Nat
  maxl  : Option Int
  scale : Nat
  i8sum : Int
  deriving DecidableEq, Repr

/-- A cleared entry. -/
def StatEnt.init : StatEnt := ⟨0, 0, 0, none, 0x4000, 0⟩

/-- What a drain holds beside its registers: the history ring and its index (R131), COLSUM (R137), ROWSUM (R138)
and the statistics record (R140). -/
structure Drain where
  hist   : Tab Nat (List (Option Int))
  histIx : Nat
  colsum : Tab Nat Int
  rowsum : Tab Nat Int
  stats  : Tab Nat StatEnt
  deriving DecidableEq, Repr

/-- A drain after bed reset (R142). -/
def Drain.init : Drain := ⟨[], 0, [], [], []⟩

/-- The vector unit of a bed (R100): its registers, the rows that drains have delivered to it (R248), and, for the
check of R214, whether it is armed and the registers written since. -/
structure VecUnit where
  v     : Tab Nat (List Nat)
  s     : Tab Nat (BitVec 64)
  p     : Tab Nat (BitVec 128)
  rows  : List (Nat × List Nat)
  armed : Bool
  wv    : List Nat
  ws    : List Nat
  wp    : List Nat
  deriving DecidableEq, Repr

/-- A vector unit after bed reset (R104). -/
def VecUnit.init : VecUnit := ⟨[], [], [], [], false, [], [], []⟩

/-- Destinations of a bed-bus transfer (R95). -/
inductive BusDst where
  | cell (k : Nat)
  | west (k : Nat)
  | north (k : Nat)
  | vec
  | eng (e : Nat)
  deriving DecidableEq, Repr

/-- A transfer waiting on a bed-bus track (R95, R96): its operation's place in program order, its bytes, its
destinations, where its source names cell-store offsets (R634) the pieces it falls into, each the offset, the place of the
first byte and the length, the length up to which a feeder sees zero codes beyond its bytes (R290), whether it has waited on
the room of a destination (Table 3-14), and the SCOPE bits of the units that sent it (Table 7-17). -/
structure Xfer where
  seq   : Nat
  id    : Nat
  bytes : List Byte
  dsts  : List BusDst
  segs  : List (Nat × Nat × Nat)
  full  : Nat
  waited : Bool
  bits  : Nat
  deriving DecidableEq, Repr

/-- An operation in a queue: its opcode and the operation. -/
structure QOp where
  opc : Nat
  op  : UnitOp
  deriving DecidableEq, Repr

/-- The state of the array and the beds. `disp` are the dispatcher queues, `rx` the receive buffers of a bed, a
track and a destination, `mcast` the multicast groups of BED_ROUTE (bed, group) as DEST bits. -/
structure ArrSt where
  disp   : Tab UnitKey (List QOp)
  cells  : Tab Nat CellSt
  lanes  : Tab (Nat × Nat × Nat) Lane
  drains : Tab Nat Drain
  vecs   : Tab Nat VecUnit
  tracks : Tab (Nat × Nat) (List Xfer)
  rx     : Tab (Nat × Nat × BusDst) (List (List Byte))
  banks  : Tab (Nat × Nat) (List BankReq)
  mcast  : Tab (Nat × Nat) Nat
  nextX  : Nat
  deriving DecidableEq, Repr

/-- After bed reset of every bed. -/
def ArrSt.init : ArrSt := ⟨[], [], [], [], [], [], [], [], [], 0⟩

/-- An entry of a loop stack (R195). -/
structure LoopE where
  start : Nat
  last  : Nat
  n     : Nat
  ix    : Nat
  deriving DecidableEq, Repr

/-- A pavilion-controller slice (R29, R187 to R200): instruction buffer, the word to issue
next, loop stack (outermost first), repeat state, the permission that a WAIT has given, the stile waited on, the
control operation whose effect after the issue is due, branch outcomes on their way from the deciding slice, those received and
not yet taken, whether the
slice's snapshot part is written, whether it is held after its MARK word, the fault policy in force at its issue
point, and the count of issues. -/
structure SliceSt where
  buf     : Tab Nat (List Byte)
  pc      : Nat
  run     : Bool
  halted  : Bool
  loops   : List LoopE
  rep     : Option (Nat × Nat)
  permit  : Bool
  waiting : Option Nat
  post    : Option (BitVec 64)
  coming  : List (Bool × Nat)
  outcomes : List (Bool × Nat)
  marked  : Bool
  held    : Bool
  poison  : Bool
  issued  : Nat
  last    : Nat
  deriving DecidableEq, Repr

/-- A slice after pavilion reset. -/
def SliceSt.init : SliceSt :=
  ⟨[], 0, false, false, [], none, false, none, none, [], [], false, false, false, 0, 0xFFFFFFFF⟩

/-- A signal or token whose parts are being gathered (R204, R263): the operation, the slices that contribute and
those that have, and for a token its partner device. -/
structure SigSt where
  op    : UnitOp
  stile : Nat
  inc   : Nat
  dev   : Option Nat
  need  : List Nat
  have_ : List Nat
  sent  : Bool
  deriving DecidableEq, Repr

/-- What a MARK keeps of a drain (Table 6-5). -/
structure DrainSnap where
  drain : Drain
  regs  : List (BitVec 64)
  deriving DecidableEq, Repr

/-- A snapshot (R210): the word after MARK, the loop stack, the fault policy, per bed the IEEE flags, per cell
the drain, and the slot, 0 or 1, of each bed's area in which its bytes lie (R211). -/
structure Snapshot where
  word   : Nat
  loops  : List LoopE
  issued : Nat
  poison : Bool
  vflags : Tab Nat (BitVec 64)
  drains : Tab Nat DrainSnap
  slot   : Nat
  deriving DecidableEq, Repr

/-- An open QUIET window (R215): classes (bit 0 GDDR, 1 LINK, 2 BEDTEST), its length in µs, its place in program order,
whether its length has run out, the upkeep granted in it that has not finished, and the beds moved in it. -/
structure Quiet where
  classes : Nat
  len     : Nat
  seq     : Nat
  ended   : Bool
  granted : List Upkeep
  moved   : List Nat
  deriving DecidableEq, Repr

/-- A request in progress (R448): its queue pair, the fields that its record returns, and the last word issued. -/
structure Request where
  qp  : Nat
  evt : Bool
  cid : Nat
  tag : Nat
  sqHead : Nat
  deriving DecidableEq, Repr

/-- A MOVE that waits for its release (R302, R311): the run's place in program order and its pages. -/
structure MovePage where
  seq     : Nat
  va      : Nat
  srcVa   : Nat
  size    : Nat
  stopped : Bool
  deriving DecidableEq, Repr

/-- What a pavilion holds beside its register page and its slices: the request in progress, the fault policy, the
exchange queue in issue order with the place up to which operations have entered it, ordering fences in force,
signals being gathered, confirmed and suppressed counts (R213), the complete
snapshot and the parts of the next, the QUIET window, the program digest and the agreement digest last captured, the session of each queue pair, MOVEs
waiting for release, the steps of a reset or replay under way, and whether a pavilion commit has ended or a die reset has
struck since the reset under way began (R34, R164). -/
structure PavSt where
  req       : Option Request
  poison    : Bool
  xq        : List QOp
  xseen     : Nat
  ordf      : List UnitOp
  sigs      : List SigSt
  confirmed : Nat
  suppress  : Nat
  snap      : Option Snapshot
  parts     : List Nat
  snapNew   : Option Snapshot
  snapFail  : Bool
  quiet     : Option Quiet
  digest    : List Byte
  agdCap    : List Byte
  sessions  : Tab Nat Nat
  lastTok   : Tab Nat Nat
  moves     : List MovePage
  replay    : Bool
  stalled   : Bool
  lastProg  : List Nat
  served    : Nat
  soiled    : Bool
  deriving DecidableEq, Repr

/-- A pavilion with nothing under way. -/
def PavSt.init : PavSt :=
  ⟨none, false, [], 0, [], [], 0, 0, none, [], none, false, none, List.replicate 48 0, [], [], [], [], false, false,
    [], 15, false⟩

/-- What a gather or scatter row does (R281). -/
inductive RowSel where
  | row (x4 : Nat)
  | skip
  | bad
  deriving DecidableEq, Repr

/-- An outstanding request of a run (R278, R283, R284): its tag, whether it writes, whether it is remote, the die
whose pool its tag is from, the physical and virtual address, for a read of a strided source the first element and the
count, for a write its dense offset, its length, the caravan stop it serves, and the answer once there is one. -/
structure SReq where
  tag    : Nat
  write  : Bool
  remote : Bool
  die    : Nat
  pa     : Nat
  va     : Nat
  first  : Nat
  count  : Nat
  dense  : Nat
  len    : Nat
  stop   : Nat
  resp   : Option (Nat × List (Option Byte))
  deriving DecidableEq, Repr

/-- A stop of a caravan (Table 8-7). -/
structure CarStop where
  remote : Bool
  target : Nat
  off    : Nat
  len    : Nat
  near   : Nat
  window : Nat
  woff   : Nat
  deriving DecidableEq, Repr

/-- A burst in the buffer of a caravan stop (R296): its dense offset and bytes, how many of its kept bytes have been sent to their
target, whether the next stop has taken it or does not need it, and the numbers, from the first up to the second, of the bed-bus
transfers and cell-store writes that its kept bytes made. -/
structure CarBurst where
  off     : Nat
  bytes   : List Byte
  written : Nat
  passed  : Bool
  ids     : Nat × Nat
  deriving DecidableEq, Repr

/-- What a caravan holds at a stop: the bursts in its buffer, bytes kept so far, whether the stop has a slot, whether it has
confirmed, and whether its partner is lost (R296 to R299). -/
structure CarAt where
  bursts    : List CarBurst
  kept      : Nat
  slot      : Bool
  confirmed : Bool
  gone      : Bool
  deriving DecidableEq, Repr

/-- A stop that nothing has reached. -/
def CarAt.init : CarAt := ⟨[], 0, false, false, false⟩

/-- A stop past the end of the list. -/
def CarStop.none : CarStop := ⟨false, 0, 0, 0, 0, 0, 0⟩

/-- A stop of a collective plan (Table 14-13). -/
structure PlanStop where
  pav   : Nat
  plan  : Nat
  tree  : Bool
  rank  : Nat
  count : Nat
  eng   : Nat
  next  : Option (Nat × Nat)
  nwin  : Nat
  peer0 : Option (Nat × Nat)
  peer1 : Option (Nat × Nat)
  rwin  : Nat
  deriving DecidableEq, Repr

/-- A collective in progress (R501 to R504): which it is (8 ALLRED, 9 RSCAT, 10 AGATH), its stop, its completion stile,
bytes sent by phase and step, bytes of its result written, and whether a partner refused it. -/
structure ColSt where
  kind    : Nat
  stop    : PlanStop
  dstile  : Nat
  sent    : Tab (Nat × Nat) Nat
  wr      : Nat
  refused : Bool
  deriving DecidableEq, Repr

/-- A run in progress (R253 to R301): the opcode of its slot operation (2 RUN, 7 SEND, 8 to 10 a collective), the
operation, the strided base as advanced, whether it combines, the bed and track of its dense side, how far element
generation, the issue of dense writes, the intake of a dense source and the delivery of bursts have come, the stream
buffer by dense offset (byte, and whether it cannot be read), combined blocks by dense block, outstanding requests, rows
of the index list, bursts delivered, the caravan, the collective, whether a partner was lost, and whether the run has
ended and only waits for its tags. -/
structure RunSt where
  opc    : Nat
  op     : UnitOp
  base   : Nat
  comb   : Bool
  track  : Option (Nat × Nat)
  gen    : Nat
  wpos   : Nat
  got    : Nat
  sent   : Nat
  buf    : Tab Nat (Byte × Bool)
  blocks : Tab Nat (List Byte)
  reqs   : List SReq
  rows   : Tab Nat RowSel
  stops  : List CarStop
  at_    : Tab Nat CarAt
  col    : Option ColSt
  lost   : Bool
  dead   : Bool
  deriving DecidableEq, Repr

/-- The state of the stream engines beside their registers: descriptors lie in SE_CTX_DESC; `runs` are the runs in
progress by engine and context, `colRx` the bytes received for a collective by pavilion, plan, engine, phase and step
(for a tree, the child). -/
structure StrSt where
  runs  : Tab (Nat × Nat) RunSt
  colRx : Tab (Nat × Nat × Nat × Nat × Nat) (List Byte)
  deriving DecidableEq, Repr

/-- A translation held in a TLB (R360): tag, virtual base, page size 2^log2, frame, permissions and attributes. -/
structure TlbE where
  ast   : Nat
  vbase : Nat
  log2  : Nat
  frame : Nat
  r     : Bool
  w     : Bool
  x     : Bool
  bias  : Bool
  c     : Bool
  deriving DecidableEq, Repr

/-- A non-leaf entry of a walk cache: tag, level of the table it names, the virtual base it covers, the table. -/
structure WalkE where
  ast   : Nat
  level : Nat
  vbase : Nat
  table : Nat
  deriving DecidableEq, Repr

/-- A command in the invalidation queue (R362 to R364): its kind (0 range, 1 tag, 2 all), tag and range, whether a MOVE
release or a pavilion reset issued it, whether it has taken effect, and the requests it drains, as engine, context and
tag. -/
structure InvCmd where
  kind  : Nat
  ast   : Nat
  base  : Nat
  len   : Nat
  own   : Bool
  taken : Bool
  drain : List (Nat × Nat × Nat)
  deriving DecidableEq, Repr

/-- The translation caches and the invalidation queue of the stream MMU, with the writes that wait for a place. -/
structure SmmuSt where
  engTlb  : Tab Nat (List TlbE)
  fetTlb  : Tab (Nat × Nat) (List TlbE)
  dieTlb  : Tab (Nat × Nat) (List TlbE)
  walkC   : Tab Nat (List WalkE)
  invq    : List InvCmd
  waiting : List (BitVec 64)
  deriving DecidableEq, Repr

/-- The Waystation: the buckets in hundredths of a byte with the MTIME at which each was last filled (R375), and the
entries that a Trellis section has set, each with its section's pavilion (R170). -/
structure WsSt where
  bucket  : Tab Nat (Nat × Nat)
  trellis : List (Nat × Nat)
  deriving DecidableEq, Repr

/-! ### Link ports and sessions (14) -/

/-- An SLP request or response frame (Table 14-5), with whether it arrived in the channels after the dateline of the
dimension in which it goes on (R490). -/
structure OFrame where
  typ     : Nat
  fin     : Bool
  dst     : Nat
  src     : Nat
  srcpav  : Nat
  hops    : Nat
  keyid   : Nat
  status  : Nat
  window  : Nat
  offset  : Nat
  tag     : Nat
  eng     : Nat
  arg     : Nat
  cstile  : Nat
  eseq    : Nat
  payload : List Byte
  late    : Bool
  deriving DecidableEq, Repr

/-- A link frame: its type, FLAGS[0] and payload. -/
structure LFrame where
  typ     : Nat
  fin     : Bool
  payload : List Byte
  deriving DecidableEq, Repr

/-- An admission rule (Table 14-3). -/
structure GateRule where
  ix     : Nat
  mat    : Nat
  dev    : Nat
  keyid  : Nat
  allow  : Nat
  pavlo  : Nat
  pavhi  : Nat
  rate   : Nat
  bucket : Nat
  kh     : List Byte
  deriving DecidableEq, Repr

/-- An authenticated partner of a port or session: its device ID, the hash of its key, its rule, and the keys and salts
of the two directions (R468). -/
structure Partner where
  dev    : Nat
  key    : List Byte
  rule   : GateRule
  txKey  : List Byte
  rxKey  : List Byte
  deriving DecidableEq, Repr

/-- A handshake under way (R467): the HELLO sent, the private ephemeral key behind it, and the partner's HELLO with the
rule it matches, once it is accepted. -/
structure HsSt where
  own   : List Byte
  nonce : List Byte
  eph   : List Byte
  hello : Option (HelloMsg × GateRule)
  deriving DecidableEq, Repr

/-- A link port beside its registers: its committed lane map, encryption, shares and groups; the partner and the
handshake under way; frames waiting, the replay buffer by LSEQ, LSEQs to send again, sequence and control counters and
the phase of the sending key; credits at the partner and credits owed by VC, the bucket of R474, frames since the last
LACK and whether one is due, link frames waiting, MTIMEs of hostile events, bytes sent by arbitration group in its
present round (R493) and requests since the last response; whether a failed handshake waits for its retry, whether its
frames are moving to its sibling (R482), and the VC whose credit is awaited in SLOW; the epochs of the two directions' keys, the
frames of the replay buffer that were sealed in the phase before, the partner's phase, and the frames for which its phase before
is still accepted (R485). -/
structure PortSt where
  lanes   : Nat
  enc     : Bool
  share   : List (Nat × Nat)
  beacons : List Nat
  partner : Option Partner
  hs      : Option HsSt
  txq     : List OFrame
  replay  : List (Nat × OFrame)
  resend  : List Nat
  lseqTx  : Nat
  lseqRx  : Nat
  ctlTx   : Nat
  ctlRx   : Nat
  txPhase : Bool
  cred    : Tab Nat Nat
  owed    : Tab Nat Nat
  bucket  : Nat × Nat
  unacked : Nat
  lackDue : Bool
  linkq   : List LFrame
  hostile : List Nat
  used    : Tab Nat Nat
  since   : Nat
  waiting : Bool
  moving  : Bool
  slowVc  : Nat
  txEpoch : Nat
  rxEpoch : Nat
  oldTx   : List Nat
  rxPhase : Bool
  rxOld   : Nat
  deriving DecidableEq, Repr

/-- A port with no partner and nothing waiting. -/
def PortSt.init : PortSt :=
  ⟨0, false, [], [], none, none, [], [], [], 0, 0, 0, 0, false, [], [], (0, 0), 0, false, [], [], [], 0, false, false, 0, 0, 0, [],
    false, 0⟩

/-- Whose request a partner has not answered: a run of an engine's context, a hart with the size of its access, or a
token of a pavilion by its place in program order. -/
inductive Asker where
  | run (eng ctx : Nat)
  | hart (h size : Nat)
  | token (p seq : Nat)
  deriving DecidableEq, Repr

/-- A request of this device that a partner has not answered: the frame, the port it took, who asked, whether a retry
waits to be resent, and where it travels as a KMT message its session and sequence number. -/
structure OutReq where
  frame : OFrame
  port  : Nat
  asker : Asker
  retry : Bool
  kmt   : Option (Nat × Nat)
  deriving DecidableEq, Repr

/-- An inbound request that is admitted and waits for memory: the frame, the port, and its KMT session if any. -/
structure InWait where
  frame : OFrame
  port  : Nat
  via   : Option Nat
  deriving DecidableEq, Repr

/-- A KMT message that the device sends: the fields of its header that the session does not give (Table 14-8), and its
body. -/
structure KmtOut where
  kind   : Nat
  qpw    : Nat
  pav    : Nat
  status : Nat
  offset : Nat
  cinc   : Nat
  cstile : Nat
  body   : List Byte
  deriving DecidableEq, Repr

/-- A KMT session (R486, R487): its port, the partner with its MAC address or the handshake under way, the next sequence
number sent and expected, messages that wait and messages sent and not acknowledged, retransmissions without progress,
the retransmission interval, and whether an acknowledgment is due; messages received ahead of their turn, each with its kind; and
LP_ETH and the port's own IP address as its handshake took them (R506). -/
structure KmtSt where
  port    : Nat
  partner : Option Partner
  hs      : Option HsSt
  txSeq   : Nat
  rxSeq   : Nat
  queue   : List KmtOut
  unacked : List (Nat × KmtOut)
  tries   : Nat
  rto     : Nat
  ackDue  : Bool
  mac     : Nat
  early   : List (Nat × KmtMsg)
  eth     : BitVec 64
  ip      : Nat
  deriving DecidableEq, Repr

/-- The link ports, their rules and plans, requests in flight, inbound requests waiting for memory, commit-stile
increments whose write is complete (stile and increment), sequence numbers by engine and context, KMT sessions and the
next session number, ports whose retraining is requested (R483), BEACON entries by port and index whose beacon is due (R178);
the identity key and chain of the device, the host
trust anchors and the revocation list of the signed firmware (14.2). -/
structure LnkSt where
  ports   : Tab Nat PortSt
  rules   : Tab Nat (List GateRule)
  plans   : List PlanStop
  outst   : List OutReq
  inb     : List InWait
  commits : List (Nat × Nat)
  eseq    : Tab (Nat × Nat) Nat
  kmt     : Tab Nat KmtSt
  nextSes : Nat
  retrain : List Nat
  beacons : List (Nat × Nat)
  idKey   : List Byte
  idChain : List Byte
  anchors : List (List Byte)
  revoked : List Byte
  deriving DecidableEq, Repr

/-! ### Memory, home agents and coherence (09, 11) -/

/-- Marks on stored words of 8 bytes of cell stores and scratchpad, and on words and tags of partition lines: a single-bit
error, an uncorrectable error, or poison (R74, R318). -/
inductive Mark where
  | single | double | poison
  deriving DecidableEq, Repr

/-- A line's 256 bytes and its 8-byte words that cannot be read (R318, R338). -/
structure LineD where
  bytes : List Byte
  bad   : List Nat
  deriving DecidableEq, Repr

/-- A directory entry (R383): presence of each core die, the owner and its state; `unknown` in owner order. -/
structure Dir where
  p0      : Bool
  p1      : Bool
  own     : Option Nat
  st      : LineState
  unknown : Bool
  deriving DecidableEq, Repr

/-- No core holder. -/
def Dir.none : Dir := ⟨false, false, Option.none, .i, false⟩

/-- A line of an Orangery cache partition (R320, R323): its line number, age, data, errors of its words, an error of its
tag, and in the shared partition its directory entry. -/
structure PLine where
  la     : Nat
  age    : Nat
  dirty  : Bool
  data   : LineD
  errs   : List (Nat × Mark)
  tagErr : Option Mark
  dir    : Dir
  deriving DecidableEq, Repr

/-- How an access reaches memory (Table 9-1, Table 9-4): scratchpad of a die, the GDDR7 controller of a die, or the
partition of an owner at a home agent. -/
inductive MPath where
  | scratch (die : Nat)
  | direct (die : Nat)
  | part (die owner : Nat)
  deriving DecidableEq, Repr

/-- A request of a stream engine at a home agent or controller: its pavilion, engine, context and tag, its path, whether it writes, its
address and length, and the bytes of a write. -/
structure MemReq where
  pav   : Nat
  eng   : Nat
  ctx   : Nat
  tag   : Nat
  path  : MPath
  write : Bool
  pa    : Nat
  len   : Nat
  data  : List Byte
  deriving DecidableEq, Repr

/-- Home agents and GDDR7 controllers: the lines of the partitions by die, way-group and set, the request queues of
home agents and controllers with the pavilion each served last, the prefetch queues, the corrected-line counts of
64 KiB blocks, the blocks counted while the retirement table was full, the next group each component scrubs, temperatures
at the last training, the dies that have taken a waiting region commit, the stored check bytes of the GDDR7 lines whose
check bytes do not match their data, and the groups whose check lines a controller caches (R339). -/
structure OrgSt where
  lines : Tab (Nat × Nat × Nat) PLine
  hq    : Tab Nat (List MemReq)
  gq    : Tab Nat (List MemReq)
  hturn : Tab Nat Nat
  gturn : Tab Nat Nat
  pfq   : Tab Nat (List (Nat × Nat))
  blk   : Tab (Nat × Nat) Nat
  scrub : Tab (Nat × Nat) Nat
  full  : List (Nat × Nat)
  trained : Tab (Nat × Nat) Nat
  rgnDone : List Nat
  checks : Tab Nat (List Byte)
  cached : Tab Nat (List Nat)
  deriving DecidableEq, Repr

/-- An error of a word of a line in the core caches (Table 12-2): the cache as CORE_ERR.SRC numbers it, the hart whose cache it is
where that is not the L3, the word of 8 bytes, and the error, which in an L1I is a parity error. -/
structure CErr where
  src  : Nat
  hart : Nat
  word : Nat
  mark : Mark
  deriving DecidableEq, Repr

/-- A line in a caching agent (R381): its state and data, its way and age in the L3 of the core die, and the errors of its words in
the caches of the die (Table 12-2). -/
structure CLine where
  st   : LineState
  data : LineD
  way  : Nat
  age  : Nat
  errs : List CErr
  deriving DecidableEq, Repr

/-- No copy of a line. -/
def CLine.gone : CLine := ⟨.i, ⟨[], []⟩, 0, 0, []⟩

/-- A set of a hart's private cache (Table 12-2): the line of each way, and the bits of the tree by which it is replaced. -/
structure PrivSet where
  ways : List (Option Nat)
  tree : Nat
  deriving DecidableEq, Repr

/-- Requests of a caching agent (Table 11-4). -/
inductive CReqKind where
  | readShared | readOwn | upgrade | cleanEvict | writeBack
  deriving DecidableEq, Repr

/-- A load of a hart that waits for a line: the hart, its address and size, and whether it is a fetch. -/
structure WaitLoad where
  hart  : Nat
  pa    : Nat
  size  : Nat
  fetch : Bool
  deriving DecidableEq, Repr

/-- An outstanding request of a caching agent: its kind, the data and the state it has been given so far, and the loads that
wait for it. -/
structure CReq where
  kind  : CReqKind
  data  : Option LineD
  grant : Option LineState
  loads : List WaitLoad
  deriving DecidableEq, Repr

/-- Snoops (Table 11-4). -/
inductive SnpKind where
  | shared | clean | own | inv | back | promote
  deriving DecidableEq, Repr

/-- Coherence messages in flight (Table 11-4). -/
inductive CMsg where
  | req (k : CReqKind) (cd la : Nat) (data : Option LineD)
  | snp (k : SnpKind) (cd la : Nat)
  | ack (cd la : Nat) (was : LineState)
  | ackWb (cd la : Nat)
  | complete (cd la : Nat) (st : LineState)
  | data (dst : CohDst) (la : Nat) (d : LineD)
  | query (die cd : Nat) (set : Option Nat)
  | presence (die cd la : Nat) (st : LineState)
  | endRec (die cd : Nat) (set : Option Nat)
  deriving DecidableEq, Repr

/-- A transaction of a line at its home (R392), from its beginning until its requester's request completes: the request, the
core dies whose answers it waits for, the states that the holders had, whether data to the home is due, the die whose
WriteBack is in flight, whether the home has sent its Complete, and whether it began in owner order. -/
structure Txn where
  la      : Nat
  kind    : CReqKind
  cd      : Nat
  wait    : List Nat
  was     : Tab Nat LineState
  data    : Bool
  wb      : Option Nat
  granted : Bool
  owner   : Bool
  deriving DecidableEq, Repr

/-- A store in a hart's store buffer (R412): its bytes lie in one line. -/
structure StoreEnt where
  pa   : Nat
  data : List Byte
  deriving DecidableEq, Repr

/-- The coherence state: the lines of the two core dies, their outstanding requests, messages in flight,
transactions at the homes, the store buffers of the harts, the core dies whose end record a home agent awaits, each with the set queried, whether a
bias command waits for its commit, the reservation of each hart: the address of its 64-byte block (R416, R426), and the sets
of the L1I, L1D and L2 caches by hart and set: they hold lines of the L3 of their die, whose state and data are the line's. -/
structure CohSt where
  lines  : Tab (Nat × Nat) CLine
  reqs   : Tab (Nat × Nat) CReq
  msgs   : List CMsg
  txns   : List Txn
  sb     : Tab Nat (List StoreEnt)
  ends   : Tab Nat (List (Nat × Option Nat))
  biasGo : Bool
  resv   : Tab Nat Nat
  l1i    : Tab (Nat × Nat) PrivSet
  l1d    : Tab (Nat × Nat) PrivSet
  l2     : Tab (Nat × Nat) PrivSet
  deriving DecidableEq, Repr

/-! ### Die-to-die ports and Lodges (01.2) -/

/-- A die-to-die port: flits waiting to go, the replay buffer, sequence numbers sent and expected, flits a class may
still send (R17) and the flits sent since the last interrupt and the last management flit, turns left in the present
round of the three weighted classes, and the failed lanes of the direction that the die receives (R19, R20). -/
structure D2dPort where
  txq    : List Flit
  replay : List Flit
  txSeq  : Nat
  rxSeq  : Nat
  used   : Tab D2dClass Nat
  sinceI : Nat
  sinceM : Nat
  turns  : Tab D2dClass Nat
  bad    : List Nat
  deriving DecidableEq, Repr

/-- A port after its training. -/
def D2dPort.init : D2dPort := ⟨[], [], 0, 0, [], 15, 15, [], []⟩

/-- The die-to-die ports by die and number, and the routes that a reroute has set by source and destination die (R21). -/
structure D2dSt where
  ports  : Tab (Nat × Nat) D2dPort
  routes : Tab (Nat × Nat) (List Nat)
  deriving DecidableEq, Repr

/-! ### The Trellis (05) -/

/-- A section of an image: its 32-byte header and its payload (Table 5-2). -/
structure TSec where
  hdr : List Byte
  pay : List Byte
  deriving DecidableEq, Repr

/-- The Trellis control block beside its registers: the staged image, base and length of a copy under way, the pavilion
of a commit under way, the sections in force in the order of R147, the keys of the four slots, the sections that a
register commit has drifted from (R170), faults that wait for the end of a pavilion commit and the beds whose replacement
waits for it (R164), and the digest captured by a read (R176). -/
structure TrlSt where
  image  : Option (List Byte)
  stage  : Nat × Nat
  target : Nat
  force  : List TSec
  keys   : List (List Byte)
  drifts : List (Nat × Nat)
  late   : List FaultReport
  beds   : List Nat
  cap    : List Byte
  deriving DecidableEq, Repr

/-! ### Alarms, logs and recovery (15) -/

/-- Alarm records of the Lodges and their per-code counters; the Keeper's queue, each record with the die it came from
and, once sent, its session and sequence number; the counted alarms of a full queue by source; the log buffer with the MTIME of each record and the
buckets of the log sources, in 100,000ths of a record with the MTIME of their last filling; MTIMEs of control-state faults
by bed slot and by slice; MTIMEs of Keeper mismatches; failed firmware checks of the present Keeper reset; and the
sessions that have subscribed, latest first; and trace records on their way out. -/
structure TelSt where
  lodge   : Tab Nat (List AlarmRec)
  counts  : Tab (Nat × Nat) AlarmRec
  queue   : List (Nat × Option (Nat × Nat) × AlarmRec)
  coal    : Tab Nat AlarmRec
  log     : List (Nat × FaultReport)
  buckets : Tab (Nat × Nat) (Nat × Nat)
  slotHit : Tab Nat Nat
  sliceHit : Tab Nat Nat
  mism    : List Nat
  fwFails : Nat
  subs    : List Nat
  traces  : List (List Byte)
  deriving DecidableEq, Repr

/-! ### Power, pace and upkeep (16) -/

/-- The power control beside its registers: cap pace and thermal pace in beats/s, failed reads of each rail in
succession, the target that each loop follows, detectors reporting droop by die, dies in droop, rails in the hold after
it, droops of each die in the present second, regulators that assert their alert, dies whose thermal warning stands,
whether the thermal brake and the shutdown brake are engaged and whether the cap holds its brake, upkeep deferred,
dies whose spare has passed its self-test, rotations requested, by die with the logical bed, and rails that the last read found
out of range (R631). -/
structure PwrSt where
  capHz   : Nat
  thermHz : Nat
  fails   : Tab Nat Nat
  taken   : Tab Nat Nat
  droop   : Tab Nat (List Nat)
  inDroop : List Nat
  hold    : List Nat
  droopS  : Tab Nat (Nat × Nat)
  alerts  : List Nat
  warned  : List Nat
  therm   : Bool
  shut    : Bool
  braked  : Bool
  deferred : List Upkeep
  tested  : List Nat
  rotate  : Tab Nat Nat
  outside : List Nat
  deriving DecidableEq, Repr

/-! ### Reset, boot and management (17) -/

/-- Fuses: pace class, boot voltages of VDDA and VDDL and the voltage of VDDM in 5 mV above 0.75 V, revoked Trellis key slots, fused security version, revoked boot-ROM key slots, the
device secret, the vendor code of IDCODE, and the MAC addresses of the link ports and the management port. -/
structure Fuses where
  cls     : Nat
  vbootA  : Nat
  vbootL  : Nat
  vddm    : Nat
  trlRev  : Nat
  svn     : Nat
  romRev  : Nat
  secret  : List Byte
  jep106  : Nat
  macs    : List Nat
  deriving DecidableEq, Repr

/-- Straps as the board sets them (Table 17-3). -/
structure Straps where
  bootMode : Nat
  spiQuad  : Bool
  rate     : Nat
  density  : Bool
  deriving DecidableEq, Repr

/-- What the device does: it holds a cold reset, waits to boot, has stopped in boot, or runs. -/
inductive Phase where
  | inReset | booting | stopped | running
  deriving DecidableEq, Repr

/-- Pins, straps, fuses and resets: the levels of SYS_RESET_N, PWR_GOOD, VAUX in range, WARM_RESET_N and what the board
drives on SMB_ALERT_N, whether the device drives it, the MTIME at which an internal cold reset ends, that at which a cold
reset begins after PWR_GOOD has fallen, the phase, the cause of the reset under way, a requested warm reset by its cause, whether it waits for its pin at the end of step 6, whether a
warm reset is under way (R582), requested die resets, reference inputs present, and whether the device is lost (R529). -/
structure SysSt where
  resetN   : Bool
  pwrGood  : Bool
  vauxOk   : Bool
  warmN    : Bool
  smbN     : Bool
  smbOwn   : Bool
  coldHold : Option Nat
  coldAt   : Option Nat
  phase    : Phase
  cause    : Nat
  warmReq  : Option Nat
  warmHeld : Bool
  warmOn   : Bool
  dieReq   : List Nat
  r156     : Bool
  r100     : Bool
  lost     : Bool
  straps   : Straps
  fuses    : Fuses
  deriving DecidableEq, Repr

/-- A request of the Keeper (R599): from a session of the management port with its bytes, or from the mailbox with its
address and length. -/
inductive KReq where
  | port (session : Nat) (msg : List Byte)
  | mailbox (addr len : Nat)
  deriving DecidableEq, Repr

/-- The SPDM responder (R595): how far negotiation has come (0 nothing, 1 GET_VERSION, 2 GET_CAPABILITIES, 3
NEGOTIATE_ALGORITHMS), the messages that enter the transcript so far, a session's number, whether it is established,
its transcript and its keys. -/
structure SpdmSt where
  stage : Nat
  msgs  : List Byte
  ses   : Option Nat
  up    : Bool
  trans : List Byte
  key   : List Byte
  deriving DecidableEq, Repr

/-- The JTAG TAP (R605): instruction register, boundary-scan cells preloaded and whether they drive the pins, the value
last scanned out. -/
structure JtagSt where
  ir    : Nat
  cells : List Bool
  drive : Nat
  dmi   : BitVec 64
  deriving DecidableEq, Repr

/-- The Keeper: its requests in order of arrival, the flash (each byte stored as its complement, so that an unlisted one is
erased) and its size, the verified bundle with its slot, what its configuration holds, the SPDM responder and the TAP. -/
structure KprSt where
  queue  : List KReq
  flash  : Mem
  size   : Nat
  bundle : List Byte
  cfg    : FwConfig
  spdm   : SpdmSt
  jtag   : JtagSt
  deriving DecidableEq, Repr

/-! ### Harts (12) -/

/-- A hart as the Keeper starts it (R592): whether it runs, its start address, a0 and a1. -/
structure HartSt where
  run : Bool
  pc  : Nat
  a0  : Nat
  a1  : Nat
  deriving DecidableEq, Repr

/-- What the hub gives the harts: their starts, timer comparators and pending timer interrupts, and the words of the APLIC
by domain (0 machine, 1 supervisor) and offset. -/
structure HubSt where
  harts : Tab Nat HartSt
  cmp   : Tab (Nat × TimerSel) (BitVec 64)
  timer : List (Nat × TimerSel)
  aplic : Tab (Nat × Nat) Nat
  deriving DecidableEq, Repr

end Sys2Proof.Machine
end

