-- ==== Sys2Proof/Machine/State.lean ====
section
/-! DEFINITION. The state of the device as plain data, the reasons a step can stop, and the state right after cold
reset (17.1). -/

namespace Sys2Proof.Machine

/-- A register of Table 18-3: its name and up to two indexes of its family. -/
structure RegKey where
  r : Reg
  i : Nat
  j : Nat
  deriving DecidableEq, Repr

/-- What the device sends out, in order: answers to register accesses, interrupts, frames, messages, reports. -/
inductive Sent where
  /-- The status with which a refused or completed access answers (R4, R513). -/
  | status (code : Nat)
  /-- The value that a read answers. -/
  | value (v : BitVec 64)
  /-- The value that an access of a hart returns. -/
  | hart (h : Nat) (v : BitVec 64)
  /-- An exception of a hart's access, by its RISC-V cause: 5 load, 7 store or AMO access fault. -/
  | trap (h cause : Nat)
  /-- An SLP request or response frame sent on a port with its LSEQ and its key phase (14.4). -/
  | slp (port lseq vc : Nat) (kph : Bool) (f : OFrame)
  /-- A link frame sent on a port with its control counter and its key phase (R477). -/
  | link (port ctl : Nat) (kph : Bool) (f : LFrame)
  /-- An answer to an ARP request or neighbour solicitation on a port: the address and the MAC address asked from. -/
  | neighbour (port ip mac : Nat) (v6 : Bool)
  /-- An SPDM message answered on the management port outside its sessions (R595). -/
  | spdm (body : List Byte)
  /-- A flit sent on a die-to-die port with its CRC-32C, and one delivered to its class (R17, R18). -/
  | flit (die port : Nat) (f : Flit) (crc : Nat)
  | flitIn (die port : Nat) (f : Flit)
  /-- A 32-byte frame on the Lodge bus of a die, `up` to the Keeper (R22). -/
  | lodge (die : Nat) (up : Bool) (frame : List Byte)
  /-- A retransmission asked for from the sequence number on (R18). -/
  | flitNak (die port seq : Nat)
  /-- Bytes on the UART (R593, R606). -/
  | uart (bs : List Byte)
  /-- A set point sent to a rail over AVSBus in mV, and a rail commanded off over PMBus (R547, R568). -/
  | setPoint (rail mv : Nat)
  | railOff (rail : Nat)
  /-- The results a0 and a1 of an SBI call (R437); errors as two's complement. -/
  | sbi (h : Nat) (err : Int) (v : BitVec 64)
  /-- What a scan of a TAP register shifts out (R605). -/
  | tdo (width v : Nat)
  /-- A KMT message sent on a session with its SEQ and ACK (14.5). -/
  | kmt (session seq ack : Nat) (m : KmtOut)
  deriving DecidableEq, Repr

/-- A fault record of a Lodge (Table 15-2): the die, the record number, MTIME at detection, and the other fields. -/
structure FaultEntry where
  die   : Nat
  seq   : Nat
  mtime : Nat
  rep   : FaultReport
  deriving DecidableEq, Repr

/-- The state of the device. -/
structure State where
  pending : List Instr
  freeCtr : Nat
  mtime   : Nat
  regs    : Tab RegKey (BitVec 64)
  shadows : Tab RegKey (BitVec 64)
  mem     : Mem
  marks   : Tab Nat Mark
  arr     : ArrSt
  str     : StrSt
  smmu    : SmmuSt
  ws      : WsSt
  lnk     : LnkSt
  org     : OrgSt
  coh     : CohSt
  slices  : Tab (Nat × Nat) SliceSt
  pavs    : Tab Nat PavSt
  binds   : Tab Nat Nat
  raised  : List (Nat × AlarmRec)
  records : List FaultEntry
  lodgeSeq : Tab Nat Nat
  imsic   : List (Nat × Nat × Nat)
  d2d     : D2dSt
  trl     : TrlSt
  tel     : TelSt
  pwr     : PwrSt
  sys     : SysSt
  kpr     : KprSt
  hub     : HubSt
  out     : List Sent
  deriving DecidableEq, Repr

/-- No command of the device ends in a fault: what the specification calls a fault is a state of the device, with a
status, a fence or a record. The one reason here is kept for a memory outside the canonical form, which no command
builds. -/
inductive Fault where
  /-- Raised by nothing; safe. -/
  | none
  deriving DecidableEq, Repr

/-- Reasons for which a command has no meaning here. -/
inductive Refusal where
  /-- An arm of `exec` that has no meaning yet; safe. -/
  | notModelled (mnemonic : String)
  deriving DecidableEq, Repr

/-- Register fields that cold reset loads from fuses and straps (R12): the part and revision of KPR_ID, the die numbers of
LDG_STATUS, the class and boot voltages, revoked key slots, FUSE_SVN, the straps in KPR_STRAP and GDR_CFG. -/
def fuseRegs (f : Fuses) (st : Straps) : Tab RegKey (BitVec 64) :=
  [(⟨.kprId, 0, 0⟩, 0x21C00100), (⟨.pwrClass, 0, 0⟩, BitVec.ofNat 64 (f.vbootA * 2 ^ 16 + f.vbootL * 2 ^ 8 + f.cls)),
    (⟨.trlKeys, 0, 0⟩, BitVec.ofNat 64 (f.trlRev * 16)), (⟨.kprFw, 0, 0⟩, BitVec.ofNat 64 (f.svn * 2 ^ 16)),
    (⟨.kprStrap, 0, 0⟩, BitVec.ofNat 64 (st.bootMode * 64 + (if st.spiQuad then 32 else 0) + (if st.density then 16 else 0)
      + st.rate * 2))]
  ++ ((List.range 11).map fun d => (⟨.ldgStatus, d, 0⟩, BitVec.ofNat 64 (d * 256)))
  ++ ((List.range 8).map fun d => (⟨.gdrCfg, d, 0⟩,
    BitVec.ofNat 64 (st.rate + (if st.density then 8 else 0))))
  ++ f.macs.zipIdx.map fun m => (⟨.lpMac, m.2, 0⟩, BitVec.ofNat 64 (m.1 % 2 ^ 48))

/-- The state right after cold reset, before the boot. -/
def State.reset : State where
  pending := []
  freeCtr := 0
  mtime := 0
  regs := fuseRegs ⟨0, 0, 0, 0, 0, 0, 0, List.replicate 32 0, 0, []⟩ ⟨0, false, 0, false⟩
  shadows := []
  mem := []
  marks := []
  arr := .init
  str := ⟨[], []⟩
  smmu := ⟨[], [], [], [], [], []⟩
  ws := ⟨[], []⟩
  lnk := ⟨[], [], [], [], [], [], [], [], 1, [], [], [], [], [], []⟩
  org := ⟨[], [], [], [], [], [], [], [], [], [], [], [], []⟩
  coh := ⟨[], [], [], [], [], [], false, [], [], [], []⟩
  slices := []
  pavs := []
  binds := []
  raised := []
  records := []
  lodgeSeq := []
  imsic := []
  d2d := ⟨[], []⟩
  trl := ⟨none, (0, 0), 0, [], [], [], [], [], []⟩
  tel := ⟨[], [], [], [], [], [], [], [], [], 0, [], []⟩
  pwr := ⟨1450000000, 1450000000, [], [], [], [], [], [], [], [], false, false, false, [], [], [], []⟩
  sys := ⟨true, true, true, true, true, false, none, none, .booting, 1, none, false, false, [], true, true, false, ⟨0, false, 0, false⟩,
    ⟨0, 0, 0, 0, 0, 0, 0, List.replicate 32 0, 0, []⟩⟩
  kpr := ⟨[], [], 0x1000000, [], .empty, ⟨0, [], none, false, [], []⟩, ⟨1, [], 0, 0⟩⟩
  hub := ⟨[], [], [], []⟩
  out := []

end Sys2Proof.Machine
end

