-- ==== Sys2Proof/Machine/Symbols.lean ====
section
/-! DEFINITION. Layout and symbol code of GDDR7 (09.8): where a line and its check bytes lie in the components, the two
Reed–Solomon codewords of a line, and the stored form of a poisoned line. -/

namespace Sys2Proof.Machine

/-! ### Places (R336, Table 9-7) -/

/-- Lines per component, for 24 Gb and 32 Gb components. -/
def gddrLines (big : Bool) : Nat := if big then 15625000 else 11718750

/-- Groups per component. -/
def gddrGroups (big : Bool) : Nat := if big then 919117 else 689338

/-- Data lines per component, D: the component lines below them hold data, those from D on check bytes. -/
def gddrDataLines (big : Bool) : Nat := 16 * gddrGroups big

/-- Where the line at offset `256 × l` of a die lies: its component, its data line there, and the component line and the first
byte of its check bytes. -/
structure GddrPlace where
  comp  : Nat
  line  : Nat
  check : Nat
  byte  : Nat
  deriving DecidableEq, Repr

/-- The place of line `l` of a die (R336). -/
def gddrPlace (big : Bool) (l : Nat) : GddrPlace :=
  let g := l / 16
  ⟨g % 3, 16 * (g / 3) + l % 16, gddrDataLines big + g / 3, 16 * (l % 16)⟩

/-- The component lines that hold training patterns. -/
def patternLines (big : Bool) : List Nat := (List.range 4).map (gddrLines big - 4 + ·)

/-! ### The field GF(2^8) (R337) -/

/-- A symbol times α, modulo x^8 + x^4 + x^3 + x^2 + 1. -/
def gfDouble (a : Nat) : Nat := if a < 128 then 2 * a else (2 * a) ^^^ 0x11D

/-- The product of two symbols. -/
def gfMul (a b : Nat) : Nat := (List.range 8).foldr (fun i r => gfDouble r ^^^ (if b.testBit i then a else 0)) 0

/-- A power of a symbol. -/
def gfPow (a : Nat) : Nat → Nat
  | 0 => 1
  | n + 1 => gfMul a (gfPow a n)

/-- α to a power. -/
def gfExp (n : Nat) : Nat := gfPow 2 (n % 255)

/-- The inverse of a nonzero symbol. -/
def gfInv (a : Nat) : Nat := gfPow a 254

/-- A polynomial, its highest coefficient first, at a symbol. -/
def gfEval (p : List Nat) (x : Nat) : Nat := p.foldl (fun r c => gfMul r x ^^^ c) 0

/-- The product of a polynomial, its highest coefficient first, and x − r. -/
def gfTimesRoot (p : List Nat) (r : Nat) : List Nat :=
  List.zipWith (fun a b => a ^^^ b) (p ++ [0]) (0 :: p.map (gfMul r))

/-- The generator (x − α^0)(x − α^1)…(x − α^7), its highest coefficient first. -/
def rsGenerator : List Nat := (List.range 8).foldl (fun p i => gfTimesRoot p (gfExp i)) [1]

/-! ### Codewords (R337) -/

/-- The 8 check symbols of a codeword: the remainder of its data symbols by the generator; the first symbol is the highest
coefficient. -/
def rsCheck (data : List Nat) : List Nat :=
  let g := rsGenerator.tail
  data.foldl (fun r d =>
    let q := d ^^^ r.headD 0
    List.zipWith (fun a b => a ^^^ b) (r.tail ++ [0]) (g.map (gfMul q))) (List.replicate 8 0)

/-- The 8 syndromes of a codeword of 136 symbols. -/
def rsSyndromes (w : List Nat) : List Nat := (List.range 8).map fun i => gfEval w (gfExp i)

/-- The error locator as the search for it stands: locator and the last one that failed, lowest coefficient first, its length,
the steps since that one and its discrepancy. -/
structure Locator where
  cur  : List Nat
  prev : List Nat
  len  : Nat
  gap  : Nat
  disc : Nat

/-- The symbol-wise sum of two polynomials, lowest coefficient first. -/
def gfAdd (a b : List Nat) : List Nat := (List.range (max a.length b.length)).map fun i => a.getD i 0 ^^^ b.getD i 0

/-- One step of the search for the shortest recurrence of the syndromes. -/
def Locator.step (syn : List Nat) (l : Locator) (n : Nat) : Locator :=
  let d := (List.range (l.len + 1)).foldl (fun t i => t ^^^ gfMul (l.cur.getD i 0) (if i ≤ n then syn.getD (n - i) 0 else 0)) 0
  if d = 0 then { l with gap := l.gap + 1 }
  else
    let f := gfMul d (gfInv l.disc)
    let next := gfAdd l.cur (List.replicate l.gap 0 ++ l.prev.map (gfMul f))
    if 2 * l.len ≤ n then ⟨next, l.cur, n + 1 - l.len, 1, d⟩ else { l with cur := next, gap := l.gap + 1 }

/-- The error locator of a codeword's syndromes. -/
def rsLocator (syn : List Nat) : Locator := (List.range 8).foldl (Locator.step syn) ⟨[1], [1], 0, 1, 1⟩

/-- The value of the error at the coefficient x^j, from the locator and the syndromes. -/
def rsErrorAt (syn loc : List Nat) (j : Nat) : Nat :=
  let x := gfExp (255 - j % 255)
  let omega := (List.range 8).map fun n =>
    (List.range (n + 1)).foldl (fun t i => t ^^^ gfMul (loc.getD i 0) (syn.getD (n - i) 0)) 0
  let slope := (List.range loc.length).map fun i => if i % 2 = 1 then loc.getD i 0 else 0
  let at' := fun (p : List Nat) (z : Nat) => gfEval p.reverse z
  gfMul (gfExp j) (gfMul (at' omega x) (gfInv (at' slope.tail x)))

/-- A codeword corrected in up to 4 of its 136 symbols; `none` where that yields no codeword (R337). -/
def rsDecode (w : List Nat) : Option (List Nat) :=
  let syn := rsSyndromes w
  if syn.all (· == 0) then some w
  else
    let l := rsLocator syn
    let bad := (List.range 136).filter fun j => gfEval l.cur.reverse (gfExp (255 - j)) == 0
    if 4 < l.len || bad.length != l.len then none
    else
      let v := w.zipIdx.map fun (c, k) => if bad.contains (135 - k) then c ^^^ rsErrorAt syn l.cur (135 - k) else c
      if (rsSyndromes v).all (· == 0) then some v else none

/-! ### Lines (R337, R338) -/

/-- The data symbols of codeword A (0) or B (1) of a line: its bytes of even or of odd place. -/
def lineHalf (k : Nat) (bytes : List Byte) : List Nat := (List.range 128).map fun i => (bytes.getD (2 * i + k) 0).toNat

/-- The 16 check bytes of a line: those of codeword A, then those of B. -/
def lineCheck (bytes : List Byte) : List Byte :=
  ((rsCheck (lineHalf 0 bytes)) ++ (rsCheck (lineHalf 1 bytes))).map (BitVec.ofNat 8)

/-- The check bytes of a poisoned line: each true check byte XOR 0xA5. -/
def poisonCheck (bytes : List Byte) : List Byte := (lineCheck bytes).map (· ^^^ 0xA5)

/-- A stored line decoded with its stored check bytes: its data, or `none` where a codeword cannot be corrected. -/
def lineDecode (bytes chk : List Byte) : Option (List Byte) :=
  let word := fun (k : Nat) => lineHalf k bytes ++ ((chk.drop (8 * k)).take 8).map BitVec.toNat
  match rsDecode (word 0), rsDecode (word 1) with
  | some a, some b => some ((List.range 256).map fun i => BitVec.ofNat 8 ((if i % 2 = 0 then a else b).getD (i / 2) 0))
  | _, _ => none

end Sys2Proof.Machine
end

