-- ==== Sys2Proof/Machine/Ops.lean ====
section
/-! DEFINITION. The named operations over registers and memory that the meanings share. -/

namespace Sys2Proof.Machine

/-- The outcome type of a meaning. -/
abbrev Out := Host.Outcome State Fault Refusal

/-! ### Registers (R4 to R13) -/

/-- The reset value of a register: its field rows at the values the Reset column holds; `fuse`, `strap` and
`Trellis` read as zero until they are loaded (R12). -/
def resetValue (r : Reg) : BitVec 64 :=
  BitVec.ofNat 64 ((r.fields.map fun f => match f.rst with
    | .val n => n % 2 ^ (f.hi + 1 - f.lo) * 2 ^ f.lo
    | _ => 0).sum)

/-- The stored value of a register. -/
def State.reg (s : State) (r : Reg) (i j : Nat) : BitVec 64 := tget s.regs ⟨r, i, j⟩ (resetValue r)

/-- A register stored. -/
def State.setReg (s : State) (r : Reg) (i j : Nat) (v : BitVec 64) : State :=
  { s with regs := tset s.regs ⟨r, i, j⟩ v }

/-- A word with bits [hi:lo] replaced by `v`. -/
def putBits (w : BitVec 64) (hi lo v : Nat) : BitVec 64 :=
  let n := 2 ^ (hi + 1 - lo)
  BitVec.ofNat 64 (w.toNat - w.toNat / 2 ^ lo % n * 2 ^ lo + v % n * 2 ^ lo)

/-- The largest value of a field. -/
def Fld.top (f : Fld) : Nat := 2 ^ (f.hi + 1 - f.lo) - 1

/-- A field of a register of a family with indexes `i`, `j`. -/
def State.rd (s : State) (f : Fld) (i j : Nat) : Nat := natField (s.reg f.r i j).toNat f.hi f.lo

/-- A field set. -/
def State.wr (s : State) (f : Fld) (i j v : Nat) : State := s.setReg f.r i j (putBits (s.reg f.r i j) f.hi f.lo v)

/-- A counter field increased, held at its all-ones value (R13). -/
def State.bump (s : State) (f : Fld) (i j n : Nat) : State := s.wr f i j (min f.top (s.rd f i j + n))

/-- A one-bit field as a truth value. -/
def State.flag (s : State) (f : Fld) (i j : Nat) : Bool := s.rd f i j == 1

/-- The shadow of a register with SC fields (R11): what was last written to it, or its active value. -/
def State.shadow (s : State) (r : Reg) (i j : Nat) : BitVec 64 := tget s.shadows ⟨r, i, j⟩ (s.reg r i j)

/-- A shadow stored. -/
def State.setShadow (s : State) (r : Reg) (i j : Nat) (v : BitVec 64) : State :=
  { s with shadows := tset s.shadows ⟨r, i, j⟩ v }

/-! ### Free values and outputs -/

/-- The next free value, and the state that has used it. -/
def State.free (s : State) : BitVec 64 × State := (Config.freeValue s.freeCtr, { s with freeCtr := s.freeCtr + 1 })

/-- Something sent out. -/
def State.send (s : State) (x : Sent) : State := { s with out := s.out ++ [x] }

/-! ### Memory of the physical map (Table 18-1) -/

/-- Base of the Orangery scratchpad. -/
def scratchBase : Nat := 0x0020_0000_0000

/-- Base of the cell stores. -/
def cellBase : Nat := 0x0028_0000_0000

/-- Base of register space. -/
def regBase : Nat := 0x0030_0000_0000

/-- Base of the remote window aperture. -/
def apertureBase : Nat := 0x0100_0000_0000

/-- Bytes of one cell store (R72). -/
def cellSize : Nat := 0x40_0000

/-- Physical address of byte `off` of logical cell `c`, offsets taken modulo 4 MiB (R37, R229). -/
def cellAddr (c off : Nat) : Nat := cellBase + c * cellSize + off % cellSize

/-- The word of a cell store or of the scratchpad under whose address the error mark of a byte lies. -/
def markKey (a : Nat) : Nat := a / 8 * 8

/-- Bytes as stored. -/
def State.load (s : State) (a n : Nat) : List Byte := memRead s.mem a n

/-- A GDDR7 line as its controller's decoder finds it: its data, corrected where they had to be, or poison, or an
uncorrectable line (R337, R338). -/
inductive LineFound where
  | good (bytes : List Byte)
  | corrected (bytes : List Byte)
  | poison
  | uncorrectable

/-- What the decoder finds in line `la`. A line whose check bytes are not listed has those that match its data. -/
def State.lineFound (s : State) (la : Nat) : LineFound :=
  let bs := s.load (la * 256) 256
  match tfind s.org.checks la with
  | none => .good bs
  | some c =>
    if c = poisonCheck bs then .poison
    else
      match lineDecode bs c with
      | some v => .corrected v
      | none => .uncorrectable

/-- Whether the byte at an address cannot be read: an uncorrectable or poisoned word, or line of GDDR7. -/
def State.unreadable (s : State) (a : Nat) : Bool :=
  if a < scratchBase then
    match s.lineFound (a / 256) with
    | .poison => true
    | .uncorrectable => true
    | _ => false
  else
    match tfind s.marks (markKey a) with
    | some .double => true
    | some .poison => true
    | _ => false

/-- Bytes stored in a cell store or the scratchpad. A write that replaces all 8 bytes of a marked word takes its mark away
(R74). -/
def State.store (s : State) (a : Nat) (bs : List Byte) : State :=
  { s with
    mem := memWrite s.mem a bs
    marks := s.marks.filter fun e => !(decide (a ≤ e.1) && decide (e.1 + 8 ≤ a + bs.length)) }

/-- A GDDR7 line stored whole with the check bytes that match it (R339). -/
def State.lineStore (s : State) (la : Nat) (bs : List Byte) : State :=
  { s with mem := memWrite s.mem (la * 256) bs, org := { s.org with checks := terase s.org.checks la } }

/-- A GDDR7 line stored as poison (R338). -/
def State.linePoison (s : State) (la : Nat) (bs : List Byte) : State :=
  { s with mem := memWrite s.mem (la * 256) bs, org := { s.org with checks := tset s.org.checks la (poisonCheck bs) } }

/-- Memory in a range cleared to zero, with its marks; GDDR7 lines get the matching check bytes (R340). -/
def State.zeroRange (s : State) (lo hi : Nat) : State :=
  { s with
    mem := s.mem.filter fun e => !(decide (lo ≤ e.1) && decide (e.1 < hi))
    marks := s.marks.filter fun e => !(decide (lo ≤ e.1) && decide (e.1 < hi))
    org := { s.org with checks := s.org.checks.filter fun e => !(decide (lo ≤ e.1 * 256) && decide (e.1 * 256 < hi)) } }

/-- `n` bytes of logical cell `c` from an offset, wrapping at 4 MiB. -/
def State.cellLoad (s : State) (c off n : Nat) : List Byte := (List.range n).map fun i => memGet s.mem (cellAddr c (off + i))

/-- Whether each of those bytes can be read. -/
def State.cellBad (s : State) (c off n : Nat) : List Bool := (List.range n).map fun i => s.unreadable (cellAddr c (off + i))

/-- Bytes written into a cell store, wrapping at 4 MiB. -/
def State.cellStore (s : State) (c off : Nat) (bs : List Byte) : State :=
  let o := off % cellSize
  let k := cellSize - o
  let s := s.store (cellAddr c o) (bs.take k)
  if k < bs.length then s.store (cellAddr c 0) (bs.drop k) else s

/-! ### Units by key -/

/-- A cell of the array. -/
def State.cell (s : State) (c : Nat) : CellSt := tget s.arr.cells c .init

/-- A cell stored. -/
def State.setCell (s : State) (c : Nat) (x : CellSt) : State :=
  { s with arr := { s.arr with cells := tset s.arr.cells c x } }

/-- A lane of a cell. -/
def State.lane (s : State) (c r k : Nat) : Lane := tget s.arr.lanes (c, r, k) .init

/-- A lane stored. -/
def State.setLane (s : State) (c r k : Nat) (x : Lane) : State :=
  { s with arr := { s.arr with lanes := tset s.arr.lanes (c, r, k) x } }

/-- A drain. -/
def State.drain (s : State) (c : Nat) : Drain := tget s.arr.drains c .init

/-- A drain stored. -/
def State.setDrain (s : State) (c : Nat) (x : Drain) : State :=
  { s with arr := { s.arr with drains := tset s.arr.drains c x } }

/-- The vector unit of a bed. -/
def State.vec (s : State) (b : Nat) : VecUnit := tget s.arr.vecs b .init

/-- A vector unit stored. -/
def State.setVec (s : State) (b : Nat) (x : VecUnit) : State :=
  { s with arr := { s.arr with vecs := tset s.arr.vecs b x } }

/-- A dispatcher queue. -/
def State.queue (s : State) (k : UnitKey) : List QOp := tget s.arr.disp k []

/-- A dispatcher queue stored. -/
def State.setQueue (s : State) (k : UnitKey) (q : List QOp) : State :=
  { s with arr := { s.arr with disp := tset s.arr.disp k q } }

/-- A pavilion-controller slice. -/
def State.slice (s : State) (p d : Nat) : SliceSt := tget s.slices (p, d) .init

/-- A slice stored. -/
def State.setSlice (s : State) (p d : Nat) (x : SliceSt) : State := { s with slices := tset s.slices (p, d) x }

/-- A pavilion. -/
def State.pav (s : State) (p : Nat) : PavSt := tget s.pavs p .init

/-- A pavilion stored. -/
def State.setPav (s : State) (p : Nat) (x : PavSt) : State := { s with pavs := tset s.pavs p x }

end Sys2Proof.Machine
end

