-- ==== Sys2Proof/Machine/Flits.lean ====
section
/-! DEFINITION. How traffic crosses between dies (01.2): the connections and routes, flits with their CRC queued on a port,
and the Lodge bus that carries management traffic. The command that a message stands for has its own row and effect; the
flits are what the ports transport of it (log entry 101). -/

namespace Sys2Proof.Machine

/-! ### Connections (Table 1-2) -/

/-- Dies that a die connects to, ascending: its port n leads to the n-th. -/
def diePeers (d : Nat) : List Nat :=
  if d = 10 then List.range 10
  else if d = 8 then [0, 1, 2, 3, 9, 10]
  else if d = 9 then [4, 5, 6, 7, 8, 10]
  else
    let a := (d + 1) % 8
    let b := (d + 7) % 8
    [min a b, max a b, if d < 4 then 8 else 9, 10]

/-- The die at the other end of a port. -/
def peerOf (die port : Nat) : Option Nat := (diePeers die)[port]?

/-- The port of a die that leads to another. -/
def portTo (die far : Nat) : Option Nat := (diePeers die).idxOf? far

/-- The far end of a port. -/
def farEnd (die port : Nat) : Option (Nat × Nat) := (peerOf die port).bind fun e => (portTo e die).map fun k => (e, k)

/-- A port. -/
def State.d2dPort (s : State) (die port : Nat) : D2dPort := tget s.d2d.ports (die, port) .init

/-- A port stored. -/
def State.setD2d (s : State) (die port : Nat) (x : D2dPort) : State :=
  { s with d2d := { s.d2d with ports := tset s.d2d.ports (die, port) x } }

/-! ### Routes (R21) -/

/-- The order of paths of equal length: ring, hub, core die. -/
def pathRank (p : List Nat) : Nat :=
  let mid := (p.drop 1).dropLast
  if mid.any fun d => d == 8 || d == 9 then 2 else if mid.contains 10 then 1 else 0

/-- The route of a die pair before any reroute: the connection of the two, else the path of two hops that comes first in the
order of R21. DESIGN CHOICE: the spec gives no route for dies that are not connected (log entry 102). -/
def firstPath (src dst : Nat) : List Nat :=
  if (diePeers src).contains dst then [src, dst]
  else
    let ps := ((diePeers src).filter fun m => (diePeers m).contains dst).map fun m => [src, m, dst]
    ((List.range 3).findSome? fun r => ps.find? fun p => pathRank p == r).getD [src, 10, dst]

/-- The route of a die pair: as the Keeper last programmed it. -/
def State.dieRoute (s : State) (src dst : Nat) : List Nat := (tfind s.d2d.routes (src, dst)).getD (firstPath src dst)

/-! ### Flits (R17, R18) -/

/-- One bit of the CRC-32C, reflected: the polynomial 0x1EDC6F41. -/
def crc32cBit (c : Nat) : Nat := if c % 2 = 1 then Nat.xor (c / 2) 0x82F63B78 else c / 2

/-- One byte of the CRC-32C. -/
def crc32cByte (c : Nat) (b : Byte) : Nat := (List.range 8).foldl (fun c _ => crc32cBit c) (Nat.xor c b.toNat)

/-- The CRC-32C of a byte string. -/
def crc32c (bs : List Byte) : Nat := Nat.xor (bs.foldl crc32cByte 0xFFFFFFFF) 0xFFFFFFFF

/-- Number of a class in the bytes that the CRC covers. -/
def classCode : D2dClass → Nat
  | .interrupt => 0
  | .management => 1
  | .coherence => 2
  | .memory => 3
  | .debug => 4

/-- The CRC-32C of a flit: over its class, its sequence number, the dies to reach and its bytes. DESIGN CHOICE: R18 names the
CRC and no layout of the flit (log entry 101). -/
def flitSum (f : Flit) : Nat :=
  crc32c (leBytes 1 (classCode f.cls) ++ leBytes 4 f.seq ++ f.path.flatMap (leBytes 1) ++ f.data)

/-- Whether a flit passes its check with the CRC that came with it. -/
def flitGood (f : Flit) (crc : Nat) : Bool := crc == flitSum f

/-- Byte string cut into pieces of `n` bytes, at least one, the last filled with zeros. -/
def pieces (n : Nat) : (fuel : Nat) → List Byte → List (List Byte)
  | 0, bs => [(bs ++ List.replicate n 0).take n]
  | fuel + 1, bs => if bs.length ≤ n then [(bs ++ List.replicate n 0).take n] else bs.take n :: pieces n fuel (bs.drop n)

/-- Flits put on the port that leads to the first die of their path. They wait there where the port is down (R21). -/
def State.putFlits (s : State) (die : Nat) (path : List Nat) (cls : D2dClass) (ds : List (List Byte)) : State :=
  match portTo die (path.headD die) with
  | none => s
  | some n =>
    let x := s.d2dPort die n
    s.setD2d die n { x with txq := x.txq ++ ds.map fun d => ⟨cls, 0, path, d⟩ }

/-- Traffic of a class from one die to another: flits on the first port of the pair's route. -/
def State.carry (s : State) (cls : D2dClass) (src dst : Nat) (bs : List Byte) : State :=
  if src = dst then s else s.putFlits src ((s.dieRoute src dst).drop 1) cls (pieces 64 bs.length bs)

/-! ### The Lodge bus (R22, R23) -/

/-- A 32-byte frame of the Lodge bus: 30 bytes and their CRC-16. -/
def lodgeFrame (bs : List Byte) : List Byte := bs ++ leBytes 2 (Config.crc16 bs)

/-- Management traffic between the Lodge of a die and the Keeper, `up` to the Keeper: by the die's Lodge bus, or by the
management class of its data ports once that bus has failed. Traffic of the hub's own Lodge stays on its die. -/
def State.manage (s : State) (die : Nat) (up : Bool) (bs : List Byte) : State :=
  if 10 ≤ die then s
  else if natField (s.reg .ldgStatus die 0).toNat 4 4 = 1 then
    (pieces 30 bs.length bs).foldl (fun s p => s.send (.lodge die up (lodgeFrame p))) s
  else if natField (s.reg .ldgStatus die 0).toNat 5 5 = 1 then
    if up then s.carry .management die 10 bs else s.carry .management 10 die bs
  else s

end Sys2Proof.Machine
end

