-- ==== Sys2Proof/Machine/Fence.lean ====
section
/-! DEFINITION. Ownership, alarms, fault records, events and the fence, which every unit shares (13.4, 13.6, 15.2,
R31 to R33, R445). -/

namespace Sys2Proof.Machine

/-! ### Status codes (Table 15-4) -/

namespace St

/-! The status codes by name. -/

def success : Nat := 0x00
def invalidOp : Nat := 0x01
def accessFault : Nat := 0x02
def descRejected : Nat := 0x03
def quota : Nat := 0x04
def fetchFault : Nat := 0x05
def loopFault : Nat := 0x06
def markPlacement : Nat := 0x07
def stileOverflow : Nat := 0x08
def stileConflict : Nat := 0x09
def dataFault : Nat := 0x10
def xlatFault : Nat := 0x11
def bedFault : Nat := 0x12
def controlFault : Nat := 0x13
def bedUnavailable : Nat := 0x14
def dieReset : Nat := 0x15
def hang : Nat := 0x16
def aborted : Nat := 0x17
def deviceLoss : Nat := 0x18
def peerLost : Nat := 0x20
def remoteRefused : Nat := 0x21
def retry : Nat := 0x22

end St

/-! ### Ownership (R443) -/

/-- The tensor die of a logical bed (R35). -/
def dieOfBed (b : Nat) : Nat := b / 8

/-- The slot of a logical bed: as TRL_SPARE_LIVE shows it, and before the first commit, while that register reads as zero, the
one of R36. -/
def State.slotOf (s : State) (b : Nat) : Nat :=
  if s.rd F.trlSpareLive_SLOT (b / 8) 0 = 0 then b % 8
  else natField (s.rd F.trlSpareLive_SLOT (b / 8) 0) (4 * (b % 8) + 3) (4 * (b % 8))

/-- Whether a pavilion owns a logical bed (PAVILION_MAP, as BED_STATUS shows it). -/
def State.owns (s : State) (p b : Nat) : Bool := s.flag F.bedStatus_PAV_V b 0 && s.rd F.bedStatus_PAV b 0 == p

/-- The logical beds of a pavilion. -/
def State.beds (s : State) (p : Nat) : List Nat := (List.range 64).filter (s.owns p)

/-- The tensor dies that hold beds of a pavilion: one slice on each (R29). -/
def State.dies (s : State) (p : Nat) : List Nat := (List.range 8).filter fun d => (s.beds p).any fun b => dieOfBed b == d

/-- The lead slice's die (R29). -/
def State.lead (s : State) (p : Nat) : Nat := (s.dies p).headD 0

/-- The owner of a bed, if any. -/
def State.bedOwner (s : State) (b : Nat) : Option Nat :=
  if s.flag F.bedStatus_PAV_V b 0 then some (s.rd F.bedStatus_PAV b 0) else none

/-- The state of a pavilion (Table 13-2): 0 UNASSIGNED, 1 IDLE, 2 RUNNING, 3 FENCED, 4 RESETTING. -/
def State.pavState (s : State) (p : Nat) : Nat := s.rd F.pavStatus_STATE p 0

/-- Whether a pavilion is idle, fenced or unassigned. -/
def State.pavQuiet (s : State) (p : Nat) : Bool := s.pavState p == 0 || s.pavState p == 1 || s.pavState p == 3

/-- A pavilion put into a state; BED_STATUS.STATE of its beds shows the same one (Table 3-11). -/
def State.setPavState (s : State) (p st : Nat) : State :=
  (s.beds p).foldl (fun s b => if s.rd F.bedStatus_STATE b 0 == 5 then s else s.wr F.bedStatus_STATE b 0 st)
    (s.wr F.pavStatus_STATE p 0 st)

/-! ### Fault reports, records and alarms (15.2, 15.9) -/

/-- A report with every field that does not apply at 0xFF (R512). -/
def FaultReport.blank (code cls unit die pav : Nat) : FaultReport :=
  ⟨code, cls, unit, die, 0xFF, 0xFF, 0xFF, pav, 0xFF, 0xFF, 0xFF, 0⟩

/-- The report of a contained fault on a bed. -/
def State.bedReport (s : State) (code unit b : Nat) : FaultReport :=
  { FaultReport.blank code 1 unit (dieOfBed b) ((s.bedOwner b).getD 0xFF) with
    slot := s.slotOf b, lbed := b }

/-- The report of a contained fault on a cell. -/
def State.cellReport (s : State) (code unit c : Nat) : FaultReport :=
  { s.bedReport code unit (c / 8) with cell := c % 8 }

/-- The bytes of a fault record (Table 15-2). -/
def faultBytes (r : FaultReport) (seq mtime : Nat) : List Byte :=
  ([r.code, r.cls, r.unit, r.die, r.slot, r.lbed, r.cell, r.pav, r.row, r.col, r.port, 0].map (BitVec.ofNat 8 ·))
    ++ leBytes 4 seq ++ leBytes 8 mtime ++ leBytes 8 r.info

/-- A fault record written by the Lodge of its die and sent to the Keeper (R512). -/
def State.record (s : State) (r : FaultReport) : State :=
  let n := tget s.lodgeSeq r.die 0
  let s := s.manage r.die true (faultBytes r n s.mtime)
  { s with
    records := s.records ++ [⟨r.die, n, s.mtime, r⟩]
    lodgeSeq := tset s.lodgeSeq r.die ((n + 1) % 2 ^ 32) }

/-- An alarm offered to the Lodge of a die (R538). -/
def State.alarm (s : State) (die code : Nat) (r : FaultReport) : State :=
  { s with raised := s.raised ++ [(die, ⟨code, 0, 1, s.mtime, s.mtime, r⟩)] }

/-! ### Events (13.4) -/

/-- The device's own ID, 0xFFFF while unassigned (R38). -/
def State.devId (s : State) : Nat := if s.flag F.kprDevid_V 0 0 then s.rd F.kprDevid_ID 0 0 else 0xFFFF

/-- An MSI sent from a die: it crosses to the hart's core die in the interrupt class, and its identity is set pending in the
interrupt file, if it is 1 to 511 (R17, R433, R435). -/
def State.msi (s : State) (src hart file ident : Nat) : State :=
  if ident = 0 ∨ 511 < ident then s
  else
    let s := s.carry .interrupt src (8 + hart / 48) (leBytes 2 hart ++ leBytes 1 file ++ leBytes 2 ident)
    { s with imsic := if (hart, file, ident) ∈ s.imsic then s.imsic else s.imsic ++ [(hart, file, ident)] }

/-- KMT kinds (Table 14-9). -/
def kmtAttached : Nat := 0x04
/-- COMPLETION. -/
def kmtCompletion : Nat := 0x07
/-- EVENT. -/
def kmtEvent : Nat := 0x08
/-- ACK, which takes no sequence number of its own. -/
def kmtAckKind : Nat := 0x0D

/-- A KMT session, if it is open. -/
def State.session (s : State) (n : Nat) : Option KmtSt := tfind s.lnk.kmt n

/-- A KMT session stored. -/
def State.setSession (s : State) (n : Nat) (k : KmtSt) : State := { s with lnk := { s.lnk with kmt := tset s.lnk.kmt n k } }

/-- Messages that a session may have unacknowledged (R487). -/
def kmtWindow : Nat := 256

/-- Whether a session's port may not transmit: a lost device has squelched its link ports (R529), and a device without an ID
sends no KMT traffic but authentication on its torus ports (R38). -/
def State.mute (s : State) (k : KmtSt) : Bool := (s.sys.lost && k.port != 16) || (decide (k.port < 12) && s.devId == 0xFFFF)

/-- Waiting messages of a session sent while its window has room; each carries the acknowledgment (R487). -/
def State.kmtPump (s : State) (n : Nat) : (fuel : Nat) → State
  | 0 => s
  | fuel + 1 =>
    match s.session n with
    | none => s
    | some k =>
      match k.queue with
      | [] => s
      | m :: q =>
        if kmtWindow ≤ k.unacked.length || s.mute k then s
        else
          let s := s.setSession n { k with
            queue := q, unacked := k.unacked ++ [(k.txSeq, m)], txSeq := (k.txSeq + 1) % 2 ^ 32, ackDue := false }
          (s.send (.kmt n k.txSeq k.rxSeq m)).kmtPump n fuel

/-- A message posted on a session. -/
def State.kmtPost (s : State) (n : Nat) (m : KmtOut) : State :=
  match s.session n with
  | none => s
  | some k => (s.setSession n { k with queue := k.queue ++ [m] }).kmtPump n 1

/-- Delivery of an event by vector `v` (R456). -/
def State.deliverVec (s : State) (p v : Nat) : State :=
  let qp := s.rd F.pavEvec_QP p v
  let kmt := s.flag F.pavEvec_KIND p v
  if !s.flag F.pavEvec_V p v then s
  else if s.flag F.pavEvec_MASK p v || (kmt && s.rd F.pavQpState_STATE p qp != 3) then s.wr F.pavEvec_PEND p v 1
  else if kmt then s.kmtPost (tget (s.pav p).sessions qp 0) ⟨kmtEvent, v, p, 0, 0, 0, 0, []⟩
  else s.msi (s.lead p) (s.rd F.pavEvec_HART p v) (s.rd F.pavEvec_FILE p v) (s.rd F.pavEvec_ID p v)

/-- Whether event route `r` of a pavilion matches (R455). -/
def State.routeMatches (s : State) (p src sel r : Nat) : Bool :=
  s.flag F.pavEroute_V p r && s.rd F.pavEroute_SRC p r == src
    && (s.rd F.pavEroute_SEL p r == sel || s.rd F.pavEroute_SEL p r == 0xFF)

/-- An event of a pavilion, routed by the lowest matching route (R455, R457). -/
def State.event (s : State) (p src sel : Nat) : State :=
  match (List.range 16).filter (s.routeMatches p src sel) with
  | [] => s.bump F.pavEvtStat_UNROUTED p 0 1
  | r :: rest =>
    let s := if rest.isEmpty then s else s.bump F.pavEvtStat_MULTI p 0 1
    s.deliverVec p (s.rd F.pavEroute_VEC p r)

/-! ### Quotas (R348) -/

/-- A quota violation of a pavilion in a tier: the alarm and event 4 (R316, R348). -/
def State.quotaAlarm (s : State) (p die tier : Nat) : State :=
  (s.alarm die 0x0A (FaultReport.blank St.quota 1 0x0C die p)).event p 4 tier

/-! ### The fence (R31, R33, R445) -/

/-- The signal of a fence on its way to the slices of the other dies of the pavilion (R17, R31). -/
def State.fenceSignal (s : State) (p code : Nat) : State :=
  (s.dies p).foldl (fun s d => s.carry .interrupt (s.lead p) d (leBytes 1 p ++ leBytes 1 code)) s

/-- A fence of a pavilion by a cause: applied once, with the first cause kept; a later cause is counted. The
slices stop issuing, the sundial holds with them, and event source 1 is raised. -/
def State.fence (s : State) (p code : Nat) : State :=
  if s.pavState p = 1 ∨ s.pavState p = 2 then
    let s := (s.setPavState p 3).wr F.pavStatus_CLEAN p 0 0
    let s := if s.rd F.pavFence_CAUSE p 0 = 0 then s.wr F.pavFence_CAUSE p 0 code
      else s.bump F.pavFenceInfo_COUNT p 0 1
    let s := (s.dies p).foldl (fun s d => s.setSlice p d { s.slice p d with run := false }) s
    (s.fenceSignal p code).event p 1 0
  else if s.pavState p = 0 then s
  else s.bump F.pavFenceInfo_COUNT p 0 1

/-- Whether a pavilion commit of a pavilion is under way (Table 5-6). -/
def State.committing (s : State) (p : Nat) : Bool := s.rd F.trlStatus_STATE 0 0 == 7 && s.trl.target == p

/-- A contained fault of a pavilion: the fence, PAV_FENCE_INFO, and the fault record (R31, R512, R461). One on a bed during
the pavilion's commit waits for the commit's end (R164). -/
def State.faultPav (s : State) (p : Nat) (r : FaultReport) : State :=
  if s.committing p && r.lbed != 0xFF then { s with trl := { s.trl with late := s.trl.late ++ [r] } } else
  let s := s.record r
  let later := s.pavState p != 1 && s.pavState p != 2
  let s := s.fence p r.code
  if s.flag F.pavFenceInfo_V p 0 then
    if later then s else s.bump F.pavFenceInfo_COUNT p 0 1
  else
    let s := s.wr F.pavFenceInfo_V p 0 1
    let s := s.wr F.pavFenceInfo_DIE p 0 r.die
    let s := s.wr F.pavFenceInfo_SLOT p 0 (if r.slot = 0xFF then 0xF else r.slot)
    let s := s.wr F.pavFenceInfo_LBED p 0 r.lbed
    s.wr F.pavFenceInfo_CODE p 0 r.code

/-- A fault of an operation at a unit of a bed: its pavilion is fenced with the status (R222, R231). -/
def State.opFault (s : State) (p code unit bed : Nat) : State := s.faultPav p (s.bedReport code unit bed)

/-- A fault of a bed: of its pavilion, or recorded alone where it has none. -/
def State.bedFault (s : State) (b : Nat) (r : FaultReport) : State :=
  match s.bedOwner b with
  | some p => s.faultPav p r
  | none => s.record r

/-- The counts of completed slot operations of a bed (BED_PROGRESS, Table 3-12). -/
def State.progress (s : State) (b : Nat) : State := s.bump F.bedProgress_COUNT b 0 1

end Sys2Proof.Machine
end

