-- ==== Sys2Proof/Machine/Route.lean ====
section
/-! DEFINITION. Routing of frames that this device originates (14.6): the direction of a destination, the ports that
qualify, and a frame put on a port with its entry among the unanswered requests. -/

namespace Sys2Proof.Machine

/-- A link port. -/
def State.port (s : State) (n : Nat) : PortSt := tget s.lnk.ports n .init

/-- A link port stored. -/
def State.setPort (s : State) (n : Nat) (x : PortSt) : State :=
  { s with lnk := { s.lnk with ports := tset s.lnk.ports n x } }

/-- State of a port (Table 14-15): 3 UP, 4 SLOW. -/
def State.lpState (s : State) (n : Nat) : Nat := s.rd F.lpStatus_STATE n 0

/-- Whether a port carries traffic. -/
def State.lpOpen (s : State) (n : Nat) : Bool := s.lpState n == 3 || s.lpState n == 4

/-- Coordinates of a device ID and sizes of the system, x, y, z (R39, LP_TOPO). -/
def coords (d : Nat) : List Nat := [d / 64 % 8, d / 8 % 8, d % 8]

/-- The sizes. -/
def State.sizes (s : State) : List Nat := [s.rd F.lpTopo_SX 0 0 + 1, s.rd F.lpTopo_SY 0 0 + 1, s.rd F.lpTopo_SZ 0 0 + 1]

/-- The direction of one dimension: distance, then 0 for + and 1 for −; `none` where the coordinates agree. -/
def dimDir (size here there : Nat) : Option Nat :=
  let d := (there + size - here % size) % size
  if d = 0 then none else some (if d ≤ size - d then 0 else 1)

/-- The direction that this device chooses for a destination (R489): 0 to 5 a torus direction, 6 the uplinks, 7
unreachable. -/
def State.direction (s : State) (d : Nat) : Nat :=
  if s.flag F.lpRoute_V d 0 then s.rd F.lpRoute_DIR d 0
  else
    match (List.range 3).findSome? fun k =>
      (dimDir (s.sizes.getD k 1) ((coords s.devId).getD k 0) ((coords d).getD k 0)).map fun n => 2 * k + n with
    | some n => n
    | none => 7

/-- The ports of a direction. -/
def dirPorts (dir : Nat) : List Nat :=
  if dir < 6 then [2 * dir, 2 * dir + 1] else if dir = 6 then [12, 13, 14, 15] else []

/-- The one of the qualifying ports that a frame takes (R491). -/
def choosePort (ports : List Nat) (key : Nat) : Option Nat := ports[key % ports.length]?

/-- Whether a device is lost to this one (LP_DEVLOST, R497). -/
def State.devLost (s : State) (d : Nat) : Bool := (s.reg .lpDevlost (d / 64) 0).toNat.testBit (d % 64)

/-- The outcome of routing: a port, or the status with which the operation completes (R492, R497). -/
inductive Routed where
  | port (n : Nat)
  | fail (code : Nat)
  deriving DecidableEq, Repr

/-- The port for a frame that this device originates; `pav` the pavilion whose share must be listed. -/
def State.route (s : State) (dst srcpav : Nat) (pav : Option Nat) : Routed :=
  let up := (dirPorts (s.direction dst)).filter s.lpOpen
  let ok := match pav with
    | some p => up.filter fun n => (s.port n).share.any fun e => e.1 == p
    | none => up
  if s.devId = 0xFFFF ∨ s.devLost dst then .fail St.peerLost
  else
    match choosePort ok (s.devId + srcpav) with
    | some n => .port n
    | none => .fail (if up.isEmpty then St.peerLost else St.accessFault)

/-- A frame put among those that wait at a port. -/
def State.putFrame (s : State) (n : Nat) (f : OFrame) : State :=
  let x := s.port n
  s.setPort n { x with txq := x.txq ++ [f] }

/-- The next sequence number of a stream (source engine or NENG unit, and context). -/
def State.nextEseq (s : State) (eng ctx : Nat) : Nat × State :=
  let n := tget s.lnk.eseq (eng, ctx) 0
  (n, { s with lnk := { s.lnk with eseq := tset s.lnk.eseq (eng, ctx) ((n + 1) % 2 ^ 32) } })

/-- A request of this device sent on a port and kept until it is answered. -/
def State.sendReq (s : State) (n : Nat) (f : OFrame) (who : Asker) : State :=
  let s := s.putFrame n f
  { s with lnk := { s.lnk with outst := s.lnk.outst ++ [⟨f, n, who, false, none⟩] } }

/-- A request frame of a type from this device. -/
def State.reqFrame (s : State) (typ dst srcpav window offset tag eng arg : Nat) (payload : List Byte) : OFrame :=
  ⟨typ, true, dst, s.devId, srcpav, 0, 0, 0, window, offset, tag, eng, arg, 0, 0, payload, false⟩

/-! ### The sundial and its beacons (R178, R218) -/

/-- The sixteen ports. -/
def allPorts : List Nat := List.range 16

/-- Agreement group of a pavilion; 0xFFFF none. -/
def State.groupOf (s : State) (p : Nat) : Nat := if p < 64 then s.rd F.trlPavEpoch_GROUP p 0 else 0xFFFF

/-- The BEACON entry of a port for a group. -/
def State.beaconIx (s : State) (n g : Nat) : Option Nat :=
  if g = 0xFFFF then none else (List.range 8).find? fun i => (s.port n).beacons[i]? == some g

/-- One beat of a pavilion's sundial; as it passes a multiple of 2^20, every port's beacon of the pavilion's group is due. -/
def State.beat (s : State) (p : Nat) : State :=
  let n := (s.rd F.pavSundial_COUNT p 0 + 1) % 2 ^ 64
  let s := s.wr F.pavSundial_COUNT p 0 n
  if n % 2 ^ 20 = 0 then
    let due := allPorts.filterMap fun k => (s.beaconIx k (s.groupOf p)).map (k, ·)
    { s with lnk := { s.lnk with beacons := s.lnk.beacons ++ due.filter fun e => !s.lnk.beacons.contains e } }
  else s

end Sys2Proof.Machine
end

