-- ==== Sys2Proof/Machine/Operands.lean ====
section
/-! DEFINITION. The fields of slot operations (07.1 to 07.8): extraction, index selection, effective lines,
parameter entries, reserved encodings and ownership at issue (R184, R226 to R232, Table 6-7). -/

namespace Sys2Proof.Machine

/-- Operand bits [hi:lo] of an operation. -/
def opField (o : UnitOp) (hi lo : Nat) : Nat := natField o.operands.toNat hi lo

/-- Modifier bits [hi:lo] of an operation. -/
def opMod (o : UnitOp) (hi lo : Nat) : Nat := natField o.modifier.toNat hi lo

/-- Modifier bit `i`. -/
def opBit (o : UnitOp) (i : Nat) : Bool := opMod o i i == 1

/-- The effective line of a line, a signed step and an index (R229). -/
def effLine (line : Nat) (step : Int) (ix : Nat) : Nat := (((line : Int) + step * ix) % 32768).toNat

/-- The byte offset of an effective line. -/
def lineOff (line : Nat) (step : Int) (ix : Nat) : Nat := effLine line step ix * 128

/-- The byte offset of a parameter entry (R228). -/
def entryOff (line q : Nat) : Nat := 128 * line + 32 * q

/-- The opcode, modifier and operands of a slot (R184). -/
def slotOp (w : BitVec 64) : Nat := natField w.toNat 63 56

/-- The modifier of a slot. -/
def slotMod (w : BitVec 64) : Nat := natField w.toNat 55 48

/-- Operand bits [hi:lo] of a slot. -/
def slotField (w : BitVec 64) (hi lo : Nat) : Nat := natField w.toNat hi lo

/-- Slot `i` of a beat word (R183). -/
def wordSlot (bs : List Byte) (i : Nat) : BitVec 64 := BitVec.ofNat 64 (fieldLe bs (8 * i) 8)

/-- Whether an IX value is listed (R227). -/
def ixOk (ix : Nat) : Bool := decide (ix ≤ 8) || ix == 15

/-- The index that an IX field selects in a slice (R227); `none` for a level with no entry (R197). -/
def SliceSt.index (x : SliceSt) (ix : Nat) : Option Nat :=
  if ix = 15 then some 0
  else if ix = 8 then some ((x.rep.map (·.2)).getD 0)
  else (x.loops[ix]?).map (·.ix)

/-- Where a slot operation has an IX field: the bit it starts at. -/
def slotIx (slot : Nat) (w : BitVec 64) : Option Nat :=
  let op := slotOp w
  if 1 ≤ slot ∧ slot ≤ 8 then (if op = 1 then some 27 else none)
  else if 9 ≤ slot ∧ slot ≤ 12 then (if op = 2 then some 32 else none)
  else if slot = 13 then
    (if op = 1 ∨ op = 2 then some 21 else if op = 4 ∨ op = 5 ∨ op = 6 ∨ op = 8 then some 26 else none)
  else if slot = 14 then (if op = 0x10 ∨ op = 0x11 then some 11 else none)
  else if slot = 15 then (if op = 7 then some 32 else none)
  else none

/-- The index value of a slot operation in a slice; `none` where the level has no entry (R197). -/
def SliceSt.slotIndex (x : SliceSt) (slot : Nat) (w : BitVec 64) : Option Nat :=
  match slotIx slot w with
  | some b => x.index (slotField w (b + 3) b)
  | none => some 0

/-- Whether a slot is a reserved encoding: an unlisted opcode, modifier, field value, or a reserved bit set
(R184, R226, R232 to R260). `dev` is the device's own ID. -/
def slotReserved (slot : Nat) (w : BitVec 64) (dev : Nat) : Bool :=
  let op := slotOp w
  let m := slotMod w
  let z := fun (hi lo : Nat) => slotField w hi lo == 0
  let ix := match slotIx slot w with
    | some b => ixOk (slotField w (b + 3) b)
    | none => true
  if op = 0 then !(m == 0 && z 47 0)
  else if !ix then true
  else if slot = 0 then
    match op with
    | 1 => !(m == 0 && z 47 32)
    | 2 => m != 0
    | 3 => !(m == 0 && z 36 24 && slotField w 38 37 != 3)
    | 4 => !(m == 0 && z 0 0)
    | 5 => !(m == 0 && z 47 0)
    | 6 => !(m == 0 && z 47 0)
    | 7 => !(decide (1 ≤ m) && decide (m < 8) && z 47 16 && !z 15 0)
    | 8 => !(m == 0 && z 47 30)
    | _ => true
  else if slot ≤ 8 then
    !(op == 1 && m % 4 != 3 && m / 4 % 4 != 3 && z 26 16)
  else if slot ≤ 12 then
    match op with
    | 1 => !(m == 0 && z 16 0)
    | 2 => !decide (m < 2)
    | _ => true
  else if slot = 13 then
    match op with
    | 1 => !(decide (m < 64) && m % 4 != 3 && m / 4 % 4 != 3 && decide (slotField w 44 42 < 5) && z 20 0)
    | 2 => !(decide (m < 64) && m % 4 != 3 && m / 4 % 4 != 3 && decide (slotField w 44 42 < 5) && z 20 0)
    | 3 => !(m == 0 && z 44 32)
    | 4 => !(m == 0 && z 14 0)
    | 5 => !(m == 0 && z 14 0)
    | 6 => !(decide (m < 2) && z 14 0)
    | 7 => !(m == 0 && z 44 0)
    | 8 => !(m == 0 && z 14 0)
    | _ => true
  else if slot = 14 then
    !(decide (op ≤ 0x18) && decide (m < 8)
      && (op != 0x0B || (z 38 36 && decide (slotField w 2 0 < 5)))
      && (op != 0x0D || slotField w 1 0 != 3)
      && (!(op == 0x17 || op == 0x18) || z 38 38)
      && (op != 0x12 || z 29 0) && (op != 0x13 || z 26 0) && (op != 0x14 || z 30 0))
  else
    match op with
    | 1 => !(m == 0 && z 47 12 && !z 11 0)
    | 2 => !(m == 0 && z 47 12 && !z 11 0)
    | 3 => !(m == 0 && z 15 12 && !z 31 16)
    | 4 => m != 0
    | 5 => !(m == 0 && !z 22 12 && slotField w 47 39 != dev)
    | 6 => !(decide (m < 2) && z 22 0 && slotField w 31 23 != dev)
    | 7 => m != 0
    | 8 => !(m == 0 && z 9 0 && slotField w 27 26 != 3)
    | 9 => !(m == 0 && z 9 0 && slotField w 27 26 != 3)
    | 10 => !(m == 0 && z 9 0)
    | 11 => !(decide (m < 2) && z 47 0)
    | _ => true

/-- The cells of an array group of a bed, ascending (R93). -/
def State.agCells (s : State) (b ag : Nat) : List Nat :=
  ((List.range 8).map (b * 8 + ·)).filter fun c => s.flag F.cellShape_AG_V c 0 && s.rd F.cellShape_AG c 0 == ag

/-- The beds of a pavilion that hold cells of an array group. -/
def State.agBeds (s : State) (p ag : Nat) : List Nat := (s.beds p).filter fun b => !(s.agCells b ag).isEmpty

/-- Whether a pavilion owns a stream engine (ENGINE_PAV, as SE_CFG shows it). -/
def State.ownsEngine (s : State) (p e : Nat) : Bool := s.flag F.seCfg_PAV_V e 0 && s.rd F.seCfg_PAV e 0 == p

/-- Whether a pavilion owns a stile (R201). -/
def State.ownsStile (s : State) (p st : Nat) : Bool :=
  s.flag F.stlGroup_V (st / 256) 0 && s.rd F.stlGroup_PAV (st / 256) 0 == p

/-- Whether the direction of a device has open ports, none of which lists the pavilion in its SHARE: the operation names a port
that is not the pavilion's (R222, R491, R492). -/
def State.portForeign (s : State) (p dst : Nat) : Bool :=
  match s.route dst p (some p) with
  | .fail code => code == St.accessFault
  | .port _ => false

/-- Whether a stream operation names a cell that its pavilion does not own: a DLD reads its descriptor from a cell of the
engine's bed (R231, R269). -/
def State.dldForeign (s : State) (p slot : Nat) (w : BitVec 64) : Bool :=
  decide (9 ≤ slot) && decide (slot ≤ 12) && slotOp w == 1 && !s.owns p (slotField w 47 40 / 4)

/-- Whether a slot operation names a unit that its pavilion does not own (R222, R231). -/
def State.slotForeign (s : State) (p slot : Nat) (w : BitVec 64) : Bool :=
  let op := slotOp w
  if op = 0 then false
  else if slot = 0 then op == 4 && !s.ownsStile p (slotField w 47 32)
  else if slot ≤ 8 then (s.agBeds p (slot - 1)).isEmpty
  else if slot ≤ 12 then !s.ownsEngine p (slotField w 47 40) || s.dldForeign p slot w
  else if slot = 13 then (s.agBeds p (slotField w 47 45)).isEmpty
  else if slot = 14 then slotMod w % 2 == 0 && !s.owns p (slotField w 47 42)
  else if op = 3 ∨ op = 4 ∨ op = 6 then !s.ownsStile p (slotField w 47 32)
  else if op = 5 then s.portForeign p (slotField w 47 39)
  else if op = 7 then !s.ownsEngine p (slotField w 47 40)
  else if 8 ≤ op ∧ op ≤ 10 then !s.ownsEngine p (slotField w 47 40) || !s.ownsStile p (slotField w 25 10)
  else false

/-- What a slot beyond its pavilion's share of Table 9-10 adds to its fault: the quota-violation alarm for a cell store of a foreign
bed and for a foreign stile, which has no tier and so no event (R348, log entry 153). -/
def State.slotOverLimit (s : State) (p d : Nat) (w : BitVec 64) (slot : Nat) : State :=
  let op := slotOp w
  let alarm := fun (s : State) => s.alarm d 0x0A (FaultReport.blank St.quota 1 0x0A d p)
  if s.dldForeign p slot w || (slot == 14 && op != 0 && slotMod w % 2 == 0 && !s.owns p (slotField w 47 42)) then s.quotaAlarm p d 0
  else if slot = 0 ∧ op = 4 ∧ !s.ownsStile p (slotField w 47 32) then alarm s
  else if slot = 15 ∧ (op = 3 ∨ op = 4 ∨ op = 6) ∧ !s.ownsStile p (slotField w 47 32) then alarm s
  else if slot = 15 ∧ 8 ≤ op ∧ op ≤ 10 ∧ !s.ownsStile p (slotField w 25 10) then alarm s
  else s

/-- The quota-violation alarms of a word that faults with the access-fault status. -/
def State.wordOverLimit (s : State) (p d : Nat) (bs : List Byte) (code : Nat) : State :=
  if code = St.accessFault then (List.range 16).foldl (fun s i => s.slotOverLimit p d (wordSlot bs i) i) s else s

/-- The status with which a slot faults at issue: invalid-operation for a reserved encoding, for a loop level
without an entry and for a BRP bed of another pavilion (R197, R198), else access-fault, the lower code first
(R514). -/
def State.slotFault (s : State) (p : Nat) (x : SliceSt) (slot : Nat) (w : BitVec 64) : Option Nat :=
  if slotReserved slot w s.devId then some St.invalidOp
  else if (x.slotIndex slot w).isNone then some St.invalidOp
  else if slot = 0 ∧ slotOp w = 3 ∧ !s.owns p (slotField w 47 42) then some St.invalidOp
  else if slot = 0 ∧ slotOp w = 4 ∧ slotField w 7 4 ≠ 0 ∧ (x.loops[slotField w 3 1]?).isNone then some St.invalidOp
  else if s.slotForeign p slot w then some St.accessFault
  else none

/-- The lowest status among the faults of a word's slots (R514). -/
def State.wordFault (s : State) (p : Nat) (x : SliceSt) (bs : List Byte) : Option Nat :=
  ((List.range 16).filterMap fun i => s.slotFault p x i (wordSlot bs i)).min?

/-- The operation that a slot delivers: `index` the value of its IX field, `poison` the policy at issue. -/
def unitOpOf (p : Nat) (w : BitVec 64) (index : Nat) (poison : Bool) (seq : Nat) : UnitOp :=
  ⟨p, BitVec.ofNat 8 (slotMod w), BitVec.ofNat 48 (slotField w 47 0), index, poison, seq⟩

end Sys2Proof.Machine
end

