-- ==== Sys2Proof/Machine/Scope.lean ====
section
/-! DEFINITION. Which operations of a pavilion are incomplete, by the SCOPE of Table 7-17, and when a unit may begin
the operation at the head of its queue (R94, R186, R204, R209, R261). -/

namespace Sys2Proof.Machine

/-- The bed that a unit queue lies on. -/
def UnitKey.bed : UnitKey → Nat
  | .ag b _ => b
  | .cvt b => b
  | .vec b => b
  | .eng e => e / 4

/-- The die that it lies on. -/
def UnitKey.die (k : UnitKey) : Nat := k.bed / 8

/-- Whether an operation of a unit queue lies in a SCOPE (Table 7-17): a converter operation is one of the drains of
its array group and one of the converters. -/
def inScope (scope : Nat) (k : UnitKey) (q : QOp) : Bool :=
  match k with
  | .ag _ n => scope.testBit n
  | .cvt _ => scope.testBit 9 || scope.testBit (opField q.op 47 45)
  | .vec _ => scope.testBit 10
  | .eng _ => scope.testBit 8

/-- The whole of every scope. -/
def fullScope : Nat := 0xFFF

/-- Whether an operation is one of pavilion `p` issued before place `seq`. -/
def opBefore (o : UnitOp) (p seq : Nat) : Bool := o.pav == p && decide (o.seq < seq)

/-- Whether a write of an operation of the units of a scope, earlier than place `seq`, still waits on a bed bus or at a cell-store
bank of the pavilion, at the beds that `onBed` accepts. -/
def State.writesWait (s : State) (p scope seq : Nat) (onBed : Nat → Bool) : Bool :=
  s.arr.tracks.any (fun e => s.owns p e.1.1 && onBed e.1.1 && e.2.any fun x => decide (x.seq < seq) && x.bits &&& scope != 0)
  || s.arr.banks.any fun e => s.owns p (e.1.1 / 8) && onBed (e.1.1 / 8)
      && e.2.any fun r => r.write.isSome && decide (r.seq < seq) && r.bits &&& scope != 0

/-- Whether an earlier operation of the units in a scope has not completed, at the beds that `onBed` accepts:
queued, a pass whose rows have not all reached the drain, a run, an exchange operation, or a write that is not yet
complete at its endpoint. -/
def State.busy (s : State) (p scope seq : Nat) (onBed : Nat → Bool) : Bool :=
  s.arr.disp.any (fun e => onBed e.1.bed && e.2.any fun q => opBefore q.op p seq && inScope scope e.1 q)
  || s.arr.cells.any (fun e => onBed (e.1 / 8) && scope.testBit (s.rd F.cellShape_AG e.1 0)
      && e.2.passes.any fun x => opBefore x.op p seq)
  || s.str.runs.any (fun e => onBed (e.1.1 / 4) && opBefore e.2.op p seq
      && (if e.2.opc = 2 then scope.testBit 8 else scope.testBit 11))
  || (scope.testBit 11 && ((s.pav p).xq.any (fun q => opBefore q.op p seq)
      || (s.pav p).sigs.any fun g => opBefore g.op p seq))
  || s.writesWait p scope seq onBed

/-- SCOPE bits of the units of a bed: its array groups, converters and vector unit. -/
def bedScope : Nat := 0x6FF

/-- Whether an ORDF holds back a write, at a bank of bed `b`, of an operation of the bed's units (R261): an earlier operation of
the fence's scope there is incomplete. The units of one bed are one requester for their cell-store accesses (R408); the writes of
a stream engine are ordered before they leave it. -/
def State.bankHeld (s : State) (b : Nat) (r : BankReq) : Bool :=
  match s.bedOwner b with
  | none => false
  | some p => r.write.isSome && (s.pav p).ordf.any fun f => decide (f.seq < r.seq)
      && (opField f 11 0 &&& bedScope) &&& r.bits != 0 && s.busy p (opField f 11 0 &&& bedScope) f.seq (· == b)

/-- Opcodes of the exchange slot (Table 7-1). -/
def xchEndf : Nat := 0x02

/-- Whether an ENDF of the pavilion that is not yet satisfied holds an operation back (R261). -/
def State.heldByEndf (s : State) (k : UnitKey) (q : QOp) : Bool :=
  (s.pav q.op.pav).xq.any fun f => f.opc == xchEndf && decide (f.op.seq < q.op.seq) && inScope (opField f.op 11 0) k q

/-- The class of an upkeep as a bit of a QUIET window: 0 GDDR, 1 LINK, 2 BEDTEST (R215). -/
def upkeepClass : Upkeep → Nat
  | .gddr _ => 0
  | .link _ => 1
  | .bed _ => 2

/-- Whether a QUIET window closes a resource to the operations of a pavilion: while it runs every resource of a class that it
selects (R215), and after its length has run out those that the work granted in it still uses (R217). -/
def State.closedTo (s : State) (p : Nat) (u : Upkeep) : Bool :=
  match (s.pav p).quiet with
  | some q => (!q.ended && q.classes.testBit (upkeepClass u)) || q.granted.contains u
  | none => false

/-- Whether an open window withdraws the beds from an operation (R215): those issued before the window still drain. -/
def State.bedsClosed (s : State) (o : UnitOp) : Bool :=
  match (s.pav o.pav).quiet with
  | some q => !q.ended && q.classes.testBit 2 && decide (q.seq ≤ o.seq)
  | none => false

/-- Whether a queue's unit may begin an operation: it heads the queue, its pavilion runs, no ENDF holds it, and no
open window withdraws the beds (R215). -/
def State.ready (s : State) (k : UnitKey) (opc : Nat) (o : UnitOp) : Bool :=
  (s.queue k).head? == some ⟨opc, o⟩ && s.pavState o.pav == 2 && !s.heldByEndf k ⟨opc, o⟩
    && !s.bedsClosed o

/-- A queue without its head. -/
def State.dequeue (s : State) (k : UnitKey) : State := s.setQueue k (s.queue k).tail

end Sys2Proof.Machine
end

