-- ==== Sys2Proof/Machine/Array.lean ====
section
/-! DEFINITION. Cells, lanes, feeders, drains' intake, cell-store banks and the bed bus (03, 07.4): the meanings of
MMUL, LANE_STEP, FEEDER_DELIVER, DRAIN_ROW_ACCEPT, CELL_STORE_BANK_ACCESS, BED_BUS_TRANSFER and BED_RESET. -/

namespace Sys2Proof.Machine

/-! ### Shapes (R91, R92, R237) -/

/-- Logical rows of a cell in its shape. -/
def State.shapeR (s : State) (c : Nat) : Nat := 128 / 2 ^ s.rd F.cellShape_SHAPE c 0

/-- Logical columns of a cell in its shape for a format: a quarter for L16. -/
def colsOf (r : Nat) (f : ArrFmt) : Nat := 128 * (128 / r) / (if f = .l16 then 4 else 1)

/-- Bytes of one step of sums: two A64 blocks or one A128 block (R237). -/
def blockBytes (f : ArrFmt) : Nat := if f = .l16 then 528 else 1056

/-- Lanes, or gangs, of a row (R89). -/
def perRow (f : ArrFmt) : Nat := if f = .l16 then 32 else 128

/-- Physical column of gang or lane `k` of a row. -/
def physCol (f : ArrFmt) (k : Nat) : Nat := if f = .l16 then 4 * k else k

/-- The physical column of a logical column, in the segment of rows that it lies in: the key of its queue in the north feeder. -/
def colKey (f : ArrFmt) (i : Nat) : Nat := i / perRow f * 128 + physCol f (i % perRow f)

/-! ### Reads of a cell store with its code (R74, R75) -/

/-- One 8-byte word read: a single-bit error is corrected, written back and counted; an uncorrectable or poisoned
word is counted and raises its alarm (R74). -/
def eccWord (c w : Nat) (s : State) : State :=
  match tfind s.marks w with
  | some .single => { s with marks := terase s.marks w }.bump F.cellEcc_CE_COUNT c 0 1
  | some _ => (s.bump F.cellEcc_UE_COUNT c 0 1).alarm (dieOfBed (c / 8)) 0x03 (s.cellReport St.dataFault 0x02 c)
  | none => s

/-- `n` bytes of a cell store from an offset, wrapping at 4 MiB, each `none` where its word cannot be read, and the
state after the counts and corrections of the read. -/
def State.eccRead (s : State) (c off n : Nat) : List (Option Byte) × State :=
  let bs := (List.range n).map fun i =>
    let a := cellAddr c (off + i)
    if s.unreadable a then none else some (memGet s.mem a)
  let ws := ((List.range n).map fun i => markKey (cellAddr c (off + i))).eraseDups
  (bs, ws.foldl (fun s w => eccWord c w s) s)

/-- A byte list without the unreadable marks, zero in their place. -/
def plain (bs : List (Option Byte)) : List Byte := bs.map (·.getD 0)

/-- Whether every byte of a list can be read. -/
def allSome (bs : List (Option Byte)) : Bool := bs.all (·.isSome)

/-- The code at place `i` of a list of codes of a format, NaR where a byte of it cannot be read (R75). -/
def codeAt (f : ArrFmt) (bs : List (Option Byte)) (i : Nat) : Nat :=
  let w := f.bytes
  let b := (bs.drop (i * w)).take w
  if b.any (·.isNone) then f.nar else leNat (plain b)

/-- The entries of an accumulator block read with unreadable words: an entry of an unreadable word, and every entry
when a bitmap word is unreadable, has its poison bit set; unreadable overflow bits are zero (R75). R75 gives an entry whose own
word cannot be read no value: it is a free value of the bytes read (log entry 139). -/
def blockRead (f : AccFmt) (bs : List (Option Byte)) : List Acc :=
  let n := accWidth f / 8
  let bad := fun (o k : Nat) => ((bs.drop o).take k).any (·.isNone)
  let map := bad 512 16
  let p := plain bs
  (List.range (accEntries f)).map fun i =>
    let e := blockEntry f p i
    { e with
      val := if bad (i * n) n then toSigned (accWidth f) (Config.lostEntry ((bs.drop (i * n)).take n) % 2 ^ accWidth f) else e.val
      poison := e.poison || map || bad (i * n) n
      ovf := if bad 520 8 then false else e.ovf }

/-! ### Reads through the banks (R72, R73) -/

/-- The lines that `n` bytes from an offset lie in, wrapping at 4 MiB. -/
def linesOf (off n : Nat) : List Nat :=
  (List.range ((off % 128 + n + 127) / 128)).map fun i => (off / 128 + i) * 128 % cellSize

/-- Bytes of a stream assembled from the lines that have been read for it; `none` while one is missing. -/
def CellSt.fromLines (x : CellSt) (tag off n : Nat) : Option (List (Option Byte)) :=
  let ls := linesOf off n
  if ls.all fun a => (tfind x.lines (tag, a)).isSome then
    some (((ls.flatMap fun a => tget x.lines (tag, a) []).drop (off % 128)).take n)
  else none

/-- Requests for the missing lines of a stream put to their banks (R72, R87). -/
def askLines (s : State) (c who tag off n : Nat) : State :=
  (linesOf off n).foldl (fun s a =>
    let x := s.cell c
    if (tfind x.lines (tag, a)).isSome || x.asked.contains (tag, a) then s
    else
      let b := a / 128 % 32
      let s := s.setCell c { x with asked := (tag, a) :: x.asked }
      { s with arr := { s.arr with
        banks := tset s.arr.banks (c, b) (tget s.arr.banks (c, b) [] ++ [⟨who, a, none, tag, 0, 0⟩]) } }) s

/-- Lines of a stream other than those named dropped. -/
def CellSt.keepLines (x : CellSt) (tag : Nat) (ls : List Nat) : CellSt :=
  { x with
    lines := x.lines.filter fun e => e.1.1 != tag || ls.contains e.1.2
    asked := x.asked.filter fun e => e.1 != tag || ls.contains e.2 }

/-- `n` bytes of a cell store read through its banks for `tag` by a requester; `none` while lines are still to come, and the
state then asks for them. -/
def bankRead (s : State) (c who tag off n : Nat) : Option (List (Option Byte)) × State :=
  match (s.cell c).fromLines tag off n with
  | some bs => (some bs, s.setCell c ((s.cell c).keepLines tag []))
  | none => (none, askLines s c who tag off n)

/-- The same for several cells, taken once every one has its bytes: each cell with its offset and length. -/
def bankReads (s : State) (who tag : Nat) (cs : List (Nat × Nat × Nat)) : Option (List (Nat × List (Option Byte))) × State :=
  if cs.all fun e => ((s.cell e.1).fromLines tag e.2.1 e.2.2).isSome then
    (some (cs.map fun e => (e.1, ((s.cell e.1).fromLines tag e.2.1 e.2.2).getD [])),
      cs.foldl (fun s e => s.setCell e.1 ((s.cell e.1).keepLines tag [])) s)
  else (none, cs.foldl (fun s e => askLines s e.1 who tag e.2.1 e.2.2) s)

/-! ### MMUL -/

/-- Whether a bed has a multicast group with a DEST bit (R242). -/
def State.hasGroup (s : State) (b bit : Nat) : Bool := s.arr.mcast.any fun e => e.1.1 == b && e.2.testBit bit

/-- The pass that an MMUL makes of a pass entry on a cell (R235 to R237). -/
def passOf (s : State) (c : Nat) (o : UnitOp) (e : List Byte) : Pass where
  id := (s.cell c).nextId
  op := o
  mode := match opMod o 1 0 with | 0 => .ws | 1 => .os | _ => .is
  fmt := match opMod o 3 2 with | 0 => .l8 | 1 => .l16 | _ => .i8
  cont := opBit o 4
  keep := opBit o 5
  raw := opBit o 6
  zsum := opBit o 7
  len := opField o 15 0 + 1
  xOff := lineOff (fieldLe e 0 2) (toSigned 16 (fieldLe e 2 2)) o.index
  yOff := lineOff (fieldLe e 4 2) (toSigned 16 (fieldLe e 6 2)) o.index
  nOff := lineOff (fieldLe e 8 2) (toSigned 16 (fieldLe e 10 2)) o.index
  oOff := lineOff (fieldLe e 12 2) (toSigned 16 (fieldLe e 14 2)) o.index
  xSrc := fieldLe e 16 1
  ySrc := fieldLe e 17 1
  nSrc := fieldLe e 18 1
  xStep := 0
  yStep := 0
  nStep := 0
  lanes := 0
  rows := 0
  colsum := []

/-- Whether the pass reads its column stream: operands in OS, input sums with CONTINUE in WS and IS. -/
def Pass.readsY (p : Pass) : Bool := p.mode == .os || p.cont

/-- Whether the pass carries stationary values. -/
def Pass.readsN (p : Pass) : Bool := p.mode != .os && !p.keep

/-- The statuses with which an MMUL faults on a cell (R76, R214, R236, R238, R240 to R242). Bit 15 of each of the four line
fields counts as reserved; Table 7-5 says so of XLINE only (DEDUCED, log entry 140). -/
def mmulFaults (s : State) (c : Nat) (p : Pass) (e : List Byte) : List Nat :=
  let x := s.cell c
  let k := c % 8
  let badSrc := fun (v : Nat) => v != 0 && (v < 4 || 7 < v)
  let noGroup := fun (v bit : Nat) => 4 ≤ v && !s.hasGroup (c / 8) bit
  let inval :=
    badSrc p.xSrc || badSrc p.ySrc || badSrc p.nSrc
    || [0, 4, 8, 12].any (fun o => (fieldLe e o 2).testBit 15)
    || fieldLe e 19 13 != 0
    || (p.mode != .os && s.shapeR c != 128)
    || (p.zsum && (p.fmt != .i8 || p.mode == .is))
    || noGroup p.xSrc (8 + k) || (p.readsY && noGroup p.ySrc (16 + k)) || (p.readsN && noGroup p.nSrc (16 + k))
    || (p.mode == .os && p.cont && x.held != some p.fmt)
    || (x.held.isSome && !(p.mode == .os && p.cont))
    || (p.mode != .os && p.keep && x.statFmt.isSome && x.statFmt != some p.fmt)
  let place :=
    (x.needStart && (p.cont || (p.mode != .os && p.keep)))
    || (p.mode != .os && p.keep && x.statFmt.isNone)
  (if inval then [St.invalidOp] else []) ++ (if place then [St.markPlacement] else [])

/-- An MMUL begun on one cell. -/
def beginPass (s : State) (c : Nat) (p : Pass) : State :=
  let x := s.cell c
  s.setCell c { x with
    passes := x.passes ++ [p]
    nextId := x.nextId + 1
    held := if p.mode == .os && p.keep then some p.fmt else none
    statFmt := if p.readsN then some p.fmt else x.statFmt
    needStart := false }

/-- The cells of an MMUL on a bed, each with the place of its pass entry (R228, R236). -/
def State.mmulPlaces (s : State) (bed ag : Nat) (o : UnitOp) : List (Nat × Nat × Nat) :=
  (s.agCells bed ag).map fun c => (c, entryOff (opField o 47 33) (opField o 32 31), 32)

/-- The pass entries of an MMUL on a bed once its cells have read them. -/
def State.mmulEntries (s : State) (bed ag : Nat) (o : UnitOp) : Option (List (Nat × List (Option Byte))) × State :=
  bankReads s 0 3 (s.mmulPlaces bed ag o)

/-- The pass that an MMUL makes on each of its cells. -/
def State.mmulPasses (s : State) (o : UnitOp) (ents : List (Nat × List (Option Byte))) : List (Nat × Pass) :=
  ents.map fun e => (e.1, passOf s e.1 o (plain e.2))

/-- The statuses with which an MMUL faults on its cells. -/
def State.mmulCodes (s : State) (o : UnitOp) (ents : List (Nat × List (Option Byte))) : List Nat :=
  ents.flatMap (fun e => if e.2.any (·.isNone) then [St.dataFault] else [])
    ++ ents.flatMap fun e => mmulFaults s e.1 (passOf s e.1 o (plain e.2)) (plain e.2)

/-- The mode that an MMUL names. -/
def mmulMode (o : UnitOp) : MMode := match opMod o 1 0 with | 0 => .ws | 1 => .os | _ => .is

/-- Whether a cell still works on passes of a mode other than the operation's (R82). -/
def State.otherMode (s : State) (o : UnitOp) (c : Nat) : Bool := (s.cell c).passes.any fun q => q.mode != mmulMode o

/-- MMUL (R235) on one bed: a pass begins on every cell that the array group has there, once the operation heads the bed's
array-group queue, the previous results have entered the drain where the mode differs (R82), and the pass entries are read. -/
def execMmul (ag : Nat) (x : BedOp) (s : State) : Out :=
  if !s.ready (.ag x.bed ag) 1 x.op || (s.agCells x.bed ag).any (s.otherMode x.op) then .next s
  else
    match s.mmulEntries x.bed ag x.op with
    | (none, t) => .next t
    | (some es, t) =>
      let t := t.dequeue (.ag x.bed ag)
      match (s.mmulCodes x.op es).min? with
      | some code => .next (t.opFault x.op.pav code 0x05 x.bed)
      | none => .next ((s.mmulPasses x.op es).foldl (fun s e => beginPass s e.1 e.2) t)

/-! ### Lanes -/

/-- The pass that a lane works on. -/
def CellSt.passAt (x : CellSt) (id : Nat) : Option Pass := x.passes.find? fun p => p.id == id

/-- A pass of a cell replaced. -/
def CellSt.setPass (x : CellSt) (p : Pass) : CellSt :=
  { x with passes := x.passes.map fun q => if q.id == p.id then p else q }

/-- Drain rows that a pass delivers (Table 7-7). -/
def Pass.drainRows (p : Pass) : Nat :=
  match p.mode with
  | .os => if p.keep then 0 else 128
  | _ => p.len

/-- COLSUM after the ZSUM passes of a list, from its value before them: one with START begins anew, one with CONTINUE adds to it
(R137). -/
def colsumOver (base : Tab Nat Int) (ps : List Pass) : Tab Nat Int :=
  (ps.filter (·.zsum)).foldl (fun t p =>
    if p.cont then p.colsum.foldl (fun t e => tset t e.1 (tget t e.1 0 + e.2)) t else p.colsum) base

/-- COLSUM as formed up to a pass of a cell (R137, R241). -/
def State.colsumAt (s : State) (c id : Nat) : Tab Nat Int :=
  colsumOver (s.drain c).colsum ((s.cell c).passes.filter fun q => decide (q.id ≤ id))

/-- COLSUM of a drain: that of the most recent MMUL (R241). -/
def State.colsum (s : State) (c : Nat) : Tab Nat Int := colsumOver (s.drain c).colsum (s.cell c).passes

/-- A pass whose lanes have all finished and whose rows have all reached the drain leaves the sequencer; the bed
counts the operation when its last cell finishes (Table 3-12). -/
def finishPass (s : State) (c id : Nat) : State :=
  let x := s.cell c
  match x.passAt id with
  | none => s
  | some p =>
    if p.lanes < 128 * perRow p.fmt || p.rows < p.drainRows then s
    else
      let s := if p.zsum then s.setDrain c { s.drain c with colsum := s.colsumAt c id } else s
      let s := s.setCell c { x with passes := x.passes.filter fun q => q.id != id }
      let b := c / 8
      if (List.range 8).any fun k => (s.cell (b * 8 + k)).passes.any fun q => q.op.seq == p.op.seq then s
      else s.progress b

/-- The lanes that hold a sum or a stationary value of a row's lane or gang at physical column `k`, low half first (R55, R89). -/
def valueCols (f : ArrFmt) (k : Nat) : List Nat := if f = .l16 then [k, k + 1] else [k]

/-- The halves of a sum as the lanes of a gang hold them, each with its flags (R55). -/
def toHalves (f : ArrFmt) (a : Acc) : List Acc :=
  if f = .l16 then [{ a with val := toSigned 64 (ofSigned 64 a.val) }, { a with val := a.val / 2 ^ 64 }] else [a]

/-- A sum from the halves that the lanes of a gang hold. -/
def ofHalves : List Acc → Acc
  | [] => .zero
  | [a] => a
  | lo :: hi :: _ => ⟨hi.val * 2 ^ 64 + (ofSigned 64 lo.val : Int), lo.poison || hi.poison, lo.ovf || hi.ovf⟩

/-- The stationary value of a lane or gang (R89). -/
def State.statAt (s : State) (f : ArrFmt) (c r k : Nat) : Nat :=
  if f = .l16 then (s.lane c r k).cur + 256 * (s.lane c r (k + 1)).cur else (s.lane c r k).cur

/-- A lane's next value put into its current register (R83). -/
def laneTake (l : Lane) : Lane :=
  match l.next with
  | some v => { l with cur := v, next := none }
  | none => l

/-- The swap of a lane in place, next into current for the pass it works on, unless that pass keeps the current value (R83, R84,
R238); of a gang the two lanes that hold its value swap together. -/
def swapAt (s : State) (c r k : Nat) : State :=
  let l := s.lane c r k
  match (s.cell c).passAt l.pass with
  | none => s
  | some p =>
    if l.loaded || p.mode == .os || (p.fmt == .l16 && k % 4 != 0) then s
    else if p.keep then s.setLane c r k { l with loaded := true }
    else if l.next.isNone then s
    else
      let s := s.setLane c r k { laneTake l with loaded := true }
      if p.fmt = .l16 then s.setLane c r (k + 1) (laneTake (s.lane c r (k + 1))) else s

/-- An OS sum moved into the free drain latch (R80, R81). -/
def laneMove (l : Lane) : Lane :=
  if l.moveDue && l.latch.isNone then { l with latch := some l.acc, moveDue := false } else l

/-- The lanes of a gang behind its first lane (R89). -/
def gangRest (f : ArrFmt) (k : Nat) : List Nat := if f = .l16 then [k + 1, k + 2, k + 3] else []

/-- Whether every lane of a gang has come to the pass of its first lane: the four columns step as one (R89). -/
def State.gangHere (s : State) (c r k : Nat) (p : Pass) : Bool := (gangRest p.fmt k).all fun j => (s.lane c r j).pass == p.id

/-- An accumulator whose contents the spec calls undefined (R55): a free value and free flags. -/
def State.freeAcc (s : State) : Acc × State :=
  let (v, s) := s.free
  let (f, s) := s.free
  (⟨toSigned 64 v.toNat, f.getLsbD 0, f.getLsbD 1⟩, s)

/-- The other lanes of a gang leave the pass with its first lane; the accumulators of columns 4c + 2 and 4c + 3 are undefined from
here (R55). -/
def State.gangLeave (s : State) (c r k : Nat) (p : Pass) : State :=
  (gangRest p.fmt k).foldl (fun s j =>
    if j = k + 1 then s.setLane c r j { s.lane c r j with pass := p.id + 1 }
    else
      let (a, s) := s.freeAcc
      s.setLane c r j { s.lane c r j with pass := p.id + 1, acc := a }) s

/-- Sums waiting in the column-sum channel south of a lane: that of the lane below, or at row 127 the drain's (Table 3-2, R88). -/
def State.southSums (s : State) (c r k : Nat) : List Acc :=
  if r < 127 then (s.lane c (r + 1) k).sumIn else tget (s.cell c).drainIn k []

/-- A sum put into the column-sum channel south of a lane. -/
def State.pushSum (s : State) (c r k : Nat) (a : Acc) : State :=
  if r < 127 then
    let d := s.lane c (r + 1) k
    s.setLane c (r + 1) k { d with sumIn := d.sumIn ++ [a] }
  else
    let x := s.cell c
    s.setCell c { x with drainIn := tset x.drainIn k (tget x.drainIn k [] ++ [a]) }

/-- The operand of a step passed east. -/
def State.passEast (s : State) (c r k : Nat) (it : Item) : State :=
  if k < 128 then
    let e := s.lane c r k
    s.setLane c r k { e with rowIn := e.rowIn ++ [it] }
  else s

/-- A lane that has performed the last step of a pass counted there. -/
def State.laneLast (s : State) (c : Nat) (p : Pass) (last : Bool) : State :=
  if last then finishPass (s.setCell c ((s.cell c).setPass { p with lanes := p.lanes + 1 })) c p.id else s

/-- The sums of a step written to the accumulators of the lanes that hold them (R55), each changed by `f`. -/
def State.putAccs (s : State) (c r : Nat) (js : List Nat) (as : List Acc) (f : Lane → Lane) : State :=
  (js.zip as).foldl (fun s e => s.setLane c r e.1 (f { s.lane c r e.1 with acc := e.2 })) s

/-- One step of a stationary pass (Table 3-3, R77, R78): the sum from the north with one product added goes south,
the operand goes east. `none` where an input is absent or an output has no free place (R71). -/
def stepWS (s : State) (c r k : Nat) (p : Pass) (l : Lane) : Option State :=
  let east := k + (if p.fmt = .l16 then 4 else 1)
  let js := valueCols p.fmt k
  let north := r != 0 || p.cont
  let eastRoom := decide (128 ≤ east) || decide ((s.lane c r east).rowIn.length < 2)
  let southRoom := js.all fun j => decide ((s.southSums c r j).length < 2)
  let here := !north || js.all fun j => !(s.lane c r j).sumIn.isEmpty
  match l.rowIn with
  | [] => none
  | it :: rows =>
    if !l.loaded || !eastRoom || !southRoom || !here || !s.gangHere c r k p then none
    else
      let a0 := if north then ofHalves (js.map fun j => (s.lane c r j).sumIn.headD .zero) else .zero
      let as := toHalves p.fmt (a0.mac p.fmt it.code (s.statAt p.fmt c r k))
      let s := s.setLane c r k { l with
        rowIn := rows, fresh := it.last, pass := if it.last then l.pass + 1 else l.pass, loaded := !it.last }
      let s := s.putAccs c r js as fun l => if north then { l with sumIn := l.sumIn.tail } else l
      let s := if it.last then s.gangLeave c r k p else s
      let s := (js.zip as).foldl (fun s e => s.pushSum c r e.1 e.2) (s.passEast c r east it)
      some (s.laneLast c p it.last)

/-- One step of an OS pass (R80, R92, R240): a product of the two operands enters the lane's own sum. -/
def stepOS (s : State) (c r k : Nat) (p : Pass) (l : Lane) : Option State :=
  let east := k + (if p.fmt = .l16 then 4 else 1)
  let js := valueCols p.fmt k
  let inner := (r + 1) % s.shapeR c != 0
  let eastRoom := decide (128 ≤ east) || decide ((s.lane c r east).rowIn.length < 2)
  let southRoom := !inner || decide ((s.lane c (r + 1) k).colIn.length < 2)
  match l.rowIn, l.colIn with
  | it :: rows, w :: cols =>
    if (js.any fun j => (s.lane c r j).moveDue) || !eastRoom || !southRoom || !s.gangHere c r k p then none
    else
      let a0 := if l.fresh && !p.cont then Acc.zero else ofHalves (js.map fun j => (s.lane c r j).acc)
      let as := toHalves p.fmt (a0.mac p.fmt it.code w.code)
      let s := s.setLane c r k { l with
        rowIn := rows, colIn := cols, fresh := it.last, pass := if it.last then l.pass + 1 else l.pass }
      let s := s.putAccs c r js as fun l => laneMove { l with moveDue := it.last && !p.keep }
      let s := if it.last then s.gangLeave c r k p else s
      let s := s.passEast c r east it
      let s := if inner then
        let d := s.lane c (r + 1) k
        s.setLane c (r + 1) k { d with colIn := d.colIn ++ [w] } else s
      some (s.laneLast c p it.last)
  | _, _ => none

/-- The next value at a lane kept, or passed south (R83): of the values of one pass, which end with the marked one, a lane keeps
the first that reaches it, once its next register is empty, and forwards the rest. A gang keeps the low byte of its value in column
4c and the high byte in column 4c + 1 (R89). -/
def takeNext (s : State) (c r k : Nat) : State :=
  let l := s.lane c r k
  let stat := (s.cell c).passes.any fun p => p.mode != .os
  match l.colIn with
  | v :: rest =>
    if !stat then s
    else if !l.kept then
      let h := s.lane c r (k + 1)
      if l.next.isSome || (v.wide && h.next.isSome) then s
      else
        let s := s.setLane c r k { l with colIn := rest, next := some (v.code % 256), kept := !v.last }
        if v.wide then s.setLane c r (k + 1) { h with next := some (v.code / 256) } else s
    else if r < 127 && (s.lane c (r + 1) k).colIn.length < 2 then
      let s := s.setLane c r k { l with colIn := rest, kept := !v.last }
      let d := s.lane c (r + 1) k
      s.setLane c (r + 1) k { d with colIn := d.colIn ++ [v] }
    else s
  | [] => s

/-- What a lane sends down its column-sum channel in the drain of an OS pass (R80): its own sum first, then the sums of the rows
above it as they come, so that the column delivers its bottom row first. A latch that is free takes a sum that waits (R81). A
row-127 lane with no room waits on its drain (R88). -/
def drainStep (s : State) (c r k : Nat) : State :=
  let l := s.lane c r k
  let due := if 0 < l.fwd then l.sumIn.head? else l.latch
  match due with
  | none => s
  | some a =>
    if 2 ≤ (s.southSums c r k).length then (if r = 127 then s.bump F.bedStall_DRAIN_WAIT (c / 8) 0 1 else s)
    else
      let l := if 0 < l.fwd then { l with sumIn := l.sumIn.tail, fwd := l.fwd - 1 } else laneMove { l with latch := none, fwd := r }
      (s.setLane c r k l).pushSum c r k a

/-- What a lane that could not step waits for: a row-127 lane for its drain, or a lane for an item of a feeder: at the west edge
its row operand, at the top of a segment its column operand or input sum, in any row the next value of its column (Table 3-13). -/
def countStall (s : State) (c r k : Nat) (p : Pass) (l : Lane) : State :=
  let b := c / 8
  let top := r % s.shapeR c == 0
  if p.mode != .os && r == 127 && (valueCols p.fmt k).any (fun j => decide (2 ≤ (s.southSums c r j).length)) then
    s.bump F.bedStall_DRAIN_WAIT b 0 1
  else if (k == 0 && l.rowIn.isEmpty) || (top && p.mode == .os && l.colIn.isEmpty)
      || (r == 0 && p.mode != .os && p.cont && l.sumIn.isEmpty) || (p.mode != .os && !l.loaded && l.next.isNone) then
    s.bump F.bedStall_FEED_WAIT b 0 1
  else s

/-- A lane before its step: a due sum moved, a next value swapped in. -/
def laneReady (s : State) (c r k : Nat) : State := swapAt (s.setLane c r k (laneMove (s.lane c r k))) c r k

/-- A lane after its step: swapped after the last item of a pass, a next value kept or forwarded, and in the drain of an OS pass
one sum sent south. -/
def laneAfter (s : State) (c r k : Nat) : State := drainStep (swapAt (takeNext (swapAt s c r k) c r k) c r k) c r k

/-- LANE_STEP (R71): the lane moves a due sum, performs one step of its pass if every input is present and every
output has room, swaps after the last item, keeps or forwards a next value, and sends a sum of a drain south. In L16 the gang of
columns 4c to 4c + 3 steps as lane 4c (R89). -/
def execLaneStep (cell row col : Nat) (s : State) : Out :=
  let s := laneReady s cell row col
  let l := s.lane cell row col
  let s := match (s.cell cell).passAt l.pass with
    | none => s
    | some p =>
      if p.fmt = .l16 && col % 4 != 0 then s
      else ((if p.mode = .os then stepOS s cell row col p l else stepWS s cell row col p l).getD
        (countStall s cell row col p l))
  .next (laneAfter s cell row col)

/-! ### Feeders -/

/-- The bytes of transfers that a feeder of a cell has taken from a track and not yet delivered. -/
def CellSt.trackBytes (x : CellSt) (west : Bool) (t : Nat) : List Byte := tget (if west then x.westBytes else x.northBytes) t []

/-- Those bytes set. -/
def CellSt.setTrackBytes (x : CellSt) (west : Bool) (t : Nat) (bs : List Byte) : CellSt :=
  if west then { x with westBytes := tset x.westBytes t bs } else { x with northBytes := tset x.northBytes t bs }

/-- The next `n` bytes of a stream: from the lines read for it, or from the transfers of a track (R236). `none` while they are
not there; the second state has asked for what is missing. -/
def streamBytes (s : State) (c : Nat) (west : Bool) (src tag off n : Nat) : Option (List (Option Byte)) × State :=
  let x := s.cell c
  if src = 0 then
    match x.fromLines tag off n with
    | some bs => (some bs, s)
    | none => (none, askLines s c (if west then 0 else 1) tag off n)
  else
    let key := (c / 8, src - 4, if west then BusDst.west (c % 8) else BusDst.north (c % 8))
    let have_ := x.trackBytes west (src - 4)
    if n ≤ have_.length then
      (some ((have_.take n).map some), s.setCell c (x.setTrackBytes west (src - 4) (have_.drop n)))
    else
      match tget s.arr.rx key [] with
      | t :: ts =>
        let s := { s with arr := { s.arr with rx := tset s.arr.rx key ts } }
        (none, s.setCell c (x.setTrackBytes west (src - 4) (have_ ++ t)))
      | [] => (none, s)

/-- The passes of an operation and the lines read for them taken from the cells of its bed: the operation has completed with a
fault. -/
def dropPass (s : State) (bed : Nat) (o : UnitOp) : State :=
  (List.range 8).foldl (fun s k =>
    let x := s.cell (8 * bed + k)
    if x.passes.any fun q => q.op == o then
      s.setCell (8 * bed + k) { x with
        passes := x.passes.filter fun q => q.op != o
        lines := x.lines.filter fun e => decide (3 ≤ e.1.1)
        asked := x.asked.filter fun e => decide (3 ≤ e.1) }
    else s) s

/-- A data fault of a pass under the abort path, which completes the operation, or the state unchanged on the poison path (R75). -/
def dataPath (s : State) (o : UnitOp) (unit bed : Nat) (bad : Bool) : Option State :=
  if bad && !o.poison then some ((dropPass s bed o).opFault o.pav St.dataFault unit bed) else none

/-- The first pass of a cell with a stream that is not finished. -/
def CellSt.feedPass (x : CellSt) (todo : Pass → Bool) : Option Pass := x.passes.find? todo

/-- The lines of a stream that its next step needs, none after its last step: lines that steps share are kept. -/
def nextLines (done len off n : Nat) : List Nat := if done = len then [] else linesOf off n

/-- The west feeder's refill: the row operand of the next step of the first pass that still has one (Table 7-6). -/
def refillWest (s : State) (c : Nat) : State :=
  let x := s.cell c
  match x.feedPass fun p => decide (p.xStep < p.len) with
  | none => s
  | some p =>
    let r := s.shapeR c
    let w := p.fmt.bytes
    if (List.range r).any fun i => 16 ≤ (tget x.westQ i []).length then s
    else
      let off := p.xOff + p.xStep * r * w
      match streamBytes s c true p.xSrc 0 off (r * w) with
      | (none, s) => s
      | (some bs, s) =>
        match dataPath s p.op 0x03 (c / 8) (bs.any (·.isNone)) with
        | some s => s
        | none =>
          let x := s.cell c
          let q := (List.range r).foldl (fun q i =>
            tset q i (tget q i [] ++ [⟨codeAt p.fmt bs i, p.fmt == .l16, p.xStep + 1 == p.len⟩])) x.westQ
          let x := { x with westQ := q }.setPass { p with xStep := p.xStep + 1 }
          s.setCell c (if p.xSrc = 0 then x.keepLines 0 (nextLines (p.xStep + 1) p.len (off + r * w) (r * w)) else x)

/-- Codes added to COLSUM, channel by channel; NaR adds 0 (R137). -/
def addColsum (t : Tab Nat Int) (codes : List Nat) : Tab Nat Int :=
  codes.zipIdx.foldl (fun t (v, ch) => if v = 0x80 then t else tset t ch (tget t ch 0 + i8Value v)) t

/-- The weight codes of a step added to the sums of their pass (R137, R241). -/
def sumWeights (s : State) (c : Nat) (p : Pass) (codes : List Nat) : State :=
  if !p.zsum then s else s.setCell c ((s.cell c).setPass { p with colsum := addColsum p.colsum codes })

/-- The north feeder's refill of column operands in OS: the operand of the next step (Table 7-6). -/
def refillCols (s : State) (c : Nat) : State :=
  let x := s.cell c
  match x.feedPass fun p => p.mode == .os && decide (p.yStep < p.len) with
  | none => s
  | some p =>
    let n := colsOf (s.shapeR c) p.fmt
    let w := p.fmt.bytes
    if (List.range n).any fun i => 16 ≤ (tget x.northQ (colKey p.fmt i) []).length then s
    else
      let off := p.yOff + p.yStep * n * w
      match streamBytes s c false p.ySrc 1 off (n * w) with
      | (none, s) => s
      | (some bs, s) =>
        match dataPath s p.op 0x03 (c / 8) (bs.any (·.isNone)) with
        | some s => s
        | none =>
          let x := s.cell c
          let codes := (List.range n).map (codeAt p.fmt bs)
          let q := codes.zipIdx.foldl (fun q (v, i) =>
            tset q (colKey p.fmt i) (tget q (colKey p.fmt i) [] ++ [⟨v, p.fmt == .l16, p.yStep + 1 == p.len⟩])) x.northQ
          let p := { p with yStep := p.yStep + 1 }
          let x := { x with northQ := q }.setPass p
          let s := s.setCell c (if p.ySrc = 0 then x.keepLines 1 (nextLines p.yStep p.len (off + n * w) (n * w)) else x)
          sumWeights s c p codes

/-- Whether a column's lane of row 0 has begun the pass before `id`, or no such pass remains to begin (R238). -/
def State.begunBefore (s : State) (c k id : Nat) : Bool :=
  let l := s.lane c 0 k
  (s.cell c).passes.all fun q => decide (id ≤ q.id) || decide (q.id < l.pass) || (q.id == l.pass && !l.fresh)

/-- The north feeder's refill of stationary values: one row of next values (R83, R238). -/
def refillStat (s : State) (c : Nat) : State :=
  let x := s.cell c
  match x.feedPass fun p => p.readsN && decide (p.nStep < 128) with
  | none => s
  | some p =>
    let n := perRow p.fmt
    let w := p.fmt.bytes
    if (List.range n).any (fun i => 16 ≤ (tget x.northQ (colKey p.fmt i) []).length)
        || !((List.range n).all fun i => s.begunBefore c (physCol p.fmt i) p.id) then s
    else
      let off := p.nOff + p.nStep * n * w
      match streamBytes s c false p.nSrc 2 off (n * w) with
      | (none, s) => s
      | (some bs, s) =>
        match dataPath s p.op 0x03 (c / 8) (bs.any (·.isNone)) with
        | some s => s
        | none =>
          let x := s.cell c
          let codes := (List.range n).map (codeAt p.fmt bs)
          let q := codes.zipIdx.foldl (fun q (v, i) =>
            tset q (colKey p.fmt i) (tget q (colKey p.fmt i) [] ++ [⟨v, p.fmt == .l16, p.nStep == 127⟩])) x.northQ
          let p := { p with nStep := p.nStep + 1 }
          let x := { x with northQ := q }.setPass p
          let s := s.setCell c (if p.nSrc = 0 then x.keepLines 2 (nextLines p.nStep 128 (off + n * w) (n * w)) else x)
          sumWeights s c p codes

/-- The blocks of one step's sums. -/
def sumEntries (f : ArrFmt) (bs : List (Option Byte)) : List Acc :=
  if f = .l16 then blockRead .a128 bs else blockRead f.acc (bs.take 528) ++ blockRead f.acc (bs.drop 528)

/-- The north feeder's refill of input sums (R78, Table 7-6). -/
def refillSums (s : State) (c : Nat) : State :=
  let x := s.cell c
  match x.feedPass fun p => p.mode != .os && p.cont && decide (p.yStep < p.len) with
  | none => s
  | some p =>
    let n := perRow p.fmt
    let k := blockBytes p.fmt
    if (List.range n).any fun i => 16 ≤ (tget x.sumQ (physCol p.fmt i) []).length then s
    else
      let off := p.yOff + p.yStep * k
      match streamBytes s c false p.ySrc 1 off k with
      | (none, s) => s
      | (some bs, s) =>
        match dataPath s p.op 0x03 (c / 8) (bs.any (·.isNone)) with
        | some s => s
        | none =>
          let x := s.cell c
          let q := (sumEntries p.fmt bs).zipIdx.foldl (fun q (a, i) =>
            ((valueCols p.fmt (physCol p.fmt i)).zip (toHalves p.fmt a)).foldl (fun q e => tset q e.1 (tget q e.1 [] ++ [e.2])) q) x.sumQ
          let x := { x with sumQ := q }.setPass { p with yStep := p.yStep + 1 }
          s.setCell c (if p.ySrc = 0 then x.keepLines 1 (nextLines (p.yStep + 1) p.len (off + k) k) else x)

/-- One operand item from the queue of row `r` to its lane in every segment, if each has room (R92). -/
def deliverWest (rows : Nat) (c : Nat) (s : State) (r : Nat) : State :=
  let x := s.cell c
  let segs := (List.range (128 / rows)).map fun g => r + g * rows
  match tget x.westQ r [] with
  | it :: rest =>
    if segs.all fun p => (s.lane c p 0).rowIn.length < 2 then
      segs.foldl (fun s p => let l := s.lane c p 0; s.setLane c p 0 { l with rowIn := l.rowIn ++ [it] })
        (s.setCell c { x with westQ := tset x.westQ r rest })
    else s
  | [] => s

/-- One item from the queue of column `i` (`colKey`) to the lane at the top of its segment, and one sum to row 0. -/
def deliverNorth (rows : Nat) (c : Nat) (s : State) (i : Nat) : State :=
  let k := i % 128
  let r := i / 128 * rows
  let x := s.cell c
  let s := match tget x.northQ i [] with
    | it :: rest =>
      let l := s.lane c r k
      if l.colIn.length < 2 then
        (s.setCell c { x with northQ := tset x.northQ i rest }).setLane c r k { l with colIn := l.colIn ++ [it] }
      else s
    | [] => s
  let x := s.cell c
  match tget x.sumQ i [] with
  | a :: rest =>
    let l := s.lane c 0 k
    if l.sumIn.length < 2 then
      (s.setCell c { x with sumQ := tset x.sumQ i rest }).setLane c 0 k { l with sumIn := l.sumIn ++ [a] }
    else s
  | [] => s

/-- FEEDER_DELIVER (R87): the feeder delivers at most one item to each row or column it serves and refills its
queues from its source. Under the shutdown brake it does not act (R555, R568). -/
def execFeederDeliver (cell : Nat) (west : Bool) (s : State) : Out :=
  let rows := s.shapeR cell
  if s.pwr.shut then .next s
  else if west then
    .next (refillWest ((List.range rows).foldl (deliverWest rows cell) s) cell)
  else
    .next (refillSums (refillStat (refillCols
      ((List.range (128 * (128 / rows))).foldl (deliverNorth rows cell) s) cell) cell) cell)

/-! ### Cell-store banks (R72 to R75) -/

/-- A write put to its banks, cut at line boundaries (R72); offsets wrap at 4 MiB (R229). `src` is the place of its operation in
program order and the SCOPE bits of its units. -/
def postWrite (s : State) (c who tag : Nat) (src : Nat × Nat) (off : Nat) (bs : List Byte) : State :=
  (linesOf off bs.length).zipIdx.foldl (fun s (a, i) =>
    let lo := if i = 0 then 0 else 128 * i - off % 128
    let hi := 128 * (i + 1) - off % 128
    let b := a / 128 % 32
    let req : BankReq := ⟨who, a, some (if i = 0 then off % cellSize else a, (bs.take hi).drop lo), tag, src.1, src.2⟩
    { s with arr := { s.arr with banks := tset s.arr.banks (c, b) (tget s.arr.banks (c, b) [] ++ [req]) } }) s

/-- A write of a stream engine put to the banks of a cell through the bed-bus port, under a number of its own. -/
def postCell (s : State) (c : Nat) (src : Nat × Nat) (off : Nat) (bs : List Byte) : State :=
  let t := postWrite s c 3 (s.arr.nextX * 8 + 4) src off bs
  { t with arr := { t.arr with nextX := s.arr.nextX + 1 } }

/-- How many such writes of an operation still wait at the banks of a cell. -/
def State.cellWaits (s : State) (c seq : Nat) : Nat :=
  ((s.arr.banks.filter fun e => e.1.1 == c).flatMap fun e =>
    (e.2.filter fun r => r.write.isSome && r.tag % 8 == 4 && r.who == 3 && r.seq == seq).map (·.tag)).eraseDups.length

/-- The request that a bank serves next: the first of the highest-priority requester (R73). -/
def nextReq (q : List BankReq) : Option BankReq :=
  (List.range 5).findSome? fun w => q.find? fun r => r.who == w

/-- CELL_STORE_BANK_ACCESS (R73): one waiting request of the bank that no ORDF holds back is served: a write changes the store, a
read delivers the line to its feeder with the effects of the code. -/
def execCellStoreBankAccess (cell bank : Nat) (s : State) : Out :=
  let q := tget s.arr.banks (cell, bank) []
  match nextReq (q.filter fun r => !s.bankHeld (cell / 8) r) with
  | none => .next s
  | some r =>
    let s := { s with arr := { s.arr with banks := tset s.arr.banks (cell, bank) (q.erase r) } }
    match r.write with
    | some (off, bs) => .next (s.cellStore cell off bs)
    | none =>
      let (bs, s) := s.eccRead cell r.line 128
      let x := s.cell cell
      .next (s.setCell cell { x with lines := tset x.lines (r.tag, r.line) bs })

/-! ### Drain intake (R79, R80, R239) -/

/-- A drain row of the pass `p`: raw blocks written to the cell store, or a row of the kept output (R79, R245). -/
def takeRow (s : State) (c : Nat) (p : Pass) (q : Nat) (row : List Acc) : State :=
  let p' := { p with rows := p.rows + 1 }
  let x := (s.cell c).setPass p'
  if p.raw then
    let bs := if p.fmt = .l16 then blockOf .a128 row
      else blockOf p.fmt.acc (row.take 64) ++ blockOf p.fmt.acc (row.drop 64)
    finishPass (postWrite (s.setCell c x) c 2 0 (p.op.seq, 2 ^ s.rd F.cellShape_AG c 0) (p.oOff + p.rows * blockBytes p.fmt) bs) c p.id
  else
    let full := p'.rows == p.drainRows
    let outs := if x.outs.any (·.seq == p.op.seq)
      then x.outs.map fun o => if o.seq == p.op.seq then
        { o with rows := o.rows ++ [(q, row)], full := full, colsum := s.colsumAt c p.id } else o
      else x.outs ++ [⟨p.op.seq, p.fmt, p.mode, s.shapeR c, [(q, row)], full, s.colsumAt c p.id⟩]
    finishPass (s.setCell c { x with outs := outs }) c p.id

/-- Whether the converter of a cell takes the rows of a pass: raw rows always, other rows while the CVTA that converts them heads
the converter queue of the bed. Rows that come while it is busy with another operation wait in the lanes (R88, R245). -/
def State.drainOpen (s : State) (c : Nat) (p : Pass) : Bool :=
  p.raw || (((s.queue (.cvt (c / 8))).head?.any fun q => q.opc == 1 && q.op.pav == p.op.pav
      && opField q.op 47 45 == s.rd F.cellShape_AG c 0) && (s.cell c).outs.all fun a => a.seq == p.op.seq)

/-- The row position of the next drain row of a pass (Table 7-7). -/
def State.rowPos (s : State) (c : Nat) (p : Pass) : Nat :=
  if p.mode = .os then (127 - p.rows) % s.shapeR c else p.rows % 128

/-- DRAIN_ROW_ACCEPT (R108): the drain accepts the next drain row of the oldest pass that still delivers one, when every column's
channel has brought its sum and the row has a taker. -/
def execDrainRowAccept (cell : Nat) (s : State) : Out :=
  let x := s.cell cell
  match x.passes.find? fun p => decide (p.rows < p.drainRows) with
  | none => .next s
  | some p =>
    let ks := (List.range (perRow p.fmt)).map (physCol p.fmt)
    let js := ks.flatMap (valueCols p.fmt)
    if !s.drainOpen cell p || js.any fun j => (tget x.drainIn j []).isEmpty then .next s
    else
      let row := ks.map fun k => ofHalves ((valueCols p.fmt k).map fun j => (tget x.drainIn j []).headD .zero)
      let x := { x with drainIn := js.foldl (fun t j => tset t j (tget t j []).tail) x.drainIn }
      .next (takeRow (s.setCell cell x) cell p (s.rowPos cell p) row)

/-! ### Bed bus (03.8) -/

/-- The destinations of a multicast group of a bed (Table 5-4). -/
def destList (d : Nat) : List BusDst :=
  ((List.range 8).filter d.testBit).map .cell
    ++ ((List.range 8).filter fun k => d.testBit (8 + k)).map .west
    ++ ((List.range 8).filter fun k => d.testBit (16 + k)).map .north
    ++ (if d.testBit 24 then [.vec] else [])
    ++ ((List.range 4).filter fun e => d.testBit (25 + e)).map .eng

/-- Whether a destination takes part in its bed's bus: a stream engine that the Trellis gives to a pavilion other than the bed's
neither sources nor receives there (R98). -/
def State.onBus (s : State) (b : Nat) : BusDst → Bool
  | .eng e => s.flag F.seCfg_ON_BED (4 * b + e) 0
  | _ => true

/-- The destinations of group `g` of bed `b`; `none` where BED_ROUTE defines no such group. -/
def State.group (s : State) (b g : Nat) : Option (List BusDst) := (tfind s.arr.mcast (b, g)).map fun d => (destList d).filter (s.onBus b)

/-- A transfer put on a track with the cell-store pieces that its source names, after every one of an operation that
is not later in program order (R97); `bits` are the SCOPE bits of the units that send it. -/
def postSegs (s : State) (b t seq bits full : Nat) (bs : List Byte) (ds : List BusDst) (segs : List (Nat × Nat × Nat)) : State :=
  let q := tget s.arr.tracks (b, t) []
  let x : Xfer := ⟨seq, s.arr.nextX, bs, ds, segs, full, false, bits⟩
  let q := (q.takeWhile fun y => decide (y.seq ≤ seq)) ++ [x] ++ (q.dropWhile fun y => decide (y.seq ≤ seq))
  { s with arr := { s.arr with tracks := tset s.arr.tracks (b, t) q, nextX := s.arr.nextX + 1 } }

/-- A transfer whose bytes go to one cell-store offset, or to none. -/
def postXfer (s : State) (b t seq bits : Nat) (bs : List Byte) (ds : List BusDst) (off : Option Nat) : State :=
  postSegs s b t seq bits 0 bs ds (match off with | some o => [(o, 0, bs.length)] | none => [])

/-- Whether a destination has room for a transfer of a track: 4 in its receive buffer; a cell store counts those
whose bytes wait at its banks, and a transfer without an offset does not concern it (R96, R634). -/
def State.roomAt (s : State) (b t : Nat) (x : Xfer) (d : BusDst) : Bool :=
  match d with
  | .cell k =>
    x.segs.isEmpty ||
      (((s.arr.banks.filter fun e => e.1.1 == b * 8 + k).flatMap fun e =>
        (e.2.filter fun r => r.who == 3 && r.write.isSome && r.tag % 8 == t).map (·.tag)).eraseDups.length < 4)
  | d => (tget s.arr.rx (b, t, d) []).length < 4

/-- What a destination receives of a transfer: a feeder takes the codes missing from a short burst as zero (R290). -/
def Xfer.seenBy (x : Xfer) : BusDst → List Byte
  | .west _ | .north _ => x.bytes ++ List.replicate (x.full - x.bytes.length) 0
  | _ => x.bytes

/-- A transfer delivered to one destination. -/
def deliverTo (b t : Nat) (x : Xfer) (s : State) (d : BusDst) : State :=
  match d with
  | .cell k => x.segs.foldl (fun s (o, at_, n) => postWrite s (b * 8 + k) 3 (x.id * 8 + t) (x.seq, x.bits) o ((x.bytes.drop at_).take n)) s
  | d => { s with arr := { s.arr with rx := tset s.arr.rx (b, t, d) (tget s.arr.rx (b, t, d) [] ++ [x.seenBy d]) } }

/-- The first transfer of a track that finds no room: counted once as one that waited (Table 3-14). -/
def State.trackWait (s : State) (bed track : Nat) (x : Xfer) (rest : List Xfer) : State :=
  if x.waited then s
  else
    { s with arr := { s.arr with tracks := tset s.arr.tracks (bed, track) ({ x with waited := true } :: rest) } }.bump
      F.bedTrackWait_COUNT bed 0 1

/-- BED_BUS_TRANSFER (R96): the next transfer of the track goes to every destination of its set when all have room;
a parity error is a bed logic fault (R99). -/
def execBedBusTransfer (bed track : Nat) (parityOk : Bool) (s : State) : Out :=
  match tget s.arr.tracks (bed, track) [] with
  | [] => .next s
  | x :: rest =>
    if !(x.dsts.all fun d => s.roomAt bed track x d) then .next (s.trackWait bed track x rest)
    else if !parityOk then
      let r := s.bedReport St.bedFault 0x06 bed
      .next ((s.bedFault bed r).alarm (dieOfBed bed) 0x05 r)
    else
      let s := { s with arr := { s.arr with tracks := tset s.arr.tracks (bed, track) rest } }
      .next (x.dsts.foldl (deliverTo bed track x) s)

/-! ### Bed reset (03.11) -/

/-- The registers that bed reset returns to their reset values: counters of the bed page and the drain registers,
CELL_ECC kept (R104, R142). -/
def bedResetReg (b : Nat) (k : RegKey) : Bool :=
  match k.r with
  | .bedProgress => k.i == b
  | .bedStall => k.i == b
  | .bedTrackWait => k.i == b
  | .bedVflags => k.i == b
  | .drnCtl => k.i / 8 == b
  | .drnPosLo => k.i / 8 == b
  | .drnPosHi => k.i / 8 == b
  | .drnZp => k.i / 8 == b
  | .drnLfsr => k.i / 8 == b
  | .drnSatunf => k.i / 8 == b
  | .drnPoison => k.i / 8 == b
  | .drnStatus => k.i / 8 == b
  | .drnScale => k.i / 8 == b
  | _ => false

/-- Bed reset (R104): lanes, channels, feeder queues, sequencers, drains, vector unit, dispatcher queues, bus and
counters return to their reset values; the cell stores and CELL_ECC are kept. -/
def State.bedReset (s : State) (b : Nat) : State :=
  let mine := fun (k : UnitKey) => match k with
    | .ag b' _ => b' == b
    | .cvt b' => b' == b
    | .vec b' => b' == b
    | .eng e => e / 4 == b
  { s with
    regs := s.regs.filter fun e => !bedResetReg b e.1
    arr := { s.arr with
      disp := s.arr.disp.filter fun e => !mine e.1
      cells := s.arr.cells.filter fun e => e.1 / 8 != b
      lanes := s.arr.lanes.filter fun e => e.1.1 / 8 != b
      drains := s.arr.drains.filter fun e => e.1 / 8 != b
      vecs := s.arr.vecs.filter fun e => e.1 != b
      tracks := s.arr.tracks.filter fun e => e.1.1 != b
      rx := s.arr.rx.filter fun e => e.1.1 != b
      banks := s.arr.banks.filter fun e => e.1.1 / 8 != b } }

/-- What BED_RESET does (R105): a write of 1 to BED_CTL.RESET resets the bed in fenced or unassigned state and is ignored in
any other, and during steps 1 to 6 of a warm reset (R582). -/
def bedResetOp (_a : Actor) (bed : Nat) (s : State) : Out :=
  if !s.sys.warmOn ∧ (s.rd F.bedStatus_STATE bed 0 = 3 ∨ s.rd F.bedStatus_STATE bed 0 = 0) then .next (s.bedReset bed) else .next s

/-- BED_RESET (R105). -/
def execBedReset (_a : Actor) (bed : Nat) (s : State) : Out := bedResetOp _a bed s

end Sys2Proof.Machine
end

