-- ==== Sys2Proof/Machine/Tracks.lean ====
section
/-! DEFINITION. The fields of a stream descriptor (Table 8-2) and the bed-bus tracks that operations name: an operation on a track
waits for every earlier one there, begun or still queued (R97). -/

namespace Sys2Proof.Machine

/-- A descriptor (Table 8-2): counts are element counts, strides signed, `esz` the element size in bytes. -/
structure Desc where
  base   : Nat
  aux    : Nat
  count  : List Nat
  stride : List Int
  fmt    : Nat
  esz    : Nat
  src    : Nat
  tgt    : Nat
  tr     : Bool
  gs     : Nat
  pol    : Nat
  tagc   : Bool
  move   : Bool
  car    : Bool
  burst  : Nat
  line   : Nat
  cell   : Nat
  group  : Nat
  track  : Nat
  ilimit : Nat
  zero   : Bool
  deriving DecidableEq, Repr

/-- The descriptor of 64 bytes; `zero` says that its reserved bits are zero. -/
def descOf (b : List Byte) : Desc where
  base := fieldLe b 0 8
  aux := fieldLe b 8 8
  count := (List.range 5).map fun d => fieldLe b (16 + 2 * d) 2 + 1
  stride := (List.range 5).map fun d => toSigned 40 (fieldLe b (26 + 5 * d) 5)
  fmt := natField (fieldLe b 51 1) 3 0
  esz := 2 ^ natField (fieldLe b 51 1) 5 4
  src := natField (fieldLe b 52 1) 2 0
  tgt := natField (fieldLe b 52 1) 6 4
  tr := (fieldLe b 53 1).testBit 0
  gs := natField (fieldLe b 53 1) 2 1
  pol := natField (fieldLe b 53 1) 4 3
  tagc := (fieldLe b 53 1).testBit 5
  move := (fieldLe b 53 1).testBit 6
  car := (fieldLe b 53 1).testBit 7
  burst := fieldLe b 54 2 + 1
  line := natField (fieldLe b 56 4) 14 0
  cell := natField (fieldLe b 56 4) 17 15
  group := natField (fieldLe b 56 4) 21 18
  track := natField (fieldLe b 56 4) 23 22
  ilimit := fieldLe b 60 4
  zero := natField (fieldLe b 51 1) 7 6 == 0 && !(fieldLe b 52 1).testBit 3 && !(fieldLe b 52 1).testBit 7
    && natField (fieldLe b 56 4) 31 24 == 0

/-- The descriptor loaded in a context. -/
def State.desc (s : State) (e c : Nat) : Desc :=
  descOf ((List.range 8).flatMap fun i => leBytes 8 (s.reg .seCtxDesc e (c * 8 + i)).toNat)

/-! ### Operations that name a track (R97) -/

/-- The track that a run of a descriptor names for its transfers to a bed-bus group. A caravan names none here: its stops name
theirs in its route. -/
def Desc.busTrack (d : Desc) : Option Nat := if !d.car && d.tgt == 4 then some d.track else none

/-- Whether a begun run of the pavilion, earlier than the operation, has transfers to send on a track: its own, or those of a
local stop of its caravan that has not confirmed. -/
def State.runOnTrack (s : State) (b t : Nat) (o : UnitOp) : Bool :=
  s.str.runs.any fun e => !e.2.dead && opBefore e.2.op o.pav o.seq && (e.2.track == some (b, t) ||
    e.2.stops.zipIdx.any fun (x, j) => !x.remote && x.target / 4 == b && x.near.testBit 24 && natField x.near 23 22 == t
      && !(tget e.2.at_ j .init).confirmed)

/-- The descriptor that a queued RUN of a context will run with: that of the last earlier DLD of the context still queued, else
the one loaded. -/
def State.runDesc (s : State) (e c seq : Nat) : Desc :=
  match ((s.queue (.eng e)).filter fun q => q.opc == 1 && opField q.op 39 36 == c && decide (q.op.seq < seq)).getLast? with
  | some q => descOf ((List.range 64).map fun i => memGet s.mem (cellAddr (e / 4 * 8 + opField q.op 35 33) (128 * opField q.op 32 18 + 64 * opField q.op 17 17 + i)))
  | none => s.desc e c

/-- Whether a queued converter operation will send its rows on a track of its bed: DEST of its entry on some cell. -/
def State.cvtOnTrack (s : State) (b t : Nat) (q : QOp) : Bool :=
  (q.opc == 1 || q.opc == 2) && (s.agCells b (opField q.op 47 45)).any fun c =>
    (memGet s.mem (cellAddr c (entryOff (opField q.op 41 27) (opField q.op 26 25) + 4))).toNat == 4 + t

/-- Whether a queued operation will send on a track of bed `b`. A caravan whose route has not been read counts for every track
(log entry 142). -/
def State.queuedOnTrack (s : State) (b t : Nat) (k : UnitKey) (q : QOp) : Bool :=
  match k with
  | .vec b' => b' == b && q.opc == 0x13 && opField q.op 32 31 == t
  | .cvt b' => b' == b && s.cvtOnTrack b t q
  | .eng e =>
    q.opc == 2 && (let d := s.runDesc e (opField q.op 39 36) q.op.seq
      d.car || (e / 4 == b && d.busTrack == some t))
  | .ag _ _ => false

/-- Whether an operation on a track waits for an earlier one there of its pavilion: in its queue, or with transfers still to
send (R97). -/
def State.trackHeld (s : State) (b t : Nat) (o : UnitOp) : Bool :=
  s.runOnTrack b t o || s.arr.disp.any fun e => e.2.any fun q => opBefore q.op o.pav o.seq && s.queuedOnTrack b t e.1 q

end Sys2Proof.Machine
end

