-- ==== Sys2Proof/Machine/Converter.lean ====
section
/-! DEFINITION. Converter operations (04, 07.5): CVTA, CVTM, SEED, SCLD, RSLD, RSADD, RSCLR and STEX. Each bed of an
array group holds the operation in its own converter queue, and its drains take it apart from those of other beds (R94): it acts
on a bed when it heads that bed's queue, a CVTA when in addition the outputs that it converts there have arrived whole. -/

namespace Sys2Proof.Machine

/-! ### The conversion entry (Table 7-10) -/

/-- A conversion as an operation and its entry name it. -/
structure Conv where
  rnd   : Rnd
  scl   : Nat
  recd  : Bool
  zp    : Bool
  cin   : CIn
  out   : COut
  wide  : Bool
  nred  : Nat
  doff  : Nat
  dest  : Nat
  group : Nat
  soff  : Nat
  rows  : Nat
  deriving DecidableEq, Repr

/-- The conversion that a CVTA (`src` the format and mode of its output) or a CVTM (`src` none) makes on a cell of
bed `b` with entry `e`; `none` for a reserved or unlisted combination (R244, R248, R250). Bit 15 of SLINE counts as reserved, as
that of DLINE does; Table 7-10 says so of DLINE only (DEDUCED, log entry 140). -/
def convOf (s : State) (b : Nat) (o : UnitOp) (src : Option (ArrFmt × MMode)) (e : List Byte) : Option Conv := do
  let out ← coutOf (opField o 44 42)
  let dest := fieldLe e 4 1
  let group := fieldLe e 5 1
  let track := decide (4 ≤ dest) && decide (dest ≤ 7)
  let zp := opBit o 5
  let nred := fieldLe e 8 4
  let cin ← match src with
    | some (.l8, _) => some (.acc .a64l)
    | some (.i8, _) => some (.acc .a64i)
    | some (.l16, _) => some (.acc .a128)
    | none => cinOf (fieldLe e 18 1)
  let wide ← cpath cin out
  let is := match src with
    | some (_, m) => m == .is
    | none => false
  let ok := !(fieldLe e 0 2).testBit 15 && fieldLe e 6 2 == 0 && fieldLe e 19 13 == 0
    && (dest == 0 || dest == 1 || track)
    && (if track then (s.group b group).isSome else group == 0)
    && (zp || nred == 0)
    && (src.isNone || (fieldLe e 12 2 == 0 && fieldLe e 14 2 == 0 && fieldLe e 16 2 == 0 && fieldLe e 18 1 == 0))
    && !(fieldLe e 12 2).testBit 15
    && !(zp && (cin != .acc .a64i || is || nred == 0))
  if ok then
    some {
      rnd := match opMod o 1 0 with | 0 => .ne | 1 => .tz | _ => .st
      scl := opMod o 3 2
      recd := opBit o 4
      zp := zp
      cin := cin
      out := out
      wide := wide
      nred := nred
      doff := lineOff (fieldLe e 0 2) (toSigned 16 (fieldLe e 2 2)) o.index
      dest := dest
      group := group
      soff := lineOff (fieldLe e 12 2) (toSigned 16 (fieldLe e 14 2)) o.index
      rows := fieldLe e 16 2 + 1 }
  else none

/-! ### Scales (R130 to R133) -/

/-- Scale register `q` of a drain. -/
def State.scaleReg (s : State) (c q : Nat) : Nat :=
  natField (s.reg .drnScale c (q / 4)).toNat (16 * (q % 4) + 15) (16 * (q % 4))

/-- Scale register `q` set. -/
def State.setScale (s : State) (c q v : Nat) : State :=
  s.setReg .drnScale c (q / 4) (putBits (s.reg .drnScale c (q / 4)) (16 * (q % 4) + 15) (16 * (q % 4)) v)

/-- The largest of the recorded codes of position `q` in the `k` most recent entries of the ring (R132). -/
def histMax (d : Drain) (k q : Nat) : Option Int :=
  ((List.range k).filterMap fun i => (tget d.hist ((d.histIx + 15 - i) % 16) []).getD q none).max?

/-- AUTO: the scale registers recomputed from the history (R132). -/
def autoScale (s : State) (c : Nat) : State :=
  let d := s.drain c
  let k := s.rd F.drnCtl_HISTORY c 0 + 1
  let t : Int := (s.rd F.drnCtl_TARGET c 0 : Int) - 16384
  (List.range 128).foldl (fun s q =>
    match histMax d k q with
    | none => s
    | some m =>
      let x := t - m
      let y := max (-16383) (min 16383 x)
      let s := s.setScale c q (16384 + y).toNat
      if y = x then s else s.wr F.drnStatus_CLAMP c 0 1) s

/-! ### One drain row -/

/-- What a conversion accumulates: the LFSR, the record and totals of the narrow-to-wide counts, and the rows
converted so far, last first. -/
structure ConvAcc where
  lfsr  : Nat
  stats : Tab Nat StatEnt
  sat   : Nat
  unf   : Nat
  poi   : Nat
  out   : List (List Nat)
  deriving DecidableEq, Repr

/-- The larger of two recorded codes. -/
def maxOpt (a b : Option Int) : Option Int :=
  match a, b with
  | some x, some y => some (max x y)
  | some x, none => some x
  | none, y => y

/-- One element at position `q` entered into the record (Table 4-6, R125, R131). -/
def StatEnt.add (e : StatEnt) (t : COut) (r : CRes) : StatEnt :=
  { e with
    sat := min 0xFFFF (e.sat + if r.count = .sat then 1 else 0)
    unf := min 0xFFFF (e.unf + if r.count = .unf then 1 else 0)
    poi := min 0xFFFF (e.poi + if r.count = .poi then 1 else 0)
    maxl := maxOpt e.maxl r.lam
    i8sum := if t = .i8 && r.code != 0x80 then e.i8sum + i8Value r.code else e.i8sum }

/-- One element of a drain row: its position, its source (a code, or an accumulator after zero-point
correction) and, on a path with scale, its scale code. -/
def convOne (v : Conv) (sigma : Nat → Option Nat) (pos : Nat → Bool) (a : ConvAcc × List Nat)
    (x : Nat × (Nat ⊕ Acc)) : ConvAcc × List Nat :=
  let (st, row) := a
  let (q, src) := x
  let (l, u) := if v.rnd = .st then lfsrDraw st.lfsr else (st.lfsr, 0)
  let r := match src, v.cin with
    | .inl c, .l8 => if v.out = .l16 then l8ToL16 c else convElem v.out v.rnd (sigma q) u (v.wide && pos q) (elemOfCode .l8 c)
    | .inl c, f => convElem v.out v.rnd (sigma q) u (v.wide && pos q) (elemOfCode f c)
    | .inr w, .acc f => convElem v.out v.rnd (sigma q) u (pos q) (elemOfAcc f w)
    | .inr w, _ => convElem v.out v.rnd (sigma q) u (pos q) (elemOfAcc .a64i w)
  let st := { st with
    lfsr := l
    sat := st.sat + if r.count = .sat then 1 else 0
    unf := st.unf + if r.count = .unf then 1 else 0
    poi := st.poi + if r.count = .poi then 1 else 0
    stats := if v.wide then tset st.stats q ((tget st.stats q .init).add v.out r) else st.stats }
  (st, r.code :: row)

/-- One drain row converted. -/
def convRow (v : Conv) (sigma : Nat → Option Nat) (pos : Nat → Bool) (st : ConvAcc) (xs : List (Nat × (Nat ⊕ Acc))) :
    ConvAcc :=
  let (st, row) := xs.foldl (convOne v sigma pos) (st, [])
  { st with out := row.reverse :: st.out }

/-- The zero-point correction of an A64-I sum at position `q` and channel `ch` (R139). -/
def zeroPoint (s : State) (c : Nat) (colsum : Tab Nat Int) (n q ch : Nat) (a : Acc) : Acc :=
  let d := s.drain c
  let za := i8Value (s.rd F.drnZp_ZA c 0)
  let zw := i8Value (s.rd F.drnZp_ZW c 0)
  { a with val := a.val - zw * tget d.rowsum q 0 - za * tget colsum ch 0 + (n : Int) * za * zw }

/-- The end of a wide-to-narrow operation: statistics, history, totals and rescale advice (R131, R136, R140,
R141). -/
def endWide (s : State) (c : Nat) (v : Conv) (st : ConvAcc) : State :=
  let d := s.drain c
  let d := { d with stats := st.stats }
  let d := if v.recd then
    { d with
      hist := tset d.hist d.histIx ((List.range 128).map fun q => (tget st.stats q .init).maxl)
      histIx := (d.histIx + 1) % 16 } else d
  let s := s.setDrain c d
  let tot := (st.stats.map (·.2.sat)).sum
  let lim := s.rd F.drnCtl_SAT_LIMIT c 0
  let b := c / 8
  if lim != 0xFFFF && lim < tot then
    let s := (s.wr F.drnStatus_ADVICE c 0 1).alarm (dieOfBed b) 0x04 (s.cellReport St.success 0x04 c)
    match s.bedOwner b with
    | some p => s.event p 2 b
    | none => s
  else s

/-- The SCOPE bits of a converter operation (Table 7-17): the converters, and the drains of its array group. -/
def cvtBits (o : UnitOp) : Nat := 2 ^ 9 + 2 ^ opField o 47 45

/-- A converted row delivered (R247, R248): to the drain's cell store at `off`, to the vector unit, or to a track. -/
def deliverRow (c : Nat) (o : UnitOp) (v : Conv) (s : State) (x : Nat × List Nat) : State :=
  let (off, row) := x
  let b := c / 8
  if v.dest = 0 then postWrite s c 2 0 (o.seq, cvtBits o) off (row.flatMap (leBytes v.out.bytes))
  else if v.dest = 1 then
    let u := s.vec b
    s.setVec b { u with rows := u.rows ++ [(c % 8, row ++ List.replicate (128 - row.length) 0)] }
  else postXfer s b (v.dest - 4) o.seq (cvtBits o) (row.flatMap (leBytes v.out.bytes)) ((s.group b v.group).getD []) (some (off % cellSize))

/-- A conversion of rows on one drain: `rows` gives for each drain row the byte offset of its output relative to D
and its elements with their positions. -/
def convert (s : State) (c : Nat) (o : UnitOp) (v : Conv) (rows : List (Nat × List (Nat × (Nat ⊕ Acc)))) : State :=
  let s := if v.wide && v.scl == 0 then autoScale s c else s
  let sigma := fun q => if v.wide && v.scl != 2 then some (s.scaleReg c q) else none
  let pos := fun q => if q < 64 then (s.reg .drnPosLo c 0).toNat.testBit q
    else (s.reg .drnPosHi c 0).toNat.testBit (q - 64)
  let ent := fun q => { StatEnt.init with scale := (sigma q).getD 0x4000 }
  let st0 : ConvAcc :=
    ⟨s.rd F.drnLfsr_STATE c 0, (List.range 128).map fun q => (q, ent q), 0, 0, 0, []⟩
  let st := rows.foldl (fun st r => convRow v sigma pos st r.2) st0
  let s := if v.rnd = .st then s.wr F.drnLfsr_STATE c 0 st.lfsr else s
  let s := ((s.bump F.drnSatunf_SAT_TOTAL c 0 st.sat).bump F.drnSatunf_UNF_TOTAL c 0 st.unf).bump
    F.drnPoison_POI_TOTAL c 0 st.poi
  let s := if v.wide then endWide s c v st else s
  ((rows.map (·.1)).zip st.out.reverse).foldl (deliverRow c o v) s

/-! ### CVTA and CVTM -/

/-- Whether an operation heads the converter queue of a bed and may begin. -/
def State.cvtReady (s : State) (bed opc : Nat) (o : UnitOp) : Bool := s.ready (.cvt bed) opc o

/-- The cells of a converter operation on a bed. -/
def State.cvtCells (s : State) (bed : Nat) (o : UnitOp) : List Nat := s.agCells bed (opField o 47 45)

/-- The operation taken from the queue of the bed and counted as completed there. -/
def State.cvtDone (s : State) (bed : Nat) : State := (s.dequeue (.cvt bed)).progress bed

/-- The operation taken from the queue of the bed with a fault of its pavilion. -/
def State.cvtFault (s : State) (bed : Nat) (o : UnitOp) (code : Nat) : State :=
  (s.dequeue (.cvt bed)).opFault o.pav code 0x04 bed

/-- The conversion entries of the cells of a bed, once they have come through the banks, each with its cell (R228). -/
def State.readEntries (s : State) (bed : Nat) (o : UnitOp) : Option (List (Nat × List (Option Byte))) × State :=
  bankReads s 2 4 ((s.cvtCells bed o).map fun c => (c, entryOff (opField o 41 27) (opField o 26 25), 32))

/-- The rows of an array output as a CVTA converts them (R130, R139, R247). -/
def outRows (s : State) (c : Nat) (v : Conv) (a : ArrOut) : List (Nat × List (Nat × (Nat ⊕ Acc))) :=
  let e := perRow a.fmt
  let cf := colsOf a.shapeR a.fmt
  a.rows.zipIdx.map fun ((q, row), i) =>
    let seg := if a.mode = .os then (127 - i) / a.shapeR * e else 0
    let off := match a.mode with
      | .ws => i * cf
      | .os => q * cf + seg
      | .is => i * e
    (v.doff + off * v.out.bytes, row.zipIdx.map fun (x, n) =>
      let p := if a.mode = .is then n else q
      (p, .inr (if v.zp then zeroPoint s c a.colsum v.nred p (seg + n) x else x)))

/-- Whether a conversion to a track waits for an earlier operation on that track (R97). -/
def State.convHeld (s : State) (c : Nat) (v : Conv) (o : UnitOp) : Bool :=
  decide (4 ≤ v.dest) && s.trackHeld (c / 8) (v.dest - 4) o

/-- The conversion that a CVTA makes on each drain from the entries read, with the output it takes; none for a reserved
combination. -/
def State.cvtaPlan (s : State) (o : UnitOp) (es : List (Nat × List (Option Byte))) : List (Nat × Option (Conv × ArrOut)) :=
  es.map fun e => (e.1, (s.cell e.1).outs.head?.bind fun a =>
    (convOf s (e.1 / 8) o (some (a.fmt, a.mode)) (plain e.2)).map (·, a))

/-- The oldest output of a drain converted. -/
def convertOut (o : UnitOp) (s : State) (e : Nat × Option (Conv × ArrOut)) : State :=
  match e.2 with
  | some (v, a) => convert (s.setCell e.1 { s.cell e.1 with outs := (s.cell e.1).outs.tail }) e.1 o v (outRows s e.1 v a)
  | none => s

/-- Whether the parameter entries of a converter operation can be read. -/
def entriesGood (es : List (Nat × List (Option Byte))) : Bool := es.all fun e => allSome e.2

/-- Whether every drain of a converter operation on a bed has an output that has arrived whole. -/
def State.outsFull (s : State) (bed : Nat) (o : UnitOp) : Bool :=
  (s.cvtCells bed o).all fun c => ((s.cell c).outs.head?.map (·.full)).getD false

/-- CVTA (R245): the oldest unconverted output of each drain of the array group on the bed is converted. -/
def execCvta (x : BedOp) (s : State) : Out :=
  if !s.cvtReady x.bed 1 x.op || !s.outsFull x.bed x.op then .next s
  else
    match s.readEntries x.bed x.op with
    | (none, t) => .next t
    | (some es, t) =>
      if !entriesGood es then .next (t.cvtFault x.bed x.op St.dataFault)
      else if (s.cvtaPlan x.op es).any fun e => e.2.isNone then .next (t.cvtFault x.bed x.op St.invalidOp)
      else if (s.cvtaPlan x.op es).any fun e => e.2.any fun v => s.convHeld e.1 v.1 x.op then .next s
      else .next (((s.cvtaPlan x.op es).foldl (convertOut x.op) t).cvtDone x.bed)

/-- The source elements of row `i` of a CVTM, unreadable bytes as NaR, NaN or poison (R75, R246). -/
def srcElems (f : CIn) (bs : List (Option Byte)) : List (Nat ⊕ Acc) :=
  match f with
  | .acc .a128 => (blockRead .a128 bs).map .inr
  | .acc a => (blockRead a (bs.take 528) ++ blockRead a (bs.drop 528)).map .inr
  | .bin32 => (List.range 128).map fun i =>
      let w := (bs.drop (4 * i)).take 4
      .inl (if w.any (·.isNone) then b32.nan else leNat (plain w))
  | .l16 => (List.range 128).map fun i => .inl (codeAt .l16 bs i)
  | .l8 => (List.range 128).map fun i => .inl (codeAt .l8 bs i)
  | .i8 => (List.range 128).map fun i => .inl (codeAt .i8 bs i)

/-- The rows of a CVTM, converted from its input bytes. -/
def matRows (s : State) (c : Nat) (v : Conv) (bs : List (Option Byte)) : List (Nat × List (Nat × (Nat ⊕ Acc))) :=
  let k := v.cin.rowBytes
  (List.range v.rows).map fun i =>
    (v.doff + i * v.cin.elems * v.out.bytes,
      ((srcElems v.cin ((bs.drop (i * k)).take k)).zipIdx).map fun (x, n) =>
        (i % 128, match x with
          | .inr a => .inr (if v.zp then zeroPoint s c (s.colsum c) v.nred (i % 128) n a else a)
          | .inl w => .inl w))

/-- Whether writes of the drain of a cell still wait at its banks. -/
def State.drainWrites (s : State) (c : Nat) : Bool :=
  s.arr.banks.any fun e => e.1.1 == c && e.2.any fun r => r.who == 2

/-- The conversion that a CVTM makes on each drain; none for a reserved combination. -/
def State.cvtmPlan (s : State) (o : UnitOp) (es : List (Nat × List (Option Byte))) : List (Nat × Option Conv) :=
  es.map fun e => (e.1, convOf s (e.1 / 8) o none (plain e.2))

/-- The conversions of a plan, each with the place of its input on its drain. -/
def cvtmPlaces (vs : List (Nat × Option Conv)) : List (Nat × Nat × Nat) :=
  vs.filterMap fun e => e.2.map fun v => (e.1, v.soff, v.rows * v.cin.rowBytes)

/-- The rows that a CVTM makes of its input on one drain, delivered. -/
def convertMat (o : UnitOp) (s : State) (e : (Nat × Option Conv) × List (Option Byte)) : State :=
  match e.1.2 with
  | some v => convert s e.1.1 o v (matRows s e.1.1 v e.2)
  | none => s

/-- A CVTM whose entries have been read: faults and waits before its first element, then the input read through the banks and
converted. -/
def cvtmWith (bed : Nat) (o : UnitOp) (es : List (Nat × List (Option Byte))) (s t : State) : Out :=
  if !entriesGood es then .next (t.cvtFault bed o St.dataFault)
  else if (s.cvtmPlan o es).any fun e => e.2.isNone then .next (t.cvtFault bed o St.invalidOp)
  else if (s.cvtmPlan o es).any fun e => e.2.any fun v => s.convHeld e.1 v o then .next s
  else
    match bankReads s 2 5 (cvtmPlaces (s.cvtmPlan o es)) with
    | (none, u) => .next u
    | (some ds, u) =>
      let (_, u) := u.readEntries bed o
      if !o.poison && ds.any fun e => !allSome e.2 then .next (u.cvtFault bed o St.dataFault)
      else .next ((((s.cvtmPlan o es).zip (ds.map (·.2))).foldl (convertMat o) u).cvtDone bed)

/-- CVTM (R246): ROWS + 1 rows of the drain's cell store are converted, after the drain's earlier writes. -/
def execCvtm (x : BedOp) (s : State) : Out :=
  if !s.cvtReady x.bed 2 x.op || (s.cvtCells x.bed x.op).any s.drainWrites then .next s
  else
    match s.readEntries x.bed x.op with
    | (none, t) => .next t
    | (some es, t) => cvtmWith x.bed x.op es s t

/-- SEED (R121): the LFSR of every drain of the array group on the bed is loaded. -/
def execCvtSeed (x : BedOp) (s : State) : Out :=
  if !s.cvtReady x.bed 3 x.op then .next s
  else .next (((s.cvtCells x.bed x.op).foldl (fun s c => s.wr F.drnLfsr_STATE c 0 (seedOf (opField x.op 31 0) c)) s).cvtDone x.bed)

/-- The bytes that a load operation reads from the cells of its array group on a bed, through their banks. -/
def State.loadBytes (s : State) (bed : Nat) (o : UnitOp) (n : Nat) : Option (List (Nat × List (Option Byte))) × State :=
  bankReads s 2 5 ((s.cvtCells bed o).map fun c => (c, lineOff (opField o 44 30) (toSigned 11 (opField o 25 15)) o.index, n))

/-- An operation that reads `n` bytes at its effective line in the store of every cell of the array group on the bed, after the
drain's earlier writes, and, if each can be read and passes `ok`, applies `f` to every drain; else the data fault or the invalid
operation. -/
def loadOp (bed opc n : Nat) (o : UnitOp) (s : State) (ok : List Byte → Bool) (f : State → Nat → List Byte → State) : Out :=
  if !s.cvtReady bed opc o || (s.cvtCells bed o).any s.drainWrites then .next s
  else
    match s.loadBytes bed o n with
    | (none, t) => .next t
    | (some ds, t) =>
      if ds.any fun e => !allSome e.2 then .next (t.cvtFault bed o St.dataFault)
      else if ds.any fun e => !ok (plain e.2) then .next (t.cvtFault bed o St.invalidOp)
      else .next ((ds.foldl (fun s e => f s e.1 (plain e.2)) t).cvtDone bed)

/-- Whether every scale code is positive (R133). -/
def scalesOk (bs : List Byte) : Bool :=
  (List.range 128).all fun q => let v := fieldLe bs (2 * q) 2; decide (0 < v) && decide (v < 0x8000)

/-- The scale registers of a drain loaded from 256 bytes. -/
def State.loadScales (s : State) (c : Nat) (bs : List Byte) : State :=
  (List.range 128).foldl (fun s q => s.setScale c q (fieldLe bs (2 * q) 2)) s

/-- SCLD (R249, R133): scale registers 0 to 127 loaded. -/
def execScld (x : BedOp) (s : State) : Out := loadOp x.bed 4 256 x.op s scalesOk State.loadScales

/-- ROWSUM with every entry replaced. -/
def State.mapRowsum (s : State) (c : Nat) (f : Nat → Int → Int) : State :=
  let d := s.drain c
  s.setDrain c { d with rowsum := (List.range 128).map fun q => (q, f q (tget d.rowsum q 0)) }

/-- ROWSUM loaded from 1,024 bytes. -/
def State.loadRowsum (s : State) (c : Nat) (bs : List Byte) : State :=
  s.mapRowsum c fun q _ => toSigned 64 (fieldLe bs (8 * q) 8)

/-- 128 values added to ROWSUM modulo 2^64: a list of them, or the I8SUM fields of a statistics record. -/
def State.addRowsum (recd : Bool) (s : State) (c : Nat) (bs : List Byte) : State :=
  s.mapRowsum c fun q v =>
    toSigned 64 (ofSigned 64 (v + toSigned 64 (if recd then fieldLe bs (32 * q + 16) 8 else fieldLe bs (8 * q) 8)))

/-- RSLD (R249): ROWSUM loaded. -/
def execRsld (x : BedOp) (s : State) : Out := loadOp x.bed 5 1024 x.op s (fun _ => true) State.loadRowsum

/-- RSADD (R249): 128 values, or the I8SUM fields of a statistics record, added to ROWSUM modulo 2^64. -/
def execRsadd (x : BedOp) (s : State) : Out :=
  loadOp x.bed 6 (if opBit x.op 0 then 4096 else 1024) x.op s (fun _ => true) (State.addRowsum (opBit x.op 0))

/-- RSCLR (R249): ROWSUM cleared. -/
def execRsclr (x : BedOp) (s : State) : Out :=
  if !s.cvtReady x.bed 7 x.op then .next s
  else .next (((s.cvtCells x.bed x.op).foldl (fun s c => s.setDrain c { s.drain c with rowsum := [] }) s).cvtDone x.bed)

/-- Entry `q` of the statistics record as bytes (Table 4-6). -/
def StatEnt.bytes (e : StatEnt) : List Byte :=
  leBytes 2 e.sat ++ leBytes 2 e.unf ++ leBytes 2 e.poi ++ leBytes 2 0
    ++ leBytes 4 (match e.maxl with | some l => ofSigned 32 l | none => 0x80000000)
    ++ leBytes 2 e.scale ++ leBytes 2 0 ++ leBytes 8 (ofSigned 64 e.i8sum) ++ leBytes 8 0

/-- STEX (R249, R140): the statistics record of every drain written at the effective line of its cell store. -/
def execStex (x : BedOp) (s : State) : Out :=
  if !s.cvtReady x.bed 8 x.op then .next s
  else
    let off := lineOff (opField x.op 44 30) (toSigned 11 (opField x.op 25 15)) x.op.index
    .next (((s.cvtCells x.bed x.op).foldl (fun s c =>
      postWrite s c 2 0 (x.op.seq, cvtBits x.op) off ((List.range 128).flatMap fun q => (tget (s.drain c).stats q .init).bytes)) s).cvtDone x.bed)

end Sys2Proof.Machine
end

