-- ==== Sys2Proof/Machine/Vector.lean ====
section
/-! DEFINITION. The vector unit of a bed (03.9, 07.7): one meaning for each operation of Table 7-15. An operation
takes effect when it heads the vector queue of its bed. -/

namespace Sys2Proof.Machine

/-! ### Registers (Table 3-8) -/

/-- A vector register: 128 elements. -/
def VecUnit.vreg (u : VecUnit) (n : Nat) : List Nat := tget u.v n (List.replicate 128 0)

/-- A scalar register; s0 reads as zero. -/
def VecUnit.sreg (u : VecUnit) (n : Nat) : BitVec 64 := if n = 0 then 0 else tget u.s n 0

/-- A predicate register; p0 reads as all ones. -/
def VecUnit.preg (u : VecUnit) (n : Nat) : BitVec 128 := if n = 0 then BitVec.allOnes 128 else tget u.p n 0

/-- A vector register written. -/
def VecUnit.setV (u : VecUnit) (n : Nat) (x : List Nat) : VecUnit :=
  { u with v := tset u.v n x, wv := if u.wv.contains n then u.wv else n :: u.wv }

/-- A scalar register written; a write to s0 is discarded. -/
def VecUnit.setS (u : VecUnit) (n : Nat) (x : BitVec 64) : VecUnit :=
  if n = 0 then u else { u with s := tset u.s n x, ws := if u.ws.contains n then u.ws else n :: u.ws }

/-- A predicate register written; a write to p0 is discarded. -/
def VecUnit.setP (u : VecUnit) (n : Nat) (x : BitVec 128) : VecUnit :=
  if n = 0 then u else { u with p := tset u.p n x, wp := if u.wp.contains n then u.wp else n :: u.wp }

/-! ### Fields (Table 7-14) -/

/-- The binary format of an operation (H). -/
def vfmt (o : UnitOp) : IeeeFmt := if opBit o 1 then b16 else b32

/-- TZ. -/
def vtz (o : UnitOp) : Bool := opBit o 2

/-- PRED, VD, VA, VB and VC. -/
def vPred (o : UnitOp) : Nat := opField o 41 39

/-- VD. -/
def vD (o : UnitOp) : Nat := opField o 38 33

/-- VA. -/
def vA (o : UnitOp) : Nat := opField o 32 27

/-- VB. -/
def vB (o : UnitOp) : Nat := opField o 26 21

/-- VC. -/
def vC (o : UnitOp) : Nat := opField o 20 15

/-- Element `i` of a register as a datum of a format. -/
def elemAt (f : IeeeFmt) (x : List Nat) (i : Nat) : IVal := unpack f (x.getD i 0 % (2 * f.signW))

/-! ### The shared frame of an operation -/

/-- The registers that an operation reads: vectors, scalars and predicates. -/
structure Reads where
  v : List Nat
  s : List Nat
  p : List Nat
  deriving DecidableEq, Repr

/-- Whether an operation reads a register not written since the MARK or replay (R214). -/
def VecUnit.unwritten (u : VecUnit) (r : Reads) : Bool :=
  u.armed && (r.v.any (fun n => !u.wv.contains n) || r.s.any (fun n => n != 0 && !u.ws.contains n)
    || r.p.any fun n => n != 0 && !u.wp.contains n)

/-- The flags of a bed with more flags set (R65). -/
def State.orFlags (s : State) (bed : Nat) (f : IFlags) : State :=
  s.setReg .bedVflags bed 0 (s.reg .bedVflags bed 0 ||| BitVec.ofNat 64 f.bits)

/-- A vector operation taken from its queue with a fault of its pavilion. -/
def State.vecFault (s : State) (bed : Nat) (o : UnitOp) (code : Nat) : State :=
  (s.dequeue (.vec bed)).opFault o.pav code 0x07 bed

/-- An operation completed: taken from its queue and counted. -/
def State.vecDone (s : State) (bed : Nat) : State := (s.dequeue (.vec bed)).progress bed

/-- The frame of every vector operation: it waits for the head of its queue, faults on R214, and otherwise has its
effect. -/
def vecOp (bed opc : Nat) (o : UnitOp) (s : State) (r : Reads) (f : State → State) : Out :=
  if !s.ready (.vec bed) opc o then .next s
  else if (s.vec bed).unwritten r then .next (s.vecFault bed o St.markPlacement)
  else .next (f s)

/-- Lanes merged: the new value where the predicate has its bit, else the old element (R256). -/
def merge (p : BitVec 128) (old new : List Nat) : List Nat :=
  (List.range 128).map fun i => if p.getLsbD i then new.getD i 0 else old.getD i 0

/-- The flags of the active lanes together. -/
def laneFlags (p : BitVec 128) (rs : List IRes) : IFlags :=
  (rs.zipIdx.filter fun r => p.getLsbD r.2).foldl (fun a r => a.or r.1.2) .none

/-- The results of the lanes: `g` gives that of an active lane from the vector unit's registers. -/
def laneResults (p : BitVec 128) (g : Nat → IRes) : List IRes :=
  (List.range 128).map fun i => if p.getLsbD i then g i else (0, IFlags.none)

/-- The effect of a lane-by-lane operation: active lanes take their results and raise their flags (R65, R256). -/
def laneEffect (bed : Nat) (o : UnitOp) (g : VecUnit → Nat → IRes) (s : State) : State :=
  let u := s.vec bed
  let p := u.preg (vPred o)
  let rs := laneResults p (g u)
  ((s.setVec bed (u.setV (vD o) (merge p (u.vreg (vD o)) (rs.map (·.1))))).orFlags bed (laneFlags p rs)).vecDone bed

/-- A lane-by-lane operation: `g` gives each lane's result from the vector unit's registers. -/
def lanewise (bed opc : Nat) (o : UnitOp) (s : State) (src : List Nat) (g : VecUnit → Nat → IRes) : Out :=
  vecOp bed opc o s ⟨src, [], [vPred o]⟩ (laneEffect bed o g)

/-- A lane-by-lane operation of two sources. -/
def lanewise2 (bed opc : Nat) (o : UnitOp) (s : State) (g : IVal → IVal → IRes) : Out :=
  lanewise bed opc o s [vA o, vB o] fun u i =>
    g (elemAt (vfmt o) (u.vreg (vA o)) i) (elemAt (vfmt o) (u.vreg (vB o)) i)

/-- A lane-by-lane operation of one source. -/
def lanewise1 (bed opc : Nat) (o : UnitOp) (s : State) (g : IVal → IRes) : Out :=
  lanewise bed opc o s [vA o] fun u i => g (elemAt (vfmt o) (u.vreg (vA o)) i)

/-! ### Arithmetic (Table 7-15) -/

/-- VADD. -/
def execVadd (bed : Nat) (o : UnitOp) (s : State) : Out := lanewise2 bed 0x01 o s (ieeeAdd (vfmt o) (vtz o))

/-- VSUB. -/
def execVsub (bed : Nat) (o : UnitOp) (s : State) : Out :=
  lanewise2 bed 0x02 o s fun a b => ieeeAdd (vfmt o) (vtz o) a b.negate

/-- VMUL. -/
def execVmul (bed : Nat) (o : UnitOp) (s : State) : Out := lanewise2 bed 0x03 o s (ieeeMul (vfmt o) (vtz o))

/-- VFMA: one rounding. -/
def execVfma (bed : Nat) (o : UnitOp) (s : State) : Out :=
  lanewise bed 0x04 o s [vA o, vB o, vC o] fun u i =>
    let f := vfmt o
    ieeeFma f (vtz o) (elemAt f (u.vreg (vA o)) i) (elemAt f (u.vreg (vB o)) i) (elemAt f (u.vreg (vC o)) i)

/-- The smaller or larger number of two elements (VMIN, VMAX). -/
def minMaxLane (mx : Bool) (o : UnitOp) (u : VecUnit) (i : Nat) : IRes :=
  let f := vfmt o
  ieeeMinMax f mx ((u.vreg (vA o)).getD i 0 % (2 * f.signW)) ((u.vreg (vB o)).getD i 0 % (2 * f.signW))

/-- VMIN: minimumNumber, −0 below +0. -/
def execVmin (bed : Nat) (o : UnitOp) (s : State) : Out :=
  lanewise bed 0x05 o s [vA o, vB o] (minMaxLane false o)

/-- VMAX: maximumNumber, −0 below +0. -/
def execVmax (bed : Nat) (o : UnitOp) (s : State) : Out :=
  lanewise bed 0x06 o s [vA o, vB o] (minMaxLane true o)

/-- VDIV. -/
def execVdiv (bed : Nat) (o : UnitOp) (s : State) : Out := lanewise2 bed 0x07 o s (ieeeDiv (vfmt o) (vtz o))

/-- VSQRT. -/
def execVsqrt (bed : Nat) (o : UnitOp) (s : State) : Out := lanewise1 bed 0x08 o s (ieeeSqrt (vfmt o) (vtz o))

/-- VEXP2: correctly rounded. -/
def execVexp2 (bed : Nat) (o : UnitOp) (s : State) : Out := lanewise1 bed 0x09 o s (ieeeExp2 (vfmt o) (vtz o))

/-- VLOG2: correctly rounded. -/
def execVlog2 (bed : Nat) (o : UnitOp) (s : State) : Out := lanewise1 bed 0x0A o s (ieeeLog2 (vfmt o) (vtz o))

/-- VCVT: X[0] 0 binary32 to binary16, 1 binary16 to binary32; H ignored. -/
def execVcvt (bed : Nat) (o : UnitOp) (s : State) : Out :=
  lanewise bed 0x0F o s [vA o] fun u i =>
    let w := (u.vreg (vA o)).getD i 0
    if opField o 0 0 = 0 then ieeeCvt b32 b16 (vtz o) (w % 2 ^ 32) else ieeeCvt b16 b32 (vtz o) (w % 2 ^ 16)

/-- VCMP: a quiet comparison to a predicate. -/
def execVcmp (bed : Nat) (o : UnitOp) (s : State) : Out :=
  vecOp bed 0x0B o s ⟨[vA o, vB o], [], [vPred o]⟩ fun s =>
    let u := s.vec bed
    let p := u.preg (vPred o)
    let f := vfmt o
    let rs := (List.range 128).map fun i =>
      if p.getLsbD i then ieeeCmp (opField o 2 0) (elemAt f (u.vreg (vA o)) i) (elemAt f (u.vreg (vB o)) i)
      else (false, IFlags.none)
    let new := BitVec.ofNat 128 (bitmap (rs.map (·.1)))
    let pd := vD o % 8
    let fl := (rs.map (·.2)).foldl IFlags.or .none
    ((s.setVec bed (u.setP pd ((u.preg pd &&& ~~~p) ||| (new &&& p)))).orFlags bed fl).vecDone bed

/-- VSEL: a choice by the predicate on every lane. It computes no binary16 result, so with H 1 it copies the whole element, bits
[31:16] included, where R100's zero upper bits concern operations that write binary16 (DEDUCED, log entry 144). -/
def execVsel (bed : Nat) (o : UnitOp) (s : State) : Out :=
  vecOp bed 0x0C o s ⟨[vA o, vB o], [], [vPred o]⟩ fun s =>
    let u := s.vec bed
    (s.setVec bed (u.setV (vD o) (merge (u.preg (vPred o)) (u.vreg (vB o)) (u.vreg (vA o))))).vecDone bed

/-- One step of the pairwise tree of R66: lane i with lane i + n. -/
def treeStep (g : Nat → Nat → IRes) (n : Nat) (a : List Nat × IFlags) : List Nat × IFlags :=
  let rs := (List.range n).map fun i => g (a.1.getD i 0) (a.1.getD (i + n) 0)
  (rs.map (·.1), rs.foldl (fun f r => f.or r.2) a.2)

/-- VRED: the reduction of R66 in element 0, +0.0 elsewhere. -/
def execVred (bed : Nat) (o : UnitOp) (s : State) : Out :=
  vecOp bed 0x0D o s ⟨[vA o], [], [vPred o]⟩ fun s =>
    let u := s.vec bed
    let p := u.preg (vPred o)
    let f := vfmt o
    let g : Nat → Nat → IRes := match opField o 1 0 with
      | 0 => fun a b => ieeeAdd f (vtz o) (unpack f a) (unpack f b)
      | 1 => ieeeMinMax f true
      | _ => ieeeMinMax f false
    let xs := (List.range 128).map fun i => if p.getLsbD i then (u.vreg (vA o)).getD i 0 % (2 * f.signW) else 0
    let (r, fl) := [64, 32, 16, 8, 4, 2, 1].foldl (fun a n => treeStep g n a) (xs, IFlags.none)
    ((s.setVec bed (u.setV (vD o) (r.getD 0 0 :: List.replicate 127 0))).orFlags bed fl).vecDone bed

/-! ### Moves between register kinds -/

/-- VBCS: a scalar to every active lane. -/
def execVbcs (bed : Nat) (o : UnitOp) (s : State) : Out :=
  vecOp bed 0x0E o s ⟨[], [vA o % 32], [vPred o]⟩ fun s =>
    let u := s.vec bed
    let x := (u.sreg (vA o % 32)).toNat % (if opBit o 1 then 2 ^ 16 else 2 ^ 32)
    (s.setVec bed (u.setV (vD o) (merge (u.preg (vPred o)) (u.vreg (vD o)) (List.replicate 128 x)))).vecDone bed

/-- PLOG: a logical operation of two predicates, not predicated. -/
def execPlog (bed : Nat) (o : UnitOp) (s : State) : Out :=
  vecOp bed 0x15 o s ⟨[], [], [vA o % 8, vB o % 8]⟩ fun s =>
    let u := s.vec bed
    let a := u.preg (vA o % 8)
    let b := u.preg (vB o % 8)
    let r := match opField o 1 0 with
      | 0 => a &&& b
      | 1 => a ||| b
      | 2 => a ^^^ b
      | _ => a &&& ~~~b
    (s.setVec bed (u.setP (vD o % 8) r)).vecDone bed

/-- FLCLR: IEEE flags of X[4:0] cleared. -/
def execFlclr (bed : Nat) (o : UnitOp) (s : State) : Out :=
  vecOp bed 0x16 o s ⟨[], [], []⟩ fun s =>
    (s.setReg .bedVflags bed 0 (s.reg .bedVflags bed 0 &&& ~~~BitVec.ofNat 64 (opField o 4 0))).vecDone bed

/-- SLI: a scalar from a sign-extended immediate. -/
def execSli (bed : Nat) (o : UnitOp) (s : State) : Out :=
  vecOp bed 0x17 o s ⟨[], [], []⟩ fun s =>
    (s.setVec bed ((s.vec bed).setS (vD o % 32)
      (BitVec.ofNat 64 (ofSigned 64 (toSigned 32 (opField o 31 0)))))).vecDone bed

/-- SGET: a scalar from one element, zero-extended. -/
def execSget (bed : Nat) (o : UnitOp) (s : State) : Out :=
  vecOp bed 0x18 o s ⟨[vA o], [], []⟩ fun s =>
    let u := s.vec bed
    (s.setVec bed (u.setS (vD o % 32) (BitVec.ofNat 64 ((u.vreg (vA o)).getD (opField o 6 0) 0)))).vecDone bed

/-! ### Memory and transfers (Table 7-16) -/

/-- The cell and the byte offset that a VLD or VST names. -/
def vecAddr (bed : Nat) (o : UnitOp) : Nat × Nat :=
  (bed * 8 + opField o 32 30, lineOff (opField o 29 15) (toSigned 11 (opField o 10 0)) o.index)

/-- Whether stores of the vector unit still wait at the banks of a cell. -/
def State.vecStores (s : State) (c : Nat) : Bool :=
  s.arr.banks.any fun e => e.1.1 == c && e.2.any fun r => r.who == 4 && r.write.isSome

/-- The elements of 512 bytes read, NaN where a byte of one cannot be read (R75). -/
def loadElems (f : IeeeFmt) (bs : List (Option Byte)) : List Nat :=
  (List.range 128).map fun i =>
    let w := (bs.drop (4 * i)).take 4
    if w.any (·.isNone) then f.nan else leNat (plain w)

/-- The effect of a VLD whose bytes have come through the banks, or its request for them. -/
def vldEffect (bed : Nat) (o : UnitOp) (s : State) : State :=
  match bankRead s (vecAddr bed o).1 4 6 (vecAddr bed o).2 512 with
  | (none, s) => s
  | (some bs, s) =>
    if !o.poison && !allSome bs then s.vecFault bed o St.dataFault
    else
      let u := s.vec bed
      (s.setVec bed (u.setV (vD o) (merge (u.preg (vPred o)) (u.vreg (vD o)) (loadElems (vfmt o) bs)))).vecDone bed

/-- VLD: 512 bytes of a cell store read through its banks, after the vector unit's earlier stores there; unreadable bytes as R75
says. -/
def execVld (bed : Nat) (o : UnitOp) (s : State) : Out :=
  if s.vecStores (vecAddr bed o).1 then .next s else vecOp bed 0x10 o s ⟨[], [], [vPred o]⟩ (vldEffect bed o)

/-- The maximal runs of active lanes of a predicate among the lanes from `i` on: first lane and length. -/
def laneRuns (p : BitVec 128) : (fuel i : Nat) → List (Nat × Nat)
  | 0, _ => []
  | n + 1, i =>
    let k := (((List.range (128 - i)).map (i + ·)).takeWhile p.getLsbD).length
    if i ≥ 128 then [] else if k = 0 then laneRuns p n (i + 1) else (i, k) :: laneRuns p n (i + k)

/-- Stores the active lanes of a register at a byte offset of a cell: each run of neighbouring active lanes as one piece, so that
a word whose bytes are all replaced is written whole (R74). -/
def storeLanes (s : State) (c seq off : Nat) (p : BitVec 128) (x : List Nat) : State :=
  (laneRuns p 128 0).foldl (fun s r => postWrite s c 4 0 (seq, 2 ^ 10) (off + 4 * r.1) (((x.drop r.1).take r.2).flatMap (leBytes 4))) s

/-- VST: the active lanes of a register put to the banks of a cell store. Table 7-15 names its source va, but Table 7-16 puts
CELL and LINE in the bits of VA (R256); the register is the one that VD names, which no other field of VST uses (log entry 143). -/
def execVst (bed : Nat) (o : UnitOp) (s : State) : Out :=
  vecOp bed 0x11 o s ⟨[vD o], [], [vPred o]⟩ fun s =>
    (storeLanes s (vecAddr bed o).1 o.seq (vecAddr bed o).2 ((s.vec bed).preg (vPred o)) ((s.vec bed).vreg (vD o))).vecDone bed

/-- VRCV: the next row that drain `k` has delivered; it waits for one. -/
def execVrcv (bed : Nat) (o : UnitOp) (s : State) : Out :=
  let k := opField o 32 30
  match (s.vec bed).rows.find? fun r => r.1 == k with
  | none => .next s
  | some r =>
    vecOp bed 0x12 o s ⟨[], [], [vPred o]⟩ fun s =>
      let u := s.vec bed
      let u := { u with rows := u.rows.erase r }
      (s.setVec bed (u.setV (vD o) (merge (u.preg (vPred o)) (u.vreg (vD o)) r.2))).vecDone bed

/-- VBSND: a register as one 512-byte transfer, after every earlier operation on its track (R97); a GROUP that names no
multicast group is a reserved operand. TRACK and GROUP lie in the bits of VA, so the register is the one that VD names (log entry
143). -/
def execVbsnd (bed : Nat) (o : UnitOp) (s : State) : Out :=
  if s.trackHeld bed (opField o 32 31) o then .next s else vecOp bed 0x13 o s ⟨[vD o], [], []⟩ fun s =>
    match s.group bed (opField o 30 27) with
    | none => s.vecFault bed o St.invalidOp
    | some ds =>
      (postXfer s bed (opField o 32 31) o.seq (2 ^ 10) (((s.vec bed).vreg (vD o)).flatMap (leBytes 4)) ds none).vecDone bed

/-- VBRCV: the next transfer on a track for the vector unit, elements beyond its length zero (R290); it waits for
one. -/
def execVbrcv (bed : Nat) (o : UnitOp) (s : State) : Out :=
  let key := (bed, opField o 32 31, BusDst.vec)
  match tget s.arr.rx key [] with
  | [] => .next s
  | t :: ts =>
    vecOp bed 0x14 o s ⟨[], [], [vPred o]⟩ fun s =>
      let s := { s with arr := { s.arr with rx := tset s.arr.rx key ts } }
      let u := s.vec bed
      (s.setVec bed (u.setV (vD o) (merge (u.preg (vPred o)) (u.vreg (vD o))
        ((List.range 128).map fun i => fieldLe t (4 * i) 4)))).vecDone bed

end Sys2Proof.Machine
end

