-- ==== Sys2Proof/Machine/Issue.lean ====
section
/-! DEFINITION. Issue of beat words and the control slot (06.2 to 06.6): WORD_ISSUE, REPEAT, LOOP, BRP and its outcome,
WAIT, HALT, MARK and the completion of a MARK. REPEAT, WAIT and MARK act before the issue of their word, LOOP, BRP,
HALT, QUIET and PFH after it: WORD_ISSUE then leaves the slice with the operation due. -/

namespace Sys2Proof.Machine

/-! ### Words, places and delivery (R185 to R187) -/

/-- Words of a pavilion's program. -/
def State.progLen (s : State) (p : Nat) : Nat := s.rd F.pavProgLen_LEN p 0

/-- A contained fault found by a slice. -/
def State.sliceFault (s : State) (p d code : Nat) : State := s.faultPav p (FaultReport.blank code 1 0x0A d p)

/-- The queues on die `d` that receive slot `slot` of a word (Table 6-2). -/
def State.receivers (s : State) (p d slot : Nat) (w : BitVec 64) : List UnitKey :=
  if slotOp w = 0 then []
  else if 1 ≤ slot ∧ slot ≤ 8 then
    ((s.agBeds p (slot - 1)).filter fun b => dieOfBed b == d).map fun b => .ag b (slot - 1)
  else if 9 ≤ slot ∧ slot ≤ 12 then
    if slotField w 47 40 / 32 = d then [.eng (slotField w 47 40)] else []
  else if slot = 13 then ((s.agBeds p (slotField w 47 45)).filter fun b => dieOfBed b == d).map .cvt
  else if slot = 14 then
    if slotMod w % 2 = 1 then ((s.beds p).filter fun b => dieOfBed b == d).map .vec
    else if dieOfBed (slotField w 47 42) = d then [.vec (slotField w 47 42)] else []
  else []

/-- Every operation of a word with the queue on die `d` that receives it, in ascending slot order. -/
def State.deliveries (s : State) (p d : Nat) (x : SliceSt) (bs : List Byte) : List (UnitKey × QOp) :=
  (List.range 15).flatMap fun i =>
    let w := wordSlot bs i
    if i = 0 then [] else
    (s.receivers p d i w).map fun k =>
      (k, ⟨slotOp w, unitOpOf p w ((x.slotIndex i w).getD 0) x.poison (x.issued * 16 + i)⟩)

/-- Places of a dispatcher queue (R94). -/
def queuePlaces : Nat := 16

/-- Whether every queue that receives an operation has a free place for it. -/
def State.placesFor (s : State) (ds : List (UnitKey × QOp)) : Bool :=
  ds.all fun e => decide ((s.queue e.1).length + (ds.filter fun f => f.1 == e.1).length ≤ queuePlaces)

/-- An operation put into its queue. -/
def State.enqueue (s : State) (e : UnitKey × QOp) : State := s.setQueue e.1 (s.queue e.1 ++ [e.2])

/-! ### The exchange slot at issue (R204, R213, R267) -/

/-- The dies whose slices contribute to a signal or token of a scope; the lead slice for an empty one. The exchange operations of
bit 11 are delivered by the lead slice and, to stream engines, by the slices of their dies (Table 7-19). -/
def State.scopeDies (s : State) (p scope : Nat) : List Nat :=
  let ds := (s.dies p).filter fun d =>
    (List.range 8).any (fun n => scope.testBit n && (s.agBeds p n).any fun b => dieOfBed b == d)
    || ((scope.testBit 8 || scope.testBit 11) && (List.range 32).any fun i => s.ownsEngine p (d * 32 + i))
    || scope.testBit 9 || scope.testBit 10 || (scope.testBit 11 && d == s.lead p)
  if ds.isEmpty then [s.lead p] else ds

/-- Whether an exchange opcode counts for replay (Table 7-19): SIGNAL, TOKEN, SEND and the collectives. -/
def xchCounted (opc : Nat) : Bool := opc == 3 || opc == 5 || decide (7 ≤ opc) && decide (opc ≤ 10)

/-- The exchange operation of a word as the first slice issues it: suppressed while the replay still owes confirmed
operations (R213), else gathered (SIGNAL, TOKEN) or put into the exchange queue. An ORDF orders from here on (R261). -/
def State.enterXch (s : State) (p : Nat) (x : SliceSt) (w : BitVec 64) : State :=
  let opc := slotOp w
  let seq := x.issued * 16 + 15
  let v := s.pav p
  if opc = 0 ∨ seq < v.xseen then s
  else
    let o := unitOpOf p w ((x.slotIndex 15 w).getD 0) x.poison seq
    let v := { v with xseen := seq + 1 }
    if xchCounted opc && decide (0 < v.suppress) then s.setPav p { v with suppress := v.suppress - 1 }
    else if opc = 3 then
      s.setPav p { v with sigs := v.sigs ++
        [⟨o, opField o 47 32, opField o 31 16, none, s.scopeDies p (opField o 11 0), [], false⟩] }
    else if opc = 5 then
      s.setPav p { v with sigs := v.sigs ++
        [⟨o, opField o 38 23, opField o 22 12, some (opField o 47 39), s.scopeDies p (opField o 11 0), [], false⟩] }
    else s.setPav p { v with xq := v.xq ++ [⟨opc, o⟩], ordf := if opc = 1 then v.ordf ++ [o] else v.ordf }

/-! ### Advance (R195, R196, R199) -/

/-- The next word after word `w` and the loops that remain, innermost first (R196). -/
def loopEnd (w : Nat) : List LoopE → Nat × List LoopE
  | [] => (w + 1, [])
  | e :: rest =>
    if e.last = w then
      if e.ix < e.n then (e.start, { e with ix := e.ix + 1 } :: rest) else loopEnd w rest
    else (w + 1, e :: rest)

/-- A slice past the issue of its word. -/
def SliceSt.advance (x : SliceSt) : SliceSt :=
  let (pc, ls) := loopEnd x.pc x.loops.reverse
  { x with pc := pc, loops := ls.reverse, post := none }

/-- A slice after a branch outcome: taken, it pops the loops whose range does not contain the target (R199). -/
def SliceSt.branch (x : SliceSt) (taken : Bool) (target : Nat) : SliceSt :=
  if taken then
    { x with
      pc := target
      loops := x.loops.filter fun e => decide (e.start ≤ target) && decide (target ≤ e.last)
      post := none }
  else x.advance

/-! ### WORD_ISSUE -/

/-- Whether a slice may act on its next word. -/
def State.sliceLive (s : State) (p d : Nat) : Bool :=
  let x := s.slice p d
  s.pavState p == 2 && !s.pwr.shut && x.run && !x.halted && !x.held && x.post.isNone

/-- The word that a slice stands at, if it may act on it and the word is buffered; an unusable word is empty. -/
def State.sliceWord (s : State) (p d : Nat) : Option (List Byte) :=
  if s.sliceLive p d then tfind (s.slice p d).buf (s.slice p d).pc else none

/-- Whether the control operation of a word permits its issue (R187): REPEAT once it has begun, WAIT once its count
is observed, MARK once the slice's snapshot part is written. -/
def SliceSt.permits (x : SliceSt) (ctl : BitVec 64) : Bool :=
  match slotOp ctl with
  | 1 => x.rep.isSome
  | 4 => x.permit
  | 6 => x.marked
  | _ => true

/-- The slice after an issue of its word with control slot `ctl` and exchange slot `xch`. -/
def SliceSt.issue (x : SliceSt) (ctl xch : BitVec 64) : SliceSt :=
  let x := { x with
    issued := x.issued + 1
    last := x.pc
    poison := if slotOp xch = 11 then slotMod xch % 2 == 1 else x.poison }
  match slotOp ctl with
  | 0 => x.advance
  | 1 => match x.rep with
    | some (n, k) => if k < n then { x with rep := some (n, k + 1) } else { x with rep := none }.advance
    | none => x.advance
  | 4 => { x with permit := false, waiting := none }.advance
  | 6 => { x with held := true }.advance
  | _ => { x with post := some ctl }

/-- One beat of a slice: the lead slice counts it on the sundial (R218, Table 6-3). -/
def State.sliceBeat (s : State) (p d : Nat) : State :=
  if d = s.lead p then s.beat p else s

/-- WORD_ISSUE (R187): the slice delivers every operation of its word in one event, in one beat; the pavilion is no longer clean
(R444). -/
def execWordIssue (p die : Nat) (s : State) : Out :=
  match s.sliceWord p die with
  | none => .next s
  | some [] => .next (s.sliceFault p die St.fetchFault)
  | some bs =>
    let x := s.slice p die
    match s.wordFault p x bs with
    | some code => .next ((s.wordOverLimit p die bs code).sliceFault p die code)
    | none =>
      let ds := s.deliveries p die x bs
      if !x.permits (wordSlot bs 0) || !s.placesFor ds then .next s
      else .next (((((ds.foldl State.enqueue s).enterXch p x (wordSlot bs 15)).setSlice p die
        (x.issue (wordSlot bs 0) (wordSlot bs 15))).wr F.pavStatus_CLEAN p 0 0).sliceBeat p die)

/-! ### Control operations -/

/-- Whether a slice stands before the issue of a word whose control slot is `opc` and accepted by `f`. -/
def State.atCtl (s : State) (p d opc : Nat) (f : BitVec 64 → Bool) : Bool :=
  match s.sliceWord p d with
  | some (b :: bs) => let w := wordSlot (b :: bs) 0; slotOp w == opc && f w && (s.wordFault p (s.slice p d) (b :: bs)).isNone
  | _ => false

/-- Whether a slice's control operation `opc`, accepted by `f`, is due after the issue of its word. -/
def State.dueCtl (s : State) (p d opc : Nat) (f : BitVec 64 → Bool) : Bool :=
  match (s.slice p d).post with
  | some w => s.pavState p == 2 && (s.slice p d).run && slotOp w == opc && f w
  | none => false

/-- REPEAT (R194): the slice begins the N + 1 issues of its word. -/
def execCtlRepeat (p die n : Nat) (s : State) : Out :=
  let x := s.slice p die
  if s.atCtl p die 1 (fun w => slotField w 31 0 == n) && x.rep.isNone then
    .next (s.setSlice p die { x with rep := some (n, 0) })
  else .next s

/-- LOOP (R195): a loop entry pushed, or the loop fault. -/
def execCtlLoop (p die n last : Nat) (s : State) : Out :=
  let x := s.slice p die
  if s.dueCtl p die 2 fun w => slotField w 47 24 == n && slotField w 23 0 == last then
    if 8 ≤ x.loops.length ∨ last ≤ x.pc ∨ x.loops.getLast?.any (fun e => decide (e.last < last))
        ∨ s.progLen p ≤ last then
      .next (s.sliceFault p die St.loopFault)
    else
      .next (s.setSlice p die { x with loops := x.loops ++ [⟨x.pc + 1, last, n, 0⟩], pc := x.pc + 1, post := none })
  else .next s

/-- Whether an operation of a vector queue writes predicate `pred`. -/
def writesPred (pred : Nat) (q : QOp) : Bool := (q.opc == 0x0B || q.opc == 0x15) && vD q.op % 8 == pred

/-- The condition of a BRP on a predicate (R198). -/
def brpTaken (cond : Nat) (v : BitVec 128) : Bool :=
  match cond with
  | 0 => v != 0
  | 1 => v == BitVec.allOnes 128
  | _ => v == 0

/-- The outcome of a branch sent to the slice of another die, in the interrupt class (R198). -/
def sendOutcome (p die : Nat) (taken : Bool) (target : Nat) (s : State) (d : Nat) : State :=
  let x := s.slice p d
  (s.setSlice p d { x with coming := x.coming ++ [(taken, target)] }).carry .interrupt die d
    (leBytes 1 p ++ leBytes 1 (boolNat taken) ++ leBytes 4 target)

/-- BRP (R198): the slice of the bed's die decides, once no earlier vector operation is to write the predicate, and
sends the outcome to the other slices; another slice takes the outcome it has received. -/
def execCtlBrp (p die bed pred cond target : Nat) (s : State) : Out :=
  let x := s.slice p die
  if !s.dueCtl p die 3 (fun w => slotField w 47 42 == bed && slotField w 41 39 == pred && slotField w 38 37 == cond
      && slotField w 23 0 == target) then .next s
  else if dieOfBed bed = die then
    let u := s.vec bed
    if (s.queue (.vec bed)).any (writesPred pred) then .next s
    else if u.unwritten ⟨[], [], [pred]⟩ then .next (s.sliceFault p die St.markPlacement)
    else if s.progLen p ≤ target then .next (s.sliceFault p die St.invalidOp)
    else
      let taken := brpTaken cond (u.preg pred)
      let s := s.setSlice p die (x.branch taken target)
      .next (((s.dies p).filter (· != die)).foldl (sendOutcome p die taken target) s)
  else
    match x.outcomes with
    | [] => .next s
    | (taken, t) :: rest => .next (s.setSlice p die ({ x with outcomes := rest }.branch taken t))

/-- A slice that has received an outcome: a branch that waits takes the oldest. -/
def SliceSt.takeOutcome (x : SliceSt) (waits : Bool) : SliceSt :=
  match x.outcomes with
  | (k, t) :: rest => if waits then { x with outcomes := rest }.branch k t else x
  | [] => x

/-- BRANCH_OUTCOME (R198): the oldest outcome on its way from the deciding slice arrives; a slice whose branch waits takes it.
Nothing arrives that no deciding slice has sent (R188). -/
def execBranchOutcome (p die : Nat) (taken : Bool) (target : Nat) (s : State) : Out :=
  let x := s.slice p die
  match x.coming with
  | [] => .next s
  | e :: rest =>
    if e != (taken, target) then .next s
    else .next (s.setSlice p die ({ x with coming := rest, outcomes := x.outcomes ++ [e] }.takeOutcome
      (s.dueCtl p die 3 fun w => dieOfBed (slotField w 47 42) != die)))

/-- The target count of a WAIT (R203). -/
def waitTarget (x : SliceSt) (t sc level : Nat) : Nat :=
  (t + if sc = 0 then 0 else sc * ((x.loops[level]?).map (·.ix)).getD 0) % 2 ^ 32

/-- WAIT (R203, R208): the word is permitted once the slice observes the count at or above the target. A stile marked
BROKEN ends the wait: with a fence on the abort path, with the issue of the word on the poison path. -/
def execCtlWait (p die stile t sc level : Nat) (s : State) : Out :=
  let x := s.slice p die
  if !s.atCtl p die 4 (fun w => slotField w 47 32 == stile && slotField w 31 8 == t && slotField w 7 4 == sc
      && slotField w 3 1 == level) || x.permit then .next s
  else if s.flag F.stlState_BROKEN stile 0 then
    if x.poison then .next (s.setSlice p die { x with permit := true, waiting := none })
    else .next ((s.setSlice p die { x with waiting := none }).sliceFault p die St.peerLost)
  else if waitTarget x t sc level ≤ s.rd F.stlState_COUNT stile 0 then
    .next (s.setSlice p die { x with permit := true, waiting := none })
  else .next (s.setSlice p die { x with waiting := some stile })

/-- HALT (R200): the slice issues no further word. -/
def execCtlHalt (p die : Nat) (s : State) : Out :=
  if s.dueCtl p die 5 fun _ => true then
    .next (s.setSlice p die { s.slice p die with halted := true, post := none })
  else .next s

/-! ### MARK (R209 to R214) -/

/-- Whether an operation that slice `d` issued before its next word is incomplete. -/
def State.sliceBusy (s : State) (p d : Nat) : Bool :=
  s.busy p fullScope ((s.slice p d).issued * 16) (fun b => b / 8 == d)

/-- What a snapshot keeps of the drain of cell `c` (Table 6-5). -/
def State.drainSnap (s : State) (c : Nat) : DrainSnap :=
  ⟨s.drain c, [s.reg .drnCtl c 0, s.reg .drnPosLo c 0, s.reg .drnPosHi c 0, s.reg .drnZp c 0, s.reg .drnLfsr c 0]
    ++ (List.range 32).map fun i => s.reg .drnScale c i⟩

/-- A drain restored from a snapshot; the statistics record and the counters are not in it. -/
def State.restoreDrain (s : State) (c : Nat) (d : DrainSnap) : State :=
  let s := s.setDrain c { d.drain with stats := (s.drain c).stats }
  let s := [Reg.drnCtl, .drnPosLo, .drnPosHi, .drnZp, .drnLfsr].zipIdx.foldl
    (fun s (r, i) => s.setReg r c 0 (d.regs.getD i 0)) s
  (List.range 32).foldl (fun s i => s.setReg .drnScale c i (d.regs.getD (5 + i) 0)) s

/-- The snapshot that a slice begins at its MARK word (Table 6-5): the word after MARK with the loop stack as that word sees it
(R196), and the slot of each bed's area that it goes to. -/
def SliceSt.snapshot (x : SliceSt) (slot : Nat) : Snapshot :=
  let (pc, ls) := loopEnd x.pc x.loops.reverse
  ⟨pc, ls.reverse, x.issued + 1, x.poison, [], [], slot⟩

/-- The part of a snapshot that slice `d` writes. -/
def State.snapPart (s : State) (p d : Nat) (k : Snapshot) : Snapshot :=
  let bs := (s.beds p).filter fun b => dieOfBed b == d
  { k with
    vflags := bs.foldl (fun t b => tset t b (s.reg .bedVflags b 0)) k.vflags
    drains := (bs.flatMap fun b => (List.range 8).map (b * 8 + ·)).foldl (fun t c => tset t c (s.drainSnap c)) k.drains }

/-- Bytes of one drain in a snapshot: its history, scales, ROWSUM, COLSUM, registers, LFSR and ring index (R211). -/
def drainSnapBytes : Nat := 17701

/-- What a snapshot writes of a drain, as pieces at offsets of its part: R211 gives the items and their sizes; their order and the
encoding of a history code (plus 2^31, so that 0 is none) are the model's choice (log entry 151). -/
def DrainSnap.pieces (d : DrainSnap) : List (Nat × List Byte) :=
  d.drain.hist.map (fun e => (512 * e.1, e.2.flatMap fun m => leBytes 4 (match m with
    | some l => ofSigned 32 (l + 2 ^ 31)
    | none => 0)))
  ++ ((d.regs.drop 5).zipIdx.map fun (v, i) => (8192 + 8 * i, leBytes 8 v.toNat))
  ++ d.drain.rowsum.map (fun e => (8448 + 8 * e.1, leBytes 8 (ofSigned 64 e.2)))
  ++ d.drain.colsum.map (fun e => (9472 + 8 * e.1, leBytes 8 (ofSigned 64 e.2)))
  ++ [(17664, ((d.regs.take 4).flatMap fun v => leBytes 8 v.toNat) ++ leBytes 4 (d.regs.getD 4 0).toNat ++ leBytes 1 d.drain.histIx)]

/-- Address of the slot of a bed's area in the reserved part of way-group 15 (R211, R314). -/
def snapSlot (b slot : Nat) : Nat := scratchBase + b / 8 * 2 ^ 32 + 0xEF00_0000 + b % 8 * 2 ^ 21 + slot * 2 ^ 20

/-- The pieces of the pavilion-wide items of a snapshot: the word after MARK, the fault policy and the loop stack. -/
def Snapshot.common (k : Snapshot) : List (Nat × List Byte) :=
  [(8 * drainSnapBytes + 8, leBytes 4 k.word ++ leBytes 1 (boolNat k.poison) ++ leBytes 1 k.loops.length
    ++ k.loops.flatMap fun e => leBytes 4 e.start ++ leBytes 4 e.last ++ leBytes 4 e.n ++ leBytes 4 e.ix)]

/-- Pieces stored over zeros in a slot of 1 MiB. -/
def State.storeSlot (s : State) (a : Nat) (ps : List (Nat × List Byte)) : State :=
  ps.foldl (fun s e => s.store (a + e.1) e.2) (s.zeroRange a (a + 2 ^ 20))

/-- The pieces of a bed's slot: its drains, its IEEE flags and, for the pavilion's lowest bed on the die, the pavilion-wide items. -/
def Snapshot.slotPieces (k : Snapshot) (b : Nat) (first : Bool) : List (Nat × List Byte) :=
  ((List.range 8).flatMap fun i => ((tget k.drains (8 * b + i) ⟨.init, []⟩).pieces).map fun e => (drainSnapBytes * i + e.1, e.2))
  ++ [(8 * drainSnapBytes, leBytes 1 (tget k.vflags b 0).toNat)] ++ if first then k.common else []

/-- The part of slice `d` of a snapshot written to the slots of its beds (R211). -/
def State.writeSnap (s : State) (p d : Nat) (k : Snapshot) : State :=
  let bs := (s.beds p).filter fun b => dieOfBed b == d
  bs.foldl (fun s b => s.storeSlot (snapSlot b k.slot) (k.slotPieces b (some b == bs.head?))) s

/-- MARK (R209, R212): once every operation that the slice issued before is complete, it writes its part of the
snapshot. A write that fails raises the MARK-snapshot-failure alarm. -/
def execCtlMark (p die : Nat) (writeOk : Bool) (s : State) : Out :=
  let x := s.slice p die
  if !s.atCtl p die 6 (fun _ => true) || x.marked || s.sliceBusy p die then .next s
  else
    let v := s.pav p
    let k := v.snapNew.getD (x.snapshot (boolNat (v.snap.any fun k => k.slot == 0)))
    let k := s.snapPart p die k
    let v := { v with parts := die :: v.parts, snapNew := some k, snapFail := v.snapFail || !writeOk }
    let s := (s.setPav p v).setSlice p die { x with marked := true }
    .next (if writeOk then s.writeSnap p die k else s.alarm die 0x0B (FaultReport.blank St.success 1 0x0A die p))

/-- The checks of R214 armed on a bed. -/
def State.armBed (s : State) (b : Nat) : State :=
  let s := s.setVec b { s.vec b with armed := true, wv := [], ws := [], wp := [] }
  (List.range 8).foldl (fun s k => s.setCell (b * 8 + k) { s.cell (b * 8 + k) with needStart := true }) s

/-- The checks of R214 armed on the beds of a pavilion. -/
def State.armMark (s : State) (p : Nat) : State := (s.beds p).foldl State.armBed s

/-- MARK_COMPLETE (R209, R212): every slice's part is written; the new snapshot replaces the old one, the confirmed
count starts again, the checks of R214 are armed and the slices go on. MOVEs due at the MARK are released first. -/
def execMarkComplete (p : Nat) (s : State) : Out :=
  let v := s.pav p
  if s.pavState p != 2 || !v.moves.isEmpty || (s.dies p).isEmpty
      || !((s.dies p).all fun d => v.parts.contains d && (s.slice p d).held) then .next s
  else
    let s := s.setPav p { v with
      snap := if v.snapFail then none else v.snapNew
      snapNew := none, snapFail := false, parts := [], confirmed := 0, suppress := 0 }
    let s := s.armMark p
    .next ((s.dies p).foldl (fun s d => s.setSlice p d { s.slice p d with held := false, marked := false }) s)

end Sys2Proof.Machine
end

