-- ==== Sys2Proof/Machine/Exchange.lean ====
section
/-! DEFINITION. Stiles and the exchange operations that stay within the device (06.5, 06.11, 07.8): SIGNAL_PART, SIGNAL,
SET, BIND, UNBIND, ORDF, ENDF, FPOL, STL_STATE_WRITE and STL_GROUP_WRITE. -/

namespace Sys2Proof.Machine

/-! ### Access to registers by requesters -/

/-- The Keeper, or a hart in machine mode (R224, R612). -/
def machineActor : Actor → Bool
  | .keeper => true
  | .hart _ .m => true
  | _ => false

/-- An access refused with the access-fault status (R4). -/
def State.refuse (s : State) : State := s.send (.status St.accessFault)

/-! ### Stiles (R201 to R208) -/

/-- The owner of a stile's group. -/
def State.stileOwner (s : State) (st : Nat) : Option Nat :=
  if s.flag F.stlGroup_V (st / 256) 0 then some (s.rd F.stlGroup_PAV (st / 256) 0) else none

/-- A fault found at a stile bank. -/
def State.stileFault (s : State) (p st code : Nat) : State :=
  s.faultPav p { FaultReport.blank code 1 0x0B (st / 8192) p with info := st }

/-- An increment added to a stile; past the largest count it stays there and its owner is fenced (R206). -/
def State.addStile (s : State) (st inc : Nat) : State :=
  let c := s.rd F.stlState_COUNT st 0 + inc
  if c < 2 ^ 32 then s.wr F.stlState_COUNT st 0 c
  else
    let s := s.wr F.stlState_COUNT st 0 0xFFFFFFFF
    match s.stileOwner st with
    | some p => s.stileFault p st St.stileOverflow
    | none => s

/-- The stiles of a group cleared: COUNT, BROKEN and BOUND (R225). -/
def State.clearGroup (s : State) (g : Nat) : State :=
  { s with
    regs := s.regs.filter fun e => !(e.1.r == .stlState && e.1.i / 256 == g)
    binds := s.binds.filter fun e => e.1 / 256 != g }

/-- The groups of a pavilion. -/
def State.groupsOf (s : State) (p : Nat) : List Nat :=
  (List.range 256).filter fun g => s.flag F.stlGroup_V g 0 && s.rd F.stlGroup_PAV g 0 == p

/-! ### The exchange queue -/

/-- Whether slice `d` has issued the word of an exchange operation. -/
def State.issuedPast (s : State) (p d seq : Nat) : Bool := decide (seq < (s.slice p d).issued * 16)

/-- Whether an unsatisfied ENDF with SCOPE bit 11 holds an exchange operation back (R261). -/
def State.xchHeld (s : State) (p seq : Nat) : Bool :=
  (s.pav p).xq.any fun f => f.opc == xchEndf && decide (f.op.seq < seq) && (opField f.op 11 0).testBit 11

/-- Whether an exchange operation waits in its pavilion's queue, its slice `d` has issued it and no ENDF holds it. -/
def State.xchReady (s : State) (d opc : Nat) (o : UnitOp) : Bool :=
  (s.pav o.pav).xq.contains ⟨opc, o⟩ && s.issuedPast o.pav d o.seq && !s.xchHeld o.pav o.seq

/-- An exchange operation taken from its queue. -/
def State.xchTake (s : State) (opc : Nat) (o : UnitOp) : State :=
  let v := s.pav o.pav
  s.setPav o.pav { v with xq := v.xq.erase ⟨opc, o⟩ }

/-- One more confirmed operation (R213, R267). -/
def State.confirm (s : State) (p : Nat) : State :=
  let v := s.pav p
  s.setPav p { v with confirmed := v.confirmed + 1 }

/-- SIGNAL_PART (R204, R263): a slice contributes its part of signal or token `sig` once the operations that it
issued before to the units of the scope are complete at their endpoints. -/
def execSignalPart (p die sig : Nat) (s : State) : Out :=
  let v := s.pav p
  match v.sigs.find? fun g => g.op.seq == sig with
  | none => .next s
  | some g =>
    if !g.need.contains die || g.have_.contains die || !s.issuedPast p die sig || s.xchHeld p sig
        || s.busy p (opField g.op 11 0) sig (fun b => b / 8 == die) then .next s
    else .next (s.setPav p { v with sigs := v.sigs.map fun h =>
      if h.op.seq == sig then { h with have_ := h.have_ ++ [die] } else h })

/-- Whether every part of a signal or token is there. -/
def SigSt.whole (g : SigSt) : Bool := g.need.all g.have_.contains

/-- A signal or token that no longer waits. -/
def State.dropSig (s : State) (p seq : Nat) : State :=
  let v := s.pav p
  s.setPav p { v with sigs := v.sigs.filter fun g => g.op.seq != seq }

/-- SIGNAL (R204, R262): the stile adds INC once it holds every part. -/
def execXchSignal (o : UnitOp) (s : State) : Out :=
  match (s.pav o.pav).sigs.find? fun g => g.op == o && g.dev.isNone with
  | none => .next s
  | some g => if g.whole then .next (((s.dropSig o.pav o.seq).confirm o.pav).addStile g.stile g.inc) else .next s

/-- Whether an earlier SET or BIND of the pavilion names the same stile. -/
def State.stileEarlier (s : State) (o : UnitOp) : Bool :=
  (s.pav o.pav).xq.any fun q => (q.opc == 4 || q.opc == 6) && decide (q.op.seq < o.seq)
    && opField q.op 47 32 == opField o 47 32

/-- Whether a slice waits on a stile, or a signal to it has issued without taking effect (R207). -/
def State.stileInUse (s : State) (p st : Nat) : Bool :=
  (s.dies p).any (fun d => (s.slice p d).waiting == some st)
    || (s.pav p).sigs.any fun g => g.dev.isNone && g.stile == st

/-- SET (R207): the count becomes VALUE, or the set faults and changes no count. -/
def execXchSet (o : UnitOp) (s : State) : Out :=
  let st := opField o 47 32
  if !s.xchReady (s.lead o.pav) 4 o || s.stileEarlier o then .next s
  else
    let t := s.xchTake 4 o
    if s.stileInUse o.pav st then .next (t.stileFault o.pav st St.stileConflict)
    else .next (t.wr F.stlState_COUNT st 0 (opField o 31 0))

/-- The partners of a collective's stop. -/
def PlanStop.partners (t : PlanStop) : List Nat := [t.next, t.peer0, t.peer1].filterMap fun p => p.map (·.1)

/-- The partners that a stile counts as bound to as the DSTILE of running collectives (R265). -/
def State.dstileOf (s : State) (st : Nat) : List Nat :=
  s.str.runs.flatMap fun r => match r.2.col with
    | some t => if t.dstile = st ∧ !r.2.dead then t.stop.partners.filter (· != s.devId) else []
    | none => []

/-- The devices to which a stile is bound (R208, R262, R265). -/
def State.boundTo (s : State) (st : Nat) : List Nat := (tfind s.binds st).toList ++ s.dstileOf st

/-- BIND (R262): the stile is bound to partner DEV; to one already lost, it is marked BROKEN; while bound to another,
the operation faults. -/
def execXchBind (o : UnitOp) (s : State) : Out :=
  let st := opField o 47 32
  let dev := opField o 31 23
  if !s.xchReady (s.lead o.pav) 6 o || opBit o 0 || s.stileEarlier o then .next s
  else
    let t := s.xchTake 6 o
    if (s.boundTo st).any (· != dev) then .next (t.stileFault o.pav st St.stileConflict)
    else
      let t := { t with binds := tset t.binds st dev }.wr F.stlState_BOUND st 0 1
      .next (if t.devLost dev then t.wr F.stlState_BROKEN st 0 1 else t)

/-- UNBIND (R262): the stile's binding is released. -/
def execXchUnbind (o : UnitOp) (s : State) : Out :=
  let st := opField o 47 32
  if !s.xchReady (s.lead o.pav) 6 o || !opBit o 0 || s.stileEarlier o then .next s
  else
    let t := s.xchTake 6 o
    .next ({ t with binds := terase t.binds st }.wr F.stlState_BOUND st 0 0)

/-- ORDF (R261): delivered by every slice with a unit in the scope. It orders from its issue on, and no unit waits. -/
def execOrdf (o : UnitOp) (s : State) : Out :=
  if (s.pav o.pav).xq.contains ⟨1, o⟩ && (s.scopeDies o.pav (opField o 11 0)).all fun d => s.issuedPast o.pav d o.seq then
    .next (s.xchTake 1 o)
  else .next s

/-- The tier in which a run writes; `none` where it may write in several: a caravan, a collective. -/
def RunSt.wtier (x : RunSt) (d : Desc) : Option Nat :=
  if d.car || x.col.isSome then none else some (if d.tgt = 4 then 0 else d.tgt)

/-- Whether two writes may have one endpoint by their tiers. -/
def sameTier (a b : Option Nat) : Bool := a.isNone || b.isNone || a == b

/-- Whether a stream engine has an incomplete operation of the scope, earlier than place `seq`, that writes in the tier. -/
def State.engBusy (s : State) (p e scope seq : Nat) (tier : Option Nat) : Bool :=
  s.str.runs.any (fun r => r.1.1 == e && !r.2.dead && opBefore r.2.op p seq && scope.testBit (if r.2.opc = 2 then 8 else 11)
    && sameTier tier (r.2.wtier (s.desc e r.1.2)))
  || (scope.testBit 11 && sameTier tier (some 3) && (s.pav p).xq.any fun q => decide (7 ≤ q.opc) && decide (q.opc ≤ 10)
    && opField q.op 47 40 == e && decide (q.op.seq < seq))

/-- Whether an ordering fence holds back a write of an engine's run (R261): an earlier operation of the fence's scope by the same
engine, the requester of both (R408), is incomplete and writes in the same tier, where the two may share an endpoint (log entry
148). -/
def State.ordHeld (s : State) (e scope : Nat) (tier : Option Nat) (o : UnitOp) : Bool :=
  (s.pav o.pav).ordf.any fun f => decide (f.seq < o.seq) && (opField f 11 0) &&& scope != 0
    && s.engBusy o.pav e (opField f 11 0) f.seq tier

/-- ENDF (R261): satisfied once every slice with a unit in the scope has issued it and the writes of the earlier
operations of the scope's units are complete at their endpoints. Until then it holds later operations back. -/
def execEndf (o : UnitOp) (s : State) : Out :=
  let p := o.pav
  let sc := opField o 11 0
  if (s.pav p).xq.contains ⟨2, o⟩ && (s.scopeDies p sc).all (fun d => s.issuedPast p d o.seq)
      && !(s.busy p sc o.seq fun _ => true) then .next (s.xchTake 2 o)
  else .next s

/-- FPOL (R266): the policy of the pavilion, as it stands at the lead slice. Each slice applies it to what it issues
after the word. -/
def execFpol (o : UnitOp) (s : State) : Out :=
  if s.xchReady (s.lead o.pav) 11 o && !(s.pav o.pav).xq.any (fun q => q.opc == 11 && decide (q.op.seq < o.seq)) then
    let t := s.xchTake 11 o
    .next (t.setPav o.pav { t.pav o.pav with poison := opBit o 0 })
  else .next s

/-! ### Stile registers (R224, R225) -/

/-- What STL_STATE_WRITE does (R224): COUNT written and BROKEN cleared where 1 is written, while the owner is idle, fenced or
unassigned or the group has none; any other write is refused. -/
def stlStateWriteOp (a : Actor) (st : Nat) (v : BitVec 64) (s : State) : Out :=
  let free := match s.stileOwner st with
    | some p => s.pavQuiet p
    | none => true
  if !machineActor a || !free then .next s.refuse
  else
    let t := s.wr F.stlState_COUNT st 0 (natField v.toNat 31 0)
    .next (if v.toNat.testBit 34 then t.wr F.stlState_BROKEN st 0 0 else t)

/-- STL_STATE_WRITE (R224). -/
def execStlStateWrite (a : Actor) (st : Nat) (v : BitVec 64) (s : State) : Out := stlStateWriteOp a st v s

/-- What STL_GROUP_WRITE does (R224, R225): the owner of a group changed, and its stiles cleared in the same event. -/
def stlGroupWriteOp (a : Actor) (g : Nat) (v : BitVec 64) (s : State) : Out :=
  let newV := v.toNat.testBit 6
  let newP := natField v.toNat 5 0
  let oldV := s.flag F.stlGroup_V g 0
  let oldP := s.rd F.stlGroup_PAV g 0
  let quota := (((s.groupsOf newP).filter (· != g)).length + 1) ≤ s.rd F.pavQuota_STILES newP 0
  if !machineActor a || (oldV && !s.pavQuiet oldP) || (newV && (!s.pavQuiet newP || !decide quota)) then .next s.refuse
  else
    let t := (s.wr F.stlGroup_V g 0 (boolNat newV)).wr F.stlGroup_PAV g 0 newP
    .next (if oldV != newV || (newV && oldP != newP) then t.clearGroup g else t)

/-- STL_GROUP_WRITE (R224, R225). -/
def execStlGroupWrite (a : Actor) (g : Nat) (v : BitVec 64) (s : State) : Out := stlGroupWriteOp a g v s

end Sys2Proof.Machine
end

