-- ==== Sys2Proof/Machine/Memory.lean ====
section
/-! DEFINITION. Memory at its endpoints (09, 11.2, 11.6): admission at home agents and GDDR7 controllers, GDDR7 lines
with their errors, Orangery scratchpad and cache partitions, and the accesses of requesters without a cache, which
take the data of a dirty core copy and remove copies that a write makes stale (Table 11-3). -/

namespace Sys2Proof.Machine

/-! ### Addresses (R308, R314, R319, R336) -/

/-- The interleave die H(a) of an address (R319). -/
def hashDie (a : Nat) : Nat := (List.range 13).foldl (fun h i => h ^^^ (a / 2 ^ (12 + 3 * i) % 8)) 0

/-- Whether an address lies in the GDDR aperture. -/
def inGddr (a : Nat) : Bool := decide (a < scratchBase)

/-- Whether an address lies in the Orangery scratchpad range. -/
def inScratch (a : Nat) : Bool := decide (scratchBase ≤ a) && decide (a < cellBase)

/-- Whether an address lies in the cell stores. -/
def inCells (a : Nat) : Bool := decide (cellBase ≤ a) && decide (a < cellBase + 512 * cellSize)

/-- The die and the offset of a GDDR7 address. -/
def gddrDie (a : Nat) : Nat := a / 2 ^ 34 % 8

/-- Die, way-group and offset within it of a scratchpad address (R314). -/
def scratchAt (a : Nat) : Nat × Nat × Nat :=
  let o := a - scratchBase
  (o / 2 ^ 32 % 8, o % 2 ^ 32 / 0xF000000, o % 2 ^ 32 % 0xF000000)

/-- The die of a path. -/
def pathDie : MPath → Nat
  | .scratch d => d
  | .direct d => d
  | .part d _ => d

/-- The owner of the plot of a GDDR7 address: a pavilion, 0xFE the system, 0xFF none (R349). -/
def State.plotOwner (s : State) (a : Nat) : Nat := s.rd F.gdrPlot_OWNER (gddrDie a) (a % 2 ^ 34 / 2 ^ 30)

/-! ### Admission (R315, R316, R336, R349) -/

/-- The answer of a home agent or controller to an access. -/
inductive Adm where
  | ok | wait | refuse (code : Nat)
  deriving DecidableEq, Repr

/-- Bytes of a way-group that count as scratchpad; way-group 15 without the snapshot region. -/
def wayBytes (w : Nat) : Nat := if w = 15 then 0xE000000 else 0xF000000

/-- The scratchpad way-groups of a pavilion in ascending die and way-group order. -/
def State.scratchWays (s : State) (p : Nat) : List (Nat × Nat) :=
  ((List.range 8).flatMap fun d => (List.range 16).map fun w => (d, w)).filter fun e =>
    s.rd F.orgWaymap_MODE e.1 e.2 == 0 && s.rd F.orgWaymap_OWNER e.1 e.2 == p

/-- Bytes of a pavilion's scratchpad that precede a way-group in its order. -/
def State.scratchBefore (s : State) (p d w : Nat) : Nat :=
  (((s.scratchWays p).takeWhile fun e => e != (d, w)).map fun e => wayBytes e.2).sum

/-- Whether `n` bytes at an offset of a way-group reach into the snapshot region (R314). -/
def inSnapshots (w o n : Nat) : Bool := w == 15 && decide (wayBytes 15 < o + n)

/-- Admission of a pavilion to `n` bytes of scratchpad (R315, R316). -/
def State.admitScratch (s : State) (p a n : Nat) : Adm :=
  let (d, w, o) := scratchAt a
  if 16 ≤ w ∨ s.rd F.orgWaymap_MODE d w ≠ 0 ∨ s.rd F.orgWaymap_OWNER d w ≠ p ∨ inSnapshots w o n then
    .refuse St.accessFault
  else if s.rd F.pavQuota_SCRATCH p 0 * 2 ^ 26 < s.scratchBefore p d w + o + n then .refuse St.quota
  else .ok

/-- Admission of the Keeper or a hart to `n` bytes of scratchpad; `snap` whether it may have the snapshot region (R315). -/
def State.admitCore (s : State) (a n : Nat) (snap : Bool) : Adm :=
  let (d, w, o) := scratchAt a
  if inSnapshots w o n then (if snap then .ok else .refuse St.accessFault)
  else if 16 ≤ w ∨ s.rd F.orgWaymap_MODE d w ≠ 0 then .refuse St.accessFault
  else .ok

/-- Whether GDDR7 of a die serves `n` bytes at an address (R336). -/
def State.gddrServes (s : State) (a n : Nat) : Adm :=
  if s.rd F.gdrCap_USABLE (gddrDie a) 0 < a % 2 ^ 34 + n then .refuse St.accessFault else .ok

/-- Whether the GDDR7 that holds a line takes accesses: they wait while it retrains (R342). -/
def State.gddrOpen (s : State) (la : Nat) : Bool := s.rd F.gdrStatus_STATE (gddrDie (la * 256)) 0 != 4

/-- Admission to a plot whose owner is admitted: it waits for the zero fill (R350). -/
def State.admitPlot (s : State) (a n : Nat) : Adm :=
  match s.gddrServes a n with
  | .ok => if s.flag F.gdrPlot_ZFILL (gddrDie a) (a % 2 ^ 34 / 2 ^ 30) then .wait else .ok
  | x => x

/-- Admission of a pavilion's unit to GDDR7; `sys` whether plots of the system are open to it. -/
def State.admitGddr (s : State) (p a n : Nat) (sys : Bool) : Adm :=
  let o := s.plotOwner a
  if o = p ∨ (sys ∧ o = 0xFE) then s.admitPlot a n else .refuse St.accessFault

/-- Admission of an access of a requester to `n` bytes, which lie in one line (R315, R316, R349, R371). -/
def State.admits (s : State) (r : Requester) (write : Bool) (a n : Nat) : Adm :=
  if inGddr a then
    match r with
    | .keeper => s.gddrServes a n
    | .hart _ _ _ => if s.plotOwner a = 0xFF then .refuse St.accessFault else s.admitPlot a n
    | .window p => s.admitGddr p a n false
    | .engine _ p => s.admitGddr p a n true
    | .slice p => s.admitGddr p a n true
  else if inScratch a then
    match r with
    | .keeper => s.admitCore a n (!write)
    | .hart _ mode _ => s.admitCore a n (!write && mode == .m)
    | .window p => s.admitScratch p a n
    | .engine _ p => s.admitScratch p a n
    | .slice p => s.admitScratch p a n
  else if inCells a then
    let b := (a - cellBase) / cellSize / 8
    match r with
    | .keeper => .ok
    | .hart _ _ _ => .ok
    | .window p => if s.owns p b then .ok else .refuse St.accessFault
    | _ => .refuse St.accessFault
  else .refuse St.accessFault

/-- The pavilion whose unit makes an access. The pavilion of a window is not told of a refusal (R373). -/
def pavOf : Requester → Option Nat
  | .engine _ p => some p
  | .slice p => some p
  | _ => none

/-- What the refusal of an access adds: a pavilion beyond its scratchpad, at a plot that is not open to it or at a cell store of
a foreign bed raises the quota-violation alarm (R316, R348, Table 9-10). -/
def State.overLimit (s : State) (r : Requester) (a code : Nat) : State :=
  match pavOf r with
  | none => s
  | some p =>
    if inScratch a then (if code = St.quota then s.quotaAlarm p (scratchAt a).1 1 else s)
    else if inGddr a then
      (if s.plotOwner a = p ∨ s.plotOwner a = 0xFE then s else s.quotaAlarm p (gddrDie a) 2)
    else if inCells a ∧ !s.owns p ((a - cellBase) / cellSize / 8) then s.quotaAlarm p (dieOfBed ((a - cellBase) / cellSize / 8)) 0
    else s

/-! ### GDDR7 lines (R337 to R339, R345) -/

/-- The check line of a group entered in the controller's cache of 64 check lines, first (R339); the one used longest ago leaves
it. -/
def State.touchCheck (s : State) (la : Nat) : State :=
  let die := gddrDie (la * 256)
  let g := la % 2 ^ 26 / 16
  { s with org := { s.org with cached := tset s.org.cached die ((g :: (tget s.org.cached die []).filter (· != g)).take 64) } }

/-- A block entered in the retirement table, or counted once when it is full (R345, R346). -/
def State.retire (s : State) (die block : Nat) (ue : Bool) : State :=
  let n := s.rd F.gdrRetireCtl_COUNT die 0
  if s.org.full.contains (die, block)
      || (List.range 32).any fun i => s.flag F.gdrRetire_V die i && s.rd F.gdrRetire_BLOCK die i == block then s
  else
    let s := if n < 32 then
        ((((s.wr F.gdrRetire_V die n 1).wr F.gdrRetire_UE die n (boolNat ue)).wr F.gdrRetire_BLOCK die n block).wr
          F.gdrRetireCtl_COUNT die 0 (n + 1))
      else { s with org := { s.org with full := (die, block) :: s.org.full } }.bump F.gdrRetireCtl_OVF die 0 1
    s.alarm die 0x01 { FaultReport.blank St.success 0 0x0D die 0xFE with info := block }

/-- A corrected line counted (R345). -/
def State.gddrCorrected (s : State) (la : Nat) : State :=
  let die := gddrDie (la * 256)
  let blk := la * 256 % 2 ^ 34 / 2 ^ 16
  let n := tget s.org.blk (die, blk) 0 + 1
  let s := { s with org := { s.org with blk := tset s.org.blk (die, blk) n } }.bump F.gdrEcc_CE_COUNT die 0 1
  let lim := s.rd F.gdrRetireCtl_LIMIT die 0
  if 0 < lim ∧ lim ≤ n then s.retire die blk false else s

/-- An uncorrectable line counted and logged (R345, Table 9-28). -/
def State.gddrUncorrectable (s : State) (la : Nat) : State :=
  let die := gddrDie (la * 256)
  let l := la % 2 ^ 26
  let place := gddrPlace (s.flag F.gdrCfg_DENSITY die 0) l
  let s := ((s.bump F.gdrEcc_UE_COUNT die 0 1).wr F.gdrErrlog_COMP die 0 place.comp).wr F.gdrErrlog_LINE die 0 l
  s.retire die (l / 256) true

/-- Every word of a line. -/
def allWords : List Nat := List.range 32

/-- A line as the controller delivers it, with the effects of the read: a corrected line is written back (R338, R344, R345). A
line of GDDR7 that has become absent is uncorrectable (R343). -/
def State.gddrFetch (s : State) (la : Nat) : LineD × State :=
  let t := s.touchCheck la
  if s.flag F.gdrStatus_ABSENT (gddrDie (la * 256)) 0 then (⟨s.load (la * 256) 256, allWords⟩, s)
  else match s.lineFound la with
  | .good bs => (⟨bs, []⟩, t)
  | .corrected bs => (⟨bs, []⟩, (t.lineStore la bs).gddrCorrected la)
  | .uncorrectable => (⟨s.load (la * 256) 256, allWords⟩, t.gddrUncorrectable la)
  | .poison => (⟨s.load (la * 256) 256, allWords⟩, t.bump F.gdrEcc_POISON (gddrDie (la * 256)) 0 1)

/-- A line written whole, as poison where a word of it is unreadable (R329, R338); absent GDDR7 takes no write (R343). -/
def State.gddrPut (s : State) (la : Nat) (d : LineD) : State :=
  let t := s.touchCheck la
  if s.flag F.gdrStatus_ABSENT (gddrDie (la * 256)) 0 then s
  else if d.bad.isEmpty then t.lineStore la d.bytes else t.linePoison la d.bytes

/-- A line with bytes replaced from an offset; a word written whole becomes readable. -/
def LineD.merge (d : LineD) (off : Nat) (bs : List Byte) : LineD :=
  ⟨d.bytes.take off ++ bs ++ d.bytes.drop (off + bs.length),
    d.bad.filter fun w => !(decide (off ≤ 8 * w) && decide (8 * w + 8 ≤ off + bs.length))⟩

/-- Bytes of a line from an offset, each `none` where its word cannot be read. -/
def LineD.get (d : LineD) (off n : Nat) : List (Option Byte) :=
  (List.range n).map fun i => if d.bad.contains ((off + i) / 8) then none else d.bytes[off + i]?

/-- Bytes of one line written at its controller: a write that does not cover the line reads it first (R339), and a line that
cannot be read stays unreadable. -/
def State.gddrWrite (s : State) (la off : Nat) (bs : List Byte) : State :=
  if bs.length = 256 then s.gddrPut la ⟨bs, []⟩
  else
    let (d, s) := s.gddrFetch la
    s.gddrPut la (d.merge off bs)

/-! ### Scratchpad words (Table 9-3) -/

/-- The effect of reading one scratchpad word; an uncorrectable one is counted when it is found, and is poisoned from then on. -/
def scratchWord (die : Nat) (s : State) (w : Nat) : State :=
  match tfind s.marks w with
  | some .single => { s with marks := terase s.marks w }.bump F.orgEcc_CE_COUNT die 0 1
  | some .double => { s with marks := tset s.marks w .poison }.bump F.orgEcc_UE_COUNT die 0 1
  | _ => s

/-- `n` scratchpad bytes and the state after their read. -/
def State.scratchRead (s : State) (a n : Nat) : List (Option Byte) × State :=
  let bs := (List.range n).map fun i => if s.unreadable (a + i) then none else some (memGet s.mem (a + i))
  (bs, ((List.range n).map fun i => markKey (a + i)).eraseDups.foldl (scratchWord (scratchAt a).1) s)

/-! ### Core copies (Table 11-3) -/

/-- The core die of a hart (R420). -/
def coreDie (h : Nat) : Nat := h / 48

/-- A core die's copy of a line. -/
def State.cline (s : State) (cd la : Nat) : CLine := tget s.coh.lines (cd, la) .gone

/-- Sets of an L1 cache, of an L2 cache and of an L3 cache (Table 12-2). -/
def l1Sets : Nat := 64
/-- Sets of an L2 cache. -/
def l2Sets : Nat := 1024
/-- Sets of an L3 cache. -/
def l3Sets : Nat := 24576

/-- A line taken out of the sets of private caches that a test picks. -/
def dropPriv (t : Tab (Nat × Nat) PrivSet) (sets la : Nat) (mine : Nat → Bool) : Tab (Nat × Nat) PrivSet :=
  t.map fun e => if mine e.1.1 && e.1.2 == la % sets then
    (e.1, { e.2 with ways := e.2.ways.map fun w => if w = some la then none else w }) else e

/-- A copy stored. A line that leaves the L3 leaves the private caches of its die with it (R422). -/
def State.setCline (s : State) (cd la : Nat) (c : CLine) : State :=
  { s with coh :=
    if c.st = .i then
      { s.coh with
        lines := terase s.coh.lines (cd, la)
        l1i := dropPriv s.coh.l1i l1Sets la fun h => coreDie h == cd
        l1d := dropPriv s.coh.l1d l1Sets la fun h => coreDie h == cd
        l2 := dropPriv s.coh.l2 l2Sets la fun h => coreDie h == cd }
    else { s.coh with lines := tset s.coh.lines (cd, la) c } }

/-- Whether a line has a transaction at its home, or a WriteBack on its way. -/
def State.lineBusy (s : State) (la : Nat) : Bool :=
  s.coh.txns.any (fun t => t.la == la) || s.coh.reqs.any fun e => e.1.2 == la && e.2.kind == .writeBack

/-- The core dies that hold a line. -/
def State.holders (s : State) (la : Nat) : List Nat := [0, 1].filter fun cd => (s.cline cd la).st != .i

/-- Snoops counted at a home agent. -/
def State.snoops (s : State) (die n : Nat) : State := if n = 0 then s else s.bump F.cohCnt_SNOOPS die 0 n

/-- An uncorrectable or poisoned access of a hart recorded in CORE_ERR (Table 12-8). -/
def State.coreErr (s : State) (h src kind pa : Nat) : State :=
  let cd := coreDie h
  let c := h % 48
  if s.flag F.coreErr_V cd c then s.wr F.coreErr_MULTI cd c 1
  else
    ((((s.wr F.coreErr_V cd c 1).wr F.coreErr_MULTI cd c 0).wr F.coreErr_SRC cd c src).wr F.coreErr_KIND cd c kind).wr
      F.coreErr_PA cd c pa

/-- Whether an error of a core cache is uncorrectable: an L1I refetches (Table 12-2). -/
def CErr.fatal (e : CErr) : Bool := e.mark != .single && e.src != 0

/-- An error of a core cache met by a hart: counted, and where a dirty line becomes uncorrectable, recorded (R424, Tables 12-8 and
12-9). -/
def State.countErr (s : State) (h la : Nat) (dirty : Bool) (e : CErr) : State :=
  if !e.fatal then s.bump F.coreEcc_CE_COUNT (coreDie h) (h % 48) 1
  else
    let s := s.bump F.coreEcc_UE_COUNT (coreDie h) (h % 48) 1
    if dirty then s.coreErr h e.src 2 (la * 256 + 8 * e.word) else s

/-- Words of a line's data marked poisoned. -/
def LineD.poisoned (d : LineD) (ws : List Nat) : LineD := { d with bad := (d.bad ++ ws).eraseDups }

/-- The data of a core die's copy as it leaves the die: words that cannot be corrected are poisoned, those of a private cache where
the line is dirty (R424). -/
def CLine.given (c : CLine) : LineD :=
  c.data.poisoned ((c.errs.filter fun e => e.fatal && (c.st == .d || e.src == 3)).map (·.word))

/-- The errors of a line read as it leaves its die: those of a hart's own caches count for the hart. -/
def State.givenErrs (s : State) (la : Nat) (c : CLine) : State :=
  (c.errs.filter fun e => e.src != 3).foldl (fun s e => s.countErr e.hart la (c.st == .d) e) s

/-- SnpClean and its answer: the data of a D holder, which goes to C (Table 11-3, read). -/
def State.snoopClean (s : State) (die la : Nat) : Option LineD × State :=
  match [0, 1].find? fun cd => (s.cline cd la).st == .d with
  | some cd =>
    let c := s.cline cd la
    (some c.given, ((s.givenErrs la c).setCline cd la { c with st := .c, data := c.given, errs := [] }).snoops die 1)
  | none => (none, s)

/-- SnpInv or back-invalidation to every holder and their answers: the data of a D holder (Table 11-3, R382). -/
def State.snoopInv (s : State) (die la : Nat) : Option LineD × State :=
  let hs := s.holders la
  let dc := (hs.find? fun cd => (s.cline cd la).st == .d).map fun cd => s.cline cd la
  let s := (dc.map fun c => s.givenErrs la c).getD s
  (dc.map CLine.given, (hs.foldl (fun s cd => s.setCline cd la .gone) s).snoops die hs.length)

/-! ### Cache partitions (R320 to R327) -/

/-- Sets of a partition. -/
def partSets : Nat := 983040

/-- The way-groups of an owner's partition on a die that provide a way in the set of a line (R320). -/
def State.ways (s : State) (die owner la : Nat) : List Nat :=
  (List.range 16).filter fun w => s.rd F.orgWaymap_MODE die w == 1 && s.rd F.orgWaymap_OWNER die w == owner
    && !(w == 15 && decide (917504 ≤ la % partSets))

/-- A line of a partition by way-group and set. -/
def State.pline (s : State) (die w set : Nat) : Option PLine := tfind s.org.lines (die, w, set)

/-- A line of a partition stored. -/
def State.setPline (s : State) (die w set : Nat) (x : PLine) : State :=
  { s with org := { s.org with lines := tset s.org.lines (die, w, set) x } }

/-- A line of a partition removed. -/
def State.dropPline (s : State) (die w set : Nat) : State :=
  { s with org := { s.org with lines := terase s.org.lines (die, w, set) } }

/-- Whether the tag of a line cannot be corrected. -/
def PLine.lost (x : PLine) : Bool := x.tagErr == some .double || x.tagErr == some .poison

/-- The way that holds a line, if any. -/
def State.partFind (s : State) (die owner la : Nat) : Option Nat :=
  (s.ways die owner la).find? fun w => (s.pline die w (la % partSets)).any fun x => x.la == la && !x.lost

/-- Words of a line that cannot be corrected. -/
def PLine.doubles (x : PLine) : List Nat := (x.errs.filter fun e => e.2 != .single).map (·.1)

/-- The effect of reading a partition line's words: errors corrected, refetched or made poison (Table 9-3). -/
def State.lineErrors (s : State) (die : Nat) (x : PLine) : PLine × State :=
  let singles := (x.errs.filter fun e => e.2 == .single).length
  let s := if singles = 0 then s else s.bump F.orgEcc_CE_COUNT die 0 singles
  if x.doubles.isEmpty then ({ x with errs := [] }, s)
  else if x.dirty then
    ({ x with errs := [], data := { x.data with bad := (x.data.bad ++ x.doubles).eraseDups } },
      s.bump F.orgEcc_UE_COUNT die 0 x.doubles.length)
  else
    let (d, s) := s.gddrFetch x.la
    ({ x with errs := [], data := d }, s.bump F.orgEcc_CE_COUNT die 0 1)

/-- A dirty line with an uncorrectable tag: it is lost, counted, with an alarm (Table 9-3). -/
def State.lineLost (s : State) (die : Nat) : State :=
  (s.bump F.orgEcc_UE_COUNT die 0 1).alarm die 0x02 (FaultReport.blank St.dataFault 1 0x0C die 0xFE)

/-- A line of a die's partition written back if it is dirty, through its code; one with an uncorrectable tag is lost. -/
def State.writeBackLine (s : State) (die : Nat) (x : PLine) : State :=
  if !x.dirty then s
  else if x.lost then s.lineLost die
  else
    let (x, s) := s.lineErrors die x
    s.gddrPut x.la x.data

/-- Owner order entered for a cause, with queries of a set, or of the whole directory, to both core dies (Table 11-5). -/
def State.queryDies (s : State) (die cause : Nat) (set : Option Nat) : State :=
  let s := ((s.wr F.cohStatus_MODE die 0 1).wr F.cohStatus_DRAIN die 0 0).wr F.cohStatus_CAUSE die 0 cause
  let bs := 16 :: leBytes 8 (set.getD (2 ^ 64 - 1))
  let s := (s.carry .coherence die 8 bs).carry .coherence die 9 bs
  { s with coh := { s.coh with
    ends := tset s.coh.ends die (tget s.coh.ends die [] ++ [(0, set), (1, set)])
    msgs := s.coh.msgs ++ [.query die 0 set, .query die 1 set] } }

/-- Whether a query covers a line. -/
def inQuery (set : Option Nat) (la : Nat) : Bool :=
  match set with
  | none => true
  | some k => la % partSets == k

/-- Whether a line's directory entry lies in a query that is not answered whole (R393, R395). -/
def State.dirAsked (s : State) (die la : Nat) : Bool := (tget s.coh.ends die []).any fun e => inQuery e.2 la

/-- The entry of a line allocated in the shared partition without a snoop that has taken every copy: unknown while it is asked
for. -/
def State.newDir (s : State) (die la : Nat) : Dir := { Dir.none with unknown := s.dirAsked die la }

/-- Directory entries of a home agent that are still unknown (R395, COH_STATUS.UNKNOWN): those asked for and neither given by a
record nor written by a transaction. -/
def State.unknownEntries (s : State) (die : Nat) : Nat :=
  let qs := (tget s.coh.ends die []).map (·.2)
  let known := s.org.lines.filter fun e => e.1.1 == die && (s.ways die 0xFE e.2.la).contains e.1.2.1 && s.dirAsked die e.2.la
    && (!e.2.dir.unknown || e.2.dir.p0 || e.2.dir.p1)
  let all := if qs.contains none then
      partSets * (s.ways die 0xFE 0).length - (if (s.ways die 0xFE 0).contains 15 then partSets - 917504 else 0)
    else ((qs.filterMap id).eraseDups.map fun k => (s.ways die 0xFE k).length).sum
  all - known.length

/-- The tags of a set read (Table 9-3, R393): a single-bit error is corrected; where one is uncorrectable, dirty lines with good
tags are written back, the set is invalidated, lost lines are counted, and in the shared partition the home agent asks the core
dies for the set. -/
def State.tagCheck (s : State) (die owner la : Nat) : State :=
  let set := la % partSets
  let ws := s.ways die owner la
  let s := ws.foldl (fun s w =>
    match s.pline die w set with
    | some x => if x.tagErr = some .single then
        (s.setPline die w set { x with tagErr := none }).bump F.orgEcc_CE_COUNT die 0 1 else s
    | none => s) s
  if !(ws.any fun w => (s.pline die w set).any (·.lost)) then s
  else
    let s := ws.foldl (fun s w =>
      match s.pline die w set with
      | none => s
      | some x => (s.dropPline die w set).writeBackLine die x) s
    if owner = 0xFE then s.queryDies die 2 (some set) else s

/-- The region that an access of an owner matches at the home agent of a die, and the state with MULTI counted (R325). -/
def State.region (s : State) (die owner a : Nat) : Option Nat × State :=
  let ms := (List.range 16).filter fun n =>
    let b := s.rd F.orgRgnBase_BASE die n * 2 ^ 16
    s.flag F.orgRgnAttr_V 0 n && s.rd F.orgRgnAttr_OWNER 0 n == owner && decide (b ≤ a)
      && decide (a < b + 2 ^ s.rd F.orgRgnSize_LOG2 die n)
  (ms.head?, if 1 < ms.length then s.bump F.orgPf_MULTI 0 0 1 else s)

/-- The age that a fill sets: 1 demand, 2 prefetch, 3 streaming, unless a region overrides it (R323, R325). -/
def State.fillAge (s : State) (rgn : Option Nat) (cls : Nat) : Nat :=
  match rgn with
  | some n => match s.rd F.orgRgnAttr_INSERT 0 n with
    | 1 => 1
    | 2 => 3
    | _ => cls
  | none => cls

/-- The victim of a fill (R324): the lowest invalid way, else the lowest of greatest age; and the state with the
other ways aged. -/
def State.victim (s : State) (die la : Nat) (ws : List Nat) : Option (Nat × State) :=
  let set := la % partSets
  match ws.find? fun w => (s.pline die w set).isNone with
  | some w => some (w, s)
  | none =>
    let ls := ws.filterMap fun w => (s.pline die w set).map fun x => (w, x)
    let g := (ls.map fun e => e.2.age).foldl max 0
    match ls.find? fun e => e.2.age == g with
    | none => none
    | some (w, _) =>
      some (w, ls.foldl (fun s e =>
        if e.1 == w then s else s.setPline die e.1 set { e.2 with age := min 3 (e.2.age + (3 - g)) }) s)

/-- A line removed from a partition: core copies of a shared line go first, dirty data goes back to GDDR7 (R324,
R382). -/
def State.evictLine (s : State) (die owner w set : Nat) : State :=
  match s.pline die w set with
  | none => s
  | some x =>
    let (d, s) := if owner = 0xFE then s.snoopInv die x.la else (none, s)
    let x := match d with
      | some d => { x with data := d, dirty := true }
      | none => x
    (s.dropPline die w set).writeBackLine die x

/-- A line put into a partition; `none` while the victim has a transaction or its GDDR7 is retraining. -/
def State.fill (s : State) (die owner la age : Nat) (dirty : Bool) (d : LineD) (dir : Dir) : Option State :=
  match s.victim die la (s.ways die owner la) with
  | none => none
  | some (w, s) =>
    let set := la % partSets
    if (s.pline die w set).any fun x => (owner == 0xFE && s.lineBusy x.la)
        || (x.dirty && !s.gddrOpen x.la) then none
    else some ((s.evictLine die owner w set).setPline die w set ⟨la, age, dirty, d, [], none, dir⟩)

/-- The next-line prefetch that a miss queues (R326). -/
def State.queuePrefetch (s : State) (die owner la : Nat) (rgn : Option Nat) : State :=
  if !(rgn.any fun n => s.flag F.orgRgnAttr_PF 0 n) || la % 16 == 15 || (s.partFind die owner (la + 1)).isSome then s
  else
    let q := tget s.org.pfq die []
    if q.length < 32 then { s with org := { s.org with pfq := tset s.org.pfq die (q ++ [(owner, la + 1)]) } }
    else s.bump F.orgPf_DROPPED die 0 1

/-- The data of a line at its GDDR7, or of the dirty core copy `dd`; nothing is read for a write of the whole line. -/
def State.lineSource (s : State) (la : Nat) (dd : Option LineD) (whole : Bool) : LineD × State :=
  match dd with
  | some d => (d, s)
  | none => if whole then (⟨[], []⟩, s) else s.gddrFetch la

/-- An access to a line through a partition (R320 to R326, Table 11-3). In the shared partition `snoop` asks the core dies first:
`some true` takes every copy away, `some false` makes a dirty copy clean. A hit sets the age to 0; a miss fills in class `cls`, or
is served at GDDR7 where there is no class or no way. `f` is what a write makes of the line, `whole` that it covers it. The
answer is the line before the write; `none` while the line is busy, waits for a way, or its GDDR7 retrains. -/
def State.partAccess (s : State) (die owner la : Nat) (cls : Option Nat) (snoop : Option Bool)
    (f : Option (LineD → LineD)) (whole : Bool) : Option (LineD × State) :=
  if snoop.isSome && owner == 0xFE && s.lineBusy la then none
  else
    let s := s.tagCheck die owner la
    let (rgn, s) := s.region die owner (la * 256)
    let (dd, s) := match owner == 0xFE, snoop with
      | true, some true => s.snoopInv die la
      | true, some false => s.snoopClean die la
      | _, _ => (none, s)
    let set := la % partSets
    let dirty := f.isSome || dd.isSome
    match (s.partFind die owner la).bind fun w => (s.pline die w set).map fun x => (w, x), cls with
    | some (w, x), _ =>
      if !x.dirty && !x.doubles.isEmpty && !s.gddrOpen la then none
      else
        let (x, s) := if whole then ({ x with errs := [] }, s) else s.lineErrors die x
        let d := dd.getD x.data
        let dir := if snoop = some true then .none else if dd.isSome then { x.dir with st := .c } else x.dir
        some (d, s.setPline die w set { x with data := f.getD id d, dirty := x.dirty || dirty, age := 0, dir := dir })
    | none, some c =>
      if (dd.isNone && !whole && !s.gddrOpen la) || ((s.ways die owner la).isEmpty && !s.gddrOpen la) then none
      else
        let (d, s) := s.lineSource la dd whole
        if (s.ways die owner la).isEmpty then some (d, if dirty then s.gddrPut la (f.getD id d) else s)
        else
          ((s.queuePrefetch die owner la rgn).fill die owner la (s.fillAge rgn c) dirty (f.getD id d)
            (if snoop = some true then .none else s.newDir die la)).map
            fun s => (d, s)
    | none, none =>
      if !s.gddrOpen la then none
      else
        let (d, s) := s.lineSource la dd whole
        some (d, if dirty then s.gddrPut la (f.getD id d) else s)

/-- A line read through a partition. -/
def State.partRead (s : State) (die owner la : Nat) (cls : Option Nat) : Option (LineD × State) :=
  s.partAccess die owner la cls (some false) none false

/-- Bytes written through a partition from an offset of a line. -/
def State.partWrite (s : State) (die owner la off : Nat) (bs : List Byte) (cls : Option Nat) : Option State :=
  (s.partAccess die owner la cls (some true) (some fun d => d.merge off bs) (bs.length == 256)).map (·.2)

/-! ### Accesses of requesters without a cache -/

/-- The path of an access (Table 9-4): a pavilion's unit by the bias and cache attribute of its page, a core by its
mapping, an access without bias by the copies at its home (R387). -/
def State.pathOf (s : State) (r : Requester) (a : Nat) (shared c : Bool) : MPath :=
  let h := hashDie a
  if inScratch a then .scratch (scratchAt a).1
  else
    match r with
    | .engine _ p => if shared then .part h 0xFE else if c then .part h p else .direct (gddrDie a)
    | .slice p => if shared then .part h 0xFE else if c then .part h p else .direct (gddrDie a)
    | .hart _ _ io =>
      if !io then .part h 0xFE
      else if s.plotOwner a < 64 then .part h (s.plotOwner a) else .direct (gddrDie a)
    | _ =>
      let o := s.plotOwner a
      if o < 64 ∧ (s.partFind h o (a / 256)).isSome then .part h o else .part h 0xFE

/-- The insertion class of a requester (R323, R400): streaming for engines and slices, none for a core's uncached
access to a pavilion's partition, demand else. -/
def fillClass : Requester → Option Nat
  | .engine _ _ => some 3
  | .slice _ => some 3
  | .hart _ _ io => if io then none else some 1
  | _ => some 1

/-- `n` bytes of one line read on a path; `none` while the line is busy. -/
def State.pathRead (s : State) (p : MPath) (cls : Option Nat) (a n : Nat) : Option (List (Option Byte) × State) :=
  match p with
  | .scratch _ => some (s.scratchRead a n)
  | .direct _ =>
    if !s.gddrOpen (a / 256) then none
    else
      let (d, s) := s.gddrFetch (a / 256)
      some (d.get (a % 256) n, s)
  | .part die owner => (s.partRead die owner (a / 256) cls).map fun (d, s) => (d.get (a % 256) n, s)

/-- The hart of a requester. -/
def hartOf : Requester → Option Nat
  | .hart h _ _ => some h
  | _ => none

/-- A write of a line by a requester: every other hart loses its reservation there (R416, R426). -/
def State.unreserve (s : State) (who : Option Nat) (la : Nat) : State :=
  { s with coh := { s.coh with resv := s.coh.resv.filter fun e => some e.1 == who || e.2 / 256 != la } }

/-- Bytes of one line written on a path by a requester, which is a hart or another. -/
def State.pathWrite (s : State) (p : MPath) (cls who : Option Nat) (a : Nat) (bs : List Byte) : Option State :=
  let s := s.unreserve who (a / 256)
  match p with
  | .scratch _ => some (s.store a bs)
  | .direct _ => if s.gddrOpen (a / 256) then some (s.gddrWrite (a / 256) (a % 256) bs) else none
  | .part die owner => s.partWrite die owner (a / 256) (a % 256) bs cls

/-- A range cut at 256-byte lines: address and length of each piece. -/
def linePieces (a n : Nat) : List (Nat × Nat) :=
  (List.range ((a % 256 + n + 255) / 256)).map fun i =>
    let lo := if i = 0 then a else (a / 256 + i) * 256
    (lo, min (a + n) ((a / 256 + i + 1) * 256) - lo)

/-- The result of an access: bytes with the state after it, a wait, or a refusal with the state in which its alarm is raised. -/
inductive MemRes where
  | done (bs : List (Option Byte)) (s : State)
  | wait
  | refuse (code : Nat) (s : State)

/-- A read of a range by a requester at its endpoints, cell stores included, line by line in address order. -/
def State.readAs (s : State) (r : Requester) (shared c : Bool) (a n : Nat) : MemRes :=
  (linePieces a n).foldl (fun acc (x, k) =>
    match acc with
    | .done bs t =>
      match t.admits r false x k with
      | .refuse e => .refuse e (s.overLimit r x e)
      | .wait => .wait
      | .ok =>
        if inCells x then
          let (b, t) := t.eccRead ((x - cellBase) / cellSize) ((x - cellBase) % cellSize) k
          .done (bs ++ b) t
        else
          match t.pathRead (t.pathOf r x shared c) (fillClass r) x k with
          | some (b, t) => .done (bs ++ b) t
          | none => .wait
    | e => e) (.done [] s)

/-- A write of a range by a requester at its endpoints. Nothing is written when a piece is refused or waits. -/
def State.writeAs (s : State) (r : Requester) (shared c : Bool) (a : Nat) (data : List Byte) : MemRes :=
  let ps := linePieces a data.length
  match ps.findSome? fun (x, k) => match s.admits r true x k with
    | .refuse e => some (MemRes.refuse e (s.overLimit r x e))
    | .wait => some .wait
    | .ok => none with
  | some e => e
  | none =>
    ps.foldl (fun acc (x, k) =>
      match acc with
      | .done bs s =>
        let d := (data.drop (x - a)).take k
        if inCells x then .done bs (s.store x d)
        else
          match s.pathWrite (s.pathOf r x shared c) (fillClass r) (hartOf r) x d with
          | some s => .done bs s
          | none => .wait
      | e => e) (.done [] s)

/-- Whether every byte of a read came readable. -/
def allReadable (bs : List (Option Byte)) : Bool := bs.all (·.isSome)

/-! ### Answers to a hart (R424) -/

/-- The exception of a hart's load or fetch. -/
def State.loadFault (s : State) (h : Nat) (fetch : Bool) : State := s.send (.trap h (if fetch then 1 else 5))

/-- The answer to a load: its value, or the access fault of unreadable data, which comes poisoned from a source of Table 12-8
(R424). -/
def State.answerLoad (s : State) (h pa : Nat) (fetch : Bool) (src : Nat) (bs : List (Option Byte)) : State :=
  if allReadable bs then s.send (.hart h (BitVec.ofNat 64 (leNat (bs.map (·.getD 0)))))
  else (s.loadFault h fetch).coreErr h src 1 pa

end Sys2Proof.Machine
end

