-- ==== Sys2Proof/Machine/Commit.lean ====
section
/-! DEFINITION. Commit registers (05.5, Table 5-8): the request, a passing commit, a failing one, and a cancelled one.
All have one layout: GO bit 0, PENDING bit 1, ERROR bit 2, REASON bits 15:8. -/

namespace Sys2Proof.Machine

/-- Fields of a commit register. -/
def commitGoF (r : Reg) : Fld := ⟨r, 0, 0⟩
/-- PENDING. -/
def commitPendF (r : Reg) : Fld := ⟨r, 1, 1⟩
/-- ERROR. -/
def commitErrF (r : Reg) : Fld := ⟨r, 2, 2⟩
/-- REASON. -/
def commitReasonF (r : Reg) : Fld := ⟨r, 15, 8⟩

/-- A commit requested (R167). -/
def State.commitGo (s : State) (r : Reg) (i : Nat) : State := (s.wr (commitGoF r) i 0 1).wr (commitPendF r) i 0 1

/-- Whether a commit waits. -/
def State.commitDue (s : State) (r : Reg) (i : Nat) : Bool := s.flag (commitPendF r) i 0

/-- The end of a commit with ERROR and REASON. -/
def State.commitEnd (s : State) (r : Reg) (i : Nat) (reason : Nat) : State :=
  (((s.wr (commitErrF r) i 0 (if reason = 0 then 0 else 1)).wr (commitReasonF r) i 0 reason).wr (commitGoF r) i 0 0).wr
    (commitPendF r) i 0 0

/-- A commit cancelled by a Trellis commit, if one waits (R169). -/
def State.commitCancel (s : State) (r : Reg) (i : Nat) : State := if s.commitDue r i then s.commitEnd r i 2 else s

/-- A field of the shadow of a register. -/
def State.rdShadow (s : State) (f : Fld) (i j : Nat) : Nat := natField (s.shadow f.r i j).toNat f.hi f.lo

/-- An SC field copied from a shadow into its active field, with its register key as it lies in each. -/
def State.commitField (s : State) (f : Fld) (i j i' j' : Nat) : State := s.wr f i' j' (s.rdShadow f i j)

/-- A Trellis or SC write of both active value and shadow of a field (R169). -/
def State.wrBoth (s : State) (f : Fld) (i j v : Nat) : State :=
  let w := putBits (s.shadow f.r i j) f.hi f.lo v
  (s.wr f i j v).setShadow f.r i j w

/-- A register commit or write has changed a field that the section of a type and target set (R170). -/
def State.drift (s : State) (typ target : Nat) : State :=
  { s with trl := { s.trl with drifts := (typ, target) :: s.trl.drifts.filter (· != (typ, target)) } }.wr
    F.trlStatus_DRIFT 0 0 1

/-- The section of a type and target commits: what it set stands again as it set it. -/
def State.undrift (s : State) (typ target : Nat) : State :=
  let l := s.trl.drifts.filter (· != (typ, target))
  { s with trl := { s.trl with drifts := l } }.wr F.trlStatus_DRIFT 0 0 (if l.isEmpty then 0 else 1)

end Sys2Proof.Machine
end

