-- ==== Sys2Proof/Machine/Orangery.lean ====
section
/-! DEFINITION. Home agents and GDDR7 controllers (09): regions, queued accesses, prefetch, flush, atomics, tracking,
retraining, scrub and plots. -/

namespace Sys2Proof.Machine

/-! ### Region commit (R325) -/

/-- The pair rule of the regions: size, alignment and end of every region. -/
def State.regionsOk (s : State) : Bool :=
  (List.range 16).all fun n =>
    let b := s.rdShadow F.orgRgnBase_BASE 0 n * 2 ^ 16
    let l := s.rdShadow F.orgRgnSize_LOG2 0 n
    decide (16 ≤ l) && decide (l ≤ 40) && b % 2 ^ l == 0 && decide (b + 2 ^ l ≤ scratchBase)

/-- ORG_RGN_COMMIT_GO (R325). -/
def execOrgRgnCommitGo (a : Actor) (s : State) : Out :=
  if !machineActor a then .next s.refuse
  else .next ({ s with org := { s.org with rgnDone := [] } }.commitGo .orgRgnCommit 0)

/-- The region shadows taken by the home agent of a die. -/
def State.takeRegions (s : State) (die : Nat) : State :=
  let s := (List.range 16).foldl (fun s n =>
    (s.commitField F.orgRgnBase_BASE 0 n die n).commitField F.orgRgnSize_LOG2 0 n die n) s
  { s with org := { s.org with rgnDone := die :: s.org.rgnDone } }

/-- ORG_RGN_COMMIT_APPLY (R325): the home agent of a die takes the shadows between two lookups; the commit ends when
all eight have taken them, or at once when the check fails. -/
def execOrgRgnCommitApply (die : Nat) (s : State) : Out :=
  if !s.commitDue .orgRgnCommit 0 || s.org.rgnDone.contains die || 8 ≤ die then .next s
  else if !s.regionsOk then .next (s.commitEnd .orgRgnCommit 0 1)
  else
    let s := s.takeRegions die
    .next (if (List.range 8).all s.org.rgnDone.contains then s.commitEnd .orgRgnCommit 0 0 else s)

/-! ### Queued accesses of stream engines (R333, R336, R339, Table 9-11) -/

/-- The answer to a request of a stream engine; it crosses back to the engine's die. -/
def State.respond (s : State) (r : MemReq) (status : Nat) (bs : List (Option Byte)) : State :=
  match tfind s.str.runs (r.eng, r.ctx) with
  | none => s
  | some x =>
    let x := { x with reqs := x.reqs.map fun q =>
      if q.tag == r.tag && !q.remote && q.resp.isNone then { q with resp := some (status, bs) } else q }
    let s := s.carry .memory (pathDie r.path) (r.eng / 32) (leBytes 1 r.tag ++ leBytes 1 status ++ bs.map (·.getD 0))
    { s with str := { s.str with runs := tset s.str.runs (r.eng, r.ctx) x } }

/-- A queued access served at its endpoint; `none` while it waits. -/
def State.serve (s : State) (r : MemReq) : Option State :=
  match s.admits (.engine r.eng r.pav) r.write r.pa r.len with
  | .wait => none
  | .refuse e => some ((s.overLimit (.engine r.eng r.pav) r.pa e).respond r e [])
  | .ok =>
    if r.write then (s.pathWrite r.path (some 3) none r.pa r.data).map fun s => s.respond r St.success []
    else (s.pathRead r.path (some 3) r.pa r.len).map fun (bs, s) => s.respond r St.success bs

/-- Pavilions in turn order after the one served last. -/
def turnOrder (last : Nat) : List Nat := (List.range 64).map fun i => (last + 1 + i) % 64

/-- The first request in turn order that can be served now: each pavilion's oldest request is its candidate. -/
def State.serveTurn (s : State) (q : List MemReq) (last : Nat) : Option (MemReq × State) :=
  (turnOrder last).findSome? fun p =>
    match q.find? fun r => r.pav == p with
    | none => none
    | some r => (s.serve r).map fun t => (r, t)

/-- The next access in turn at the home agent of a die (R386). -/
def State.homeTurn (s : State) (die : Nat) : Option State :=
  let q := tget s.org.hq die []
  (s.serveTurn q (tget s.org.hturn die 63)).map fun (r, t) =>
    { t with org := { t.org with hq := tset t.org.hq die (q.erase r), hturn := tset t.org.hturn die r.pav } }

/-- The next access in turn at the GDDR7 controller of a die (R336). -/
def State.gddrTurn (s : State) (die : Nat) : Option State :=
  let q := tget s.org.gq die []
  (s.serveTurn q (tget s.org.gturn die 63)).map fun (r, t) =>
    { t with org := { t.org with gq := tset t.org.gq die (q.erase r), gturn := tset t.org.gturn die r.pav } }

/-! ### Prefetch and flush (R326, R327) -/

/-- The oldest prefetch of a die removed. -/
def State.popPrefetch (s : State) (die : Nat) : State :=
  { s with org := { s.org with pfq := tset s.org.pfq die (tget s.org.pfq die []).tail } }

/-- NEXT_LINE_PREFETCH (R326): the oldest queued prefetch fills with prefetch insertion, age 2, which no region overrides (R323);
it waits for a line that is busy and for a GDDR7 that retrains. -/
def execNextLinePrefetch (die : Nat) (s : State) : Out :=
  match tget s.org.pfq die [] with
  | [] => .next s
  | (owner, la) :: _ =>
    if (s.partFind die owner la).isSome || (s.ways die owner la).isEmpty then .next (s.popPrefetch die)
    else
      if s.gddrServes (la * 256) 256 != .ok then .next (s.popPrefetch die)
      else if (owner == 0xFE && s.lineBusy la) || !s.gddrOpen la then .next s
      else
        let (d, t) := s.gddrFetch la
        match t.fill die owner la 2 false d .none with
        | some t => .next (t.popPrefetch die)
        | none => .next s

/-- Whether a value is a partition owner: a pavilion or 0xFE. -/
def isOwner (o : Nat) : Bool := decide (o < 64) || o == 0xFE

/-- What ORG_FLUSH does (R327): the owner written, and the flush started where GO is 1. -/
def orgFlushOp (a : Actor) (die : Nat) (v : BitVec 64) (s : State) : Out :=
  if !machineActor a then .next s.refuse
  else
    let o := natField v.toNat 15 8
    let t := if isOwner o then s.wr F.orgFlush_OWNER die 0 o else s
    .next (if v.toNat % 2 = 1 then t.wr F.orgFlush_GO die 0 1 else t)

/-- ORG_FLUSH (R327). -/
def execOrgFlush (a : Actor) (die : Nat) (v : BitVec 64) (s : State) : Out := orgFlushOp a die v s

/-- The keys of a partition's lines on a die. -/
def State.partLines (s : State) (die owner : Nat) : List ((Nat × Nat × Nat) × PLine) :=
  s.org.lines.filter fun e => e.1.1 == die && s.rd F.orgWaymap_MODE die e.1.2.1 == 1
    && s.rd F.orgWaymap_OWNER die e.1.2.1 == owner

/-- A line of a partition written back and kept, clean, its words as the write-back has read them. -/
def cleanLineOf (die : Nat) (s : State) (e : (Nat × Nat × Nat) × PLine) : State :=
  let (x, s) := s.lineErrors die e.2
  (s.gddrPut x.la x.data).setPline die e.1.2.1 e.1.2.2 { x with dirty := false }

/-- The tags of the sets that a visit of a partition passes, where one is in error, read first (Table 9-3). -/
def State.visitTags (s : State) (die owner : Nat) (passes : Nat → Bool) : State :=
  ((s.partLines die owner).filter fun e => e.2.tagErr.isSome && passes e.1.2.2).foldl
    (fun s e => s.tagCheck die owner e.1.2.2) s

/-- The dirty lines of the partition that a flush names. -/
def State.flushLines (s : State) (die : Nat) : List ((Nat × Nat × Nat) × PLine) :=
  (s.partLines die (s.rd F.orgFlush_OWNER die 0)).filter fun e => e.2.dirty

/-- ORG_FLUSH_DONE (R327): every dirty line of the partition is written back and stays, clean. -/
def execOrgFlushDone (die : Nat) (s : State) : Out :=
  if !s.flag F.orgFlush_GO die 0 || (s.flushLines die).any (fun e => !s.gddrOpen e.2.la) then .next s
  else
    let t := s.visitTags die (s.rd F.orgFlush_OWNER die 0) fun _ => true
    .next (((t.flushLines die).foldl (cleanLineOf die) t).wr F.orgFlush_GO die 0 0)

/-! ### Atomics (R331 to R333) -/

/-- The new memory value of an atomic (Table 9-5) of `n` bytes on `m` with operand `v` and compare value `c`. -/
def atomicValue (op : AtomicOp) (n m v c : Nat) : Nat :=
  let w := 8 * n
  let sm := toSigned w m
  let sv := toSigned w v
  match op with
  | .add => (m + v) % 2 ^ w
  | .and => m &&& v
  | .or => m ||| v
  | .xor => m ^^^ v
  | .smin => if sv < sm then v else m
  | .smax => if sm < sv then v else m
  | .umin => min m v
  | .umax => max m v
  | .swap => v
  | .cas => if m = c then v else m

/-- The outcome of an atomic: the old bytes, a wait, or a refusal with its status, whether R332 or R333 names it, and the state in
which its alarm is raised. -/
inductive AtomRes where
  | done (old : List Byte) (s : State)
  | wait
  | refuse (code : Nat) (counted : Bool) (s : State)

/-- Whether a partition path has ways for every line of a range. -/
def State.hasWays (s : State) (p : MPath) (a n : Nat) : Bool :=
  match p with
  | .scratch _ => true
  | .direct _ => false
  | .part die owner => (linePieces a n).all fun e => !(s.ways die owner (e.1 / 256)).isEmpty

/-- The read of an atomic on one line: every core copy is taken away first (Table 11-3), and a miss fills in demand class. -/
def State.atomRead (s : State) (p : MPath) (a n : Nat) : Option (List (Option Byte) × State) :=
  match p with
  | .part die owner => (s.partAccess die owner (a / 256) (some 1) (some true) none false).map fun (d, s) => (d.get (a % 256) n, s)
  | p => s.pathRead p (some 1) a n

/-- The write of an atomic on one line, in the access that has read it: its age stays. -/
def State.atomWrite (s : State) (p : MPath) (who : Option Nat) (a : Nat) (bs : List Byte) : State :=
  let la := a / 256
  let s := s.unreserve who la
  match p with
  | .part die owner =>
    match (s.partFind die owner la).bind fun w => (s.pline die w (la % partSets)).map fun x => (w, x) with
    | some (w, x) => s.setPline die w (la % partSets) { x with data := x.data.merge (a % 256) bs, dirty := true }
    | none => s.gddrWrite la (a % 256) bs
  | .direct _ => s.gddrWrite la (a % 256) bs
  | .scratch _ => s.store a bs

/-- Pieces read by an atomic in address order. -/
def State.piecesRead (s : State) (p : MPath) (ps : List (Nat × Nat)) : Option (List (Option Byte) × State) :=
  ps.foldl (fun acc e => match acc with
    | none => none
    | some (bs, s) => (s.atomRead p e.1 e.2).map fun (b, s) => (bs ++ b, s)) (some ([], s))

/-- Pieces written by an atomic. -/
def State.piecesWrite (s : State) (p : MPath) (who : Option Nat) (a : Nat) (data : List Byte) : State :=
  (linePieces a data.length).foldl (fun s e => s.atomWrite p who e.1 ((data.drop (e.1 - a)).take e.2)) s

/-- Whether a hart still holds a store to a line of a range in its store buffer (R412). -/
def State.buffered (s : State) (r : Requester) (a n : Nat) : Bool :=
  match r with
  | .hart h _ _ => (tget s.coh.sb h []).any fun e => (linePieces a n).any fun x => x.1 / 256 == e.pa / 256
  | _ => false

/-- An atomic read-modify-write of `n` bytes at `a` by `f`, with the alignment and placement rules. -/
def State.atomicAt (s : State) (r : Requester) (a n align : Nat) (f : List Byte → List Byte) : AtomRes :=
  if s.buffered r a n then .wait else
  let far := !(inGddr a || inScratch a)
  let mis := a % align != 0 || decide (4096 < a % 4096 + n)
  let path := s.pathOf r a true true
  let noway := inGddr a && !s.hasWays path a n
  let adm := if far then none else (linePieces a n).findSome? fun e => match s.admits r true e.1 e.2 with
    | .ok => none
    | x => some (e.1, x)
  if noway then .refuse St.invalidOp true s
  else if far || mis then .refuse St.accessFault true s
  else
    match adm with
    | some (x, .refuse e) => .refuse e false (s.overLimit r x e)
    | some _ => .wait
    | none =>
      match s.piecesRead path (linePieces a n) with
      | none => .wait
      | some (bs, t) =>
        if !allReadable bs then .refuse St.dataFault true s
        else
          let old := bs.map (·.getD 0)
          .done old (t.piecesWrite path (hartOf r) a (f old))

/-- The home agent of an atomic's address. -/
def atomicDie (a : Nat) : Nat := if inScratch a then (scratchAt a).1 else hashDie a

/-- The answer to an atomic: to a hart the value it returns, to another requester the value. -/
def gotBy (r : Requester) (v : BitVec 64) : Sent :=
  match r with
  | .hart h _ _ => .hart h v
  | _ => .value v

/-- The refusal of an atomic: a core raises a store or AMO access fault (R425), another requester takes the status. -/
def refusedTo (r : Requester) (code : Nat) : Sent :=
  match r with
  | .hart h _ _ => .trap h 7
  | _ => .status code

/-- The common part of ATOMIC and BLKADD: the counters of ORG_ATOMIC, and the answer. -/
def State.atomicRun (s : State) (r : Requester) (a n align : Nat) (f : List Byte → List Byte)
    (answer : List Byte → Sent) : State :=
  match s.atomicAt r a n align f with
  | .wait => s
  | .refuse e c t => ((if c then t.bump F.orgAtomic_REFUSED (atomicDie a) 0 1 else t)).send (refusedTo r e)
  | .done old t => (t.bump F.orgAtomic_DONE (atomicDie a) 0 1).send (answer old)

/-- Whether LR and SC are supported at an address: by a hart through a cacheable mapping of the GDDR aperture, naturally
aligned (Table 12-3, R416). -/
def reservable (r : Requester) (a n : Nat) : Bool :=
  match r with
  | .hart _ _ io => !io && inGddr a && a % n == 0
  | _ => false

/-- LR (R416, R426): the value, and the hart's reservation of the 64-byte block at the home agent. -/
def State.loadReserved (s : State) (r : Requester) (h a n : Nat) : State :=
  if s.buffered r a n then s
  else match s.readAs r true true a n with
    | .wait => s
    | .refuse e t => t.send (refusedTo r e)
    | .done bs t =>
      let t := t.answerLoad h a false 4 bs
      if allReadable bs then { t with coh := { t.coh with resv := tset t.coh.resv h (a / 64 * 64) } } else t

/-- SC (R416, R426): with its reservation the store is performed and 0 returned, else 1; the reservation ends. -/
def State.storeConditional (s : State) (r : Requester) (h a n v : Nat) : State :=
  let drop := fun (t : State) => { t with coh := { t.coh with resv := terase t.coh.resv h } }
  if tfind s.coh.resv h != some (a / 64 * 64) then (drop s).send (gotBy r 1)
  else match s.atomicAt r a n n fun _ => leBytes n v with
    | .wait => s
    | .refuse e _ t => (drop t).send (refusedTo r e)
    | .done _ t => (drop t).send (gotBy r 0)

/-- ATOMIC (R331, R416): the operation is performed at the home agent and the old value returned; LR and SC for harts. Sizes
other than 4 and 8 are no atomic (Table 9-5). -/
def execAtomic (r : Requester) (addr size : Nat) (op : HomeOp) (v cmp : BitVec 64) (s : State) : Out :=
  let m := 2 ^ (8 * size)
  if size ≠ 4 ∧ size ≠ 8 then .next (s.send (refusedTo r St.accessFault))
  else
    match op with
    | .amo op =>
      .next (s.atomicRun r addr size size
        (fun old => leBytes size (atomicValue op size (leNat old) (v.toNat % m) (cmp.toNat % m)))
        fun old => gotBy r (BitVec.ofNat 64 (leNat old)))
    | .lr => .next (if reservable r addr size then s.loadReserved r ((hartOf r).getD 0) addr size else s.send (refusedTo r St.accessFault))
    | .sc =>
      .next (if reservable r addr size then s.storeConditional r ((hartOf r).getD 0) addr size (v.toNat % m)
        else s.send (refusedTo r St.accessFault))

/-- BLKADD (R331): a 528-byte block combined into memory, the block in memory being the first input. -/
def execBlkadd (r : Requester) (addr : Nat) (fmt : AccFmt) (data : List Byte) (s : State) : Out :=
  .next (s.atomicRun r addr 528 16 (fun old => blockCombine fmt old data) fun _ => .status St.success)

/-! ### GDDR7 upkeep (R342 to R345) -/

/-- GDDR_TRACKING_READ (R342): a temperature more than 20 °C from the last training, or a margin below the
threshold, requests retraining. -/
def execGddrTrackingRead (die : Nat) (temps margins : List Nat) (s : State) : Out :=
  if s.rd F.gdrStatus_STATE die 0 ≠ 3 then .next s
  else
    let far := temps.zipIdx.any fun (t, c) =>
      let z := tget s.org.trained (die, c) 0
      decide (z + 20 < t) || decide (t + 20 < z)
    let low := margins.any fun m => decide (m < s.rd F.gdrTrain_MARGIN die 0)
    .next (if far || low then s.wr F.gdrTrain_PENDING die 0 1 else s)

/-- A shared fault of a die's resource: the record, and event source 3 to every pavilion that uses it (R32). -/
def State.sharedFault (s : State) (r : FaultReport) (users : List Nat) : State :=
  users.foldl (fun s p => s.event p 3 r.die) (s.record r)

/-- Pavilions with a plot on a die. -/
def State.plotUsers (s : State) (die : Nat) : List Nat :=
  (List.range 64).filter fun p => (List.range 16).any fun i => s.rd F.gdrPlot_OWNER die i == p

/-- A window closed (R217): the checks of R214 are armed on the beds moved in it (R573). -/
def State.closeQuiet (s : State) (p : Nat) (q : Quiet) : State :=
  q.moved.foldl State.armBed (s.setPav p { s.pav p with quiet := none })

/-- An upkeep has finished: a window in which it was the last to finish closes. -/
def State.upkeepEnded (s : State) (u : Upkeep) : State :=
  (List.range 64).foldl (fun s p =>
    match (s.pav p).quiet with
    | some q =>
      if !q.granted.contains u then s
      else
        let g := q.granted.erase u
        if g.isEmpty then s.closeQuiet p q else s.setPav p { s.pav p with quiet := some { q with granted := g } }
    | none => s) s

/-- A die's GDDR7 made absent by a component (R341, R343): no byte is usable, so that every plot reads as without owner (R349). -/
def State.gddrAbsent (s : State) (die comp : Nat) : State :=
  let s := ((((s.wr F.gdrStatus_ABSENT die 0 1).wr F.gdrStatus_FAILED die 0 comp).wr F.gdrStatus_STATE die 0 0).wr
    F.gdrCap_USABLE die 0 0)
  (List.range 16).foldl (fun s i => (s.wr F.gdrPlot_OWNER die i 0xFF).wr F.gdrPlot_ZFILL die i 0) s

/-- Temperatures of the components of a die at a training; GDR_TRAIN.TEMP shows the highest (log entry 152). -/
def State.trainTemps (s : State) (die : Nat) (temps : List Nat) : State :=
  let s := s.wr F.gdrTrain_TEMP die 0 (temps.foldl max 0)
  { s with org := { s.org with trained := temps.zipIdx.foldl (fun t e => tset t (die, e.2) e.1) s.org.trained } }

/-- A retraining that succeeded (R342). -/
def State.retrained (s : State) (die : Nat) (temps : List Nat) : State :=
  ((s.wr F.gdrStatus_STATE die 0 3).bump F.gdrTrain_DONE die 0 1).trainTemps die temps

/-- The answer to a request in flight when its GDDR7 becomes absent (R343): a read receives unreadable data. -/
def State.absentAnswer (s : State) (r : MemReq) : State :=
  if r.write then s.respond r St.accessFault [] else s.respond r St.success (List.replicate r.len none)

/-- A retraining that failed (R343): the GDDR7 becomes absent, requests in flight at its controller and at the home agents are
answered, and its users see a shared fault. -/
def State.retrainFailed (s : State) (die comp : Nat) : State :=
  let mine := fun (r : MemReq) => inGddr r.pa && gddrDie r.pa == die
  let q := (s.org.gq ++ s.org.hq).flatMap fun e => e.2.filter mine
  let users := s.plotUsers die
  let keep := fun (t : Tab Nat (List MemReq)) => t.map fun e => (e.1, e.2.filter fun r => !mine r)
  let s := s.gddrAbsent die comp
  let s := { s with org := { s.org with gq := keep s.org.gq, hq := keep s.org.hq } }
  let s := q.foldl State.absentAnswer s
  let r := FaultReport.blank St.dataFault 1 0x0D die 0xFF
  (s.sharedFault r users).alarm die 0x02 r

/-- GDDR_RETRAIN_DONE (R342, R343). -/
def execGddrRetrainDone (die : Nat) (failed : Option Nat) (temps : List Nat) (s : State) : Out :=
  if s.rd F.gdrStatus_STATE die 0 ≠ 4 then .next s
  else
    let s := s.upkeepEnded (.gddr die)
    .next (match failed with
      | none => s.retrained die temps
      | some comp => s.retrainFailed die comp)

/-- Groups of a component (Table 9-7). -/
def State.gddrGroups (s : State) (die : Nat) : Nat := Sys2Proof.Machine.gddrGroups (s.flag F.gdrCfg_DENSITY die 0)

/-- The effect of a scrub on one line: corrected and written back, or found uncorrectable and stored as poison. -/
def State.scrubLine (s : State) (la : Nat) : State :=
  let (d, t) := s.gddrFetch la
  if d.bad.isEmpty then t else t.linePoison la d.bytes

/-- The scrub of a component past its group `k`; a pass ends with its last group. -/
def State.scrubNext (s : State) (die comp k : Nat) : State :=
  let last := k + 1 == s.gddrGroups die
  let s := { s with org := { s.org with scrub := tset s.org.scrub (die, comp) (if last then 0 else k + 1) } }
  if last then s.bump F.gdrScrub_PASSES die 0 1 else s

/-- SCRUB_GROUP (R344): the next group of a component, in ascending order, wrapping at the end. -/
def execScrubGroup (die comp : Nat) (s : State) : Out :=
  if s.rd F.gdrStatus_STATE die 0 ≠ 3 ∨ s.rd F.gdrScrub_INTERVAL die 0 = 0 ∨ 3 ≤ comp then .next s
  else
    let k := tget s.org.scrub (die, comp) 0
    let g := 3 * k + comp
    .next (((List.range 16).foldl (fun s i => s.scrubLine (die * 2 ^ 26 + 16 * g + i)) s).scrubNext die comp k)

/-! ### Plots (R349, R350) -/

/-- Whether a plot owner's pavilion, if it is one, is idle, fenced or unassigned. -/
def State.ownerQuiet (s : State) (o : Nat) : Bool := decide (64 ≤ o) || s.pavQuiet o

/-- Plots of an owner on all dies. -/
def State.plotsOf (s : State) (p : Nat) : List (Nat × Nat) :=
  ((List.range 8).flatMap fun d => (List.range 16).map fun i => (d, i)).filter fun e =>
    s.rd F.gdrPlot_OWNER e.1 e.2 == p

/-- What GDR_PLOT_WRITE does (R349, R350). A reserved owner leaves the field as it is (R7). -/
def gdrPlotWriteOp (a : Actor) (die plot : Nat) (v : BitVec 64) (s : State) : Out :=
  let o := natField v.toNat 7 0
  let old := s.rd F.gdrPlot_OWNER die plot
  if !machineActor a then .next s.refuse
  else if 64 ≤ o ∧ o < 0xFE then .next s
  else if s.rd F.gdrCap_USABLE die 0 ≤ plot * 2 ^ 30 then .next (if o = 0xFF then s else s.refuse)
  else
    let held := ((s.plotsOf o).filter fun e => e != (die, plot)).length + 1
    if !s.ownerQuiet old || !s.ownerQuiet o || s.flag F.gdrPlot_ZFILL die plot
        || (decide (o < 64) && decide (s.rd F.pavQuota_GDDR o 0 < held)) then .next s.refuse
    else if o = old then .next s
    else .next ((s.wr F.gdrPlot_OWNER die plot o).wr F.gdrPlot_ZFILL die plot 1)

/-- GDR_PLOT_WRITE (R349, R350). -/
def execGdrPlotWrite (a : Actor) (die plot : Nat) (v : BitVec 64) (s : State) : Out := gdrPlotWriteOp a die plot v s

/-- PLOT_ZERO_FILL_DONE (R350): the whole plot holds zeros and its new owner is admitted. -/
def execPlotZeroFillDone (die plot : Nat) (s : State) : Out :=
  if !s.flag F.gdrPlot_ZFILL die plot then .next s
  else
    let lo := die * 2 ^ 34 + plot * 2 ^ 30
    .next ((s.zeroRange lo (lo + 2 ^ 30)).wr F.gdrPlot_ZFILL die plot 0)

end Sys2Proof.Machine
end

