-- ==== Sys2Proof/Machine/Smmu.lean ====
section
/-! DEFINITION. The stream MMU (10.1 to 10.4): contexts, walks, translation caches and invalidations. -/

namespace Sys2Proof.Machine

/-! ### Contexts (R354, R355) -/

/-- Root-table address of a pavilion. -/
def State.ctxRoot (s : State) (p : Nat) : Nat := s.rd F.smmuCtxRoot_ROOT p 0 * 4096

/-- Address-space tag of a pavilion. -/
def State.ctxAst (s : State) (p : Nat) : Nat := s.rd F.smmuCtxTag_AST p 0

/-- Whether an address lies in a usable GDDR7 plot owned by the system. -/
def State.systemPlot (s : State) (a : Nat) : Bool :=
  inGddr a && s.plotOwner a == 0xFE && decide (a % 2 ^ 34 < s.rd F.gdrCap_USABLE (gddrDie a) 0)

/-- Every translation of a tag, or of every tag, removed from all caches. -/
def State.dropTag (s : State) (ast : Option Nat) : State :=
  let keep := fun (x : Nat) => ast.any (· != x)
  { s with smmu := { s.smmu with
    engTlb := s.smmu.engTlb.map fun e => (e.1, e.2.filter fun t => keep t.ast)
    fetTlb := s.smmu.fetTlb.map fun e => (e.1, e.2.filter fun t => keep t.ast)
    dieTlb := s.smmu.dieTlb.map fun e => (e.1, e.2.filter fun t => keep t.ast)
    walkC := s.smmu.walkC.map fun e => (e.1, e.2.filter fun t => keep t.ast) } }

/-- SMMU_CTX_COMMIT_GO (R355). -/
def execSmmuCtxCommitGo (a : Actor) (p : Nat) (s : State) : Out :=
  .next (if machineActor a then s.commitGo .smmuCtxCommit p else s.refuse)

/-- The pair check of a context. -/
def State.ctxOk (s : State) (p : Nat) : Bool :=
  s.rdShadow F.smmuCtxTag_V p 0 == 0
    || (s.systemPlot (s.rdShadow F.smmuCtxRoot_ROOT p 0 * 4096)
      && (List.range 64).all fun q => q == p || !s.flag F.smmuCtxTag_V q 0
        || s.ctxAst q != s.rdShadow F.smmuCtxTag_AST p 0)

/-- The context of a pavilion taken from its shadows. -/
def State.takeCtx (s : State) (p : Nat) : State :=
  ((s.commitField F.smmuCtxRoot_ROOT p 0 p 0).commitField F.smmuCtxTag_AST p 0 p 0).commitField F.smmuCtxTag_V p 0 p 0

/-- SMMU_CTX_COMMIT_APPLY (R355): while the pavilion is idle, fenced or unassigned. -/
def execSmmuCtxCommitApply (p : Nat) (s : State) : Out :=
  if !s.commitDue .smmuCtxCommit p || !s.pavQuiet p then .next s
  else if !s.ctxOk p then .next (s.commitEnd .smmuCtxCommit p 1)
  else
    let t := s.takeCtx p
    let t := if t.reg .smmuCtxRoot p 0 = s.reg .smmuCtxRoot p 0 ∧ t.reg .smmuCtxTag p 0 = s.reg .smmuCtxTag p 0 then t
      else t.dropTag (some (s.ctxAst p))
    .next (t.commitEnd .smmuCtxCommit p 0)

/-! ### Translation (R356 to R361) -/

/-- The outcome of a translation: the physical address with the attributes of its page and the state after, a fault
with its cause and level, or a wait for a line. -/
inductive Xlat where
  | ok (pa : Nat) (bias c : Bool) (s : State)
  | fault (cause level : Nat) (s : State)
  | wait

/-- Whether a TLB entry translates an address of a tag. -/
def TlbE.hits (e : TlbE) (ast va : Nat) : Bool := e.ast == ast && e.vbase == va / 2 ^ e.log2 * 2 ^ e.log2

/-- The permission that an access needs. -/
def TlbE.permits (e : TlbE) : PermNeed → Bool
  | .r => e.r
  | .w => e.w
  | .x => e.x

/-- Whether a frame lies in a tier that may be streamed, and in the tier named (Table 10-2, cause TIER). -/
def tierOk (tier : Option Nat) (a : Nat) : Bool :=
  match tier with
  | none => inGddr a || inScratch a
  | some 1 => inScratch a
  | some 2 => inGddr a
  | some _ => false

/-- The level of a page size. -/
def leafLevel (log2 : Nat) : Nat := if log2 = 30 then 1 else if log2 = 21 then 2 else 3

/-- The use of a translation: its causes TIER and PERM, else the address. -/
def State.useLeaf (s : State) (e : TlbE) (va : Nat) (need : PermNeed) (tier : Option Nat) : Xlat :=
  if !tierOk tier e.frame then .fault 6 (leafLevel e.log2) s
  else if !e.permits need then .fault 7 (leafLevel e.log2) s
  else .ok (e.frame + va % 2 ^ e.log2) e.bias e.c s

/-- An entry put first in a cache of a capacity; the oldest leaves. -/
def tlbPut {α : Type} (n : Nat) (x : α) (l : List α) : List α := (x :: l).take n

/-- Index of a level's table (R356). -/
def walkIndex (level va : Nat) : Nat := if level < 3 then va / 2 ^ (39 - 9 * level) % 512 else va / 2 ^ 16 % 32

/-- Bytes of virtual space that one entry of a level covers. -/
def levelSpan (level : Nat) : Nat := if level < 3 then 2 ^ (39 - 9 * level) else 2 ^ 16

/-- Whether a PTE is bad at a level (Table 10-2, cause BADPTE), apart from the alignment of a leaf's frame. -/
def badPte (e level : Nat) : Bool :=
  let leaf := e.testBit 1
  natField e 63 52 != 0 || e.testBit 7 || (!leaf && natField e 6 2 != 0) || (leaf && level == 0) || (!leaf && level == 3)

/-- The outcome of a walk: the leaf, or a fault with cause and level, or a wait; with the state after its reads. -/
inductive Walk where
  | leaf (e : TlbE) (s : State)
  | fault (cause level : Nat) (s : State)
  | wait

/-- A walk from a table at a level (R356 to R359); `fuel` levels remain. Pointers read on the way enter the walk cache
of die `d`. -/
def walkFrom (ast va d : Nat) : (fuel level table : Nat) → State → Walk
  | 0, level, _, s => .fault 5 level s
  | fuel + 1, level, t, s =>
    if !s.systemPlot t then .fault 3 level s
    else
      let a := t + 8 * walkIndex level va
      match s.pathRead (.part (hashDie a) 0xFE) (some 1) a 8 with
      | none => .wait
      | some (bs, s) =>
        if !allReadable bs then .fault 3 level s
        else
          let e := leNat (bs.map (·.getD 0))
          let addr := natField e 51 8 * 256
          if !e.testBit 0 then .fault 4 level s
          else if badPte e level then .fault 5 level s
          else if !e.testBit 1 then
            if level < 2 ∧ addr % 4096 ≠ 0 then .fault 5 level s
            else
              let w := ⟨ast, level + 1, va / levelSpan level * levelSpan level, addr⟩
              let s := { s with smmu := { s.smmu with
                walkC := tset s.smmu.walkC d (tlbPut 256 w (tget s.smmu.walkC d [])) } }
              walkFrom ast va d fuel (level + 1) addr s
          else
            let log2 := if level = 1 then 30 else if level = 2 then 21 else 16
            if addr % 2 ^ log2 ≠ 0 then .fault 5 level s
            else .leaf ⟨ast, va / 2 ^ log2 * 2 ^ log2, log2, addr, e.testBit 2, e.testBit 3, e.testBit 4, e.testBit 5,
              e.testBit 6⟩ s

/-- The deepest walk-cache entry of die `d` that covers an address. -/
def State.walkStart (s : State) (ast va d root : Nat) : Nat × Nat :=
  let es := (tget s.smmu.walkC d []).filter fun w => w.ast == ast && w.vbase == va / levelSpan (w.level - 1) * levelSpan (w.level - 1)
  match [3, 2, 1].findSome? fun l => es.find? fun w => w.level == l with
  | some w => (w.level, w.table)
  | none => (0, root)

/-- A walk started (R359, SMMU_STATS.WALKS). -/
def State.walk (s : State) (p va d : Nat) : Walk :=
  let (level, table) := s.walkStart (s.ctxAst p) va d (s.ctxRoot p)
  walkFrom (s.ctxAst p) va d (4 - level) level table (s.bump F.smmuStats_WALKS 0 0 1)

/-- The die and the first-level cache of a translating unit. -/
def xlatDie : XlatUnit → Nat
  | .engine e => e / 32
  | .fetch d => d

/-- The entries of a unit's own TLB. -/
def State.unitTlb (s : State) (p : Nat) : XlatUnit → List TlbE
  | .engine e => tget s.smmu.engTlb e []
  | .fetch d => tget s.smmu.fetTlb (p, d) []

/-- A leaf put into a unit's own TLB (Table 10-4). -/
def State.putUnitTlb (s : State) (p : Nat) (u : XlatUnit) (e : TlbE) : State :=
  match u with
  | .engine n => { s with smmu := { s.smmu with engTlb := tset s.smmu.engTlb n (tlbPut 32 e (tget s.smmu.engTlb n [])) } }
  | .fetch d => { s with smmu := { s.smmu with
      fetTlb := tset s.smmu.fetTlb (p, d) (tlbPut 16 e (tget s.smmu.fetTlb (p, d) [])) } }

/-- The set of a leaf in its partition of a die TLB: 64 sets of 8 ways (Table 10-4; log entry 39). -/
def TlbE.dieSet (e : TlbE) : Nat := e.vbase / 2 ^ e.log2 % 64

/-- A leaf put first in its set of a die TLB partition; the oldest of 8 leaves. -/
def dieTlbPut (e : TlbE) (l : List TlbE) : List TlbE :=
  tlbPut 8 e (l.filter fun x => x.dieSet == e.dieSet) ++ l.filter fun x => x.dieSet != e.dieSet

/-- A leaf put into the pavilion's partition of a die TLB, where the pavilion has a slice on the die (R361). -/
def State.putDieTlb (s : State) (p d : Nat) (e : TlbE) : State :=
  if d ∈ s.dies p then
    { s with smmu := { s.smmu with dieTlb := tset s.smmu.dieTlb (d, p) (dieTlbPut e (tget s.smmu.dieTlb (d, p) [])) } }
  else s

/-- The causes found before any lookup. -/
def State.xlatEarly (s : State) (p va : Nat) : Option Nat :=
  if !s.flag F.smmuCtxTag_V p 0 then some 1 else if 2 ^ 48 ≤ va then some 2 else none

/-- A translation of an address in the context of pavilion `p` for a unit: its own TLB, the die TLB, then a walk. -/
def State.xlat (s : State) (p va : Nat) (need : PermNeed) (tier : Option Nat) (u : XlatUnit) : Xlat :=
  match s.xlatEarly p va with
  | some c => .fault c 0 s
  | none =>
    let ast := s.ctxAst p
    let d := xlatDie u
    match (s.unitTlb p u).find? fun e => e.hits ast va with
    | some e => s.useLeaf e va need tier
    | none =>
      match (tget s.smmu.dieTlb (d, p) []).find? fun e => e.hits ast va with
      | some e => (s.putUnitTlb p u e).useLeaf e va need tier
      | none =>
        match s.walk p va d with
        | .wait => .wait
        | .fault c l s => .fault c l s
        | .leaf e s => ((s.putDieTlb p d e).putUnitTlb p u e).useLeaf e va need tier

/-- A translation fault recorded (Tables 10-14, 10-15). -/
def State.recordXlat (s : State) (p va : Nat) (u : XlatUnit) (cause level : Nat) : State :=
  if s.flag F.smmuFault_V p 0 then s.bump F.smmuFault_COUNT p 0 1
  else
    let s := (s.wr F.smmuFaultVa_VA p 0 va).wr F.smmuFault_V p 0 1
    let s := (s.wr F.smmuFault_CAUSE p 0 cause).wr F.smmuFault_LEVEL p 0 level
    match u with
    | .engine e => s.wr F.smmuFault_ENGINE p 0 e
    | .fetch _ => s.wr F.smmuFault_FETCH p 0 1

/-- TRANSLATION_WALK (R359): a walk on its own. It fills the caches, or answers its cause; a fault is recorded when
an access meets it. -/
def execTranslationWalk (p va : Nat) (need : PermNeed) (u : XlatUnit) (s : State) : Out :=
  match s.xlatEarly p va with
  | some c => .next (s.send (.value (BitVec.ofNat 64 c)))
  | none =>
    match s.walk p va (xlatDie u) with
    | .wait => .next s
    | .fault c _ t => .next (t.send (.value (BitVec.ofNat 64 c)))
    | .leaf e t =>
      match ((t.putDieTlb p (xlatDie u) e).putUnitTlb p u e).useLeaf e va need none with
      | .ok pa _ _ t => .next (t.send (.value (BitVec.ofNat 64 pa)))
      | .fault c _ t => .next (t.send (.value (BitVec.ofNat 64 c)))
      | .wait => .next s

/-! ### Invalidation (R362 to R366) -/

/-- Fields of an invalidation command (Table 10-11). -/
def invKind (w : BitVec 64) : Nat := natField w.toNat 63 62
/-- LOG2. -/
def invLog2 (w : BitVec 64) : Nat := natField w.toNat 61 56
/-- AST. -/
def invAst (w : BitVec 64) : Nat := natField w.toNat 55 40
/-- The base of the range. -/
def invBase (w : BitVec 64) : Nat := natField w.toNat 31 0 * 2 ^ 16

/-- Whether a command is a reserved encoding. -/
def invReserved (w : BitVec 64) : Bool :=
  match invKind w with
  | 0 => decide (invLog2 w < 16) || decide (48 < invLog2 w) || invBase w % 2 ^ invLog2 w != 0
  | 1 => invLog2 w != 0 || invBase w != 0
  | 2 => invLog2 w != 0 || invAst w != 0 || invBase w != 0
  | _ => true

/-- Places of the invalidation queue. -/
def invPlaces : Nat := 16

/-- A 32-bit field of a status register counted modulo 2^32. -/
def State.wrap32 (s : State) (f : Fld) (i j : Nat) : State := s.wr f i j ((s.rd f i j + 1) % 2 ^ 32)

/-- A command entered in the queue. -/
def State.invEnter (s : State) (w : BitVec 64) : State :=
  let c : InvCmd := ⟨invKind w, invAst w, invBase w, 2 ^ invLog2 w, false, false, []⟩
  { s with smmu := { s.smmu with invq := s.smmu.invq ++ [c] } }.wrap32 F.smmuInvStatus_ISSUED 0 0

/-- A command of the stream MMU's own, which is not counted and holds no place (R311, R365). -/
def State.invOwn (s : State) (kind ast base len : Nat) : State :=
  { s with smmu := { s.smmu with invq := s.smmu.invq ++ [⟨kind, ast, base, len, true, false, []⟩] } }

/-- A write of SMMU_INV: refused, counted as a reject, entered, or waiting for a place. -/
def State.invWrite (s : State) (a : Actor) (size : Nat) (w : BitVec 64) : State :=
  if !machineActor a || (size != 8 && size != 4) then s.refuse
  else if size = 4 ∨ invReserved w then s.bump F.smmuStats_REJECTS 0 0 1
  else if (s.smmu.invq.filter fun c => !c.own).length < invPlaces ∧ s.smmu.waiting = [] then s.invEnter w
  else { s with smmu := { s.smmu with waiting := s.smmu.waiting ++ [w] } }

/-- SMMU_INV_RANGE (R364): a write of SMMU_INV with KIND 0. -/
def execSmmuInvRange (a : Actor) (size : Nat) (v : BitVec 64) (s : State) : Out :=
  .next (s.invWrite a size (putBits v 63 62 0))

/-- SMMU_INV_TAG (R365): a write of SMMU_INV with KIND 1. -/
def execSmmuInvTag (a : Actor) (size : Nat) (v : BitVec 64) (s : State) : Out :=
  .next (s.invWrite a size (putBits v 63 62 1))

/-- SMMU_INV_ALL (R365): a write of SMMU_INV with KIND 2. -/
def execSmmuInvAll (a : Actor) (size : Nat) (v : BitVec 64) (s : State) : Out :=
  .next (s.invWrite a size (putBits v 63 62 2))

/-- Whether two ranges overlap. -/
def overlaps (a n b m : Nat) : Bool := decide (a < b + m) && decide (b < a + n)

/-- The removed pages of a range command: those of every entry of the tag that overlaps it. -/
def State.pagesOf (s : State) (ast base len : Nat) : List (Nat × Nat) :=
  let all := (s.smmu.engTlb.flatMap (·.2)) ++ (s.smmu.fetTlb.flatMap (·.2)) ++ (s.smmu.dieTlb.flatMap (·.2))
  (base, len) :: ((all.filter fun e => e.ast == ast && overlaps e.vbase (2 ^ e.log2) base len).map fun e => (e.vbase, 2 ^ e.log2))

/-- The outstanding requests of a tag's pavilions to pages. -/
def State.drainOf (s : State) (ast : Nat) (pages : List (Nat × Nat)) : List (Nat × Nat × Nat) :=
  s.str.runs.flatMap fun e =>
    if s.ctxAst e.2.op.pav != ast then [] else
    (e.2.reqs.filter fun q => !q.remote && pages.any fun (b, n) => overlaps q.va q.len b n).map fun q => (e.1.1, e.1.2, q.tag)

/-- Every entry of a tag whose page overlaps a range removed, and every walk-cache entry that covers part of it. -/
def State.dropRange (s : State) (ast base len : Nat) : State :=
  let keep := fun (t : TlbE) => !(t.ast == ast && overlaps t.vbase (2 ^ t.log2) base len)
  { s with smmu := { s.smmu with
    engTlb := s.smmu.engTlb.map fun e => (e.1, e.2.filter keep)
    fetTlb := s.smmu.fetTlb.map fun e => (e.1, e.2.filter keep)
    dieTlb := s.smmu.dieTlb.map fun e => (e.1, e.2.filter keep)
    walkC := s.smmu.walkC.map fun e => (e.1, e.2.filter fun w =>
      !(w.ast == ast && overlaps w.vbase (levelSpan (w.level - 1)) base len)) } }

/-- The head command completed: counted, and the next waiting write enters. -/
def State.invComplete (s : State) : State :=
  match s.smmu.invq with
  | [] => s
  | c :: q =>
    let s := { s with smmu := { s.smmu with invq := q } }
    if c.own then s
    else
      let s := s.wrap32 F.smmuInvStatus_COMPLETED 0 0
      match s.smmu.waiting with
      | [] => s
      | w :: ws => { s with smmu := { s.smmu with waiting := ws } }.invEnter w

/-- SMMU_INV_TAKE_EFFECT (R363): the oldest command takes effect everywhere; a tag-wide or all-tags command completes
with it. -/
def execSmmuInvTakeEffect (s : State) : Out :=
  match s.smmu.invq with
  | [] => .next s
  | c :: q =>
    if c.taken then .next s
    else if c.kind = 0 then
      let drain := s.drainOf c.ast (s.pagesOf c.ast c.base c.len)
      let t := s.dropRange c.ast c.base c.len
      .next { t with smmu := { t.smmu with invq := { c with taken := true, drain := drain } :: q } }
    else .next (s.dropTag (if c.kind = 1 then some c.ast else none)).invComplete

/-- SMMU_INV_COMPLETE (R366): the oldest command, in force and drained, completes. -/
def execSmmuInvComplete (s : State) : Out :=
  match s.smmu.invq with
  | [] => .next s
  | c :: _ => if c.taken && c.drain.isEmpty then .next s.invComplete else .next s

/-- A request of an engine has completed: no drain waits for it. -/
def State.drained (s : State) (eng ctx tag : Nat) : State :=
  { s with smmu := { s.smmu with invq := s.smmu.invq.map fun c =>
    { c with drain := c.drain.filter fun d => d != (eng, ctx, tag) } } }

end Sys2Proof.Machine
end

