-- ==== Sys2Proof/Machine/Waystation.lean ====
section
/-! DEFINITION. The Waystation (10.6 to 10.8): window entries, the checks of inbound requests, buckets, and the commits
of entries and outbound slots. -/

namespace Sys2Proof.Machine

/-! ### Ownership of windows (R371) -/

/-- Part of a range that lies in another, as its start and length. -/
def cut (a n lo len : Nat) : Nat × Nat := (max a lo, min (a + n) (lo + len) - max a lo)

/-- Whether a range lies wholly in memory that a pavilion owns: its own plots, admitted scratchpad, its beds' cell
stores. -/
def State.windowOwned (s : State) (p base size : Nat) : Bool :=
  decide (base + size ≤ cellBase + 512 * cellSize)
    && ((List.range 128).all fun k =>
      let (a, n) := cut base size (k * 2 ^ 30) (2 ^ 30)
      n == 0 || (s.rd F.gdrPlot_OWNER (k / 16) (k % 16) == p
        && decide (a % 2 ^ 34 + n ≤ s.rd F.gdrCap_USABLE (k / 16) 0)))
    && ((List.range 8).all fun d => (List.range 18).all fun w =>
      let lo := scratchBase + d * 2 ^ 32 + w * 0xF000000
      let (a, n) := cut base size lo (min 0xF000000 (2 ^ 32 - w * 0xF000000))
      n == 0 || (decide (w < 16) && s.admitScratch p a n == .ok))
    && (List.range 64).all fun b =>
      let (_, n) := cut base size (cellBase + b * 8 * cellSize) (8 * cellSize)
      n == 0 || s.owns p b

/-! ### Commit of entries (R377) -/

/-- The shadow words of an entry. -/
def State.wsShadow (s : State) (w : Nat) : BitVec 64 × BitVec 64 × BitVec 64 × BitVec 64 :=
  (s.shadow .wsEntry0 w 0, s.shadow .wsEntry1 w 0, s.shadow .wsEntry2 w 0, s.shadow .wsEntry3 w 0)

/-- The active words of an entry. -/
def State.wsActive (s : State) (w : Nat) : BitVec 64 × BitVec 64 × BitVec 64 × BitVec 64 :=
  (s.reg .wsEntry0 w 0, s.reg .wsEntry1 w 0, s.reg .wsEntry2 w 0, s.reg .wsEntry3 w 0)

/-- Entries whose shadow has been written and differs from the active values. -/
def State.wsChanged (s : State) : List Nat :=
  ((s.shadows.filter fun e => e.1.r == .wsEntry0 || e.1.r == .wsEntry1 || e.1.r == .wsEntry2 || e.1.r == .wsEntry3).map
    fun e => e.1.i).eraseDups.filter fun w => s.wsShadow w != s.wsActive w

/-- The checks of R369 and R371 on an entry's words. -/
def State.wsEntryOk (s : State) (e : BitVec 64 × BitVec 64 × BitVec 64 × BitVec 64) : Bool :=
  let (w0, w1, w2, w3) := e
  let base := natField w0.toNat 51 0
  let size := w1.toNat
  let srcdev := natField w2.toNat 15 0
  let srcpav := natField w2.toNat 23 16
  let pav := natField w2.toNat 31 24
  let perm := natField w2.toNat 39 32
  let rate := natField w2.toNat 63 48
  let bucket := natField w3.toNat 7 0
  base % 4096 == 0 && size % 4096 == 0 && decide (4096 ≤ size) && decide (size ≤ 2 ^ 40) && natField srcdev 14 9 == 0
    && (decide (srcpav < 64) || srcpav == 0xFF) && decide (pav < 64) && decide (perm < 16) && (rate == 0 || bucket != 0)
    && s.windowOwned pav base size

/-- Whether the entry's V is 1. -/
def wsValid (e : BitVec 64 × BitVec 64 × BitVec 64 × BitVec 64) : Bool := e.2.2.2.toNat.testBit 8

/-- The owning pavilion of an entry. -/
def wsPav (e : BitVec 64 × BitVec 64 × BitVec 64 × BitVec 64) : Nat := natField e.2.2.1.toNat 31 24

/-- Valid entries of a pavilion: the active words, with `ch` taken from the shadows. -/
def State.wsCount (s : State) (ch : List Nat) (p : Nat) : Nat :=
  let keys := ((s.regs.filter fun e => e.1.r == .wsEntry3).map fun e => e.1.i) ++ ch
  (keys.eraseDups.filter fun w =>
    let e := if ch.contains w then s.wsShadow w else s.wsActive w
    wsValid e && wsPav e == p).length

/-- Entry words made active, with a full bucket, and the counters cleared when PAV changes. -/
def State.wsInstall (s : State) (w : Nat) (e : BitVec 64 × BitVec 64 × BitVec 64 × BitVec 64) : State :=
  let moved := wsPav (s.wsActive w) != wsPav e
  let s := (((s.setReg .wsEntry0 w 0 e.1).setReg .wsEntry1 w 0 e.2.1).setReg .wsEntry2 w 0 e.2.2.1).setReg
    .wsEntry3 w 0 e.2.2.2
  let s := if moved then s.setReg .wsCnt w 0 0 else s
  { s with ws := { s.ws with bucket := tset s.ws.bucket w (natField e.2.2.2.toNat 7 0 * 65536 * 100, s.mtime) } }

/-- WS_COMMIT_GO (R377). -/
def execWsCommitGo (a : Actor) (s : State) : Out :=
  .next (if machineActor a then s.commitGo .wsCommit 0 else s.refuse)

/-- Whether every changed entry passes its checks and every pavilion stays within its windows (R369, R371, R377). -/
def State.wsCommitOk (s : State) : Bool :=
  (s.wsChanged.all fun w => !wsValid (s.wsShadow w) || s.wsEntryOk (s.wsShadow w))
    && (List.range 64).all fun p => decide (s.wsCount s.wsChanged p ≤ s.rd F.pavQuota_WINDOWS p 0)

/-- WS_COMMIT_APPLY (R377): all changed entries take effect in one event, or none. -/
def execWsCommitApply (s : State) : Out :=
  let ch := s.wsChanged
  if !s.commitDue .wsCommit 0 then .next s
  else if s.wsCommitOk then
    let t := ch.foldl (fun t w => t.wsInstall w (s.wsShadow w)) s
    .next (((s.ws.trellis.filter fun e => ch.contains e.1).foldl (fun t e => t.drift 8 e.2) t).commitEnd .wsCommit 0 0)
  else .next (s.commitEnd .wsCommit 0 1)

/-- WS_OUT_COMMIT_GO (R368). -/
def execWsOutCommitGo (a : Actor) (s : State) : Out :=
  .next (if machineActor a then s.commitGo .wsOutCommit 0 else s.refuse)

/-- The WS_OUT slots whose shadow has been written. -/
def State.wsOutSlots (s : State) : List Nat := (s.shadows.filter fun e => e.1.r == .wsOut).map fun e => e.1.i

/-- The SC fields of a WS_OUT slot taken from its shadow. -/
def State.takeWsOut (s : State) (n : Nat) : State :=
  [F.wsOut_DEV, F.wsOut_WINDOW, F.wsOut_SRCPAV, F.wsOut_WBASE].foldl (fun t f => t.commitField f n 0 n 0) s

/-- WS_OUT_COMMIT_APPLY (R368): the SC fields of every slot take effect. -/
def execWsOutCommitApply (s : State) : Out :=
  if !s.commitDue .wsOutCommit 0 then .next s
  else
    .next ((s.wsOutSlots.foldl State.takeWsOut s).commitEnd .wsOutCommit 0 0)

/-! ### Checks on an inbound request (R372 to R375) -/

/-- The kinds of inbound requests. -/
inductive InKind where
  | write | read | atomic | blkadd
  deriving DecidableEq, Repr

/-- An inbound request as the Gatehouse hands it over (10.7). -/
structure InReq where
  kind   : InKind
  port   : Nat
  dev    : Nat
  pav    : Nat
  key    : Nat
  window : Nat
  offset : Nat
  len    : Nat
  cinc   : Nat
  cstile : Nat
  deriving DecidableEq, Repr

/-- The outcome of the checks: admitted at an address for a pavilion, refused or to be retried with a REASON. -/
inductive WsOut where
  | pass (pav pa : Nat)
  | refuse (reason : Nat)
  | retry (reason : Nat)
  deriving DecidableEq, Repr

/-- The bytes, in hundredths, that an entry's bucket holds now. -/
def State.bucketNow (s : State) (w : Nat) : Nat :=
  let top := s.rd F.wsEntry3_BUCKET w 0 * 65536 * 100
  let (v, t) := tget s.ws.bucket w (top, s.mtime)
  min top (v + (s.mtime - t) * s.rd F.wsEntry2_RATE w 0 * 64)

/-- Bytes taken from a bucket. -/
def State.bucketTake (s : State) (w n : Nat) : State :=
  if s.rd F.wsEntry2_RATE w 0 = 0 then s
  else { s with ws := { s.ws with bucket := tset s.ws.bucket w (s.bucketNow w - n * 100, s.mtime) } }

/-- The poisoned or uncorrectable units that a range touches: words of the Orangery and of cell stores, lines of
GDDR7 or the words of their copy in a partition, each as address and size. -/
def State.badUnits (s : State) (p a n : Nat) : List (Nat × Nat) :=
  if inGddr a then
    (linePieces a n).flatMap fun (x, k) =>
      let la := x / 256
      match s.pathOf (.window p) x false true with
      | .part die owner =>
        match (s.partFind die owner la).bind fun w => s.pline die w (la % partSets) with
        | some l =>
          let bad := l.data.bad ++ (if l.dirty then (l.errs.filter fun e => e.2 != .single).map (·.1) else [])
          (bad.filter fun w => overlaps (la * 256 + 8 * w) 8 x k).map fun w => (la * 256 + 8 * w, 8)
        | none => if s.unreadable x then [(la * 256, 256)] else []
      | _ => if s.unreadable x then [(la * 256, 256)] else []
  else
    ((List.range ((a + n + 7) / 8 - a / 8)).map fun i => (a / 8 + i) * 8).filterMap fun w =>
      if s.unreadable w then some (w, 8) else none

/-- Whether a range is owned memory whose units the request may touch (Table 10-8, order 11); the REASON if not. -/
def State.wsTarget (s : State) (p a : Nat) (r : InReq) : Option Nat :=
  if !s.windowOwned p a r.len then some 0x08
  else
    let bad := s.badUnits p a r.len
    match r.kind with
    | .write => if bad.all fun (u, n) => decide (a ≤ u) && decide (u + n ≤ a + r.len) then none else some 0x09
    | _ => if bad.isEmpty then none else some 0x09

/-- The PERM bit that a kind needs. -/
def InKind.perm : InKind → Nat
  | .write => 0
  | .read => 1
  | _ => 2

/-- The checks of Table 10-8 in order. -/
def State.wsCheck (s : State) (r : InReq) : WsOut :=
  let w := r.window
  let p := s.rd F.wsEntry2_PAV w 0
  let srcdev := s.rd F.wsEntry2_SRCDEV w 0
  let srcpav := s.rd F.wsEntry2_SRCPAV w 0
  let key := s.rd F.wsEntry2_KEYID w 0
  let perm := s.rd F.wsEntry2_PERM w 0
  let a := s.rd F.wsEntry0_BASE w 0 + r.offset
  if 4096 ≤ w ∨ !s.flag F.wsEntry3_V w 0 then .refuse 0x01
  else if s.pavState p = 0 ∨ s.pavState p = 4 then .refuse 0x02
  else if !(srcdev.testBit 15 || srcdev % 512 == r.dev) then .refuse 0x03
  else if srcpav ≠ 0xFF ∧ srcpav ≠ r.pav then .refuse 0x04
  else if key ≠ 0 ∧ key ≠ r.key then .refuse 0x05
  else if !perm.testBit r.kind.perm || (r.cinc != 0 && !perm.testBit 3) then .refuse 0x06
  else if s.rd F.wsEntry1_SIZE w 0 < r.offset + r.len ∨ (r.kind = .blkadd ∧ 4096 < a % 4096 + r.len) then .refuse 0x07
  else if r.cinc ≠ 0 ∧ !s.ownsStile p r.cstile then .refuse 0x08
  else if s.pavState p = 3 then .retry 0x10
  else if s.rd F.wsEntry2_RATE w 0 ≠ 0 ∧ s.bucketNow w < r.len * 100 then .retry 0x11
  else
    match s.wsTarget p a r with
    | some e => .refuse e
    | none => .pass p a

/-- A refusal counted and recorded (R373), and counted at the port (LP_QUAR.REFUSED). -/
def State.wsRefuse (s : State) (r : InReq) (reason : Nat) : State :=
  let s := s.bump F.wsCnt_REFUSED (if r.window < 4096 then r.window else 0) 0 1
  let s := ((((s.wr F.wsLastref_REASON 0 0 reason).wr F.wsLastref_SRCPAV 0 0 r.pav).wr F.wsLastref_SRCDEV 0 0 r.dev).wr
    F.wsLastref_PORT 0 0 r.port).wr F.wsLastref_WINDOW 0 0 (r.window % 4096)
  s.bump F.lpQuar_REFUSED r.port 0 1

/-- A retry counted (R374). -/
def State.wsRetry (s : State) (w : Nat) : State := s.bump F.wsCnt_RETRY w 0 1

end Sys2Proof.Machine
end

