-- ==== Sys2Proof/Machine/Agree.lean ====
section
/-! DEFINITION. Sections in force, the agreement digest (R177) and the beacons of the ports (R178, R179). -/

namespace Sys2Proof.Machine

/-! ### Fields of a section header (Table 5-2) -/

/-- A little-endian field of a byte string. -/
def fieldAt (bs : List Byte) (off n : Nat) : Nat := leNat ((bs.drop off).take n)

/-- One byte as a number. -/
def byteAt (bs : List Byte) (off : Nat) : Nat := (bs.getD off 0).toNat

/-- TYPE. -/
def TSec.typ (t : TSec) : Nat := fieldAt t.hdr 0 2

/-- SFLAGS. -/
def TSec.flags (t : TSec) : Nat := fieldAt t.hdr 2 2

/-- TARGET. -/
def TSec.target (t : TSec) : Nat := fieldAt t.hdr 4 2

/-- Whether the section enters the agreement digest. -/
def TSec.agree (t : TSec) : Bool := t.flags.testBit 0

/-- The payload of the section of a type and target, if one is there. -/
def secPay (l : List TSec) (typ target : Nat) : Option (List Byte) :=
  (l.find? fun t => t.typ == typ && t.target == target).map (·.pay)

/-! ### The agreement digest (R177) -/

/-- A header with its CRC written as zero, and its TARGET where the section targets a pavilion. -/
def normHeader (h : List Byte) (pav : Bool) : List Byte :=
  h.take 4 ++ (if pav then [0, 0] else (h.drop 4).take 2) ++ (h.drop 6).take 6 ++ [0, 0, 0, 0] ++ h.drop 16

/-- A section in the normalised form for pavilion `p`; `none` where it does not enter. -/
def TSec.norm (t : TSec) (p : Nat) : Option (List Byte) :=
  if !t.agree then none
  else if t.typ = 2 ∨ t.typ = 3 ∨ t.typ = 6 then
    if t.target = p then some (normHeader t.hdr true ++ t.pay) else none
  else if t.typ = 4 then
    some (normHeader t.hdr false ++ t.pay.take 8 ++ (t.pay.drop 8).map fun b => if b.toNat = p then 0 else 0xFF)
  else if t.typ = 5 then
    some (normHeader t.hdr false ++ (List.range 16).flatMap fun w =>
      let o := byteAt t.pay (2 * w + 1)
      if o = p then [t.pay.getD (2 * w) 0, 0] else if o = 0xFE then [t.pay.getD (2 * w) 0, 0xFE] else [2, 0xFF])
  else if t.typ = 0xB then some (normHeader t.hdr false ++ t.pay)
  else none

/-- The agreement digest of a pavilion: 48 bytes over its group, its beds, the sections in normalised form and its program
digest. -/
def State.agreementDigest (s : State) (p : Nat) : List Byte :=
  Config.sha384 (leBytes 2 (s.groupOf p) ++ leBytes 8 ((s.beds p).map fun b => 2 ^ b).sum
    ++ (s.trl.force.filterMap fun t => t.norm p).flatten ++ (s.pav p).digest)

/-- The beacon digest: the first 8 bytes as a little-endian number. -/
def State.beaconDigest (s : State) (p : Nat) : Nat := leNat ((s.agreementDigest p).take 8)

/-! ### Ports and their BEACON entries -/

/-- Mode of a port: 0 off, 1 Ethernet, 2 scheduled. The management port, 16, always carries Ethernet. -/
def State.lpMode (s : State) (n : Nat) : Nat := if n = 16 then 1 else s.rd F.lpStatus_MODE n 0

/-- Modify a port. -/
def State.onPort (s : State) (n : Nat) (f : PortSt → PortSt) : State := s.setPort n (f (s.port n))

/-- A link frame put among those that wait. -/
def State.putLink (s : State) (n : Nat) (f : LFrame) : State := s.onPort n fun x => { x with linkq := x.linkq ++ [f] }

/-- Whether this device and the partner of a port both have their IDs (R38, R471). -/
def State.idsKnown (s : State) (n : Nat) : Bool := s.devId != 0xFFFF && (s.port n).partner.any fun p => p.dev != 0xFFFF

/-- A link frame that a session carries only once both IDs are assigned (R471): BEACON, DEGRADE and FAILOVER. -/
def State.putPeer (s : State) (n : Nat) (f : LFrame) : State := if s.idsKnown n then s.putLink n f else s

/-- The local pavilion of an agreement group. -/
def State.pavOfGroup (s : State) (g : Nat) : Option Nat :=
  if g = 0xFFFF then none else (List.range 64).find? fun p => s.groupOf p == g && s.pavState p != 0

/-- The beacon of BEACON entry `i` of a port put among its link frames: group, epoch and beacon digest. -/
def State.putBeacon (s : State) (n i : Nat) : State :=
  match (s.port n).beacons[i]? with
  | none => s
  | some g =>
    match s.pavOfGroup g with
    | none => s
    | some p =>
      if s.lpMode n ≠ 2 ∨ !s.lpOpen n then s
      else s.putPeer n ⟨0x21, false, beBytes 2 g ++ [0, 0] ++ beBytes 4 (s.rd F.trlPavEpoch_EPOCH p 0)
        ++ beBytes 8 (s.beaconDigest p)⟩

/-- Every beacon of a port. -/
def State.putBeacons (s : State) (n : Nat) : State := (List.range 8).foldl (fun s i => s.putBeacon n i) s

/-- A local commit, program registration or release of a pavilion: each port with its group sends the beacon, and its entry
goes to UNAGREED unless it is FENCED (Table 5-9). -/
def State.announce (s : State) (p : Nat) : State :=
  allPorts.foldl (fun s n =>
    match s.beaconIx n (s.groupOf p) with
    | none => s
    | some i => if s.rd F.trlAgree_STATE n i = 3 then s else (s.wr F.trlAgree_STATE n i 0).putBeacon n i) s

/-- The digests are to be computed again (R176). -/
def State.digestDue (s : State) : State := s.wr F.trlStatus_DIGEST_BUSY 0 0 1

end Sys2Proof.Machine
end

