-- ==== Sys2Proof/Machine/Descriptor.lean ====
section
/-! DEFINITION. Stream descriptors (08.2 to 08.5): their load checks, element order, and the form in which an
element is written when bytes of it cannot be read (R272 to R281, R300). -/

namespace Sys2Proof.Machine

/-- Count of a dimension. -/
def Desc.c (d : Desc) (k : Nat) : Nat := d.count.getD k 1

/-- Elements of one row, of a run, and its dense total in bytes. -/
def Desc.rowLen (d : Desc) : Nat := d.c 0 * d.c 1 * d.c 2 * d.c 3
/-- Elements of a run. -/
def Desc.elems (d : Desc) : Nat := d.rowLen * d.c 4
/-- Dense total in bytes. -/
def Desc.total (d : Desc) : Nat := d.esz * d.elems

/-- Whether a tier is far. -/
def isFar (t : Nat) : Bool := t == 1 || t == 2

/-- Whether the dense side is the source (second row of Table 8-3). -/
def Desc.denseSrc (d : Desc) : Bool := (d.src == 0 || d.src == 4) && isFar d.tgt

/-- Tier of the strided side and of the dense side; a caravan has none. -/
def Desc.stridedTier (d : Desc) : Nat := if d.denseSrc then d.tgt else d.src
/-- Tier of the dense side. -/
def Desc.denseTier (d : Desc) : Nat := if d.denseSrc then d.src else d.tgt

/-- Whether a format is an accumulator format, and which. -/
def Desc.acc (d : Desc) : Option AccFmt :=
  if d.fmt = 5 then some .a64l else if d.fmt = 6 then some .a64i else if d.fmt = 7 then some .a128 else none

/-- Indices of element `g` in generation order. -/
def Desc.ix (d : Desc) (g k : Nat) : Nat :=
  g / (List.range k).foldl (fun n j => n * d.c j) 1 % d.c k

/-- Strided address of element `g`, with `x4` in place of its index of dimension 4 (R277). -/
def Desc.addr (d : Desc) (base g x4 : Nat) : Nat :=
  let a := (base : Int) + ((List.range 4).foldl (fun n k => n + (d.ix g k : Int) * d.stride.getD k 0) 0)
    + (x4 : Int) * d.stride.getD 4 0
  (a % (2 ^ 64 : Int)).toNat

/-- Dense element number of element `g` (R277, R280). -/
def Desc.dense (d : Desc) (g : Nat) : Nat :=
  let i := d.ix g
  if d.tr then i 1 + d.c 1 * (i 0 + d.c 0 * (i 2 + d.c 2 * (i 3 + d.c 3 * i 4))) else g

/-- The smallest and largest sum of index times stride; `n4` indices in dimension 4. -/
def Desc.span (d : Desc) (n4 : Nat) : Int × Int :=
  (List.range 5).foldl (fun (lo, hi) k =>
    let e := ((if k = 4 then n4 else d.c k) - 1 : Int) * d.stride.getD k 0
    (lo + min 0 e, hi + max 0 e)) (0, 0)

/-- Indices that dimension 4 can take. -/
def Desc.n4 (d : Desc) : Nat := if d.gs = 0 then d.c 4 else d.ilimit

/-- Whether the strided side from an offset lies in a cell store. -/
def Desc.stridedFits (d : Desc) (base : Int) : Bool :=
  let (lo, hi) := d.span d.n4
  decide (0 ≤ base + lo) && decide (base + hi + d.esz ≤ cellSize)

/-! ### Load checks (Table 8-4) -/

/-- DETAIL 1: reserved bits and encodings. -/
def Desc.check1 (d : Desc) (dev : Nat) : Bool :=
  d.zero && decide (d.fmt ≤ 8) && decide (d.src ≤ 4) && decide (d.tgt ≤ 4) && d.gs != 3 && d.pol != 3
    && !(d.tgt == 3 && !d.car && (natField d.aux 63 61 != 0 || natField d.aux 60 52 == dev))

/-- The tier pairs with their GS values and CARAVAN (Table 8-3). -/
def Desc.pairOk (d : Desc) : Bool :=
  if d.car then (d.src ≤ 2 : Bool) && (d.tgt == 3 || d.tgt == 4) && d.gs == 0
  else if isFar d.src && (d.tgt == 0 || d.tgt == 4) then d.gs == 0 || d.gs == 1
  else if (d.src == 0 || d.src == 4) && isFar d.tgt then d.gs == 0 || d.gs == 2
  else if isFar d.src && isFar d.tgt then d.gs == 0
  else if d.src == 0 && d.tgt == 4 then d.gs == 0
  else decide (d.src ≤ 2) && d.tgt == 3 && d.gs == 0

/-- Whether AUX is used. -/
def Desc.auxUsed (d : Desc) : Bool := d.car || d.gs != 0 || d.tgt == 3 || (isFar d.src && isFar d.tgt)

/-- DETAIL 2: the pair, flags and unused fields; `onBed` whether the engine's owner owns its bed, `group` whether GROUP
is a multicast group of the bed. -/
def Desc.check2 (d : Desc) (onBed group : Bool) : Bool :=
  d.pairOk && (onBed || !(d.src == 0 || d.src == 4 || d.tgt == 0 || d.tgt == 4))
    && (!d.tr || d.src == 1 || d.tgt == 1)
    && (!d.move || (isFar d.src && isFar d.tgt)) && d.tagc == (d.tgt == 3)
    && (isFar d.stridedTier || d.base == 0) && (d.auxUsed || d.aux == 0) && (d.gs != 0 || d.ilimit == 0)
    && (d.car || d.denseTier != 4 || group)

/-- DETAIL 3: sizes and alignment. -/
def Desc.check3 (d : Desc) : Bool :=
  let size := if d.fmt = 0 ∨ d.fmt = 2 then some 1 else if d.fmt = 1 ∨ d.fmt = 3 then some 2 else if d.fmt = 4 then some 4
    else if d.fmt = 8 then none else some 8
  (size == none || size == some d.esz) && d.base % d.esz == 0 && d.aux % d.esz == 0
    && (d.stride.all fun t => t % d.esz == 0)
    && (d.gs == 0 || d.aux % 4 == 0)
    && (d.acc.isNone || (d.stride.getD 0 0 == 8 && d.c 0 % 66 == 0 && d.base % 16 == 0
      && ((List.range 4).all fun k => (d.c (k + 1) == 1 && (k != 3 || d.gs == 0)) || d.stride.getD (k + 1) 0 % 16 == 0)
      && (d.car || d.gs != 0 || d.aux % 16 == 0)))

/-- DETAIL 4: the burst. -/
def Desc.check4 (d : Desc) : Bool :=
  d.burst % d.esz == 0 && (d.car || d.denseTier != 4 || decide (d.burst ≤ 512))
    && (!(d.tgt == 3 || d.car) || decide (d.burst ≤ 4096)) && decide (d.burst ≤ 16384)

/-- DETAIL 5: extents in a cell store; `cells` whether the group of a tier-4 dense side includes one. -/
def Desc.check5 (d : Desc) (cells : Bool) : Bool :=
  (d.stridedTier != 0 || d.stridedFits (128 * d.line)) && (d.car || d.denseTier != 0 || decide (128 * d.line + d.total ≤ cellSize))
    && !(isFar d.src && d.tgt == 4 && !d.car && cells && decide (cellSize < 128 * d.line + d.total))

/-- The quota of a far tier in bytes. -/
def tierQuota (scratch gddr t : Nat) : Nat := if t = 1 then scratch * 2 ^ 26 else gddr * 2 ^ 30

/-- DETAIL 6: extents against the quotas. -/
def Desc.check6 (d : Desc) (scratch gddr : Nat) : Bool :=
  let (lo, hi) := d.span d.n4
  (!isFar d.stridedTier || decide ((hi - lo).toNat + d.esz ≤ tierQuota scratch gddr d.stridedTier))
    && (d.car || !isFar d.denseTier || decide (d.total ≤ tierQuota scratch gddr d.denseTier)) && decide (d.total ≤ 2 ^ 32)

/-- DETAIL 7: gather and scatter. -/
def Desc.check7 (d : Desc) : Bool := d.gs == 0 || (d.ilimit != 0 && !d.tr && !d.move)

/-- DETAIL 8: transpose. -/
def Desc.check8 (d : Desc) : Bool := !d.tr || (d.c 0 % 128 == 0 && d.c 1 % 128 == 0 && decide (d.esz ≤ 4))

/-- The first check of Table 8-4 that a descriptor for engine `e` of pavilion `p` fails, 0 if none. -/
def State.loadCheck (s : State) (p e : Nat) (d : Desc) : Nat :=
  let bed := e / 4
  let g := s.group bed d.group
  let cells := (g.getD []).any fun x => match x with
    | .cell _ => true
    | _ => false
  let sc := s.rd F.pavQuota_SCRATCH p 0
  let gd := s.rd F.pavQuota_GDDR p 0
  if !d.check1 s.devId then 1
  else if !d.check2 (s.owns p bed) g.isSome then 2
  else if !d.check3 then 3
  else if !d.check4 then 4
  else if !d.check5 cells then 5
  else if !d.check6 sc gd then 6
  else if !d.check7 then 7
  else if !d.check8 then 8
  else 0

/-! ### Elements as they are written (R300) -/

/-- NaR of a format (Table 8-3a) of `n` bytes. -/
def narBytes (fmt n : Nat) : List Byte :=
  match fmt with
  | 1 => leBytes 2 0x8000
  | 3 => leBytes 2 0x7E00
  | 4 => leBytes 4 0x7FC00000
  | _ => List.replicate n 0x80

/-- A block with unreadable words as the poison path writes it, and how many entries it makes NaR. -/
def badBlock (f : AccFmt) (bs : List (Option Byte)) : List Byte × Nat :=
  let n := accWidth f / 8
  let p := plain bs
  let bad := fun (o k : Nat) => ((bs.drop o).take k).any (·.isNone)
  if !(bs.any (·.isNone)) then (p, 0)
  else if bad 512 16 then
    let m := 2 ^ accEntries f - 1
    (p.take 512 ++ leBytes 8 m ++ (if bad 520 8 then List.replicate 8 0 else p.drop 520), accEntries f)
  else
    let l := (List.range (accEntries f)).filter fun i => bad (i * n) n
    let body := (List.range 512).map fun i => if l.contains (i / n) then 0 else p.getD i 0
    (body ++ leBytes 8 (l.foldl (fun m i => m ||| 2 ^ i) (fieldLe p 512 8)) ++ p.drop 520, l.length)

/-- Bytes of the stream buffer from a dense offset; a byte that cannot be read is `none`. -/
def RunSt.bytes (x : RunSt) (off n : Nat) : List (Option Byte) :=
  (List.range n).map fun i => match tfind x.buf (off + i) with
    | some (b, false) => some b
    | _ => none

/-- Whether every byte of a dense range has arrived. -/
def RunSt.present (x : RunSt) (off n : Nat) : Bool := (List.range n).all fun i => (tfind x.buf (off + i)).isSome

/-- Bytes put into the stream buffer. -/
def RunSt.put (x : RunSt) (off : Nat) (bs : List (Option Byte)) : RunSt :=
  { x with buf := bs.zipIdx.foldl (fun t (b, i) => tset t (off + i) (b.getD 0, b.isNone)) x.buf }

/-- The unit in which poison is judged: a block of an accumulator format, else an element. -/
def Desc.unit (d : Desc) : Nat := if d.acc.isSome then 528 else d.esz

/-- A whole unit as it is written, the combined one where there is one, and how many elements or entries of it are made NaR. -/
def RunSt.unitOut (x : RunSt) (d : Desc) (k : Nat) : List Byte × Nat :=
  let bs := x.bytes (k * d.unit) d.unit
  match d.acc with
  | some f => let (b, n) := badBlock f bs; ((tfind x.blocks k).getD b, n)
  | none => if allReadable bs then (plain bs, 0) else (narBytes d.fmt d.esz, 1)

/-- Bytes of a dense range as they are written. -/
def RunSt.outBytes (x : RunSt) (d : Desc) (off n : Nat) : List Byte :=
  let u := d.unit
  let us := (List.range ((off + n + u - 1) / u - off / u)).map fun i => (x.unitOut d (off / u + i)).1
  (us.flatten.drop (off - off / u * u)).take n

end Sys2Proof.Machine
end

