-- ==== Sys2Proof/Machine/Collective.lean ====
section
/-! DEFINITION. The data of collectives (14.9): the chunks that a participant sends and writes in each phase and step,
from its own contribution and what it has received (R502, R503). Phase 0 reduces, phase 1 gathers. -/

namespace Sys2Proof.Machine

/-- Bytes received by a participant in a phase and step. -/
def State.colIn (s : State) (t : PlanStop) (phase step : Nat) : List Byte :=
  tget s.str.colRx (t.pav, t.plan, t.eng, phase, step) []

/-- Received bytes appended. -/
def State.colPut (s : State) (t : PlanStop) (phase step : Nat) (bs : List Byte) : State :=
  { s with str := { s.str with
    colRx := tset s.str.colRx (t.pav, t.plan, t.eng, phase, step) (s.colIn t phase step ++ bs) } }

/-- Bytes of a chunk: the whole contribution for AGATH and on a tree, else its part of S. -/
def ColSt.chunk (c : ColSt) (d : Desc) : Nat := if c.kind = 10 ∨ c.stop.tree then d.total else d.total / c.stop.count

/-- `k` places back around the ring from a rank. -/
def back (n r k : Nat) : Nat := (r + n - k % n) % n

/-- Whole 528-byte blocks combined in order, or bytes as they are. -/
def foldBlocks (f : Option AccFmt) (parts : List (List Byte)) : List Byte :=
  match f, parts with
  | some f, p :: ps => ps.foldl (fun a b =>
      ((List.range (a.length / 528)).map fun i => blockCombine f (slice a (528 * i) 528) (slice b (528 * i) 528)).flatten) p
  | none, p :: _ => p
  | _, [] => []

/-- `n` bytes from an offset of received data, if they have come. -/
def inPart (bs : List Byte) (off n : Nat) : Option (List Byte) :=
  if off + n ≤ bs.length then some (slice bs off n) else none

/-- The participant's own bytes of its contribution, if they have been read. -/
def RunSt.own (x : RunSt) (d : Desc) (off n : Nat) : Option (List Byte) :=
  if x.present off n then some (x.outBytes d off n) else none

/-- All parts, if every one is there. -/
def allParts (l : List (Option (List Byte))) : Option (List (List Byte)) :=
  l.foldr (fun x acc => match x, acc with
    | some x, some a => some (x :: a)
    | _, _ => none) (some [])

/-- The combination of a tree's children and the own contribution, in that order (R503). -/
def State.treeSum (s : State) (x : RunSt) (c : ColSt) (d : Desc) (off n : Nat) : Option (List Byte) :=
  (allParts ((if c.stop.peer0.isSome then [inPart (s.colIn c.stop 0 0) off n] else [])
    ++ (if c.stop.peer1.isSome then [inPart (s.colIn c.stop 0 1) off n] else []) ++ [x.own d off n])).map (foldBlocks d.acc)

/-- The complete chunk of the participant's own rank on a ring. -/
def State.ringOwn (s : State) (x : RunSt) (c : ColSt) (d : Desc) (off n : Nat) : Option (List Byte) :=
  if c.kind = 10 then x.own d off n
  else
    (allParts [inPart (s.colIn c.stop 0 (c.stop.count - 1)) off n, x.own d (c.stop.rank * c.chunk d + off) n]).map
      (foldBlocks d.acc)

/-- The data that a participant sends in a phase and step, `n` bytes from an offset of the chunk. -/
def State.colOut (s : State) (x : RunSt) (c : ColSt) (d : Desc) (phase step off n : Nat) : Option (List Byte) :=
  let l := c.chunk d
  let t := c.stop
  if t.tree then
    if phase = 0 then s.treeSum x c d off n
    else if t.next.isNone then s.treeSum x c d off n else inPart (s.colIn t 1 0) off n
  else if phase = 0 then
    let own := x.own d (back t.count t.rank step * l + off) n
    if step = 1 then own else (allParts [inPart (s.colIn t 0 (step - 1)) off n, own]).map (foldBlocks d.acc)
  else if step = 1 then s.ringOwn x c d off n else inPart (s.colIn t 1 (step - 1)) off n

/-- The phases and steps in which a participant sends, in order, with the partner of each. -/
def ColSt.sends (c : ColSt) : List (Nat × Nat × Option (Nat × Nat)) :=
  let t := c.stop
  let ring := (List.range (t.count - 1)).map (· + 1)
  if t.tree then
    (if t.next.isSome then [(0, 0, t.next)] else []) ++ (if t.peer0.isSome then [(1, 0, t.peer0)] else [])
      ++ (if t.peer1.isSome then [(1, 1, t.peer1)] else [])
  else (if c.kind = 10 then [] else ring.map fun k => (0, k, t.next)) ++ (if c.kind = 9 then [] else ring.map fun k => (1, k, t.next))

/-- Bytes of a participant's result. -/
def ColSt.result (c : ColSt) (d : Desc) : Nat :=
  if c.stop.tree then d.total else if c.kind = 9 then c.chunk d else c.chunk d * c.stop.count

/-- The result bytes that follow position `wr` of the order in which they become complete: their offset from AUX and
the bytes, at most `n`. -/
def State.colResult (s : State) (x : RunSt) (c : ColSt) (d : Desc) (wr n : Nat) : Option (Nat × List Byte) :=
  let l := c.chunk d
  let t := c.stop
  if t.tree then
    ((if t.next.isNone then s.treeSum x c d wr n else inPart (s.colIn t 1 0) wr n)).map fun b => (wr, b)
  else
    let i := wr / l
    let off := wr % l
    let k := back t.count t.rank i
    ((if i = 0 then s.ringOwn x c d off n else inPart (s.colIn t 1 i) off n)).map fun b =>
      (if c.kind = 9 then off else k * l + off, b)

/-- The bytes of one finished collective taken out of what was received, so that the next one of the plan finds its own. -/
def State.colClear (s : State) (c : ColSt) (d : Desc) : State :=
  let t := c.stop
  let rx := s.str.colRx.map fun e =>
    if e.1.1 == t.pav && e.1.2.1 == t.plan && e.1.2.2.1 == t.eng then (e.1, e.2.drop (c.chunk d)) else e
  { s with str := { s.str with colRx := rx.filter fun e => !e.2.isEmpty } }

end Sys2Proof.Machine
end

