-- ==== Sys2Proof/Machine/Streams.lean ====
section
/-! DEFINITION. Stream engines (08): DLD, RUN, SEND, the requests of a run and their answers, bursts, caravans, the end
of a run, and what a fault or a fence does to it. -/

namespace Sys2Proof.Machine

/-! ### Contexts and runs -/

/-- A run stored. -/
def State.setRun (s : State) (e c : Nat) (x : RunSt) : State :=
  { s with str := { s.str with runs := tset s.str.runs (e, c) x } }

/-- The tag of a context's reads at the banks of its bed. -/
def engTag (e c : Nat) : Nat := 8 + e % 4 * 16 + c

/-- `n` bytes of cell `k` of an engine's bed read through the bed-bus port; `none` while lines are still to come (R72, R73). -/
def State.engRead (s : State) (e c k off n : Nat) : Option (List (Option Byte)) × State :=
  bankRead s (e / 4 * 8 + k) 3 (engTag e c) off n

/-- The reads of a context at the banks given up. -/
def State.dropReads (s : State) (e c : Nat) : State :=
  let t := engTag e c
  { s with arr := { s.arr with
    cells := s.arr.cells.map fun x => if x.1 / 8 == e / 4 then (x.1, x.2.keepLines t []) else x
    banks := s.arr.banks.map fun x => if x.1.1 / 8 == e / 4 then (x.1, x.2.filter fun r => r.write.isSome || r.tag != t) else x } }

/-- A run removed. -/
def State.endRun (s : State) (e c : Nat) : State :=
  { s with str := { s.str with runs := terase s.str.runs (e, c) } }.dropReads e c

/-- Whether the abort path applies to a data fault of a run (R299). -/
def aborts (d : Desc) (o : UnitOp) : Bool := if d.pol = 0 then !o.poison else d.pol == 1

/-- Units of buffer that a run reserves (R271). -/
def Desc.reserve (d : Desc) : Nat := 4 * d.burst

/-- Bytes of the stream buffer in use by the runs of an engine. -/
def State.bufUsed (s : State) (e : Nat) : Nat :=
  ((s.str.runs.filter fun r => r.1.1 == e && !r.2.dead).map fun r => (s.desc e r.1.2).reserve).sum

/-- Local tags of a pavilion in use at a die (R283). -/
def State.tagsUsed (s : State) (p die : Nat) : Nat :=
  ((s.str.runs.filter fun r => r.2.op.pav == p).map fun r =>
    (r.2.reqs.filter fun q => !q.remote && q.die == die).length).sum

/-- Tags of an engine in use, local or remote. -/
def State.engTags (s : State) (e : Nat) (remote : Bool) : List Nat :=
  (s.str.runs.filter fun r => r.1.1 == e).flatMap fun r => (r.2.reqs.filter fun q => q.remote == remote).map (·.tag)

/-- A free remote tag, 0 to 63 (R284). -/
def State.freeRemote (s : State) (e : Nat) : Option Nat := (List.range 64).find? fun t => !(s.engTags e true).contains t

/-- A number for a local tag of an engine, above the remote ones. -/
def State.freeLocal (s : State) (e : Nat) : Nat :=
  let used := s.engTags e false
  ((List.range (used.length + 1)).map (· + 64)).find? (fun t => !used.contains t) |>.getD 64

/-- A fault of a context on the abort path (R299): FAULTED with its status, the address kept, the pavilion fenced. -/
def State.ctxFault (s : State) (e c p code va : Nat) : State :=
  let s := ((s.wr F.seCtxStatus_STATE e c 5).wr F.seCtxStatus_CODE e c code).wr F.seFaultVa_VA e 0 va
  let r := s.bedReport code 0x09 (e / 4)
  let r := { r with pav := p, info := va }
  (s.alarm (e / 32) 0x07 r).faultPav p r

/-- The end of a run on the abort path. The run stays until its tags are released. -/
def State.runFault (s : State) (e c code va : Nat) : State :=
  match tfind s.str.runs (e, c) with
  | none => s
  | some x => (if x.reqs.isEmpty then s.endRun e c else s.setRun e c { x with dead := true }).ctxFault e c x.op.pav code va

/-- A fault of a stream operation before its run begins: the operation leaves its queue and the pavilion is fenced. -/
def State.engFault (s : State) (o : UnitOp) (e code : Nat) : State := (s.dequeue (.eng e)).opFault o.pav code 0x09 (e / 4)

/-- The end of an engine's slot operation: it leaves the queue and is counted. -/
def State.engDone (s : State) (e : Nat) : State := (s.dequeue (.eng e)).progress (e / 4)

/-! ### DLD (R252, R276) -/

/-- A descriptor's bytes stored in a context; missing ones are 0. -/
def State.storeDesc (s : State) (e c : Nat) (b : List Byte) : State :=
  (List.range 8).foldl (fun s i => s.setReg .seCtxDesc e (c * 8 + i) (BitVec.ofNat 64 (fieldLe b (8 * i) 8))) s

/-- The state, code and detail of a context. -/
def State.markCtx (s : State) (e c st code detail : Nat) : State :=
  ((s.wr F.seCtxStatus_STATE e c st).wr F.seCtxStatus_CODE e c code).wr F.seCtxStatus_DETAIL e c detail

/-- Whether a DLD or RUN of an engine may act on a context: it heads the queue, and the context is not in use. -/
def State.ctxFree (s : State) (e c : Nat) : Bool := (tfind s.str.runs (e, c)).isNone && s.rd F.seCtxStatus_STATE e c != 2

/-- The bytes of the descriptor that a DLD names, read from its cell store. -/
def State.descBytes (s : State) (o : UnitOp) : Option (List (Option Byte)) × State :=
  s.engRead (opField o 47 40) (opField o 39 36) (opField o 35 33) (128 * opField o 32 18 + 64 * opField o 17 17) 64

/-- DLD: the descriptor is read, checked and stored, or the context is left INVALID. -/
def execDld (o : UnitOp) (s : State) : Out :=
  let e := opField o 47 40
  let c := opField o 39 36
  if !s.ready (.eng e) 1 o || !s.ctxFree e c || s.rd F.seCtxStatus_STATE e c == 3 then .next s
  else
    match s.descBytes o with
    | (none, t) => .next t
    | (some bs, t) =>
      if !allReadable bs then .next (((t.storeDesc e c []).markCtx e c 0 St.dataFault 0).engFault o e St.dataFault)
      else
        let detail := s.loadCheck o.pav e (descOf (plain bs))
        if detail = 0 then .next (((t.storeDesc e c (plain bs)).markCtx e c 1 St.success 0).engDone e)
        else .next (((t.storeDesc e c []).markCtx e c 0 St.descRejected detail).engDone e)

/-- The result of a read or write by virtual address: bytes with the state after it, a wait, or a fault with its address. -/
inductive VRes where
  | ok (bs : List (Option Byte)) (s : State)
  | wait
  | fault (code va : Nat) (s : State)

/-- A range read by virtual address, line by line, in the order of addresses, by a unit whose requests reach memory as
requester `r`. A line whose address and path `hold` names waits. -/
def State.virtRead (s : State) (u : XlatUnit) (r : Requester) (p va n : Nat) (need : PermNeed) (tier : Option Nat)
    (hold : State → Nat → MPath → Bool) : VRes :=
  (linePieces va n).foldl (fun acc (a, k) =>
    match acc with
    | .ok bs s =>
      match s.xlat p a need tier u with
      | .wait => .wait
      | .fault cause level s => .fault St.xlatFault a (s.recordXlat p a u cause level)
      | .ok pa bias cc s =>
        if hold s pa (s.pathOf r pa bias cc) then .wait
        else
          match s.readAs r bias cc pa k with
          | .done b s => .ok (bs ++ b) s
          | .wait => .wait
          | .refuse code s => .fault code a s
    | x => x) (.ok [] s)

/-- The share of a network class on a die: 0 READ, 1 WRITE, 2 REMOTE. -/
def State.share (s : State) (die cls : Nat) : Nat :=
  match cls with
  | 0 => s.rd F.snSplit_READ die 0
  | 1 => s.rd F.snSplit_WRITE die 0
  | _ => s.rd F.snSplit_REMOTE die 0

/-- Whether the classes that a transfer between an engine's die and a memory die uses have slots. -/
def State.netOpen (s : State) (ed die : Nat) (write : Bool) : Bool :=
  if ed = die then s.share ed (boolNat write) != 0 else s.share ed 2 != 0 && s.share die 2 != 0

/-- Whether an engine's access waits for the network, for a QUIET window that closes its GDDR7 (R215), or for a local tag. -/
def State.engHold (e p : Nat) (write : Bool) (s : State) (pa : Nat) (path : MPath) : Bool :=
  (inGddr pa && s.closedTo p (.gddr (gddrDie pa))) || !s.netOpen (e / 32) (pathDie path) write

/-- A range read by virtual address for an engine. The request takes its local tag for the event in which it is performed (R283,
log entry 21). -/
def State.readVirt (s : State) (e p va n : Nat) (tier : Option Nat) : VRes :=
  s.virtRead (.engine e) (.engine e p) p va n .r tier fun s pa path =>
    State.engHold e p false s pa path || decide (s.rd F.pavQuota_TAGS p 0 ≤ s.tagsUsed p (pathDie path))

/-- The leaf page of an address: its base and size, or a wait or a fault. -/
def State.leafAt (s : State) (p va e : Nat) : Walk :=
  match s.xlatEarly p va with
  | some c => .fault c 0 s
  | none => s.walk p va (e / 32)

/-- What keeps a run from beginning: nothing with the state and its stops, a wait, a fault of the operation with its status, or a
fault that its context keeps with an address (R299). -/
inductive Begin where
  | go (stops : List CarStop) (s : State)
  | wait
  | fault (code : Nat) (s : State)
  | abort (code va : Nat) (s : State)

/-- A translation fault met at an address as a run begins. -/
def State.beginXlat (s : State) (e p va cause level : Nat) : Begin :=
  .abort St.xlatFault va (s.recordXlat p va (.engine e) cause level)

/-- Whether two ranges have leaf pages of equal size and alignment at every position (R310); an unmapped page is a translation
fault (Table 8-9). -/
def State.pagesAgree (e p : Nat) : (fuel a b n : Nat) → State → Begin
  | 0, _, _, _, s => .go [] s
  | fuel + 1, a, b, n, s =>
    if n = 0 then .go [] s
    else
      match s.leafAt p a e with
      | .wait => .wait
      | .fault c l s => s.beginXlat e p a c l
      | .leaf x s =>
        match s.leafAt p b e with
        | .wait => .wait
        | .fault c l s => s.beginXlat e p b c l
        | .leaf y s =>
          if x.log2 ≠ y.log2 ∨ a % 2 ^ x.log2 ≠ b % 2 ^ y.log2 then .fault St.invalidOp s
          else
            let k := min n (2 ^ x.log2 - a % 2 ^ x.log2)
            pagesAgree e p fuel (a + k) (b + k) (n - k) s

/-- The lowest strided address of a run. -/
def Desc.lowest (d : Desc) (base : Nat) : Nat := (((base : Int) + (d.span d.n4).1) % (2 ^ 64 : Int)).toNat

/-- The conditions of R310 that need no translation. -/
def Desc.moveOk (d : Desc) (base : Nat) : Bool :=
  let (lo, hi) := d.span d.n4
  base % 65536 == 0 && d.aux % 65536 == 0 && (hi - lo).toNat + d.esz == d.total && d.total % 65536 == 0 && !d.tr
    && !overlaps (d.lowest base) d.total d.aux d.total

/-- The stops of a route from its bytes (Table 8-7), with whether every reserved field is zero. -/
def routeStops (b : List Byte) : List (CarStop × Bool) :=
  (List.range (fieldLe b 0 1)).map fun i =>
    let f := fun o n => fieldLe b (32 + 32 * i + o) n
    let kind := f 0 1
    let near := f 12 4
    (⟨kind == 2, f 2 2, f 4 4, f 8 4, near, f 16 2, f 24 8⟩,
      (kind == 1 || kind == 2) && f 1 1 == 0 && f 18 6 == 0
        && (if kind = 1 then decide (f 2 2 < 256) && f 16 2 == 0 && f 24 8 == 0 && natField near 31 25 == 0
          else decide (f 2 2 < 512) && near == 0 && decide (f 16 2 < 4096) && decide (f 24 8 < 2 ^ 40)))

/-- Whether a route passes the checks of R294. -/
def State.routeOk (s : State) (p : Nat) (d : Desc) (b : List Byte) : Bool :=
  let n := fieldLe b 0 1
  let l := routeStops b
  let stops := l.map (·.1)
  decide (1 ≤ n) && decide (n ≤ 15) && ((b.drop 1).take 31).all (· == 0) && l.all (·.2)
    && (stops.all fun t =>
      (t.remote || (s.ownsEngine p t.target && s.owns p (t.target / 4)
        && (!t.near.testBit 24 || (s.group (t.target / 4) (natField t.near 21 18)).isSome)))
      && (!t.remote || t.target != s.devId)
      && (t.off % d.burst == 0 || t.off == d.total)
      && ((t.off + t.len) % d.burst == 0 || t.off + t.len == d.total) && decide (t.off + t.len ≤ d.total))
    && ((stops.dropWhile fun t => !t.remote).all (·.remote))
    && ((stops.any (·.remote)) == (d.tgt == 3))

/-- The checks made as a run begins: cell-store bounds, COMB, MOVE and route. An unreadable or untranslatable route is a fault of
the context (Table 8-9). -/
def State.beginChecks (s : State) (e : Nat) (o : UnitOp) (d : Desc) (base : Nat) (comb : Bool) : Begin :=
  if d.stridedTier = 0 ∧ !d.stridedFits (toSigned 64 base) then .fault St.invalidOp s
  else if comb ∧ (d.acc.isNone ∨ !(d.tgt == 0 || d.tgt == 1)) then .fault St.invalidOp s
  else if d.move then
    if !d.moveOk base then .fault St.invalidOp s
    else State.pagesAgree e o.pav (2 * (d.total / 65536) + 2) (d.lowest base) d.aux d.total s
  else if d.car then
    if d.aux % 32 ≠ 0 then .fault St.invalidOp s
    else
      match s.readVirt e o.pav d.aux 32 none with
      | .wait => .wait
      | .fault code va s => .abort code va s
      | .ok hd s =>
        if !allReadable hd then .abort St.dataFault d.aux s
        else
          match s.readVirt e o.pav d.aux (32 + 32 * min 15 (fieldLe (plain hd) 0 1)) none with
          | .wait => .wait
          | .fault code va s => .abort code va s
          | .ok bs s =>
            if !allReadable bs then .abort St.dataFault (d.aux + (bs.takeWhile (·.isSome)).length) s
            else if s.routeOk o.pav d (plain bs) then .go ((routeStops (plain bs)).map (·.1)) s
            else .fault St.invalidOp s
  else .go [] s

/-- The strided base of a run: BASE, or 128 × LINE in a cell store, advanced modulo 2^64 (R253, R277). -/
def Desc.start (d : Desc) (adv : Int) : Nat :=
  let b := if d.stridedTier = 0 then 128 * d.line else d.base
  (((b : Int) + adv) % (2 ^ 64 : Int)).toNat

/-- A run put in progress: the context RUNNING, its counts cleared. -/
def State.beginRun (s : State) (e c opc : Nat) (o : UnitOp) (base : Nat) (comb : Bool) (stops : List CarStop)
    (col : Option ColSt) : State :=
  let d := s.desc e c
  let track := if col.isNone then d.busTrack.map fun t => (e / 4, t) else none
  let x : RunSt := ⟨opc, o, base, comb, track, 0, 0, 0, 0, [], [], [], [], stops, [], col, false, false⟩
  (((s.wr F.seCtxStatus_STATE e c 2).wr F.seCtxStatus_BURSTS e c 0).wr F.seCtxStatus_CODE e c 0).setRun e c x

/-- RUN (R253). -/
def execRun (o : UnitOp) (s : State) : Out :=
  let e := opField o 47 40
  let c := opField o 39 36
  let st := s.rd F.seCtxStatus_STATE e c
  let d := s.desc e c
  if !s.ready (.eng e) 2 o || !s.ctxFree e c then .next s
  else if st ≠ 1 ∧ st ≠ 4 then .next (s.engFault o e St.invalidOp)
  else if d.src = 3 ∨ d.tgt = 3 then .next (s.engFault o e St.invalidOp)
  else if 65536 < s.bufUsed e + d.reserve then .next s
  else
    let base := d.start (toSigned 32 (opField o 31 0) * o.index)
    match s.beginChecks e o d base (opBit o 0) with
    | .wait => .next s
    | .fault code s => .next (s.engFault o e code)
    | .abort code va s => .next ((s.dequeue (.eng e)).ctxFault e c o.pav code va)
    | .go stops s => .next ((s.beginRun e c 2 o base (opBit o 0) stops none).engDone e)

/-- SEND (R264): runs a context whose target is tier 3; a partner that only ports of other pavilions reach is an access fault
(R222). -/
def execXchSend (o : UnitOp) (s : State) : Out :=
  let e := opField o 47 40
  let c := opField o 39 36
  let st := s.rd F.seCtxStatus_STATE e c
  let d := s.desc e c
  if s.pavState o.pav ≠ 2 ∨ !s.xchReady (e / 32) 7 o || !s.ctxFree e c || s.bedsClosed o then .next s
  else if (st ≠ 1 ∧ st ≠ 4) ∨ d.tgt ≠ 3 then .next ((s.xchTake 7 o).opFault o.pav St.invalidOp 0x09 (e / 4))
  else if !d.car && s.portForeign o.pav (natField d.aux 60 52) then .next ((s.xchTake 7 o).opFault o.pav St.accessFault 0x09 (e / 4))
  else if 65536 < s.bufUsed e + d.reserve then .next s
  else
    let base := d.start (toSigned 12 (opField o 11 0) * 4096 * o.index)
    match s.beginChecks e o d base false with
    | .wait => .next s
    | .fault code s => .next ((s.xchTake 7 o).opFault o.pav code 0x09 (e / 4))
    | .abort code va s => .next ((s.xchTake 7 o).ctxFault e c o.pav code va)
    | .go stops s => .next ((s.beginRun e c 7 o base false stops none).xchTake 7 o)

/-! ### Issue of requests (R278 to R287) -/

/-- The outcome of an attempt to issue: a request or a delivery made, a wait, lines asked for at the banks, or a fault. -/
inductive Issue where
  | ok (s : State)
  | wait
  | ask (s : State)
  | fault (code va : Nat) (s : State)

/-- The SCOPE bit under which a run's operation counts. -/
def runScope (opc : Nat) : Nat := if opc = 2 then 0x100 else 0x800

/-- A local request issued: translated, with a tag of the pool of its die, and put at its home agent or controller. -/
def State.localReq (s : State) (e c : Nat) (x : RunSt) (q : SReq) (tier : Nat) (data : List Byte)
    (upd : RunSt → RunSt) : Issue :=
  let p := x.op.pav
  match s.xlat p q.va (if q.write then .w else .r) (some tier) (.engine e) with
  | .wait => .wait
  | .fault cause level s => .fault St.xlatFault q.va (s.recordXlat p q.va (.engine e) cause level)
  | .ok pa bias cc s =>
    let path := s.pathOf (.engine e p) pa bias cc
    let die := pathDie path
    if State.engHold e p q.write s pa path
        || (q.write && s.ordHeld e (runScope x.opc) (x.wtier (s.desc e c)) x.op) then .wait
    else if s.rd F.pavQuota_TAGS p 0 ≤ s.tagsUsed p die then .ok (s.bump F.seStall_TAG_WAIT e 0 1)
    else
      let q := { q with tag := s.freeLocal e, die := die, pa := pa }
      let r : MemReq := ⟨p, e, c, q.tag, path, q.write, pa, q.len, data⟩
      let s := match path with
        | .direct d => { s with org := { s.org with gq := tset s.org.gq d (tget s.org.gq d [] ++ [r]) } }
        | _ => { s with org := { s.org with hq := tset s.org.hq die (tget s.org.hq die [] ++ [r]) } }
      .ok ((s.carry .memory (e / 32) die (leBytes 1 q.tag ++ leBytes 8 pa ++ data)).setRun e c (upd { x with reqs := x.reqs ++ [q] }))

/-- A row of the index list as it is first needed (R281). -/
def State.rowOf (s : State) (e : Nat) (x : RunSt) (d : Desc) (i4 : Nat) : (RowSel × RunSt × State) ⊕ Issue :=
  if d.gs = 0 then .inl (.row i4, x, s)
  else
    match tfind x.rows i4 with
    | some r => .inl (r, x, s)
    | none =>
      let va := d.aux + 4 * i4
      match s.readVirt e x.op.pav va 4 none with
      | .wait => .inr .wait
      | .fault code a s => .inr (.fault code a s)
      | .ok bs s =>
        let v := leNat (plain bs)
        let r : RowSel := if !allReadable bs then .bad else if v = 0xFFFFFFFF then .skip
          else if d.ilimit ≤ v then .bad else .row v
        .inl (r, { x with rows := tset x.rows i4 r }, s)

/-- How many elements from `g` on form one local request (R278), given that `n` do, from address `a`: contiguous strided bytes in
one 256-byte line, over rows as well. -/
def State.group_ (e : Nat) (d : Desc) (a g : Nat) : (fuel n : Nat) → RunSt → State → Nat × RunSt × State
  | 0, n, x, s => (n, x, s)
  | fuel + 1, n, x, s =>
    if d.elems ≤ g + n || (a + n * d.esz) / 256 != a / 256 then (n, x, s)
    else
      match s.rowOf e x d ((g + n) / d.rowLen) with
      | .inl (.row x4, x, s) => if d.addr x.base (g + n) x4 = a + n * d.esz then group_ e d a g fuel (n + 1) x s else (n, x, s)
      | .inl (_, x, s) => (n, x, s)
      | .inr _ => (n, x, s)

/-- The dense end to which a run may read ahead of the bursts it has delivered (R271). -/
def RunSt.limit (x : RunSt) (d : Desc) : Nat :=
  if d.tr || x.col.isSome then d.total else (x.sent + 4 * d.burst + d.unit - 1) / d.unit * d.unit

/-- How many of `n` elements that form a request a read may take now (R271, R278): all within the reserved buffer, none while a
complete burst is about to leave it, else those that have room. -/
def RunSt.readable (x : RunSt) (d : Desc) (n : Nat) : Nat :=
  let fits := fun k => decide (d.dense (x.gen + k) * d.esz + d.esz ≤ x.limit d)
  let next := (x.sent + min d.burst (d.total - x.sent) + d.unit - 1) / d.unit * d.unit
  if (List.range n).all fits then n
  else if next ≤ x.gen * d.esz then 0
  else ((List.range n).takeWhile fits).length

/-- A row that a gather skips, or writes as NaR (R281, R299). -/
def State.fillRow (s : State) (e c : Nat) (x : RunSt) (d : Desc) (bad : Bool) : Issue :=
  let i4 := x.gen / d.rowLen
  let n := d.rowLen * d.esz
  if bad ∧ aborts d x.op then .fault St.dataFault (d.aux + 4 * i4) s
  else .ok (s.setRun e c { x.put (i4 * n) (List.replicate n (if bad then none else some 0)) with gen := x.gen + d.rowLen })

/-- The first element that a read could not deliver, as an offset from the read's first byte. -/
def firstBad (esz : Nat) (bs : List (Option Byte)) : Nat := (bs.takeWhile (·.isSome)).length / esz * esz

/-- The next request of a strided source: a far line, or a cell-store range. -/
def State.issueRead (s : State) (e c : Nat) (x : RunSt) (d : Desc) : Issue :=
  if d.elems ≤ x.gen then .wait
  else
    match s.rowOf e x d (x.gen / d.rowLen) with
    | .inr r => r
    | .inl (.skip, x, s) => s.fillRow e c x d false
    | .inl (.bad, x, s) => s.fillRow e c x d true
    | .inl (.row x4, x, s) =>
      let a := d.addr x.base x.gen x4
      let (n, x, s) := State.group_ e d a x.gen 255 1 x s
      let n := x.readable d n
      if n = 0 then .wait
      else if d.src = 0 then
        match s.engRead e c d.cell a (n * d.esz) with
        | (none, s) => .ask s
        | (some bs, s) =>
          if !allReadable bs && aborts d x.op then .fault St.dataFault (a + firstBad d.esz bs) s
          else
            let x := (List.range n).foldl (fun x k => x.put (d.dense (x.gen + k) * d.esz) ((bs.drop (k * d.esz)).take d.esz)) x
            .ok (s.setRun e c { x with gen := x.gen + n })
      else
        s.localReq e c x ⟨0, false, false, 0, 0, a, x.gen, n, 0, n * d.esz, 0, none⟩ d.src []
          fun x => { x with gen := x.gen + n }

/-- The intake of a dense source: a burst of a cell store, or the next transfer of the track (R291). -/
def State.issueDense (s : State) (e c : Nat) (x : RunSt) (d : Desc) : Issue :=
  if d.total ≤ x.got || x.limit d ≤ x.got then .wait
  else if d.src = 0 then
    let n := min d.burst (d.total - x.got)
    let a := 128 * d.line + x.got
    match s.engRead e c d.cell a n with
    | (none, s) => .ask s
    | (some bs, s) =>
      if !allReadable bs && aborts d x.op then .fault St.dataFault (a + firstBad d.esz bs) s
      else .ok (s.setRun e c { x.put x.got bs with got := x.got + n })
  else
    let key := (e / 4, d.track, BusDst.eng (e % 4))
    match tget s.arr.rx key [] with
    | [] => .wait
    | b :: rest =>
      let b := b.take (d.total - x.got)
      let s := { s with arr := { s.arr with rx := tset s.arr.rx key rest } }
      .ok (s.setRun e c { x.put x.got (b.map some) with got := x.got + b.length })

/-- Where a block of a combining target lies. -/
inductive BlockAt where
  | cell (off : Nat)
  | far (va tier : Nat)

/-- A block combined with the one at its target, which is read now (R254, R300). -/
def State.combineBlock (s : State) (e c : Nat) (x : RunSt) (d : Desc) (k : Nat) (at_ : BlockAt) : (RunSt × State) ⊕ Issue :=
  match d.acc, tfind x.blocks k with
  | some f, none =>
    let (own, _) := x.unitOut d k
    let use := fun (bs : List (Option Byte)) (va : Nat) (s : State) =>
      if allReadable bs then .inl ({ x with blocks := tset x.blocks k (blockCombine f (plain bs) own) }, s)
      else if aborts d x.op then .inr (.fault St.dataFault (va + firstBad 8 bs) s)
      else .inl ({ x with blocks := tset x.blocks k (blockCombine f (blockNaR f) own) },
        s.bump F.sePoison_ELEMENTS e 0 (accEntries f))
    match at_ with
    | .cell off =>
      match s.engRead e c d.cell off 528 with
      | (none, s) => .inr (.ask (s.setRun e c x))
      | (some bs, s) => use bs off s
    | .far va tier =>
      if x.reqs.any fun q => q.write && overlaps q.va q.len va 528 then .inr .wait
      else
        match s.readVirt e x.op.pav va 528 (some tier) with
        | .wait => .inr .wait
        | .fault code a s => .inr (.fault code a s)
        | .ok bs s => use bs va s
  | _, _ => .inl (x, s)

/-- The next write of a strided target: the elements of one request, once every byte of them has been delivered. -/
def State.issueStridedWrite (s : State) (e c : Nat) (x : RunSt) (d : Desc) : Issue :=
  if d.elems ≤ x.gen then .wait
  else
    match s.rowOf e x d (x.gen / d.rowLen) with
    | .inr r => r
    | .inl (.skip, x, s) => .ok (s.setRun e c { x with gen := x.gen + d.rowLen })
    | .inl (.bad, x, s) =>
      if aborts d x.op then .fault St.dataFault (d.aux + 4 * (x.gen / d.rowLen)) s
      else .ok ((s.bump F.sePoison_DROPPED e 0 1).setRun e c { x with gen := x.gen + d.rowLen })
    | .inl (.row x4, x, s) =>
      let a := d.addr x.base x.gen x4
      let (n, x, s) := State.group_ e d a x.gen 255 1 x s
      let g0 := x.gen / 66 * 66
      let n := if x.comb then min n (g0 + 66 - x.gen) else n
      if !((List.range n).all fun k => decide (d.dense (x.gen + k) * d.esz + d.esz ≤ x.sent)) then .wait
      else
        match (if x.comb then s.combineBlock e c x d (x.gen / 66) (.far (d.addr x.base g0 x4) d.tgt) else .inl (x, s)) with
        | .inr r => r
        | .inl (x, s) =>
          let data := (List.range n).flatMap fun k => x.outBytes d (d.dense (x.gen + k) * d.esz) d.esz
          s.localReq e c x ⟨0, true, false, 0, 0, a, x.gen, n, x.gen * d.esz, n * d.esz, 0, none⟩ d.tgt data
            fun x => { x with gen := x.gen + n }

/-- The next write of a dense far target: the bytes up to the end of the 256-byte line, or of the block, once they are
delivered. -/
def State.issueDenseWrite (s : State) (e c : Nat) (x : RunSt) (d : Desc) : Issue :=
  let va := d.aux + x.wpos
  let k := x.wpos / 528
  let n := min (d.total - x.wpos) (256 - va % 256)
  let n := if x.comb then min n (528 * (k + 1) - x.wpos) else n
  if d.total ≤ x.wpos || x.sent < x.wpos + n then .wait
  else
    match (if x.comb then s.combineBlock e c x d k (.far (d.aux + 528 * k) d.tgt) else .inl (x, s)) with
    | .inr r => r
    | .inl (x, s) =>
      s.localReq e c x ⟨0, true, false, 0, 0, va, 0, 0, x.wpos, n, 0, none⟩ d.tgt (x.outBytes d x.wpos n)
        fun x => { x with wpos := x.wpos + n }

/-- A remote request put on its port with a remote tag; the partner lost or no share ends in the status of R492. -/
def State.remoteReq (s : State) (e c : Nat) (x : RunSt) (f : OFrame) (q : SReq) (upd : RunSt → RunSt) : Issue :=
  let p := x.op.pav
  match s.freeRemote e with
  | none => .ok (s.bump F.seStall_TAG_WAIT e 0 1)
  | some t =>
    if s.share (e / 32) 2 == 0 || s.ordHeld e (runScope x.opc) (x.wtier (s.desc e c)) x.op then .wait
    else
      match s.route f.dst p (some p) with
      | .fail code => .fault code q.va s
      | .port n =>
        if s.closedTo p (.link n) then .wait else
        let (es, s) := s.nextEseq e c
        let s := s.sendReq n { f with tag := t, eseq := es } (.run e c)
        .ok (s.setRun e c (upd { x with reqs := x.reqs ++ [{ q with tag := t }] }))

/-- CINC and CSTILE of a SEND. -/
def sendCinc (o : UnitOp) : Nat := opField o 15 12
/-- The commit stile. -/
def sendStile (o : UnitOp) : Nat := opField o 31 16

/-- The next frame of a SEND: delivered bytes up to the next 4 KiB of window offset; the final frame with an increment
waits for every earlier acknowledgment (R264). -/
def State.issueRemote (s : State) (e c : Nat) (x : RunSt) (d : Desc) : Issue :=
  let off := natField d.aux 39 0 + x.wpos
  let n := min (d.total - x.wpos) (4096 - off % 4096)
  let last := x.wpos + n == d.total
  let cinc := if last then sendCinc x.op else 0
  if d.total ≤ x.wpos || x.sent < x.wpos + n || (cinc != 0 && !x.reqs.isEmpty) then .wait
  else
    let f := s.reqFrame 1 (natField d.aux 60 52) x.op.pav (natField d.aux 51 40) off 0 e (c * 16 + cinc) (x.outBytes d x.wpos n)
    let f := { f with fin := last, cstile := if cinc = 0 then 0 else sendStile x.op }
    s.remoteReq e c x f ⟨0, true, true, 0, 0, off, 0, 0, x.wpos, n, 0, none⟩ fun x => { x with wpos := x.wpos + n }

/-- The plan stop of a participant of this device. -/
def State.planOf (s : State) (plan eng : Nat) : Option PlanStop := s.lnk.plans.find? fun t => t.plan == plan && t.eng == eng

/-- Bytes of a collective frame: whole blocks. -/
def colFrame (d : Desc) : Nat := if d.acc.isSome then 3696 else 4096

/-- The next frame of a collective whose data is there; a hop to an engine of this device stays inside it. -/
def State.issueColl (s : State) (e c : Nat) (x : RunSt) (d : Desc) (t : ColSt) : Issue :=
  let l := t.chunk d
  let try_ := fun (ph, st, peer) =>
    let off := tget t.sent (ph, st) 0
    let n := min (colFrame d) (l - off)
    if l ≤ off then none else (s.colOut x t d ph st off n).map fun (b : List Byte) => (ph, st, peer, off, b)
  match t.sends.findSome? try_ with
  | none => .wait
  | some (_, _, none, _, _) => .wait
  | some (ph, st, some (dev, eng), off, b) =>
    let upd := fun (x : RunSt) => { x with col := some { t with sent := tset t.sent (ph, st) (off + b.length) } }
    if dev = s.devId then
      match s.planOf t.stop.plan eng with
      | none => .fault St.invalidOp off s
      | some peer =>
        let st' := if t.stop.tree then (if ph = 0 ∧ peer.peer0 ≠ some (dev, e) then 1 else 0) else st
        .ok ((s.colPut peer ph st' b).setRun e c (upd x))
    else
      let f := s.reqFrame 5 dev x.op.pav t.stop.plan off 0 e (ph * 16) b
      s.remoteReq e c x { f with cstile := if t.stop.tree then 0 else st } ⟨0, true, true, 0, 0, off, 0, 0, off, b.length, 0, none⟩ upd

/-- The next write of a collective's result at AUX. The result is formed in whole blocks (R63). -/
def State.issueColWrite (s : State) (e c : Nat) (x : RunSt) (d : Desc) (t : ColSt) : Issue :=
  let w0 := t.wr / d.unit * d.unit
  let n := min (t.chunk d - w0 % t.chunk d) (colFrame d)
  if t.result d ≤ t.wr then .wait
  else
    match s.colResult x t d w0 n with
    | none => .wait
    | some (off, b) =>
      let off := off + (t.wr - w0)
      let va := d.aux + off
      let k := min (n - (t.wr - w0)) (256 - va % 256)
      match s.xlat x.op.pav va .w none (.engine e) with
      | .ok pa _ _ _ =>
        s.localReq e c x ⟨0, true, false, 0, 0, va, 0, 0, off, k, 0, none⟩ (if inScratch pa then 1 else 2) ((b.drop (t.wr - w0)).take k)
          fun x => { x with col := some { t with wr := t.wr + k } }
      | .wait => .wait
      | .fault cause level s => .fault St.xlatFault va (s.recordXlat x.op.pav va (.engine e) cause level)

/-- The first of several attempts that does not wait. -/
def firstIssue : List (Unit → Issue) → Issue
  | [] => .wait
  | f :: fs => match f () with
    | .wait => firstIssue fs
    | r => r

/-- The next request of a run: a write that is ready, else a read. -/
def State.nextIssue (s : State) (e c : Nat) (x : RunSt) (d : Desc) : Issue :=
  match x.col with
  | some t => firstIssue [fun _ => s.issueColWrite e c x d t, fun _ => s.issueColl e c x d t, fun _ => s.issueRead e c x d]
  | none =>
    if d.denseSrc then firstIssue [fun _ => s.issueStridedWrite e c x d, fun _ => s.issueDense e c x d]
    else if d.car then s.issueRead e c x d
    else if d.tgt = 3 then firstIssue [fun _ => s.issueRemote e c x d, fun _ => s.issueRead e c x d]
    else if isFar d.tgt then firstIssue [fun _ => s.issueDenseWrite e c x d, fun _ => s.issueRead e c x d]
    else s.issueRead e c x d

/-- A partner of a run lost before its confirmation (R268, R299): the abort path fences; on the poison path the run goes
on to complete with the peer-lost status, a caravan without what the lost stop `stop` would keep. -/
def State.runLost (s : State) (e c : Nat) (x : RunSt) (stop : Nat) : State :=
  if !x.op.poison then s.runFault e c St.peerLost 0
  else if x.stops.isEmpty then s.setRun e c { x with lost := true }
  else
    let a := tget x.at_ stop .init
    s.setRun e c { x with lost := true, at_ := tset x.at_ stop { a with gone := true, confirmed := true, slot := false } }

/-- Whether a run may not go on: it is dead, its partner is lost, or its pavilion does not run. A caravan goes on to its other
stops. -/
def State.runHeld (s : State) (x : RunSt) : Bool := x.dead || (x.lost && x.stops.isEmpty) || s.pavState x.op.pav != 2

/-- STREAM_REQUEST_ISSUE (R278). -/
def execStreamRequestIssue (eng ctx : Nat) (s : State) : Out :=
  match tfind s.str.runs (eng, ctx) with
  | none => .next s
  | some x =>
    if s.runHeld x || s.pwr.shut then .next s
    else
      match s.nextIssue eng ctx x (s.desc eng ctx) with
      | .ok t => .next t
      | .ask t => .next t
      | .wait => .next s
      | .fault code va t =>
        if code = St.peerLost then .next (t.runLost eng ctx x 0) else .next (t.runFault eng ctx code va)

/-! ### Answers (R283, R284, R299) -/

/-- A request of a run that has been answered leaves it. -/
def State.dropReq (s : State) (e c : Nat) (x : RunSt) (q : SReq) : State :=
  let x := { x with reqs := x.reqs.erase q }
  let s := s.drained e c q.tag
  if x.dead && x.reqs.isEmpty then s.endRun e c else s.setRun e c x

/-- The elements of a read's answer put at their dense places. -/
def RunSt.fill (y : RunSt) (d : Desc) (q : SReq) (bs : List (Option Byte)) : RunSt :=
  (List.range q.count).foldl (fun y k =>
    y.put (d.dense (q.first + k) * d.esz) ((bs.drop (k * d.esz)).take d.esz)) y

/-- STREAM_RESPONSE (R283): the answer to a request is taken and its tag freed. -/
def execStreamResponse (eng ctx tag : Nat) (s : State) : Out :=
  match tfind s.str.runs (eng, ctx) with
  | none => .next s
  | some x =>
    match x.reqs.find? fun q => q.tag == tag && q.resp.isSome with
    | none => .next s
    | some q =>
      let (status, bs) := q.resp.getD (0, [])
      let d := s.desc eng ctx
      let t := s.dropReq eng ctx x q
      let y := { x with reqs := x.reqs.erase q }
      if x.dead || s.pavState x.op.pav != 2 then .next t
      else if status = St.peerLost then .next (t.runLost eng ctx y q.stop)
      else if status ≠ St.success then .next (t.runFault eng ctx status q.va)
      else if q.write then .next t
      else if !allReadable bs && aborts d x.op then
        .next (t.runFault eng ctx St.dataFault (q.va + firstBad d.esz bs))
      else .next (t.setRun eng ctx (y.fill d q bs))

/-! ### Bursts (R289 to R292) -/

/-- Elements or entries made NaR in the units whose last byte lies in a dense range. -/
def RunSt.narCount (x : RunSt) (d : Desc) (off n : Nat) : Nat :=
  let u := d.unit
  ((List.range ((off + n) / u - off / u)).map fun i => (x.unitOut d (off / u + i)).2).sum

/-- Pieces of a transfer that continue one another in a cell store joined. -/
def joinSegs : List (Nat × Nat × Nat) → List (Nat × Nat × Nat)
  | [] => []
  | (o, at_, n) :: rest =>
    match joinSegs rest with
    | (o', at', n') :: r => if o' = o + n ∧ at' = at_ + n then (o, at_, n + n') :: r else (o, at_, n) :: (o', at', n') :: r
    | [] => [(o, at_, n)]

/-- The pieces of a transfer with SRC 0 in the cell stores of its set: each element at the offset from which it was
read (R634). -/
def Desc.segs (d : Desc) (base off n : Nat) : List (Nat × Nat × Nat) :=
  joinSegs ((List.range (n / d.esz)).map fun k =>
    (d.addr base (off / d.esz + k) (d.ix (off / d.esz + k) 4), k * d.esz, d.esz))

/-- Bytes of a dense range that lie in a stop's slice: the first and how many. A stop whose partner is lost keeps none. -/
def keptRange (t : CarStop) (gone : Bool) (off n : Nat) : Nat × Nat :=
  let lo := max off t.off
  (lo, if gone then 0 else min (off + n) (t.off + t.len) - lo)

/-- Whether transfers or writes with the numbers of a range still wait on a track or at a bank. -/
def State.idsWait (s : State) (ids : Nat × Nat) : Bool :=
  s.arr.tracks.any (fun e => e.2.any fun y => decide (ids.1 ≤ y.id) && decide (y.id < ids.2))
    || s.arr.banks.any fun e => e.2.any fun r => r.who == 3 && r.write.isSome
      && decide (ids.1 ≤ r.tag / 8) && decide (r.tag / 8 < ids.2)

/-- Whether a burst's kept bytes at stop `j` are written: sent, and complete at their endpoint or acknowledged. -/
def State.burstKept (s : State) (x : RunSt) (j : Nat) (u : CarBurst) : Bool :=
  let t := x.stops.getD j .none
  let (lo, n) := keptRange t (tget x.at_ j .init).gone u.off u.bytes.length
  decide (n ≤ u.written) && !s.idsWait u.ids
    && !(t.remote && x.reqs.any fun q => q.remote && q.stop == j && overlaps q.dense q.len lo n)

/-- Whether a burst still holds its place at stop `j` (R296). -/
def State.burstHeld (s : State) (x : RunSt) (j : Nat) (u : CarBurst) : Bool := !u.passed || !s.burstKept x j u

/-- The link port that a stop's frames take, if one qualifies. -/
def State.stopPort (s : State) (x : RunSt) (t : CarStop) : Option Nat :=
  if !t.remote then none
  else
    match s.route t.target x.op.pav (some x.op.pav) with
    | .port n => some n
    | .fail _ => none

/-- Caravan slots in use at the engine, or at the link port, of a stop (R297). -/
def State.slotsAt (s : State) (x : RunSt) (t : CarStop) : Nat :=
  (s.str.runs.map fun r => (r.2.stops.zipIdx.filter fun (u, i) => (tget r.2.at_ i .init).slot && u.remote == t.remote
    && (if t.remote then s.stopPort r.2 u == s.stopPort x t else u.target == t.target)).length).sum

/-- Whether stop `j` of a caravan has a free place for a burst, and a slot, of 4 at an engine and 16 at a link port (R296,
R297). A stop that has confirmed needs no slot to relay. -/
def State.carRoom (s : State) (x : RunSt) (j : Nat) : Bool :=
  let t := x.stops.getD j .none
  let a := tget x.at_ j .init
  decide ((a.bursts.filter (s.burstHeld x j)).length < 4)
    && (a.slot || a.confirmed || decide (s.slotsAt x t < (if t.remote then 16 else 4)))

/-- A burst put into the buffer of stop `j`. -/
def RunSt.carPut (x : RunSt) (j off : Nat) (bs : List Byte) : RunSt :=
  let a := tget x.at_ j .init
  { x with at_ := tset x.at_ j { a with bursts := a.bursts ++ [⟨off, bs, 0, false, (0, 0)⟩], slot := !a.confirmed } }

/-- Whether any byte of a dense range lies in the slice of a stop from `j` on. -/
def RunSt.wanted (x : RunSt) (j off n : Nat) : Bool := (x.stops.drop j).any fun t => decide (0 < t.len) && overlaps t.off t.len off n

/-- The next burst as it is handed to its consumer; a wait where the consumer has no room. A cell store takes it through its banks,
with at most 4 bursts of the run waiting there (log entry 149). -/
def State.deliver (s : State) (e c : Nat) (x : RunSt) (d : Desc) (off n : Nat) : Issue :=
  let bed := e / 4
  let bs := x.outBytes d off n
  let go := fun (s : State) (x : RunSt) => Issue.ok (s.setRun e c { x with sent := off + n })
  if d.car then
    if !x.wanted 0 off n then go s x
    else if s.carRoom x 0 then go s (x.carPut 0 off bs)
    else .wait
  else if d.denseSrc || isFar d.tgt || d.tgt = 3 then go s x
  else if s.ordHeld e (runScope x.opc) (x.wtier d) x.op then .wait
  else if d.tgt = 0 then
    let cell := bed * 8 + d.cell
    let ks := (List.range ((off + n + 527) / 528 - off / 528)).map (off / 528 + ·)
    let r := if x.comb then ks.foldl (fun (acc : (RunSt × State) ⊕ Issue) k =>
        match acc with
        | .inl (x, s) => s.combineBlock e c x d k (.cell (128 * d.line + 528 * k))
        | r => r) (.inl (x, s)) else .inl (x, s)
    if 4 ≤ s.cellWaits cell x.op.seq then .wait
    else
      match r with
      | .inr r => r
      | .inl (x, s) => go (postCell s cell (x.op.seq, runScope x.opc) (128 * d.line + off) (x.outBytes d off n)) x
  else
    let waiting := ((tget s.arr.tracks (bed, d.track) []).filter fun y => y.seq == x.op.seq).length
    if 4 ≤ waiting || s.trackHeld bed d.track x.op then .wait
    else
      let segs := if d.src = 0 then d.segs x.base off n else [(128 * d.line + off, 0, n)]
      go (postSegs s bed d.track x.op.seq (runScope x.opc) d.burst bs ((s.group bed d.group).getD []) segs) x

/-- Length of the next burst of a run. -/
def RunSt.nextLen (x : RunSt) (d : Desc) : Nat := min d.burst (d.total - x.sent)

/-- Whether the next burst of a run is complete: every byte of the units it touches is there. -/
def RunSt.burstReady (x : RunSt) (d : Desc) : Bool :=
  let n := x.nextLen d
  let hi := (x.sent + n + d.unit - 1) / d.unit * d.unit
  let lo := x.sent / d.unit * d.unit
  n != 0 && x.present lo (hi - lo)

/-- BURST_DELIVER (R289): the next complete burst goes to its consumer. -/
def execBurstDeliver (eng ctx : Nat) (s : State) : Out :=
  match tfind s.str.runs (eng, ctx) with
  | none => .next s
  | some x =>
    let d := s.desc eng ctx
    let n := x.nextLen d
    if s.runHeld x || x.col.isSome || !x.burstReady d then .next s
    else
      match s.deliver eng ctx x d x.sent n with
      | .wait => .next (s.bump F.seStall_CREDIT_WAIT eng 0 1)
      | .ask t => .next t
      | .fault code va t => .next (t.runFault eng ctx code va)
      | .ok t =>
        .next ((t.bump F.sePoison_ELEMENTS eng 0 (x.narCount d x.sent n)).bump F.seCtxStatus_BURSTS eng ctx 1)

/-! ### Caravans (R295 to R298) -/

/-- The kept bytes of a burst written at a local stop: into its cell store, or as transfers of up to 512 bytes. A feeder takes the
codes that a short burst lacks, `missing` of them, as zero (R290). -/
def State.keepLocal (s : State) (x : RunSt) (t : CarStop) (lo : Nat) (bs : List Byte) (missing : Nat) : State :=
  let bed := t.target / 4
  let at_ := 128 * natField t.near 14 0 + (lo - t.off)
  let bits := runScope x.opc
  if !t.near.testBit 24 then postCell s (bed * 8 + natField t.near 17 15) (x.op.seq, bits) at_ bs
  else
    let k := (bs.length + 511) / 512
    (List.range k).foldl (fun s i =>
      let b := (bs.drop (512 * i)).take 512
      postSegs s bed (natField t.near 23 22) x.op.seq bits (b.length + (if i + 1 = k then missing else 0)) b
        ((s.group bed (natField t.near 21 18)).getD []) [((at_ + 512 * i) % cellSize, 0, b.length)]) s

/-- A burst at place `i` of stop `j` changed. -/
def RunSt.setBurst (x : RunSt) (j i : Nat) (u : CarBurst) : RunSt :=
  let a := tget x.at_ j .init
  { x with at_ := tset x.at_ j { a with bursts := a.bursts.set i u } }

/-- Bytes kept at stop `j` counted on. -/
def RunSt.keep (x : RunSt) (j n : Nat) : RunSt :=
  let a := tget x.at_ j .init
  { x with at_ := tset x.at_ j { a with kept := a.kept + n } }

/-- The next kept bytes of a burst sent to a remote stop: one frame, up to the next 4 KiB of window offset; the slice's final
frame carries the increment and waits for the earlier ones. -/
def State.keepRemote (s : State) (e c j i : Nat) (x : RunSt) (t : CarStop) (u : CarBurst) (lo : Nat) (bs : List Byte) : Issue :=
  let a := tget x.at_ j .init
  let w := t.woff + (lo - t.off)
  let b := bs.take (4096 - w % 4096)
  let last := a.kept + b.length == t.len
  let cinc := if last && x.opc == 7 then sendCinc x.op else 0
  if cinc != 0 && (x.reqs.any fun q => q.remote && q.stop == j) then .wait
  else
    let f := s.reqFrame 1 t.target x.op.pav t.window w 0 e (c * 16 + cinc) b
    let f := { f with fin := last, cstile := if cinc = 0 then 0 else sendStile x.op }
    s.remoteReq e c x f ⟨0, true, true, 0, 0, w, 0, 0, lo, b.length, j, none⟩ fun x =>
      (x.setBurst j i { u with written := u.written + b.length }).keep j b.length

/-- The kept bytes of a burst at a local stop sent to its target, unless an earlier operation still has the track (R97). -/
def State.keepHere (s : State) (e c j i : Nat) (x : RunSt) (t : CarStop) (u : CarBurst) (lo : Nat) (bs : List Byte) : Issue :=
  let d := s.desc e c
  if (t.near.testBit 24 && s.trackHeld (t.target / 4) (natField t.near 23 22) x.op) || s.ordHeld e (runScope x.opc) none x.op then .wait
  else
    let short := if u.off + u.bytes.length = lo + bs.length ∧ u.off + u.bytes.length = d.total then d.burst - u.bytes.length else 0
    let s' := s.keepLocal x t lo bs short
    .ok (s'.setRun e c ((x.setBurst j i { u with written := bs.length, ids := (s.arr.nextX, s'.arr.nextX) }).keep j bs.length))

/-- What a stop does next with burst `i` of its buffer: its kept bytes are written, and then the burst is passed to the next stop
where a later slice needs it. -/
def State.stopStep (s : State) (e c j i : Nat) (x : RunSt) (u : CarBurst) : Issue :=
  let t := x.stops.getD j .none
  let (lo, n) := keptRange t (tget x.at_ j .init).gone u.off u.bytes.length
  let bs := (u.bytes.drop (lo - u.off)).take n
  if u.written < n then
    if t.remote then s.keepRemote e c j i x t u (lo + u.written) (bs.drop u.written) else s.keepHere e c j i x t u lo bs
  else if !x.wanted (j + 1) u.off u.bytes.length then .ok (s.setRun e c (x.setBurst j i { u with passed := true }))
  else if s.carRoom x (j + 1) then
    .ok (s.setRun e c ((x.setBurst j i { u with passed := true }).carPut (j + 1) u.off u.bytes))
  else .wait

/-- The bursts of a stop without those whose places are free. -/
def State.pruneStop (s : State) (e c j : Nat) : State :=
  match tfind s.str.runs (e, c) with
  | none => s
  | some x =>
    let a := tget x.at_ j .init
    s.setRun e c { x with at_ := tset x.at_ j { a with bursts := a.bursts.filter (s.burstHeld x j) } }

/-- CARAVAN_BURST_FORWARD (R296): a stop keeps its part of its oldest burst that it has not passed on, and passes the burst on. -/
def execCaravanBurstForward (eng ctx stop : Nat) (s : State) : Out :=
  match tfind s.str.runs (eng, ctx) with
  | none => .next s
  | some x =>
    if s.runHeld x || x.stops.length ≤ stop then .next s
    else
      match (tget x.at_ stop .init).bursts.zipIdx.find? fun u => !u.1.passed with
      | none => .next (s.pruneStop eng ctx stop)
      | some (u, i) =>
        match s.stopStep eng ctx stop i x u with
        | .ok t => .next (t.pruneStop eng ctx stop)
        | .ask t => .next t
        | .wait => .next (s.bump F.seStall_CREDIT_WAIT eng 0 1)
        | .fault code va t =>
          if code = St.peerLost then .next (t.runLost eng ctx x stop) else .next (t.runFault eng ctx code va)

/-- Whether a transfer or write of an operation still waits on a track of a bed or at its banks. -/
def State.trackWrites (s : State) (bed seq : Nat) : Bool :=
  s.arr.tracks.any (fun e => e.1.1 == bed && e.2.any fun y => y.seq == seq)
    || s.arr.banks.any fun e => e.1.1 / 8 == bed && e.2.any fun r => r.who == 3 && r.write.isSome && r.seq == seq

/-- Whether the slice of a stop is whole and its writes, or its frames, are done (R298). A stop that only relays is done once the
whole stream has passed it. -/
def State.stopDone (s : State) (e c j : Nat) (x : RunSt) : Bool :=
  let a := tget x.at_ j .init
  let t := x.stops.getD j .none
  if t.len = 0 then x.sent == (s.desc e c).total && !a.bursts.any (s.burstHeld x j)
  else a.kept == t.len && a.bursts.all (s.burstKept x j) && !(x.reqs.any fun q => q.remote && q.stop == j)

/-- CARAVAN_STOP_CONFIRM (R298): the slice is complete, or its final frame is acknowledged; the slot is freed. -/
def execCaravanStopConfirm (eng ctx stop : Nat) (s : State) : Out :=
  match tfind s.str.runs (eng, ctx) with
  | none => .next s
  | some x =>
    let a := tget x.at_ stop .init
    if x.dead || a.confirmed || x.stops.length ≤ stop || !s.stopDone eng ctx stop x then .next s
    else .next (s.setRun eng ctx { x with at_ := tset x.at_ stop { a with confirmed := true, slot := false } })

/-! ### The end of a run (R270, R301, R302) -/

/-- Whether a run has made its last write and every stop has confirmed. -/
def State.runWhole (s : State) (e : Nat) (x : RunSt) (d : Desc) : Bool :=
  x.reqs.isEmpty
    && (if d.denseSrc then d.elems ≤ x.gen
      else if d.car then x.sent == d.total && (List.range x.stops.length).all fun j => (tget x.at_ j .init).confirmed
      else x.sent == d.total && (!(isFar d.tgt || d.tgt == 3) || x.wpos == d.total)
        && ((d.tgt != 4 && d.tgt != 0) || !s.trackWrites (e / 4) x.op.seq))

/-- What follows the end of a run: a MOVE waits for its release, a SEND that lost no partner is confirmed. -/
def State.runEnded (t : State) (p : Nat) (d : Desc) (x : RunSt) : State :=
  let t := if d.move then
      t.setPav p { t.pav p with moves := (t.pav p).moves ++ [⟨x.op.seq, d.aux, d.lowest x.base, d.total, false⟩] }
    else t
  if x.opc = 7 ∧ !x.lost then t.confirm p else t

/-- RUN_COMPLETE (R270): the context goes to DONE; a MOVE waits for its release; a SEND is confirmed. -/
def execRunComplete (eng ctx : Nat) (s : State) : Out :=
  match tfind s.str.runs (eng, ctx) with
  | none => .next s
  | some x =>
    let d := s.desc eng ctx
    let p := x.op.pav
    if x.dead || x.col.isSome || s.pavState p != 2 || !((x.lost && x.stops.isEmpty && x.reqs.isEmpty) || s.runWhole eng x d) then .next s
    else
      let t := ((s.wr F.seCtxStatus_STATE eng ctx 4).wr F.seCtxStatus_CODE eng ctx (if x.lost then St.peerLost else 0)).endRun eng ctx
      .next (t.runEnded p d x)

/-- Whether the effect of a fenced run outside the beds has been applied: a SEND whose every frame, or every stop, is confirmed, a
collective whose result is complete (R267). -/
def State.runApplied (s : State) (e c : Nat) (x : RunSt) (d : Desc) : Bool :=
  !x.lost && !x.dead && match x.col with
    | some t => decide (t.result d ≤ t.wr)
    | none => x.opc == 7 && s.runWhole e { x with at_ := x.at_.map fun a =>
        (a.1, { a.2 with confirmed := a.2.confirmed || s.stopDone e c a.1 x }) } d

/-- CONTEXT_STOPPED (R301): in a fenced pavilion, a run whose tags are all released stops; one that has already been applied is
confirmed (R267). -/
def execContextStopped (eng ctx : Nat) (s : State) : Out :=
  match tfind s.str.runs (eng, ctx) with
  | none => .next s
  | some x =>
    if (s.pavState x.op.pav != 3 && s.pavState x.op.pav != 4) || !x.reqs.isEmpty then .next s
    else
      let t := if x.dead then s else s.wr F.seCtxStatus_STATE eng ctx 3
      let t := if s.runApplied eng ctx x (s.desc eng ctx) then
          let t := t.confirm x.op.pav
          match x.col with
          | some k => t.addStile k.dstile 1
          | none => t
        else t
      .next (t.endRun eng ctx)

end Sys2Proof.Machine
end

