-- ==== Sys2Proof/Machine/Pavilion.lean ====
section
/-! DEFINITION. Programs, queue pairs, requests and events of a pavilion (06.2, 06.4, 13.2 to 13.4) and the release of
MOVEs (R311 to R313). -/

namespace Sys2Proof.Machine

/-! ### Reads and writes by the pavilion controller -/

/-- A range read by virtual address for the queues of a pavilion, through its lead slice. -/
def State.pavRead (s : State) (p va n : Nat) : VRes :=
  s.virtRead (.fetch (s.lead p)) (.slice p) p va n .r none fun _ _ _ => false

/-- Bytes written by virtual address for the queues of a pavilion; they lie in one line. -/
def State.pavWrite (s : State) (p va : Nat) (bs : List Byte) : VRes :=
  let u := XlatUnit.fetch (s.lead p)
  match s.xlat p va .w none u with
  | .wait => .wait
  | .fault cause level s => .fault St.xlatFault va (s.recordXlat p va u cause level)
  | .ok pa bias cc s =>
    match s.writeAs (.slice p) bias cc pa bs with
    | .done _ s => .ok [] s
    | .wait => .wait
    | .refuse code s => .fault code va s

/-! ### Programs (R189 to R192, R446) -/

/-- Virtual address of word `w` of a program. -/
def State.wordVa (s : State) (p w : Nat) : Nat := s.rd F.pavProgBase_BASE p 0 * 128 + 128 * w

/-- Words of an instruction buffer (R190). -/
def bufWords : Nat := 512

/-- Whether a buffered word is kept: within reach of the issue point, or in an innermost loop whose body has 448 words or fewer
(R190). -/
def SliceSt.keeps (x : SliceSt) (w : Nat) : Bool :=
  (decide (x.pc ≤ w) && decide (w < x.pc + 448))
    || x.loops.getLast?.any fun e => decide (e.last < e.start + 448) && decide (e.start ≤ w) && decide (w ≤ e.last)

/-- A buffered word that may leave for word `w`: one that need not be kept, else one further ahead. -/
def SliceSt.victim (x : SliceSt) (w : Nat) : Option Nat :=
  ((x.buf.find? fun e => !x.keeps e.1).or (x.buf.find? fun e => decide (w < e.1)
    && !x.loops.getLast?.any fun l => decide (l.start ≤ e.1) && decide (e.1 ≤ l.last))).map (·.1)

/-- A word put into a slice's buffer; when it is full, another leaves for it, or the word is not kept. -/
def SliceSt.bufPut (x : SliceSt) (w : Nat) (bs : List Byte) : SliceSt :=
  if x.buf.length < bufWords then { x with buf := tset x.buf w bs }
  else
    match x.victim w with
    | some v => { x with buf := tset (terase x.buf v) w bs }
    | none => x

/-- A program word fetched by the slice of die `d`: the word, or empty where it cannot be used (R192). -/
def State.fetchWord (s : State) (p d w : Nat) : Option (List Byte × State) :=
  match s.virtRead (.fetch d) (.slice p) p (s.wordVa p w) 128 .x none (fun _ _ _ => false) with
  | .wait => none
  | .fault _ _ s => some ([], s)
  | .ok bs s => some (if allReadable bs then plain bs else [], s)

/-- The next word of program order within 448 of the issue point that is not buffered. -/
def State.nextMissing (s : State) (p : Nat) (x : SliceSt) : Option Nat :=
  ((List.range 448).map (x.pc + ·)).find? fun w => decide (w < s.progLen p) && (tfind x.buf w).isNone

/-- PREFETCH_WORD (R190): the next word of program order within 448 of the issue point that is not yet buffered. -/
def execPrefetchWord (p die : Nat) (s : State) : Out :=
  let x := s.slice p die
  match s.nextMissing p x with
  | none => .next s
  | some w =>
    if s.pavState p != 2 || !x.run || x.halted then .next s
    else
      match s.fetchWord p die w with
      | none => .next s
      | some (bs, t) => .next (t.setSlice p die (x.bufPut w bs))

/-- A word of a hint put into a slice's buffer, where it can be used. -/
def State.hintWord (p die : Nat) (s : State) (w : Nat) : State :=
  match s.fetchWord p die w with
  | some (b :: bs, t) => t.setSlice p die ((t.slice p die).bufPut w (b :: bs))
  | _ => s

/-- PFH (R191): after the issue of its word the slice loads up to 64 words from the target, and goes on. A word that
cannot be used is not kept: a hint changes only timing. -/
def execCtlPfh (p die target count : Nat) (s : State) : Out :=
  if !s.dueCtl p die 8 fun w => slotField w 23 0 == target && slotField w 29 24 == count then .next s
  else
    let s := s.setSlice p die (s.slice p die).advance
    let words := ((List.range (count + 1)).map (target + ·)).filter fun w =>
      decide (w < s.progLen p) && (tfind (s.slice p die).buf w).isNone
    .next (words.foldl (State.hintWord p die) s)

/-- The buffers of a pavilion's slices emptied. -/
def State.clearBuffers (s : State) (p : Nat) : State :=
  (List.range 8).foldl (fun s d =>
    match tfind s.slices (p, d) with
    | some x => s.setSlice p d { x with buf := [] }
    | none => s) s

/-- A write to a register of a pavilion page, which is ignored during steps 1 to 6 of a warm reset (R582). -/
def State.pageWrite (s : State) (f : State → State) : State := if s.sys.warmOn then s else f s

/-- PAV_PROG_COMMIT_GO (R446). Writes of the register page are accepted from the Keeper and every hart (R462). -/
def execPavProgCommitGo (_a : Actor) (p : Nat) (s : State) : Out := .next (s.pageWrite fun s => s.commitGo .pavProgCommit p)

/-- PAV_PROG_COMMIT_APPLY (R446): at a moment at which the pavilion is idle, fenced or unassigned; the digest is then
under way. BASE is aligned by its field. -/
def execPavProgCommitApply (p : Nat) (s : State) : Out :=
  if !s.commitDue .pavProgCommit p || !s.pavQuiet p then .next s
  else if 2 ^ 24 < s.rdShadow F.pavProgLen_LEN p 0 then .next (s.commitEnd .pavProgCommit p 1)
  else
    let t := (s.commitField F.pavProgBase_BASE p 0 p 0).commitField F.pavProgLen_LEN p 0 p 0
    .next (((t.commitEnd .pavProgCommit p 0).wr F.pavStatus_PROG_BUSY p 0 1).clearBuffers p)

/-- The words of a registered program, or the end of the reads: a wait, or a word that cannot be read. -/
def State.programBytes (s : State) (p : Nat) : VRes :=
  s.virtRead (.fetch (s.lead p)) (.slice p) p (s.wordVa p 0) (128 * s.progLen p) .x none fun _ _ _ => false

/-- A registration that fails (R446). -/
def State.programFails (s : State) (p : Nat) : State :=
  let s := (s.wr F.pavProgLen_LEN p 0 0).setPav p { s.pav p with digest := List.replicate 48 0 }
  (s.wr (commitErrF .pavProgCommit) p 0 1).wr (commitReasonF .pavProgCommit) p 0 3

/-- A registration over: its event, and the digests that follow it. -/
def State.registered (s : State) (p : Nat) : State := ((s.wr F.pavStatus_PROG_BUSY p 0 0).announce p).digestDue

/-- A program word that memory refuses or cannot read, recorded as a program fetch (R446); no rule gives its CAUSE and LEVEL, which
are free values (log 158). -/
def State.unreadWord (s : State) (p va : Nat) : State :=
  let (f, s) := s.free
  s.recordXlat p (va / 128 * 128) (.fetch (s.lead p)) (natField f.toNat 3 0) (natField f.toNat 5 4)

/-- PROGRAM_REGISTRATION_DONE (R446, R175): the digest, or the failure; the digests of R176 are then recomputed. -/
def execProgramRegistrationDone (p : Nat) (s : State) : Out :=
  if !s.flag F.pavStatus_PROG_BUSY p 0 then .next s
  else
    if s.progLen p = 0 then .next ((s.setPav p { s.pav p with digest := List.replicate 48 0 }).registered p)
    else
      match s.programBytes p with
      | .wait => .next s
      | .fault code va t => .next (((if code = St.xlatFault then t else t.unreadWord p va).programFails p).registered p)
      | .ok bs t =>
        if allReadable bs then .next ((t.setPav p { t.pav p with digest := Config.sha384 (plain bs) }).registered p)
        else .next (((t.unreadWord p (s.wordVa p 0 + (bs.findIdx fun b => b.isNone))).programFails p).registered p)

/-! ### Queue pairs (R447, R450, R453) -/

/-- State of a queue pair (Table 13-16): 0 DISABLED, 1 LOCAL, 2 DETACHED, 3 ATTACHED, 4 LOCKED, 5 ERROR. -/
def State.qpState (s : State) (p q : Nat) : Nat := s.rd F.pavQpState_STATE p q

/-- A queue pair put into a state; a change is event source 5 (Table 13-6). -/
def State.setQp (s : State) (p q st : Nat) : State :=
  if s.qpState p q = st then s else (s.wr F.pavQpState_STATE p q st).event p 5 q

/-- A pair's session binding dropped, and the token words that it has been given while locked. -/
def State.unbindQp (s : State) (p q : Nat) : State :=
  let v := s.pav p
  s.setPav p { v with sessions := terase v.sessions q, lastTok := terase v.lastTok q }

/-- Places of the queues. -/
def State.sqSize (s : State) (p q : Nat) : Nat := 2 ^ s.rd F.pavQpSq_LOG2 p q
/-- CQ places. -/
def State.cqSize (s : State) (p q : Nat) : Nat := 2 ^ s.rd F.pavQpCq_LOG2 p q

/-- The difference of two counts modulo 2^16. -/
def diff16 (a b : Nat) : Nat := (a + 65536 - b % 65536) % 65536

/-- PAV_QP_COMMIT_GO (R447). -/
def execPavQpCommitGo (_a : Actor) (p : Nat) (s : State) : Out := .next (s.pageWrite fun s => s.commitGo .pavQpCommit p)

/-- The SC fields of a queue pair. -/
def qpFields : List Fld :=
  [F.pavQpSq_EN, F.pavQpSq_REMOTE, F.pavQpSq_LOG2, F.pavQpSq_BASE, F.pavQpCq_LOG2, F.pavQpCq_BASE]

/-- Whether a pair's shadow differs from its active fields. -/
def State.qpChanged (s : State) (p q : Nat) : Bool := qpFields.any fun f => s.rdShadow f p q != s.rd f p q

/-- The pair check of R447 for one pair. -/
def State.qpOk (s : State) (p q : Nat) : Bool :=
  let sl := s.rdShadow F.pavQpSq_LOG2 p q
  let cl := s.rdShadow F.pavQpCq_LOG2 p q
  decide (1 ≤ sl) && decide (sl ≤ cl) && decide (cl ≤ 12) && ((s.pav p).req.all fun r => r.qp != q)

/-- A changed pair as committed: its counts are 0 and its state follows EN and REMOTE. -/
def State.qpInstall (s : State) (p q : Nat) : State :=
  let s := qpFields.foldl (fun s f => s.commitField f p q p q) s
  let s := ((s.wr F.pavQpState_SQ_HEAD p q 0).wr F.pavQpState_CQ_TAIL p q 0).wr F.pavSqTail_TAIL p q 0
  let s := (s.wr F.pavCqHead_HEAD p q 0).unbindQp p q
  s.setQp p q (if !s.flag F.pavQpSq_EN p q then 0 else if s.flag F.pavQpSq_REMOTE p q then 2 else 1)

/-- PAV_QP_COMMIT_APPLY (R447). -/
def execPavQpCommitApply (p : Nat) (s : State) : Out :=
  if !s.commitDue .pavQpCommit p then .next s
  else
    let ch := (List.range 16).filter (s.qpChanged p)
    if !ch.all (s.qpOk p) then .next (s.commitEnd .pavQpCommit p 1)
    else .next ((ch.foldl (fun s q => s.qpInstall p q) s).commitEnd .pavQpCommit p 0)

/-- A doorbell that is ignored. -/
def State.badDb (s : State) (p q : Nat) : State := s.bump F.pavQpState_BADDB p q 1

/-- The check of a new SQ tail. -/
def State.tailOk (s : State) (p q t : Nat) : Bool := decide (diff16 t (s.rd F.pavQpState_SQ_HEAD p q) ≤ s.sqSize p q)

/-- The check of a new CQ head. -/
def State.headOk (s : State) (p q h : Nat) : Bool := decide (diff16 (s.rd F.pavQpState_CQ_TAIL p q) h ≤ s.cqSize p q)

/-- What SQ_DOORBELL does (R450, R451). -/
def sqDoorbellOp (_a : Actor) (p q : Nat) (v : BitVec 64) (s : State) : Out :=
  let t := natField v.toNat 15 0
  .next (s.pageWrite fun s =>
    if s.flag F.pavQpSq_REMOTE p q || !s.tailOk p q t then s.badDb p q else s.wr F.pavSqTail_TAIL p q t)

/-- SQ_DOORBELL (R450, R451). -/
def execSqDoorbell (_a : Actor) (p q : Nat) (v : BitVec 64) (s : State) : Out := sqDoorbellOp _a p q v s

/-- What CQ_HEAD_WRITE does (R450, R451). -/
def cqHeadWriteOp (_a : Actor) (p q : Nat) (v : BitVec 64) (s : State) : Out :=
  let h := natField v.toNat 15 0
  .next (s.pageWrite fun s =>
    if s.flag F.pavQpSq_REMOTE p q || !s.headOk p q h then s.badDb p q else s.wr F.pavCqHead_HEAD p q h)

/-- CQ_HEAD_WRITE (R450, R451). -/
def execCqHeadWrite (_a : Actor) (p q : Nat) (v : BitVec 64) (s : State) : Out := cqHeadWriteOp _a p q v s

/-- What PAV_QP_TOKEN_WRITE does (R453, Table 13-5): a LOCKED pair of which both words have been written since it was locked
goes to DETACHED. -/
def pavQpTokenWriteOp (_a : Actor) (p q word : Nat) (v : BitVec 64) (s : State) : Out :=
  .next (s.pageWrite fun s =>
    let s := s.setReg (if word = 0 then .pavQpToken0 else .pavQpToken1) p q v
    if s.qpState p q ≠ 4 then s
    else
      let x := s.pav p
      let m := tget x.lastTok q 0 ||| (if word = 0 then 1 else 2)
      if m = 3 then ((s.setPav p { x with lastTok := terase x.lastTok q }).wr F.pavQpState_FAILS p q 0).setQp p q 2
      else s.setPav p { x with lastTok := tset x.lastTok q m })

/-- PAV_QP_TOKEN_WRITE (R453, Table 13-5). -/
def execPavQpTokenWrite (_a : Actor) (p q word : Nat) (v : BitVec 64) (s : State) : Out := pavQpTokenWriteOp _a p q word v s

/-! ### Events (R456) -/

/-- A pending vector delivered once. -/
def State.flushVec (s : State) (p v : Nat) : State :=
  if s.flag F.pavEvec_PEND p v then (s.wr F.pavEvec_PEND p v 0).deliverVec p v else s

/-- A write of PAV_EVEC (R456): the RW fields take the value written, but a reserved HART, FILE or ID keeps its old value (R7); PEND is
cleared where 1 is written; a vector whose MASK is cleared delivers the event that it holds. -/
def State.evecWrite (s : State) (p vec : Nat) (v : BitVec 64) : State :=
  let n := v.toNat
  let was := s.flag F.pavEvec_MASK p vec
  let t := [F.pavEvec_V, F.pavEvec_MASK, F.pavEvec_KIND, F.pavEvec_QP].foldl
    (fun t f => t.wr f p vec (natField n f.hi f.lo)) s
  let id := natField n F.pavEvec_ID.hi F.pavEvec_ID.lo
  let t := if 1 ≤ id ∧ id ≤ 511 then t.wr F.pavEvec_ID p vec id else t
  let t := if natField n 24 18 < 96 then t.wr F.pavEvec_HART p vec (natField n 24 18) else t
  let t := if natField n 17 14 < 9 then t.wr F.pavEvec_FILE p vec (natField n 17 14) else t
  let t := if n.testBit 61 then t.wr F.pavEvec_PEND p vec 0 else t
  if was && !t.flag F.pavEvec_MASK p vec then t.flushVec p vec else t

/-- What PAV_EVEC_WRITE does (R456). -/
def pavEvecWriteOp (_a : Actor) (p vec : Nat) (v : BitVec 64) (s : State) : Out := .next (s.pageWrite fun s => s.evecWrite p vec v)

/-- PAV_EVEC_WRITE (R456). -/
def execPavEvecWrite (_a : Actor) (p vec : Nat) (v : BitVec 64) (s : State) : Out := pavEvecWriteOp _a p vec v s

/-! ### Completion records (R449) -/

/-- A completion record (Table 13-4). -/
def recordBytes (cid status ph sqHead qp tag sundial word : Nat) : List Byte :=
  leBytes 2 cid ++ leBytes 1 status ++ leBytes 1 ph ++ leBytes 2 sqHead ++ leBytes 1 qp ++ [0] ++ leBytes 8 tag
    ++ leBytes 8 sundial ++ leBytes 4 word ++ leBytes 4 0

/-- The phase of record place `tail`: 1 on the first pass, inverted on each wrap. -/
def State.phase (s : State) (p q tail : Nat) : Nat := if tail / s.cqSize p q % 2 = 0 then 1 else 0

/-- A request's record written at the CQ tail, with what follows it; `none` while the write waits. A write that faults
puts the pair in ERROR. -/
def State.writeRecord (s : State) (p : Nat) (r : Request) (status word : Nat) : Option State :=
  let q := r.qp
  let tail := s.rd F.pavQpState_CQ_TAIL p q
  let bs := recordBytes r.cid status (s.phase p q tail) r.sqHead q r.tag (s.rd F.pavSundial_COUNT p 0) word
  match s.pavWrite p (s.rd F.pavQpCq_BASE p q * 4096 + 32 * (tail % s.cqSize p q)) bs with
  | .wait => none
  | .fault _ _ t => some (t.setQp p q 5)
  | .ok _ t =>
    let t := t.wr F.pavQpState_CQ_TAIL p q ((tail + 1) % 65536)
    let t := if t.qpState p q = 3 then t.kmtPost (tget (t.pav p).sessions q 0) ⟨kmtCompletion, q, p, 0, 0, 0, 0, bs⟩ else t
    some (if r.evt then t.event p 0 q else t)

/-! ### Taking an entry (R448) -/

/-- Whether a pair has an entry and a free record place. -/
def State.qpQualifies (s : State) (p q : Nat) : Bool :=
  let st := s.qpState p q
  decide (1 ≤ st) && decide (st ≤ 4)
    && s.rd F.pavSqTail_TAIL p q != s.rd F.pavQpState_SQ_HEAD p q
    && decide (diff16 (s.rd F.pavQpState_CQ_TAIL p q) (s.rd F.pavCqHead_HEAD p q) < s.cqSize p q)

/-- A slice at the start of a request. -/
def SliceSt.begin (start issued : Nat) : SliceSt := { SliceSt.init with pc := start, run := true, issued := issued }

/-- The arguments of a RUN in the scalar registers of a bed. -/
def VecUnit.args (u : VecUnit) (args : List Nat) : VecUnit :=
  args.zipIdx.foldl (fun u (v, i) => { u with s := tset u.s (i + 1) (BitVec.ofNat 64 v), ws := (i + 1) :: u.ws }) u

/-- A RUN started: arguments, policy, empty loop stacks, the first word; the snapshot of an earlier request is gone. -/
def State.startRun (s : State) (p : Nat) (r : Request) (start : Nat) (args : List Nat) : State :=
  let s := (s.beds p).foldl (fun s b => s.setVec b ((s.vec b).args args)) s
  let n := ((s.dies p).map fun d => (s.slice p d).issued).foldl max 0
  let s := (s.dies p).foldl (fun s d => s.setSlice p d (.begin start n)) s
  let s := s.setPav p { s.pav p with
    req := some r, poison := false, ordf := [], confirmed := 0, suppress := 0, snap := none, snapNew := none, parts := []
    snapFail := false, stalled := false }
  s.setPavState p 2

/-- The next pair of a pavilion that qualifies, in ascending order after the last one served. -/
def State.nextQp (s : State) (p : Nat) : Option Nat :=
  ((List.range 16).map fun i => ((s.pav p).served + 1 + i) % 16).find? (s.qpQualifies p)

/-- The bytes of the entry at the head of a pair's SQ. -/
def State.sqRead (s : State) (p q : Nat) : VRes :=
  s.pavRead p (s.rd F.pavQpSq_BASE p q * 4096 + 64 * (s.rd F.pavQpState_SQ_HEAD p q % s.sqSize p q)) 64

/-- The state once an entry of a pair is taken: its head counted on. -/
def State.sqTaken (s : State) (p q h : Nat) : State :=
  let t := (s.wr F.pavQpState_SQ_HEAD p q h).wr F.pavStatus_LASTQP p 0 q
  t.setPav p { t.pav p with served := q }

/-- The request that an entry makes. -/
def requestOf (q h : Nat) (b : List Byte) : Request := ⟨q, fieldLe b 1 1 % 2 == 1, fieldLe b 2 2, fieldLe b 56 8, h⟩

/-- SQ_ENTRY_TAKE (R448): the next entry of the next pair that qualifies. -/
def execSqEntryTake (p : Nat) (s : State) : Out :=
  match s.nextQp p with
  | none => .next s
  | some q =>
    if s.pavState p != 1 || s.progLen p == 0 || s.flag F.pavStatus_PROG_BUSY p 0 then .next s
    else
      match s.sqRead p q with
      | .wait => .next s
      | .fault _ _ t => .next (t.setQp p q 5)
      | .ok bs t =>
        if !allReadable bs then .next (t.setQp p q 5)
        else
          let b := plain bs
          let h := (s.rd F.pavQpState_SQ_HEAD p q + 1) % 65536
          let t := t.sqTaken p q h
          if fieldLe b 0 1 = 1 ∧ fieldLe b 1 1 < 2 ∧ fieldLe b 4 4 < s.progLen p then
            .next (t.startRun p (requestOf q h b) (fieldLe b 4 4) ((List.range 6).map fun i => fieldLe b (8 + 8 * i) 8))
          else
            let status := if fieldLe b 0 1 = 2 ∧ fieldLe b 1 1 < 2 then St.success else St.invalidOp
            .next ((t.writeRecord p (requestOf q h b) status 0xFFFFFFFF).getD s)

/-- Whether every slice of a pavilion has issued HALT. -/
def State.allHalted (s : State) (p : Nat) : Bool := !(s.dies p).isEmpty && (s.dies p).all fun d => (s.slice p d).halted

/-- Whether an operation of a pavilion is incomplete. -/
def State.anyBusy (s : State) (p : Nat) : Bool := s.busy p fullScope (2 ^ 64) fun _ => true

/-- Whether an invalidation of a MOVE release of a pavilion is under way. -/
def State.moveInv (s : State) (p : Nat) : Bool := s.smmu.invq.any fun c => c.own && c.ast == s.ctxAst p

/-- The last word issued for a request, as its lead slice shows it. -/
def State.lastWord (s : State) (p : Nat) : Nat := (s.slice p (s.lead p)).last

/-- PAVILION_HALTED (R200, R449): the request ends with the success status once every operation is complete and the MOVEs
due at the halt are released (R313). -/
def execPavilionHalted (p : Nat) (s : State) : Out :=
  if s.pavState p != 2 || !s.allHalted p || s.anyBusy p || !(s.pav p).moves.isEmpty || s.moveInv p then .next s
  else
    match (s.pav p).req with
    | none => .next s
    | some r =>
      match s.writeRecord p r St.success (s.lastWord p) with
      | none => .next s
      | some t => .next ((t.setPav p { t.pav p with req := none }).setPavState p 1)

/-! ### The fence written by software (R445) -/

/-- What PAV_FENCE_WRITE does (R445): a write of 1 fences with the aborted status; in FENCED and RESETTING it changes nothing. -/
def pavFenceWriteOp (_a : Actor) (p : Nat) (v : BitVec 64) (s : State) : Out :=
  .next (s.pageWrite fun s => if v.toNat.testBit 0 && (s.pavState p == 1 || s.pavState p == 2) then s.fence p St.aborted else s)

/-- PAV_FENCE_WRITE (R445). -/
def execPavFenceWrite (_a : Actor) (p : Nat) (v : BitVec 64) (s : State) : Out := pavFenceWriteOp _a p v s

/-! ### The release of MOVEs (R302, R311 to R313) -/

/-- A record of a pavilion's MOVE log (Table 9-2), or its count in OVERRUN where the log has no place for it (log entry 50);
`none` while its memory waits. -/
def State.moveRecord (s : State) (p va oldPa tva size kind : Nat) : Option State :=
  let n := 2 ^ (s.rd F.pavMovelog_LOG2N p 0 + 7)
  let head := s.rd F.pavMovelogHead_HEAD p 0
  let a := s.rd F.pavMovelog_BASE p 0 * 4096 + 32 * (head % n)
  let bs := leBytes 8 va ++ leBytes 8 oldPa ++ leBytes 8 tva ++ leBytes 1 size ++ leBytes 1 kind ++ leBytes 1 p ++ leBytes 5 0
  if !s.flag F.pavMovelog_V p 0 || !s.systemPlot a then some (s.bump F.pavMovelogHead_OVERRUN p 0 1)
  else
    (s.pathWrite (.part (hashDie a) 0xFE) (some 1) none a bs).map fun s =>
      let s := if n ≤ head then s.bump F.pavMovelogHead_OVERRUN p 0 1 else s
      (s.wr F.pavMovelogHead_HEAD p 0 ((head + 1) % 2 ^ 32)).event p 7 0

/-- What a search for a leaf PTE ends with: its place, value and level, or that the address is not mapped, with the state after
the reads; or a wait for a line. -/
inductive Pte where
  | leaf (a e level : Nat) (s : State)
  | gone (s : State)
  | wait

/-- The leaf PTE of an address, read from the root. -/
def State.findPte (va : Nat) : (fuel level table : Nat) → State → Pte
  | 0, _, _, s => .gone s
  | fuel + 1, level, t, s =>
    if !s.systemPlot t then .gone s
    else
      let a := t + 8 * walkIndex level va
      match s.pathRead (.part (hashDie a) 0xFE) (some 1) a 8 with
      | none => .wait
      | some (bs, s) =>
        let e := leNat (plain bs)
        if !allReadable bs || !e.testBit 0 || badPte e level then .gone s
        else if e.testBit 1 then .leaf a e level s
        else findPte va fuel (level + 1) (natField e 51 8 * 256) s

/-- A PTE written; `none` while its line waits. -/
def State.putPte (s : State) (a e : Nat) : Option State :=
  s.pathWrite (.part (hashDie a) 0xFE) (some 1) none a (leBytes 8 e)

/-- Bytes that a leaf of a level maps, and its SIZE code. -/
def leafBytes (level : Nat) : Nat := if level = 1 then 2 ^ 30 else if level = 2 then 2 ^ 21 else 2 ^ 16
/-- SIZE of a release record. -/
def leafCode (level : Nat) : Nat := 3 - level

/-- A leaf page of a MOVE released (R311): the source PTE takes the target's frame, the target PTE becomes invalid, a record is
written. `none` while a line that this needs waits. -/
def State.releasePage (s : State) (p va tva a e b f level : Nat) : Option State :=
  let frame := natField f 51 8 * 256
  let old := natField e 51 8 * 256
  (s.putPte a (e - old + frame)).bind fun s => (s.putPte b (f - 1)).bind fun s => s.moveRecord p va old tva (leafCode level) 0

/-- The leaf pages of a MOVE released, in ascending virtual order. A position at which either mapping is gone is passed over (log
entry 49). -/
def State.releasePages (p : Nat) : (fuel va tva left : Nat) → State → Option State
  | 0, _, _, _, s => some s
  | fuel + 1, va, tva, left, s =>
    if left = 0 then some s
    else
      match State.findPte va 4 0 (s.ctxRoot p) s with
      | .wait => none
      | .gone s => releasePages p fuel (va + 65536) (tva + 65536) (left - min left 65536) s
      | .leaf a e level s =>
        match State.findPte tva 4 0 (s.ctxRoot p) s with
        | .wait => none
        | .gone s => releasePages p fuel (va + 65536) (tva + 65536) (left - min left 65536) s
        | .leaf b f _ s =>
          let k := leafBytes level
          (s.releasePage p va tva a e b f level).bind fun s => releasePages p fuel (va + k) (tva + k) (left - min left k) s

/-- Whether the release of a pavilion's MOVEs is due: at a MARK that every slice has reached, or at its halt (R302). -/
def State.releaseDue (s : State) (p : Nat) : Bool :=
  let v := s.pav p
  s.pavState p == 2 && !(s.dies p).isEmpty
    && ((s.allHalted p && !s.anyBusy p) || (s.dies p).all fun d => v.parts.contains d && (s.slice p d).held)

/-- MOVE_RELEASE (R311, R312): the oldest MOVE of the pavilion is released in one event, once its tables and log can be reached,
and its two range invalidations are entered. -/
def execMoveRelease (p : Nat) (s : State) : Out :=
  match (s.pav p).moves with
  | [] => .next s
  | m :: rest =>
    if !s.releaseDue p then .next s
    else
      match State.releasePages p (m.size / 65536) m.srcVa m.va m.size (s.setPav p { s.pav p with moves := rest }) with
      | none => .next s
      | some t => .next ((t.invOwn 0 (s.ctxAst p) m.srcVa m.size).invOwn 0 (s.ctxAst p) m.va m.size)

/-- The records of the pages of a MOVE that is discarded (R313). A page that is not mapped any more gets a record too, whose OLD_PA
is a free value (log entry 49). -/
def State.discardPages (p : Nat) : (fuel va tva left : Nat) → State → Option State
  | 0, _, _, _, s => some s
  | fuel + 1, va, tva, left, s =>
    if left = 0 then some s
    else
      match State.findPte va 4 0 (s.ctxRoot p) s with
      | .wait => none
      | .gone s =>
        let (f, s) := s.free
        (s.moveRecord p va f.toNat tva 0 1).bind
          fun s => discardPages p fuel (va + 65536) (tva + 65536) (left - min left 65536) s
      | .leaf _ e level s =>
        let k := leafBytes level
        (s.moveRecord p va (natField e 51 8 * 256) tva (leafCode level) 1).bind
          fun s => discardPages p fuel (va + k) (tva + k) (left - min left k) s

/-- Every unreleased MOVE of a pavilion discarded (R313); `none` while its tables or its log wait. -/
def State.discardMoves (s : State) (p : Nat) : Option State :=
  (s.pav p).moves.foldl (fun acc m => acc.bind (State.discardPages p (m.size / 65536) m.srcVa m.va m.size))
    (some (s.setPav p { s.pav p with moves := [] }))

/-! ### Replay (R213) -/

/-- Whether every exchange operation that a pavilion has issued is confirmed or has failed: none is about to take effect
or awaits a partner. One that still gathers its parts, or has not begun, has had no effect and counts as failed. -/
def State.xchSettled (s : State) (p : Nat) : Bool :=
  ((s.pav p).sigs.all fun g => !g.whole && !g.sent) && !(s.str.runs.any fun r => r.2.op.pav == p)

/-- Everything that a pavilion's slices had issued and that bed reset and restore take away; MOVEs of the region are
replayed. -/
def State.flushPav (s : State) (p : Nat) : State :=
  let v := s.pav p
  let s := s.setPav p { v with xq := [], sigs := [], ordf := [], moves := [] }
  (List.range 256).foldl (fun s e => if s.ownsEngine p e then s.setQueue (.eng e) [] else s) s

/-- The stopped contexts of a pavilion's engines return to LOADED (Table 8-1, R303). -/
def State.reloadContexts (s : State) (p : Nat) : State :=
  (List.range 256).foldl (fun s e => if s.ownsEngine p e then
    (List.range 16).foldl (fun s c => if s.rd F.seCtxStatus_STATE e c = 3 then s.wr F.seCtxStatus_STATE e c 1 else s) s
    else s) s

/-- The beds of a pavilion reset. -/
def State.resetBeds (s : State) (p : Nat) : State := (s.beds p).foldl State.bedReset s

/-- A snapshot restored to the beds and slices of a pavilion. -/
def State.restoreSnap (s : State) (p : Nat) (k : Snapshot) : State :=
  let s := k.vflags.foldl (fun s (b, f) => s.setReg .bedVflags b 0 f) s
  let s := k.drains.foldl (fun s (c, d) => s.restoreDrain c d) s
  let n := ((s.dies p).map fun d => (s.slice p d).issued).foldl max 0
  let s := (s.dies p).foldl (fun s d => s.setSlice p d { SliceSt.begin k.word n with
    buf := (s.slice p d).buf, loops := k.loops, poison := k.poison, last := (s.slice p d).last }) s
  let v := s.pav p
  s.setPav p { v with
    poison := k.poison, suppress := v.confirmed, parts := [], snapNew := none, snapFail := false, replay := false, stalled := false }

/-- A pavilion that only a pavilion reset beginning from now on makes fit for release: it is not clean, and no replay of it may
follow (R34, R163, R164). -/
def State.needReset (s : State) (p : Nat) : State :=
  (s.setPav p { s.pav p with replay := false, snap := none, snapNew := none, parts := [], soiled := true }).wr
    F.pavStatus_CLEAN p 0 0

/-- REPLAY_RESTORE (R213, R445): in a fenced pavilion whose replay is under way, once every exchange operation is
confirmed or has failed, the beds are reset, the snapshot is restored and issue resumes; not while a commit of the
pavilion is under way (R163). -/
def execReplayRestore (p : Nat) (s : State) : Out :=
  match (s.pav p).snap with
  | none => .next s
  | some k =>
    if s.pavState p != 3 || !(s.pav p).replay || !s.xchSettled p || s.committing p then .next s
    else
      let t := ((((s.flushPav p).resetBeds p).reloadContexts p).restoreSnap p k).armMark p
      let t := t.wr F.pavFence_CAUSE p 0 0
      .next (t.setPavState p 2)

end Sys2Proof.Machine
end

