-- ==== Sys2Proof/Machine/Collectives.lean ====
section
/-! DEFINITION. Collective operations (07.8, 14.9): ALLRED, RSCAT, AGATH and COLLECTIVE_DONE; and NaR written over a
region. -/

namespace Sys2Proof.Machine

/-! ### NaR over a region (R268, R499) -/

/-- `n` bytes of NaR in a format of Table 8-3a: whole blocks for accumulator formats, without the remainder. -/
def narRegion (fmt n : Nat) : List Byte :=
  let rep := fun (u : List Byte) => (List.replicate (n / u.length) u).flatten
  match fmt with
  | 5 => rep (blockNaR .a64l)
  | 6 => rep (blockNaR .a64i)
  | 7 => rep (blockNaR .a128)
  | _ => rep (narBytes fmt 1)

/-- Bytes written by virtual address for an engine, line by line. -/
def State.engWrite (s : State) (e p va : Nat) (bs : List Byte) : VRes :=
  (linePieces va bs.length).foldl (fun acc (a, k) =>
    match acc with
    | .ok _ s =>
      match s.xlat p a .w none (.engine e) with
      | .wait => .wait
      | .fault cause level s => .fault St.xlatFault a (s.recordXlat p a (.engine e) cause level)
      | .ok pa bias cc s =>
        if State.engHold e p true s pa (s.pathOf (.engine e p) pa bias cc) then .wait else
        match s.writeAs (.engine e p) bias cc pa ((bs.drop (a - va)).take k) with
        | .done _ s => .ok [] s
        | .wait => .wait
        | .refuse code s => .fault code a s
    | x => x) (.ok [] s)

/-! ### Start (R265, R501) -/

/-- Whether a descriptor and plan stop suit a collective of a format: 8 ALLRED, 9 RSCAT, 10 AGATH. The descriptor's format is the
one that the operation selects (R260; log entry 29). -/
def colFits (kind fmt : Nat) (d : Desc) (t : PlanStop) : Bool :=
  d.fmt == 5 + fmt && d.tgt == 3 && !d.car && d.gs == 0 && !d.tr && !d.move
    && ((decide (5 ≤ d.fmt) && decide (d.fmt ≤ 7)) || (kind == 10 && d.fmt == 8))
    && (kind == 10 || d.total % (t.count * 528) == 0) && (kind == 8 || !t.tree)

/-- The stop of an engine in a plan of a pavilion. -/
def State.planStop (s : State) (p plan e : Nat) : Option PlanStop :=
  s.lnk.plans.find? fun t => t.pav == p && t.plan == plan && t.eng == e

/-- A collective put in progress. With a partner already lost it meets the loss at once (R268): DSTILE, which counts as bound to
it, breaks on the abort path here and on the poison path with the result. -/
def State.beginCollective (s : State) (e c kind : Nat) (o : UnitOp) (base : Nat) (t : PlanStop) : State :=
  let st := opField o 25 10
  let s := (s.beginRun e c kind o base false [] (some ⟨kind, t, st, [], 0, false⟩)).xchTake kind o
  if !t.partners.any s.devLost then s
  else
    match tfind s.str.runs (e, c) with
    | some x => if o.poison then s.runLost e c x 0 else (s.runLost e c x 0).wr F.stlState_BROKEN st 0 1
    | none => s

/-- A collective started, waiting, or faulting with the invalid-operation status. -/
def State.startCollective (s : State) (kind : Nat) (o : UnitOp) : State :=
  let e := opField o 47 40
  let c := opField o 39 36
  let plan := opField o 35 28
  let st := s.rd F.seCtxStatus_STATE e c
  let d := s.desc e c
  let bad := fun (s : State) (code : Nat) => (s.xchTake kind o).opFault o.pav code 0x09 (e / 4)
  if s.pavState o.pav ≠ 2 ∨ !s.xchReady (e / 32) kind o || !s.ctxFree e c || s.bedsClosed o then s
  else
    match s.planStop o.pav plan e with
    | none => bad s St.invalidOp
    | some t =>
      if (st ≠ 1 ∧ st ≠ 4) ∨ !colFits kind (opField o 27 26) d t then bad s St.invalidOp
      else if 65536 < s.bufUsed e + d.reserve then s
      else
        let base := d.start 0
        match s.beginChecks e o d base false with
        | .wait => s
        | .fault code s => bad s code
        | .abort code va s => (s.xchTake kind o).ctxFault e c o.pav code va
        | .go _ s => s.beginCollective e c kind o base t

/-- ALLRED (R265, R502, R503). -/
def execAllred (o : UnitOp) (s : State) : Out := .next (s.startCollective 8 o)

/-- RSCAT (R265, R502). -/
def execRscat (o : UnitOp) (s : State) : Out := .next (s.startCollective 9 o)

/-- AGATH (R265, R502). -/
def execAgath (o : UnitOp) (s : State) : Out := .next (s.startCollective 10 o)

/-! ### Completion -/

/-- Whether a collective has sent every byte that its stop sends. -/
def ColSt.sentAll (t : ColSt) (d : Desc) : Bool := t.sends.all fun e => tget t.sent (e.1, e.2.1) 0 == t.chunk d

/-- The end of a collective's context. -/
def State.endCollective (s : State) (e c code : Nat) : State :=
  ((s.wr F.seCtxStatus_STATE e c 4).wr F.seCtxStatus_CODE e c code).endRun e c

/-- The run of a plan's collective on an engine, with its key. -/
def State.colRun (s : State) (p eng plan : Nat) : Option ((Nat × Nat) × RunSt) :=
  s.str.runs.find? fun r => r.1.1 == eng && r.2.op.pav == p && r.2.col.any fun t => t.stop.plan == plan

/-- COLLECTIVE_DONE (R265, R267, R268, R505): the result is complete at its endpoint and 1 is added to DSTILE. With a
partner lost on the poison path the whole result is written as NaR and DSTILE is BROKEN; refused, the collective ends
with the remote-refused status. -/
def execCollectiveDone (p eng plan : Nat) (s : State) : Out :=
  match s.colRun p eng plan with
  | none => .next s
  | some ((_, c), x) =>
    match x.col with
    | none => .next s
    | some t =>
      let d := s.desc eng c
      if x.dead || s.pavState p != 2 || !x.reqs.isEmpty then .next s
      else if x.lost then
        match s.engWrite eng p d.aux (narRegion d.fmt (t.result d)) with
        | .wait => .next s
        | .fault code va u => .next (u.runFault eng c code va)
        | .ok _ u => .next (((u.wr F.stlState_BROKEN t.dstile 0 1).endCollective eng c St.peerLost).colClear t d)
      else if t.result d ≤ t.wr && t.sentAll d then
        .next ((((s.addStile t.dstile 1).confirm p).endCollective eng c St.success).colClear t d)
      else if t.refused then .next (s.runFault eng c St.remoteRefused 0)
      else .next s

end Sys2Proof.Machine
end

