-- ==== Sys2Proof/Machine/Ports.lean ====
section
/-! DEFINITION. Link ports (14.4, 14.6 to 14.8): agreement gating, link frames, credits, acknowledgment, the choice of
the next frame, hostile events, and what the loss of a port or a device does. -/

namespace Sys2Proof.Machine

/-! ### Places and numbers -/

/-- The die number of the hub (Table 1-6). -/
def hubDie : Nat := 10

/-- Whether a port's partner is up: UP, SLOW or RETRAIN. -/
def State.lpUp (s : State) (n : Nat) : Bool := s.lpState n == 3 || s.lpState n == 4 || s.lpState n == 5

/-- The partner's device ID, if the port has a partner. -/
def State.peerDev (s : State) (n : Nat) : Option Nat := (s.port n).partner.map (·.dev)

/-- Bytes of a frame on the link without tag and CRC (R478). -/
def OFrame.size (f : OFrame) : Nat := 32 + f.payload.length

/-- Credits that a frame needs (R478). -/
def OFrame.credits (f : OFrame) : Nat := (f.size + 255) / 256

/-- Whether a type is a response (Table 14-6). -/
def isResponse (typ : Nat) : Bool := decide (0x11 ≤ typ) && decide (typ ≤ 0x14)

/-- The order of sequence numbers modulo 2^32. -/
def seqBefore (a b : Nat) : Bool := a != b && decide ((b + 2 ^ 32 - a % 2 ^ 32) % 2 ^ 32 < 2 ^ 31)

/-! ### Agreement gating (R179) -/

/-- Whether a port carries frames of a pavilion: its group is not in the port's list, or is AGREED. -/
def State.agrees (s : State) (n p : Nat) : Bool :=
  match s.beaconIx n (s.groupOf p) with
  | none => true
  | some i => s.rd F.trlAgree_STATE n i == 2

/-- Every agreement entry of a port goes to UNAGREED (Table 5-9). -/
def State.unagree (s : State) (n : Nat) : State := (List.range 8).foldl (fun s i => s.wr F.trlAgree_STATE n i 0) s

/-! ### Link frames, credits and acknowledgment (R477 to R480) -/

/-- A LACK with the last LSEQ received in order, or a LNAK (Table 14-6). -/
def State.putAck (s : State) (n : Nat) (nak : Bool) : State :=
  let last := ((s.port n).lseqRx + 2 ^ 32 - 1) % 2 ^ 32
  (s.putLink n ⟨0x23, nak, beBytes 4 last ++ beBytes 4 0⟩).onPort n fun x => { x with unacked := 0, lackDue := false }

/-- Credits of a VC at a port with nothing waiting (Table 14-7). -/
def vcCredits (vc : Nat) : Nat := if vc = 0 then 512 else if vc = 1 ∨ vc = 4 ∨ vc = 5 then 128 else 256

/-- The bytes, in hundredths, that the credit bucket of a port holds now (R474). -/
def State.creditNow (s : State) (n : Nat) (g : GateRule) : Nat :=
  let (v, t) := (s.port n).bucket
  min (g.bucket * 65536 * 100) (v + (s.mtime - t) * g.rate * 64)

/-- How many of `owed` credits the link throttle of the power cap lets a port return now (R558): LINKS % of 100 bytes/ns since it
last returned any. -/
def State.throttled (s : State) (n owed : Nat) : Nat :=
  let pct := s.rd F.pwrCap_LINKS 0 0
  if pct = 100 then owed else min owed ((s.mtime - (s.port n).bucket.2) * 10 * pct / 256)

/-- How many of `owed` credits may be returned now, at the lower of the two rates (R474, R560). -/
def State.payable (s : State) (n owed : Nat) : Nat :=
  match (s.port n).partner with
  | some p => if p.rule.rate = 0 then s.throttled n owed else min (s.throttled n owed) (s.creditNow n p.rule / 25600)
  | none => s.throttled n owed

/-- Owed credits returned in a CREDIT frame, as many as the pacing allows, VC by VC. -/
def State.putCredit (s : State) (n : Nat) : State :=
  let x := s.port n
  let (pay, _) := (List.range 6).foldl (fun (acc : List Nat × Nat) vc =>
    let k := min (tget x.owed vc 0) acc.2
    (acc.1 ++ [k], acc.2 - k)) ([], s.payable n (((List.range 6).map fun vc => tget x.owed vc 0).sum))
  if pay.sum = 0 then s
  else
    let now := match x.partner with
      | some p => s.creditNow n p.rule
      | none => 0
    (s.putLink n ⟨0x22, false, pay.flatMap (beBytes 2)⟩).onPort n fun x => { x with
      owed := (List.range 6).map fun vc => (vc, tget x.owed vc 0 - pay.getD vc 0)
      bucket := (now - pay.sum * 25600, s.mtime) }

/-- A LACK, with the credits that are owed (R478, R479), or a LNAK. -/
def State.putLack (s : State) (n : Nat) (nak : Bool) : State := if nak then s.putAck n true else (s.putAck n false).putCredit n

/-- Every frame of the replay buffer sent again, in order (R479). -/
def State.resendAll (s : State) (n : Nat) : State := s.onPort n fun x => { x with resend := x.replay.map (·.1) }

/-- Frames up to an LSEQ acknowledged. -/
def State.linkAcked (s : State) (n last : Nat) : State :=
  s.onPort n fun x =>
    { x with
      replay := x.replay.filter fun e => seqBefore last e.1
      resend := x.resend.filter fun e => seqBefore last e
      oldTx := x.oldTx.filter fun e => seqBefore last e }

/-! ### Hostile events (R473) and port states (Table 14-11) -/

/-- A session that ends takes its queue pairs with it (R487); alarms that it has not acknowledged stay queued (R598). -/
def State.loseSession (s : State) (k : Nat) : State :=
  let s := { s with
    lnk := { s.lnk with kmt := terase s.lnk.kmt k }
    tel := { s.tel with
      subs := s.tel.subs.filter (· != k)
      queue := s.tel.queue.map fun e => if e.2.1.any fun x => x.1 == k then (e.1, none, e.2.2) else e } }
  (List.range 64).foldl (fun s p =>
    ((s.pav p).sessions.filter fun e => e.2 == k).foldl (fun s e =>
      let s := s.unbindQp p e.1
      if s.qpState p e.1 = 3 then s.setQp p e.1 2 else s) s) s

/-- The KMT sessions of a port lost. -/
def State.losePortSessions (s : State) (n : Nat) : State :=
  (s.lnk.kmt.filter fun e => e.2.port == n).foldl (fun s e => s.loseSession e.1) s

/-- An answer to a request of this device that no partner gives. -/
def State.failReq (s : State) (r : OutReq) (code : Nat) : State :=
  match r.asker with
  | .run e c =>
    match tfind s.str.runs (e, c) with
    | none => s
    | some x => s.setRun e c { x with reqs := x.reqs.map fun q =>
        if q.remote && q.tag == r.frame.tag && q.resp.isNone then { q with resp := some (code, []) } else q }
  | .hart h _ => s.send (.trap h (if r.frame.typ = 2 then 5 else 7))
  | .token p seq =>
    let poison := (s.pav p).sigs.any fun g => g.op.seq == seq && g.op.poison
    let s := s.dropSig p seq
    if poison && code == St.peerLost then s else s.faultPav p (FaultReport.blank code 1 0x0A (s.lead p) p)

/-- The requests that a test picks end with a status. -/
def State.failReqs (s : State) (pick : OutReq → Bool) (code : Nat) : State :=
  let rs := s.lnk.outst.filter pick
  rs.foldl (fun s r => s.failReq r code) { s with lnk := { s.lnk with outst := s.lnk.outst.filter fun r => !pick r } }

/-- Bytes forced into memory as an access of a pavilion's window (R499), whatever waits there (log entry 79). -/
def State.forceWrite (s : State) (p a : Nat) (bs : List Byte) : State :=
  (linePieces a bs.length).foldl (fun s (x, k) =>
    let d := (bs.drop (x - a)).take k
    if inCells x then s.store x d
    else (s.pathWrite (s.pathOf (.window p) x false true) (some 3) none x d).getD (s.gddrWrite (x / 256) (x % 256) d)) s

/-- The window fill of R499 for a lost device. -/
def State.windowFill (s : State) (d : Nat) : State :=
  (List.range 4096).foldl (fun s w =>
    let p := s.rd F.wsEntry2_PAV w 0
    let code := natField (s.reg .lpWfill (w / 16) 0).toNat (4 * (w % 16) + 3) (4 * (w % 16))
    let srcdev := s.rd F.wsEntry2_SRCDEV w 0
    if s.flag F.wsEntry3_V w 0 && srcdev == d && (s.rd F.wsEntry2_PERM w 0).testBit 3 && decide (code ≤ 8)
        && (s.pav p).poison then
      let s := s.forceWrite p (s.rd F.wsEntry0_BASE w 0) (narRegion code (s.rd F.wsEntry1_SIZE w 0))
      let s := if s.flag F.pavFenceInfo_V p 0 then s
        else
          ((((s.wr F.pavFenceInfo_V p 0 1).wr F.pavFenceInfo_CODE p 0 St.peerLost).wr F.pavFenceInfo_DIE p 0 hubDie).wr
            F.pavFenceInfo_SLOT p 0 0xF).wr F.pavFenceInfo_LBED p 0 0xFF
      s.bump F.pavFenceInfo_COUNT p 0 1
    else s) s

/-- The DSTILEs of running collectives on the abort path that count as bound to a device (R265). On the poison path
COLLECTIVE_DONE breaks DSTILE once the result is NaR (R268). -/
def State.lostDstiles (s : State) (d : Nat) : List Nat :=
  s.str.runs.filterMap fun r => r.2.col.bind fun t =>
    if t.stop.partners.contains d && !r.2.op.poison && !r.2.dead then some t.dstile else none

/-- Every stile bound to a device BROKEN (R208): those that BIND bound, and the DSTILEs `ds`. -/
def State.breakStiles (s : State) (d : Nat) (ds : List Nat) : State :=
  (((s.binds.filter fun e => e.2 == d).map (·.1)) ++ ds).foldl (fun s st => s.wr F.stlState_BROKEN st 0 1) s

/-- The collectives whose plan names a device meet its loss (R268). -/
def State.loseCollectives (s : State) (d : Nat) : State :=
  (s.str.runs.filter fun r => r.2.col.any (fun t => t.stop.partners.contains d) && !r.2.dead && !r.2.lost).foldl
    (fun s r => match tfind s.str.runs r.1 with
      | some x => s.runLost r.1.1 r.1.2 x 0
      | none => s) s

/-- Steps 4 to 6 of R498 on the ports of a lost partner and the sessions that a test picks beside theirs. -/
def State.partnerGone (s : State) (ports : List Nat) (pick : KmtSt → Bool) (port info : Nat) : State :=
  let s := ports.foldl State.unagree s
  let s := (s.lnk.kmt.filter fun e => ports.contains e.2.port || pick e.2).foldl (fun s e => s.loseSession e.1) s
  s.alarm hubDie 0x12 { FaultReport.blank St.peerLost 1 0x10 hubDie 0xFF with port := port, info := info }

/-- A device lost (R497, R498): its bit is set, its requests end, its windows are filled, its stiles break; agreement on its ports
and its sessions are lost, and the partner-lost alarm is raised. -/
def State.loseDevice (s : State) (d : Nat) : State :=
  if s.devLost d ∨ 512 ≤ d then s
  else
    let w := s.reg .lpDevlost (d / 64) 0
    let s := s.setReg .lpDevlost (d / 64) 0 (w ||| BitVec.ofNat 64 (2 ^ (d % 64)))
    let s := s.failReqs (fun r => r.frame.dst == d) St.peerLost
    let ds := s.lostDstiles d
    let s := ((s.loseCollectives d).windowFill d).breakStiles d ds
    s.partnerGone (allPorts.filter fun n => s.peerDev n == some d) (fun k => k.partner.any fun p => p.dev == d) 0xFF d

/-- The sibling of a torus port (R464). -/
def sibling (n : Nat) : Option Nat := if n < 12 then some (if n % 2 = 0 then n + 1 else n - 1) else none

/-- A response of this device to a request, put on a port (14.4); it carries the pavilion that answers. Where no port
qualifies it is dropped. -/
def State.putResponse (s : State) (f : OFrame) (typ status offset pav : Nat) (payload : List Byte) : State :=
  let r : OFrame := { f with
    typ := typ, fin := true, dst := f.src, src := s.devId, srcpav := pav, hops := 0, keyid := 0, status := status
    offset := offset, payload := payload, late := false }
  match s.route r.dst pav none with
  | .port n => s.putFrame n r
  | .fail _ => s

/-- Frames that no port can carry (R492): a transit request is answered, everything else is dropped. -/
def State.unroutable (s : State) (f : OFrame) : State :=
  if f.src = s.devId ∨ isResponse f.typ then s else s.putResponse f 0x13 St.peerLost 0x20 0 []

/-- The frames of a port move to its sibling once the partner says what it has (R482): a FAILOVER goes out there with the
last LSEQ received in order on this port. -/
def State.failoverTo (s : State) (n m : Nat) : State :=
  let last := ((s.port n).lseqRx + 2 ^ 32 - 1) % 2 ^ 32
  (s.onPort n fun x => { x with moving := true }).putPeer m ⟨0x27, false, beBytes 4 0 ++ beBytes 4 last⟩

/-- The sibling of a port that is UP to the same neighbour, both IDs assigned: only such a session carries FAILOVER (R471). -/
def State.goodSibling (s : State) (n : Nat) : Option Nat :=
  (sibling n).filter fun m => s.lpOpen m && s.idsKnown m && s.peerDev m == s.peerDev n

/-- A port whose partner is lost with no sibling to take its frames. -/
def State.dropFrames (s : State) (n : Nat) : State :=
  let fs := (s.port n).txq
  fs.foldl State.unroutable (s.onPort n fun x => { x with txq := [], replay := [], resend := [], linkq := [], moving := false })

/-- The partner of a port that left UP, SLOW or RETRAIN with no sibling UP: lost unless another port to it is up (R497, R498). A
partner with no device ID is lost with its port. -/
def State.losePartner (s : State) (n : Nat) : State :=
  match s.peerDev n with
  | some d =>
    if (if d < 512 then allPorts.any fun k => k != n && s.peerDev k == some d && s.lpUp k else (sibling n).any s.lpUp) then (s.unagree n).losePortSessions n
    else if s.devLost d ∨ 512 ≤ d then s.partnerGone [n] (fun _ => false) n 0
    else s.loseDevice d
  | none => (s.unagree n).losePortSessions n

/-- A port that leaves UP, SLOW or RETRAIN for another state (R482, R497, R498): with a sibling UP its frames move
there, else the partner is lost. -/
def State.leavePort (s : State) (n st : Nat) : State :=
  let up := s.lpUp n
  let s := ((s.wr F.lpStatus_STATE n 0 st).wr F.lpStatus_PEER_V n 0 0).wr F.lpStatus_LANES n 0 0
  let s := s.onPort n fun x => { x with hs := none, waiting := false }
  if !up then s.losePortSessions n
  else
    match s.goodSibling n with
    | some m =>
      let s := (s.unagree n).failoverTo n m
      (if st = 6 then s.bump F.lpLinkcnt_FAILOVERS n 0 1 else s).losePortSessions n
    | none =>
      let s := s.losePartner n
      let s := match sibling n with
        | some m => if (s.port m).moving then s.dropFrames m else s
        | none => s
      s.dropFrames n

/-- A contained-fault or corrected-fault alarm of a port. -/
def State.portAlarm (s : State) (n code cls : Nat) : State :=
  s.alarm hubDie code { FaultReport.blank St.success cls 0x10 hubDie 0xFF with port := n }

/-- Ticks of 10 ns in a millisecond. -/
def tickMs : Nat := 100000

/-- One hostile event at a port; when those of any 1 ms reach the limit, the port is quarantined (R473). -/
def State.hostile (s : State) (n : Nat) : State :=
  let now := s.mtime
  let l := ((s.port n).hostile.filter fun t => decide (now < t + tickMs)) ++ [now]
  let s := s.onPort n fun x => { x with hostile := l }
  if s.lpOpen n ∧ s.rd F.lpQuar_LIMIT n 0 ≤ l.length then
    ((s.leavePort n 7).bump F.lpQuar_QUARS n 0 1).portAlarm n 0x02 1
  else s

/-! ### The next frame of a port (R490, R493) -/

/-- Whether a hop on a port crosses the dateline of its dimension (R490). -/
def State.crosses (s : State) (n : Nat) : Bool :=
  let k := n / 4
  let c := (coords s.devId).getD k 0
  decide (n < 12) && (if n / 2 % 2 = 0 then c + 1 == s.sizes.getD k 1 else c == 0)

/-- The virtual channel of a frame on a port (R490). -/
def State.vcOf (s : State) (n : Nat) (f : OFrame) : Nat :=
  let r := boolNat (isResponse f.typ)
  if s.peerDev n = some f.dst then r else if f.late || s.crosses n then 3 + 2 * r else 2 + 2 * r

/-- The pavilion of this device that a frame belongs to, if it is local. -/
def State.framePav (s : State) (f : OFrame) : Nat := if f.src = s.devId then f.srcpav else 0xFF

/-- Whether a frame may go out on a port now: it has its credits, its group agrees and the replay buffer has room. -/
def State.canSend (s : State) (n : Nat) (f : OFrame) : Bool :=
  let x := s.port n
  decide (f.credits ≤ tget x.cred (s.vcOf n f) 0) && s.agrees n (s.framePav f)
    && decide ((x.replay.map fun e => e.2.size + 20).sum + f.size + 20 ≤ 524288)

/-- Arbitration group of a frame: 100 transit, else the pavilion of the local group; harts and the Keeper are group 64. -/
def State.armOf (s : State) (f : OFrame) : Nat :=
  if f.src = s.devId then (if f.tag.testBit 7 || 64 ≤ f.srcpav then 64 else f.srcpav) else 100

/-- Bytes of a group's round: sixteenths of the port for transit, shares of the local group, in 4 KiB quanta. -/
def State.quantum (s : State) (n g : Nat) : Nat :=
  let twt := s.rd F.lpCtl_TWT n 0
  4096 * (if g = 100 then twt else if g = 200 then 16 - twt
    else (((s.port n).share.find? fun e => e.1 == g).map (·.2)).getD 1)

/-- The first frame of a list whose group has bytes left in its round, else the first frame, the round beginning anew. -/
def State.turn (s : State) (n : Nat) (fs : List OFrame) (key : OFrame → Nat) : Option (OFrame × Bool) :=
  match fs.find? fun f => decide (tget (s.port n).used (key f) 0 < s.quantum n (key f)) with
  | some f => some (f, false)
  | none => fs.head?.map fun f => (f, true)

/-- The first frame of each virtual channel, group and class that is ready, in the order of waiting: frames of one
channel and pavilion stay in order. -/
def State.heads (s : State) (n : Nat) (fs : List OFrame) : List OFrame :=
  (fs.foldl (fun (acc : List OFrame × List (Nat × Nat)) f =>
    let k := (s.vcOf n f, s.armOf f)
    if acc.2.contains k then acc else (acc.1 ++ [f], k :: acc.2)) ([], [])).1.filter (s.canSend n)

/-- A round of shares begun anew for the groups of a list. -/
def PortSt.fresh (x : PortSt) (keys : List Nat) : PortSt := { x with used := keys.foldl (fun u k => terase u k) x.used }

/-- The next request by the two levels of R493, and the port as its shares then stand. -/
def State.nextRequest (s : State) (n : Nat) (fs : List OFrame) : Option (OFrame × PortSt) :=
  let hs := s.heads n fs
  let arm := s.armOf
  let top := fun f => if arm f = 100 then 100 else 200
  match s.turn n hs top with
  | none => none
  | some (f, new) =>
    let x := if new then (s.port n).fresh [100, 200] else s.port n
    let charge := fun (x : PortSt) (k : Nat) (f : OFrame) => { x with used := tset x.used k (tget x.used k 0 + f.size) }
    if arm f = 100 then some (f, charge x 100 f)
    else
      match s.turn n (hs.filter fun f => arm f != 100) arm with
      | none => none
      | some (g, new) =>
        let x := if new then x.fresh (List.range 65) else x
        some (g, charge (charge x 200 g) (arm g) g)

/-- The bytes of an ASCII string. -/
def asciiBytes (t : String) : List Byte := t.toUTF8.toList.map fun b => BitVec.ofNat 8 b.toNat

/-- The next key of a direction, its salt kept (R485). -/
def nextKey (k : List Byte) : List Byte := Config.hkdfExpand (k.take 32) (asciiBytes "KX-RK") 32 ++ k.drop 32

/-- The sender of an encrypted port changes to the next key and epoch and inverts KPH, as a counter is about to wrap (R485). -/
def PortSt.turnTx (x : PortSt) : PortSt :=
  if x.enc then { x with
    txPhase := !x.txPhase, txEpoch := x.txEpoch + 1, oldTx := x.replay.map (·.1)
    partner := x.partner.map fun p => { p with txKey := nextKey p.txKey } }
  else x

/-- A link frame takes the next control counter. -/
def PortSt.count (x : PortSt) : PortSt :=
  let x := { x with ctlTx := (x.ctlTx + 1) % 2 ^ 32 }
  if x.ctlTx = 0 then x.turnTx else x

/-- The phase of an authenticated frame taken (R485): the first frame of another phase changes the receiving key, and both phases
are accepted for the 64 frames after it. -/
def PortSt.rxKph (x : PortSt) (kph : Bool) : PortSt :=
  if !x.enc then x
  else if kph = x.rxPhase ∨ 0 < x.rxOld then { x with rxOld := x.rxOld - 1 }
  else { x with
    rxPhase := kph, rxEpoch := x.rxEpoch + 1, rxOld := 64, ctlRx := 0
    partner := x.partner.map fun p => { p with rxKey := nextKey p.rxKey } }

/-- A frame sent on a port for the first time: it takes the next LSEQ and its credits, and is kept for replay. -/
def State.sendNew (s : State) (n : Nat) (x : PortSt) (f : OFrame) : State :=
  let vc := s.vcOf n f
  let y := { x with
    txq := x.txq.erase f
    replay := x.replay ++ [(x.lseqTx, f)]
    lseqTx := (x.lseqTx + 1) % 2 ^ 32
    cred := tset x.cred vc (tget x.cred vc 0 - f.credits)
    since := if isResponse f.typ then 0 else x.since + 1 }
  (s.setPort n (if y.lseqTx = 0 then y.turnTx else y)).send (.slp n x.lseqTx vc x.txPhase f)


/-- The next frame of a scheduled port: link frames first, then frames to be sent again, then responses, at most one
frame in four while requests wait, then requests. While the frames of its sibling move to it, it sends link frames only
(R482). -/
def State.slpSend (s : State) (n : Nat) : State :=
  let x := s.port n
  match x.linkq with
  | f :: q =>
    let x := { x with linkq := q }
    (s.setPort n x.count).send (.link n x.ctlTx x.txPhase f)
  | [] =>
    if ((sibling n).any fun m => (s.port m).moving) then s else
    match x.resend with
    | l :: q =>
      let s := s.setPort n { x with resend := q }
      match tfind x.replay l with
      | some f => s.send (.slp n l (s.vcOf n f) (x.txPhase != x.oldTx.contains l) f)
      | none => s
    | [] =>
      let reqs := x.txq.filter fun f => !isResponse f.typ
      let resp := (s.heads n (x.txq.filter fun f => isResponse f.typ)).head?
      let req := s.nextRequest n reqs
      match resp, req with
      | some f, none => s.sendNew n x f
      | some f, some (g, y) => if 3 ≤ x.since then s.sendNew n x f else s.sendNew n y g
      | none, some (g, y) => s.sendNew n y g
      | none, none => s

end Sys2Proof.Machine
end

