-- ==== Sys2Proof/Machine/Handshake.lean ====
section
/-! DEFINITION. Link-up (14.2): the PMD, the handshake, its rules and keys, for links and for KMT sessions. -/

namespace Sys2Proof.Machine

/-! ### HELLO and FINISH (R467 to R469) -/

/-- Free bytes. -/
def State.freeBytes (s : State) (words : Nat) : List Byte × State :=
  (List.range words).foldl (fun (acc : List Byte × State) _ =>
    let (v, s) := acc.2.free
    (acc.1 ++ leBytes 8 v.toNat, s)) ([], s)

/-- A handshake begun: the HELLO of this device with a fresh key and nonce (Table 14-2, step 1). -/
def State.beginHs (s : State) : HsSt × State :=
  let (eph, s) := s.freeBytes 6
  let (nonce, s) := s.freeBytes 4
  (⟨s.lnk.idChain ++ Config.publicKey eph ++ nonce ++ beBytes 2 s.devId, nonce, eph, none⟩, s)

/-- The bytes of a HELLO received. -/
def helloBytes (h : HelloMsg) : List Byte := h.chain ++ h.ephemeral ++ h.nonce ++ beBytes 2 h.devId

/-- Whether an admission rule matches a partner (Table 14-3, R469). -/
def State.ruleMatches (s : State) (h : HelloMsg) (g : GateRule) : Bool :=
  let root := Config.chainRoot h.chain
  match g.mat with
  | 0 => root == Config.deviceRoot && (h.devId == 0xFFFF || g.dev == 0xFFFF || g.dev == h.devId)
  | 1 => (Config.sha384 h.pubKey).take 16 == g.kh
  | 2 => (s.lnk.anchors[(g.kh.headD 0).toNat]?).any (root == ·)
  | _ => false

/-- Whether a partner's chain verifies to some root, is not revoked, and certifies the key. -/
def State.chainSound (s : State) (h : HelloMsg) : Bool :=
  !(Config.chainRoot h.chain).isEmpty && !Config.chainRevoked h.chain s.lnk.revoked && Config.chainKey h.chain == h.pubKey
    && decide (h.chain.length ≤ 4096) && h.ephemeral.length == 97 && h.nonce.length == 32

/-- Whether a partner's chain is good: sound, and leading to the device root or a host anchor. -/
def State.chainOk (s : State) (h : HelloMsg) : Bool :=
  let root := Config.chainRoot h.chain
  s.chainSound h && (root == Config.deviceRoot || s.lnk.anchors.contains root)

/-- The rule under which a management session stands (R598): it admits no window, queue or transit traffic. -/
def mgmtRule : GateRule := ⟨0, 2, 0xFFFF, 0, 0, 0, 0, 0, 0, []⟩

/-- The rules of a port that match a partner, lowest first. On the management port the chain must lead to a management
anchor. -/
def State.rulesFor (s : State) (n : Nat) (h : HelloMsg) : List GateRule :=
  if n = 16 then
    if s.chainSound h && s.kpr.cfg.mgmt.contains (Config.chainRoot h.chain) then [mgmtRule] else []
  else if s.chainOk h then (tget s.lnk.rules n []).filter (s.ruleMatches h) else []

/-- The device ID under which a partner's frames come. -/
def partnerDev (h : HelloMsg) (g : GateRule) : Nat := if g.mat = 0 then h.devId else g.dev

/-- Whether this device is side A: the lower key hash as a big-endian number. -/
def State.sideA (s : State) (h : HelloMsg) : Bool :=
  decide (beNat (Config.sha384 (Config.publicKey s.lnk.idKey)) < beNat (Config.sha384 h.pubKey))

/-- HELLO(A) followed by HELLO(B). -/
def State.transcript (s : State) (k : HsSt) (h : HelloMsg) : List Byte :=
  if s.sideA h then k.own ++ helloBytes h else helloBytes h ++ k.own

/-- The partner with the keys of R468; `info` names a link or a KMT session. -/
def State.partnerOf (s : State) (k : HsSt) (h : HelloMsg) (g : GateRule) (info : String) : Partner :=
  let a := s.sideA h
  let salt := if a then k.nonce ++ h.nonce else h.nonce ++ k.nonce
  let out := Config.hkdf (Config.ecdh k.eph h.ephemeral) salt (asciiBytes info) 72
  let ka := out.take 32 ++ (out.drop 64).take 4
  let kb := (out.drop 32).take 32 ++ (out.drop 68).take 4
  ⟨partnerDev h g, h.pubKey, g, if a then ka else kb, if a then kb else ka⟩

/-- Our signature over the transcript. -/
def State.finishBytes (s : State) (k : HsSt) (h : HelloMsg) : List Byte := Config.ecdsaSign s.lnk.idKey (s.transcript k h)

/-- A handshake of a port that fails: it is counted and hostile, and a port in AUTH goes to DOWN to try again. -/
def State.hsFail (s : State) (n : Nat) (hostile : Bool) : State :=
  let s := s.bump F.lpQuar_HSFAIL n 0 1
  let s := if hostile then s.hostile n else s
  if s.lpState n = 2 then
    (s.wr F.lpStatus_STATE n 0 1).onPort n fun x => { x with hs := none, waiting := true }
  else s

/-- A partner with several matching rules is counted (R469, R457). -/
def State.multiRule (s : State) (n : Nat) (rest : List GateRule) : State :=
  if rest.isEmpty then s else s.bump F.lpQuar_MULTI n 0 1

/-- Lanes in use: 8, 6 or 4 of the good lanes of the committed map. -/
def State.lanesOf (s : State) (n : Nat) : Nat :=
  let good := ((List.range 8).filter fun i =>
    (s.port n).lanes.testBit i && !(s.rd F.lpFec_BADLANES n 0).testBit i).length
  if good = 8 then 8 else if 6 ≤ good then 6 else if 4 ≤ good then 4 else 0

/-- A port that starts a handshake. -/
def State.startAuth (s : State) (n : Nat) : State :=
  let s := s.wr F.lpStatus_STATE n 0 2
  if s.lpMode n = 2 then
    let (k, s) := s.beginHs
    (s.onPort n fun x => { x with hs := some k, waiting := false }).putLink n ⟨0x26, true, k.own⟩
  else s.onPort n fun x => { x with waiting := false }

/-- PMD_UP (R495): the handshake begins; no PMD trains without its reference (R27). -/
def execPmdUp (port : Nat) (s : State) : Out :=
  if s.lpState port = 1 ∧ port < 16 ∧ s.sys.r156 then .next (s.startAuth port) else .next s

/-- PMD_TRAINING_FAIL (R495): the port stays DOWN and trains again. -/
def execPmdTrainingFail (_port : Nat) (s : State) : Out := .next s

/-- A session number that is not in use. -/
def State.newSession (s : State) : Nat × State :=
  let n := s.lnk.nextSes
  (n, { s with lnk := { s.lnk with nextSes := n + 1 } })

/-- Whether a port finds room for another KMT session: 256 on the link ports together (R486), 8 on the management port
(R598). -/
def State.sessionRoom (s : State) (n : Nat) : Bool :=
  if n = 16 then decide ((s.lnk.kmt.filter fun e => e.2.port == 16).length < 8)
  else decide ((s.lnk.kmt.filter fun e => e.2.port != 16).length < 256)

/-- A KMT message outside the sequence: HELLO and FINISH. -/
def hsMsg (kind : Nat) (body : List Byte) : KmtOut := ⟨kind, 0, 0, 0, 0, 0, 0, body⟩

/-- The port of an authenticated partner shown in LP_STATUS. -/
def State.showPartner (s : State) (n : Nat) (p : Partner) : State :=
  let s := ((s.wr F.lpStatus_STATE n 0 3).wr F.lpStatus_KEYID n 0 p.rule.keyid).wr F.lpStatus_LANES n 0 (s.lanesOf n)
  if p.dev = 0xFFFF then s.wr F.lpStatus_PEER_V n 0 0
  else (s.wr F.lpStatus_PEERID n 0 p.dev).wr F.lpStatus_PEER_V n 0 1

/-- The check of R471 repeated in the event in which both IDs are assigned: a partner that its rule's MATCH 0 does not admit
failed its handshake, and the port tries again. -/
def State.recheck (s : State) (n : Nat) : State :=
  match (s.port n).partner with
  | none => s
  | some p =>
    if s.lpUp n ∧ s.devId ≠ 0xFFFF ∧ p.rule.mat = 0 ∧ p.dev ≠ 0xFFFF ∧ p.rule.dev ≠ 0xFFFF ∧ p.rule.dev ≠ p.dev then
      ((s.leavePort n 1).hsFail n true).onPort n fun x => { x with waiting := true }
    else s

/-- The partner of an open port whose ID was unassigned names the ID that it now has (DESIGN CHOICE, log entry 159: the spec names
no frame that says so; of the frames that such a session carries HS alone holds an ID). -/
def State.learnId (s : State) (n : Nat) (h : HelloMsg) : State :=
  match (s.port n).partner with
  | none => s
  | some p =>
    if s.lpOpen n ∧ p.dev = 0xFFFF ∧ p.key = h.pubKey ∧ h.devId < 512 then
      (((s.onPort n fun x => { x with partner := some { p with dev := h.devId } }).wr F.lpStatus_PEERID n 0 h.devId).wr
        F.lpStatus_PEER_V n 0 1).recheck n
    else s

/-- The IP address of a port as LP_ETH selects it. -/
def State.ownIp (s : State) (n : Nat) : Nat :=
  if s.flag F.lpEth_IPV6 n 0 then s.rd F.lpIpv6Hi_ADDR n 0 * 2 ^ 64 + s.rd F.lpIpv6Lo_ADDR n 0 else s.rd F.lpIpv4_ADDR n 0

/-- HELLO (R467, R469, R471, R486): the partner is checked and its rule selected; this device answers with its FINISH, on
Ethernet after its own HELLO. -/
def execHello (port : Nat) (h : HelloMsg) (s : State) : Out :=
  let gs := s.rulesFor port h
  if s.lpMode port = 2 then
    match s.lpState port, (s.port port).hs with
    | 2, some k =>
      if k.hello.isSome then .next s
      else
        match gs with
        | [] => .next (s.hsFail port true)
        | g :: rest =>
          let s := (s.multiRule port rest).onPort port fun x => { x with hs := some { k with hello := some (h, g) } }
          .next (s.putLink port ⟨0x26, true, s.finishBytes k h⟩)
    | _, _ => .next (s.learnId port h)
  else if s.lpMode port = 1 ∧ (s.lpState port = 2 ∨ s.lpState port = 3) then
    if !s.sessionRoom port then .next (s.hsFail port false)
    else
      match gs with
      | [] => .next (s.hsFail port true)
      | g :: rest =>
        let (k, s) := (s.multiRule port rest).beginHs
        let (n, s) := s.newSession
        let s := s.setSession n ⟨port, none, some { k with hello := some (h, g) }, 0, 0, [], [], 0, s.rd F.lpKmt_RTO 0 0, false, h.mac, [],
          s.reg .lpEth port 0, s.ownIp port⟩
        .next ((s.send (.kmt n 0 0 (hsMsg 0x01 k.own))).send (.kmt n 0 0 (hsMsg 0x02 (s.finishBytes k h))))
  else .next s

/-- A port that enters UP after a handshake: nothing of an earlier session remains, its credits and beacons go out. -/
def State.enterUp (s : State) (n : Nat) (p : Partner) : State :=
  let x := s.port n
  let s := s.setPort n { PortSt.init with
    lanes := x.lanes, enc := x.enc, share := x.share, beacons := x.beacons, hostile := x.hostile
    partner := some p, owed := (List.range 6).map fun vc => (vc, vcCredits vc)
    bucket := (p.rule.bucket * 65536 * 100, s.mtime) }
  let s := (s.showPartner n p).wr F.lpFec_CORR n 0 0
  (s.putCredit n).putBeacons n

/-- FINISH (R467, R468): the partner's signature is verified, the keys are derived, and the port enters UP or the session
opens; or the handshake fails. -/
def execFinish (port session : Nat) (sig : List Byte) (s : State) : Out :=
  if s.lpMode port = 2 then
    match s.lpState port, (s.port port).hs with
    | 2, some k =>
      match k.hello with
      | none => .next (s.hsFail port true)
      | some (h, g) =>
        if Config.ecdsaVerify h.pubKey (s.transcript k h) sig then .next (s.enterUp port (s.partnerOf k h g "KX-SLP-1"))
        else .next (s.hsFail port true)
    | _, _ => .next s
  else
    match s.session session with
    | none => .next s
    | some k =>
      match (if k.port = port then k.hs else none) with
      | none => .next s
      | some hs =>
        match hs.hello with
        | none => .next s
        | some (h, g) =>
          if Config.ecdsaVerify h.pubKey (s.transcript hs h) sig then
            let p := s.partnerOf hs h g "KX-KMT-1"
            let s := s.setSession session { k with partner := some p, hs := none }
            .next (if s.lpState port = 2 then
              (s.showPartner port p).onPort port fun x => { x with partner := some p }
              else s)
          else .next ((s.loseSession session).hsFail port true)

/-- HANDSHAKE_TIMEOUT (R471): a handshake that is not complete 2 ms after PMD up fails. -/
def execHandshakeTimeout (port : Nat) (s : State) : Out :=
  if s.lpState port = 2 then
    let ks := s.lnk.kmt.filter fun e => e.2.port == port && e.2.partner.isNone
    .next ((ks.foldl (fun s e => s.loseSession e.1) s).hsFail port true)
  else .next s

/-- HANDSHAKE_RETRY (R471): 10 ms after the failure the port tries again. -/
def execHandshakeRetry (port : Nat) (s : State) : Out :=
  if s.lpState port = 1 ∧ (s.port port).waiting then .next (s.startAuth port) else .next s

end Sys2Proof.Machine
end

