-- ==== Sys2Proof/Machine/Inbound.lean ====
section
/-! DEFINITION. Admission and delivery of frames (14.3, 14.6, 10.7): the checks of the Gatehouse, transit, requests
performed at windows, stiles and collectives, and responses. -/

namespace Sys2Proof.Machine

/-! ### The checks of the Gatehouse (Table 14-4) -/

/-- Whether a frame's form suits its type: payload and length fields, reserved fields, HOPS (Tables 14-5, 14-6). -/
def formOk (typ : Nat) (f : SlpFrame) : Bool :=
  let n := f.payload.length
  f.lenOk && decide (f.hops ≤ 15) && !f.tag.testBit 6 && (!f.tag.testBit 7 || decide (f.eng ≤ 1))
    && (match typ with
      | 0x01 => decide (n ≤ 4096)
      | 0x02 => n == 0 && decide (f.arg % 16 ≤ 7)
      | 0x03 => (if f.arg % 16 < 9 then n == 4 || n == 8 else if f.arg % 16 = 9 then n == 8 || n == 16
          else decide (f.arg % 16 ≤ 12) && n == 528)
      | 0x05 => decide (n ≤ 4096)
      | 0x12 => decide (n ≤ 4096)
      | _ => n == 0)

/-- The ALLOW bit of a type (Table 14-3); responses need none. -/
def allowBit : Nat → Option Nat
  | 0x01 => some 0
  | 0x02 => some 1
  | 0x03 => some 2
  | 0x04 => some 3
  | 0x05 => some 6
  | _ => none

/-- A frame as it was received. -/
def frameOf (typ : Nat) (f : SlpFrame) : OFrame :=
  ⟨typ, f.final, f.dst, f.src, f.srcpav, f.hops, f.keyid, f.status, f.window, f.offset, f.tag, f.eng, f.arg, f.cstile, f.eseq,
    f.payload, false⟩

/-- The outcome of the checks. -/
inductive GateRes where
  | drop (s : State)
  | take (f : OFrame) (s : State)

/-- A frame taken in order at link level (R478, R479): its LSEQ, its credits, and a LACK after 64 frames. -/
def State.linkTake (s : State) (n : Nat) (f : SlpFrame) : State :=
  let s := s.onPort n fun x => { x with
    lseqRx := (x.lseqRx + 1) % 2 ^ 32
    unacked := x.unacked + 1
    lackDue := true
    owed := tset x.owed f.vc (tget x.owed f.vc 0 + (32 + f.payload.length + 255) / 256) }
  if 64 ≤ (s.port n).unacked then s.putLack n false else s

/-- Whether a port takes frames from its partner. -/
def State.listens (s : State) (n : Nat) : Bool := s.lpOpen n && s.lpMode n == 2

/-- The checks of Table 14-4 on a request or response frame, in order (R471, R472). -/
def State.gate (s : State) (n typ : Nat) (f : SlpFrame) : GateRes :=
  match (s.port n).partner with
  | none => .drop s
  | some p =>
    let x := s.port n
    if !s.listens n then .drop s
    else if !f.crcOk then .drop ((s.bump F.lpLinkcnt_CRC n 0 1).putLack n true)
    else if x.enc && !f.tagOk then .drop ((s.bump F.lpGatecnt_AUTHFAIL n 0 1).hostile n)
    else if f.lseq ≠ x.lseqRx then
      .drop (if seqBefore f.lseq x.lseqRx then s.bump F.lpLinkcnt_DUP n 0 1 else s.putLack n true)
    else
      let s := (s.onPort n (·.rxKph f.kph)).linkTake n f
      if s.devId = 0xFFFF ∨ p.dev = 0xFFFF then .drop (s.bump F.lpGatecnt_DENIED n 0 1)
      else if !formOk typ f then .drop ((s.bump F.lpGatecnt_MALFORMED n 0 1).hostile n)
      else if !(if f.hops = 0 then f.src == p.dev && decide (p.rule.pavlo ≤ f.srcpav) && decide (f.srcpav ≤ p.rule.pavhi)
          else p.rule.allow.testBit 5) then .drop ((s.bump F.lpGatecnt_SPOOF n 0 1).hostile n)
      else if s.devLost f.src then .drop s
      else if !((allowBit typ).all p.rule.allow.testBit) then
        .drop (((s.bump F.lpGatecnt_DENIED n 0 1).hostile n).putResponse (frameOf typ f) 0x13 St.remoteRefused 0x22 0 [])
      else
        let g := frameOf typ f
        .take (if f.hops = 0 then { g with hops := 1, keyid := p.rule.keyid } else g) s

/-! ### Transit (R489 to R492) -/

/-- A frame for another device put on the port that leads there; HOPS rises where it came from a transit hop. -/
def State.forward (s : State) (n vc : Nat) (raise : Bool) (f : OFrame) : State :=
  let dir := s.direction f.dst
  let up := (dirPorts dir).filter s.lpOpen
  match choosePort up (f.src + f.srcpav) with
  | none => s.unroutable f
  | some m => s.putFrame m { f with
      hops := if raise then f.hops + 1 else f.hops
      late := m / 4 == n / 4 && decide (n < 12) && (vc == 3 || vc == 5) }

/-! ### Requests performed here (10.7, R475, R504) -/

/-- The answer to a request: a response frame, or for a KMT session a message. A write over KMT is confirmed by the
session's own acknowledgment. -/
def State.answer (s : State) (via : Option Nat) (f : OFrame) (typ status offset pav : Nat) (payload : List Byte) : State :=
  match via with
  | none => s.putResponse f typ status offset pav payload
  | some k =>
    if typ = 0x11 then s
    else if typ = 0x12 then s.kmtPost k ⟨0x0B, f.window, pav, St.success, f.offset, 0, 0, payload⟩
    else s.kmtPost k ⟨0x0E, f.window, pav, status, offset, 0, 0, []⟩

/-- An inbound request as the Waystation checks it. -/
def inReq (kind : InKind) (n : Nat) (f : OFrame) (len cinc : Nat) : InReq :=
  ⟨kind, n, f.src, f.srcpav, f.keyid, f.window, f.offset, len, cinc, f.cstile⟩

/-- A refusal by the Waystation (R373): counted, hostile, answered. -/
def State.refuseIn (s : State) (n : Nat) (via : Option Nat) (f : OFrame) (r : InReq) (reason pav : Nat) : State :=
  ((s.wsRefuse r reason).hostile n).answer via f 0x13 St.remoteRefused reason pav []

/-- The pavilion named by a window's entry. -/
def State.windowPav (s : State) (w : Nat) : Nat := s.rd F.wsEntry2_PAV w 0

/-- The atomic operation of a code: the rows of Table 9-5 in order; 10 to 12 are BLKADD on A64-L, A64-I and A128. -/
def atomicOp : Nat → Option AtomicOp
  | 0 => some .add | 1 => some .and | 2 => some .or | 3 => some .xor | 4 => some .smin | 5 => some .smax
  | 6 => some .umin | 7 => some .umax | 8 => some .swap | 9 => some .cas | _ => none

/-- The code of an atomic operation. -/
def atomicCode : AtomicOp → Nat
  | .add => 0 | .and => 1 | .or => 2 | .xor => 3 | .smin => 4 | .smax => 5 | .umin => 6 | .umax => 7 | .swap => 8 | .cas => 9

/-- What an atomic frame does to the bytes at its target: how many, their alignment, and the function. Its operands are big-endian
(R3, R476); a block lies in the frame as it lies in memory. -/
def atomicFrame (f : OFrame) : Nat × Nat × (List Byte → List Byte) :=
  let c := f.arg % 16
  match atomicOp c with
  | some op =>
    let n := if op = .cas then f.payload.length / 2 else f.payload.length
    (n, n, fun old => leBytes n (atomicValue op n (leNat old) (beNat (f.payload.take n)) (beNat (f.payload.drop n))))
  | none =>
    let fmt : AccFmt := if c = 10 then .a64l else if c = 11 then .a64i else .a128
    (528, 16, fun old => blockCombine fmt old f.payload)

/-- A window request: WRITE, READ or ATOMIC at the Waystation; `none` while memory waits. -/
def State.performWindow (s : State) (n : Nat) (via : Option Nat) (f : OFrame) : Option State :=
  let cinc := if f.typ = 1 ∧ f.fin then f.arg % 16 else 0
  let kind : InKind := if f.typ = 1 then .write else if f.typ = 2 then .read else if f.arg % 16 < 10 then .atomic else .blkadd
  let len := if f.typ = 1 then f.payload.length else if f.typ = 2 then f.arg % 16 + 1 else (atomicFrame f).1
  let r := inReq kind n f len cinc
  let w := f.window
  let pv := s.windowPav w
  match s.wsCheck r with
  | .refuse e => some (s.refuseIn n via f r e pv)
  | .retry e => some ((s.wsRetry w).answer via f 0x14 St.retry e pv [])
  | .pass p a =>
    if f.typ = 1 then
      match s.writeAs (.window p) false true a f.payload with
      | .wait => none
      | .refuse _ t => some (t.refuseIn n via f r 0x08 pv)
      | .done _ t =>
        let t := t.bucketTake w len
        let t := if cinc = 0 then t else { t with lnk := { t.lnk with commits := t.lnk.commits ++ [(f.cstile, cinc)] } }
        some (t.answer via f 0x11 St.success 0 pv [])
    else if f.typ = 2 then
      match s.readAs (.window p) false true a len with
      | .wait => none
      | .refuse _ t => some (t.refuseIn n via f r 0x08 pv)
      | .done bs t => some ((t.bucketTake w len).answer via f 0x12 St.success f.offset pv (plain bs))
    else
      let (k, al, fn) := atomicFrame f
      match s.atomicAt (.window p) a k al fn with
      | .wait => none
      | .refuse code c t =>
        let t := if c then t.bump F.orgAtomic_REFUSED (atomicDie a) 0 1 else t
        some (t.refuseIn n via f r (if code = St.dataFault then 0x09 else 0x08) pv)
      | .done old t =>
        let t := (t.bump F.orgAtomic_DONE (atomicDie a) 0 1).bucketTake w len
        some (if f.arg % 16 < 10 then t.answer via f 0x12 St.success f.offset pv old.reverse else t.answer via f 0x11 St.success 0 pv [])

/-- Checks 3 to 6 of Table 10-8 on an entry for a frame that needs one PERM bit; the REASON of the first that fails. -/
def State.entryRefuses (s : State) (w : Nat) (f : OFrame) (bit : Nat) : Option Nat :=
  let srcdev := s.rd F.wsEntry2_SRCDEV w 0
  let srcpav := s.rd F.wsEntry2_SRCPAV w 0
  let key := s.rd F.wsEntry2_KEYID w 0
  if !(srcdev.testBit 15 || srcdev % 512 == f.src) then some 0x03
  else if srcpav ≠ 0xFF ∧ srcpav ≠ f.srcpav then some 0x04
  else if key ≠ 0 ∧ key ≠ f.keyid then some 0x05
  else if !(s.rd F.wsEntry2_PERM w 0).testBit bit then some 0x06
  else none

/-- Valid entries of a pavilion, ascending. -/
def State.entriesOf (s : State) (p : Nat) : List Nat :=
  (List.range 4096).filter fun w => s.flag F.wsEntry3_V w 0 && s.windowPav w == p

/-- A stile token (R475): added under the first entry of the stile's owner that passes, or refused. -/
def State.performToken (s : State) (n : Nat) (via : Option Nat) (f : OFrame) : State :=
  let ws := match s.stileOwner f.window with
    | some p => s.entriesOf p
    | none => []
  let pv := (s.stileOwner f.window).getD 0
  if ws.any fun w => (s.entryRefuses w f 3).isNone then
    (s.addStile f.window f.cstile).answer via f 0x11 St.success 0 pv []
  else
    let (w, reason) := match ws with
      | [] => (0, 0x01)
      | w :: _ => (w, (s.entryRefuses w f 3).getD 0x01)
    let s := s.wsRefuse (inReq .write n { f with window := w } 0 0) reason
    let s := s.wr F.wsLastref_WINDOW 0 0 (f.window % 4096)
    (s.hostile n).answer via f 0x13 St.remoteRefused reason pv []

/-- The stop of a plan on this device that a collective frame is for, with the step under which its bytes are kept: the
sender is the predecessor on a ring, a child or the parent on a tree (R505). -/
def State.collStop (s : State) (f : OFrame) : Option (PlanStop × Nat) :=
  let phase := f.arg / 16
  let from_ := some (f.src, f.eng)
  (s.lnk.plans.filter fun t => t.plan == f.window % 256).findSome? fun t =>
    if t.tree then
      if f.cstile ≠ 0 then none
      else if phase = 0 ∧ t.peer0 = from_ then some (t, 0)
      else if phase = 0 ∧ t.peer1 = from_ then some (t, 1)
      else if phase = 1 ∧ t.next = from_ then some (t, 0)
      else none
    else if phase ≤ 1 ∧ t.peer0 = from_ ∧ 1 ≤ f.cstile ∧ f.cstile < t.count then some (t, f.cstile)
    else none

/-- The collectives of a plan whose partner sent a frame that does not fit are refused too (R505). -/
def State.refuseColl (s : State) (f : OFrame) : State :=
  { s with str := { s.str with runs := s.str.runs.map fun r =>
    match r.2.col with
    | some t => if t.stop.plan == f.window % 256 && t.stop.partners.contains f.src then
        (r.1, { r.2 with col := some { t with refused := true } }) else r
    | none => r } }

/-- A collective frame (R504, R505): admitted under RWIN of the receiving stop, else refused. REASON 0x21 is the Gatehouse's and no
Waystation refusal, so it is no hostile event (R473). -/
def State.performColl (s : State) (n : Nat) (via : Option Nat) (f : OFrame) : State :=
  match s.collStop f with
  | none => (s.refuseColl f).answer via f 0x13 St.remoteRefused 0x21 0 []
  | some (t, step) =>
    let w := t.rwin
    let r := inReq .atomic n { f with window := w } f.payload.length 0
    let bad := if 4096 ≤ w ∨ !s.flag F.wsEntry3_V w 0 then some 0x01
      else if s.pavState t.pav = 0 ∨ s.pavState t.pav = 4 then some 0x02
      else s.entryRefuses w f 2
    match bad with
    | some e => s.refuseIn n via f r e t.pav
    | none => (s.colPut t (f.arg / 16) step f.payload).answer via f 0x11 St.success 0 t.pav []

/-- A request performed; `none` while memory waits. -/
def State.perform (s : State) (n : Nat) (via : Option Nat) (f : OFrame) : Option State :=
  if f.typ = 4 then some (s.performToken n via f)
  else if f.typ = 5 then some (s.performColl n via f)
  else s.performWindow n via f

/-- The pavilion of this device that a request is for. -/
def State.destPav (s : State) (f : OFrame) : Nat :=
  if f.typ = 4 then (s.stileOwner f.window).getD 0xFF
  else if f.typ = 5 then ((s.collStop f).map fun t => t.1.pav).getD 0xFF
  else if f.window < 4096 ∧ s.flag F.wsEntry3_V f.window 0 then s.windowPav f.window else 0xFF

/-- A request kept until memory serves it. -/
def State.keepIn (s : State) (n : Nat) (via : Option Nat) (f : OFrame) : State :=
  { s with lnk := { s.lnk with inb := s.lnk.inb ++ [⟨f, n, via⟩] } }

/-- A frame that arrived for a group that does not agree is dropped and counted (R179). -/
def State.disagree (s : State) (n : Nat) : State := s.bump F.lpGatecnt_DENIED n 0 1

/-- A request frame through the Gatehouse: forwarded, or performed here. Requests behind one that waits for memory wait
with it, so that they stay in order. -/
def State.takeRequest (s : State) (n typ : Nat) (f : SlpFrame) : State :=
  match s.gate n typ f with
  | .drop s => s
  | .take g s =>
    if g.dst ≠ s.devId then s.forward n f.vc (f.hops != 0) g
    else if !s.agrees n (s.destPav g) then s.disagree n
    else if s.lnk.inb.any fun w => w.port == n then s.keepIn n none g
    else (s.perform n none g).getD (s.keepIn n none g)

/-- SLP_WRITE (R472, R372). -/
def execSlpWrite (port : Nat) (f : SlpFrame) (s : State) : Out := .next (s.takeRequest port 0x01 f)

/-- SLP_READ (R472, R372). -/
def execSlpRead (port : Nat) (f : SlpFrame) (s : State) : Out := .next (s.takeRequest port 0x02 f)

/-- SLP_ATOMIC (R472, R372). -/
def execSlpAtomic (port : Nat) (f : SlpFrame) (s : State) : Out := .next (s.takeRequest port 0x03 f)

/-- SLP_TOKEN (R475). -/
def execSlpToken (port : Nat) (f : SlpFrame) (s : State) : Out := .next (s.takeRequest port 0x04 f)

/-- SLP_COLL (R504). -/
def execSlpColl (port : Nat) (f : SlpFrame) (s : State) : Out := .next (s.takeRequest port 0x05 f)

/-- The oldest inbound request that waits for memory tried again. -/
def State.serveIn (s : State) : Option State :=
  match s.lnk.inb with
  | [] => none
  | w :: rest =>
    (s.perform w.port w.via w.frame).map fun t => { t with lnk := { t.lnk with inb := rest } }

/-- HOME_AGENT_ACCESS (R386): the next access in turn at the home agent of a die; with none there, the oldest inbound
request that waits for memory. -/
def execHomeAgentAccess (die : Nat) (s : State) : Out := .next ((s.homeTurn die).getD (s.serveIn.getD s))

/-- GDDR_ACCESS (R336): the next access in turn at the GDDR7 controller of a die, or an inbound request likewise. -/
def execGddrAccess (die : Nat) (s : State) : Out := .next ((s.gddrTurn die).getD (s.serveIn.getD s))

/-- COMMIT_STILE_APPLY (R376): the increment of a final frame whose write is complete at its endpoint. -/
def execCommitStileApply (k : Nat) (s : State) : Out :=
  match s.lnk.commits[k]? with
  | none => .next s
  | some (st, inc) => .next ({ s with lnk := { s.lnk with commits := s.lnk.commits.eraseIdx k } }.addStile st inc)

/-! ### Responses (R283, R367, R374) -/

/-- The unanswered request that a response is for: its tag and engine, as the response returns them. -/
def State.reqOf (s : State) (f : OFrame) : Option OutReq :=
  s.lnk.outst.find? fun r => r.frame.tag == f.tag && r.frame.eng == f.eng

/-- A request answered with success and data. -/
def State.okReq (s : State) (r : OutReq) (bs : List Byte) : State :=
  let s := { s with lnk := { s.lnk with outst := s.lnk.outst.erase r } }
  match r.asker with
  | .run e c =>
    match tfind s.str.runs (e, c) with
    | none => s
    | some x => s.setRun e c { x with reqs := x.reqs.map fun q =>
        if q.remote && q.tag == r.frame.tag && q.resp.isNone then { q with resp := some (St.success, bs.map some) } else q }
  | .hart h size =>
    let v := if r.frame.typ = 3 then beNat (bs.take size) else leNat (bs.take size)
    s.send (.hart h (BitVec.ofNat 64 v))
  | .token p seq => (s.dropSig p seq).confirm p

/-- Every unanswered request changed. -/
def State.mapOut (s : State) (g : OutReq → OutReq) : State := { s with lnk := { s.lnk with outst := s.lnk.outst.map g } }

/-- A request refused: with peer-lost its destination is lost (R497). -/
def State.badReq (s : State) (r : OutReq) (code : Nat) : State :=
  if code = St.peerLost then
    let s := s.loseDevice r.frame.dst
    s.failReqs (fun q => q == r) St.peerLost
  else s.failReqs (fun q => q == r) code

/-- A response frame through the Gatehouse: forwarded, or matched to its request. A response to no request is discarded. -/
def State.takeResponse (s : State) (n typ : Nat) (f : SlpFrame) (go : State → OFrame → OutReq → State) : State :=
  match s.gate n typ f with
  | .drop s => s
  | .take g s =>
    if g.dst ≠ s.devId then s.forward n f.vc (f.hops != 0) g
    else
      match s.reqOf g with
      | none => s
      | some r => if s.agrees n r.frame.srcpav then go s g r else s.disagree n

/-- SLP_ACK (R477). -/
def execSlpAck (port : Nat) (f : SlpFrame) (s : State) : Out := .next (s.takeResponse port 0x11 f fun s _ r => s.okReq r [])

/-- SLP_RDATA (R477). -/
def execSlpRdata (port : Nat) (f : SlpFrame) (s : State) : Out :=
  .next (s.takeResponse port 0x12 f fun s g r => s.okReq r g.payload)

/-- SLP_REFUSE (R477, R492): REASON 0x20 is peer-lost. -/
def execSlpRefuse (port : Nat) (f : SlpFrame) (s : State) : Out :=
  .next (s.takeResponse port 0x13 f fun s g r =>
    s.badReq r (if g.offset % 256 = 0x20 then St.peerLost else St.remoteRefused))

/-- SLP_RETRY (R374): the request keeps its tag and is to be sent again. -/
def execSlpRetry (port : Nat) (f : SlpFrame) (s : State) : Out :=
  .next (s.takeResponse port 0x14 f fun s _ r => s.mapOut fun q => if q == r then { q with retry := true } else q)

/-- The pavilion whose share a request needs. -/
def askerPav (r : OutReq) : Option Nat :=
  match r.asker with
  | .hart _ _ => none
  | _ => some r.frame.srcpav

/-- The request of a port and tag whose retry has arrived. -/
def State.retryReq (s : State) (port tag : Nat) : Option OutReq :=
  s.lnk.outst.find? fun r => r.port == port && r.frame.tag == tag && r.retry

/-- RETRY_RESEND (R374): a request whose retry has arrived is sent again, 2 µs later. -/
def execRetryResend (port tag : Nat) (s : State) : Out :=
  match s.retryReq port tag with
  | none => .next s
  | some r =>
    match s.route r.frame.dst r.frame.srcpav (askerPav r) with
    | .fail code => .next (s.badReq r code)
    | .port n => .next ((s.mapOut fun q => if q == r then { q with retry := false, port := n } else q).putFrame n r.frame)

/-- END_TO_END_TIMEOUT (R497): request `k` of those unanswered has had no response for E2E × 100 µs. -/
def execEndToEndTimeout (k : Nat) (s : State) : Out :=
  match s.lnk.outst[k]? with
  | some r => .next (s.loseDevice r.frame.dst)
  | none => .next s

/-! ### Requests of harts and slices (R263, R367) -/

/-- A free request slot of the path of harts and slices. -/
def State.freeSlot (s : State) : Option Nat :=
  (List.range 64).find? fun t => !s.lnk.outst.any fun r => r.frame.tag == 128 + t && r.frame.eng == 0

/-- The access fault of a hart's access. -/
def apertureTrap (hart : Nat) (kind : ApertureKind) : Sent := .trap hart (if kind = .load then 5 else 7)

/-- Whether a request is a hart's. -/
def askedBy (hart : Nat) (r : OutReq) : Bool :=
  match r.asker with
  | .hart h _ => h == hart
  | _ => false

/-- The outbound slot of an aperture address. -/
def apertureSlot (addr : Nat) : Nat := addr / 2 ^ 32 % 256

/-- Whether an access through the aperture has a size and alignment that it may have. -/
def apertureOk (addr size : Nat) (kind : ApertureKind) : Bool :=
  let amo := match kind with
    | .amo _ _ => true
    | _ => false
  (size == 4 || size == 8 || (!amo && (size == 1 || size == 2))) && addr % size == 0
    && decide (apertureBase ≤ addr) && decide (addr < apertureBase + 2 ^ 40)

/-- The frame of an access through the aperture: the operands of an atomic are big-endian (R3, R476), data of a store is the bytes
as memory holds them. -/
def State.apertureFrame (s : State) (addr size : Nat) (kind : ApertureKind) (v : BitVec 64) (tag es : Nat) : OFrame :=
  let n := apertureSlot addr
  let off := s.rd F.wsOut_WBASE n 0 * 2 ^ 32 + addr % 2 ^ 32
  let mk := fun typ arg payload =>
    { s.reqFrame typ (s.rd F.wsOut_DEV n 0) (s.rd F.wsOut_SRCPAV n 0) (s.rd F.wsOut_WINDOW n 0) off tag 0 arg payload with eseq := es }
  match kind with
  | .load => mk 2 (size - 1) []
  | .store => mk 1 0 (leBytes size v.toNat)
  | .amo op cmp => mk 3 (atomicCode op) (beBytes size v.toNat ++ if op = .cas then beBytes size cmp.toNat else [])

/-- What APERTURE_ACCESS does (R367): a hart's access through the outbound slot of its address. A hart has one such access at a
time. -/
def apertureAccessOp (hart addr size : Nat) (kind : ApertureKind) (v : BitVec 64) (s : State) : Out :=
  let n := apertureSlot addr
  let bad := s.send (apertureTrap hart kind)
  if !s.flag F.wsOut_V n 0 || !apertureOk addr size kind then .next bad
  else if s.lnk.outst.any (askedBy hart) then .next s
  else
    match s.route (s.rd F.wsOut_DEV n 0) (s.rd F.wsOut_SRCPAV n 0) none with
    | .fail _ => .next bad
    | .port m =>
      match s.freeSlot with
      | none => .next s
      | some t =>
        let (es, s) := s.nextEseq 1000 0
        .next (s.sendReq m (s.apertureFrame addr size kind v (128 + t) es) (.hart hart size))

/-- APERTURE_ACCESS (R367). -/
def execApertureAccess (hart addr size : Nat) (kind : ApertureKind) (v : BitVec 64) (s : State) : Out := apertureAccessOp hart addr size kind v s

/-- The frame of a token. -/
def State.tokenFrame (s : State) (o : UnitOp) (g : SigSt) (d tag es : Nat) : OFrame :=
  { s.reqFrame 4 d o.pav g.stile 0 tag 0 0 [] with cstile := g.inc, eseq := es }

/-- A token marked as sent. -/
def State.sigSent (s : State) (o : UnitOp) : State :=
  let v := s.pav o.pav
  s.setPav o.pav { v with sigs := v.sigs.map fun h => if h.op == o then { h with sent := true } else h }

/-- TOKEN (R263, R268): once every part is there, the token goes to a link port; it is confirmed when the partner
acknowledges it. -/
def execXchToken (o : UnitOp) (s : State) : Out :=
  match (s.pav o.pav).sigs.find? fun g => g.op == o with
  | none => .next s
  | some g =>
    match g.dev with
    | none => .next s
    | some d =>
      if !g.whole || g.sent then .next s
      else
        match s.route d o.pav (some o.pav) with
        | .fail code =>
          let s := s.dropSig o.pav o.seq
          .next (if code = St.peerLost ∧ o.poison then s else s.faultPav o.pav (FaultReport.blank code 1 0x0A (s.lead o.pav) o.pav))
        | .port n =>
          if s.closedTo o.pav (.link n) then .next s
          else
          match s.freeSlot with
          | none => .next s
          | some t =>
            let (es, s) := s.nextEseq 1001 o.pav
            .next ((s.sigSent o).sendReq n (s.tokenFrame o g d (128 + t) es) (.token o.pav o.seq))

end Sys2Proof.Machine
end

