-- ==== Sys2Proof/Machine/LinkEvents.lean ====
section
/-! DEFINITION. Link frames and the timers and registers of the ports (14.4, 14.7): acknowledgment, credits, lane
degrade, failover, the port state machine, retraining, LP_DEVLOST, and the answers to ARP and neighbour discovery. -/

namespace Sys2Proof.Machine

/-! ### Link frames -/

/-- Bytes of a link frame's payload (Table 14-6). -/
def linkLen : Nat → Option Nat
  | 0x21 => some 16
  | 0x22 => some 12
  | 0x23 => some 8
  | 0x24 => some 0
  | 0x25 => some 8
  | 0x27 => some 8
  | _ => none

/-- The checks on a link frame (R472): CRC, tag, the control counter, form; `none` where it is discarded. -/
def State.linkGate (s : State) (n typ : Nat) (f : SlpFrame) : State × Bool :=
  let x := s.port n
  if !s.listens n then (s, false)
  else if !f.crcOk then ((s.bump F.lpLinkcnt_CRC n 0 1).putLack n true, false)
  else if x.enc && !f.tagOk then ((s.bump F.lpGatecnt_AUTHFAIL n 0 1).hostile n, false)
  else
    let s := s.onPort n (·.rxKph f.kph)
    if f.lseq < (s.port n).ctlRx then (s.bump F.lpLinkcnt_DUP n 0 1, false) else
    let s := s.onPort n fun x => { x with ctlRx := f.lseq + 1 }
    if !f.lenOk || f.dst != 0 || f.src != 0 || linkLen typ != some f.payload.length then
      ((s.bump F.lpGatecnt_MALFORMED n 0 1).hostile n, false)
    else (s, true)

/-- A link frame that passes is acted on. -/
def State.linkIn (s : State) (n typ : Nat) (f : SlpFrame) (go : State → State) : Out :=
  let (s, ok) := s.linkGate n typ f
  .next (if ok then go s else s)

/-- Credits returned by the partner: two bytes for each VC. A credit of the VC that a SLOW port awaits takes it back to
UP (Table 14-11). -/
def State.creditIn (s : State) (n : Nat) (bs : List Byte) : State :=
  let got := (List.range 6).map fun vc => beNat ((bs.drop (2 * vc)).take 2)
  let s := s.onPort n fun x => { x with cred := (List.range 6).map fun vc => (vc, tget x.cred vc 0 + got.getD vc 0) }
  if s.lpState n = 4 ∧ got.getD (s.port n).slowVc 0 ≠ 0 then s.wr F.lpStatus_STATE n 0 3 else s

/-- SLP_CREDIT (R478). -/
def execSlpCredit (port : Nat) (f : SlpFrame) (s : State) : Out := s.linkIn port 0x22 f fun s => s.creditIn port f.payload

/-- LACK (R479): frames up to its LSEQ are acknowledged. -/
def execLack (port : Nat) (f : SlpFrame) (s : State) : Out :=
  s.linkIn port 0x23 f fun s => s.linkAcked port (beNat (f.payload.take 4))

/-- LNAK (R479): the frames after its LSEQ are sent again. -/
def execLnak (port : Nat) (f : SlpFrame) (s : State) : Out :=
  s.linkIn port 0x23 f fun s => (s.linkAcked port (beNat (f.payload.take 4))).resendAll port

/-- IDLE (R480): the partner is up. -/
def execLinkIdle (port : Nat) (f : SlpFrame) (s : State) : Out := s.linkIn port 0x24 f id

/-- The lanes in use after a change of the bad-lane map; frames are sent again on them (R481). -/
def State.setBadLanes (s : State) (n bad : Nat) : State :=
  let s := s.wr F.lpFec_BADLANES n 0 bad
  (s.wr F.lpStatus_LANES n 0 (s.lanesOf n)).resendAll n

/-- Lanes of a port removed: the map of bad lanes, the counter, a DEGRADE frame and the corrected-fault alarm. -/
def State.removeLanes (s : State) (n bad : Nat) : State :=
  let t := (s.setBadLanes n bad).bump F.lpLinkcnt_DEGRADES n 0 1
  (t.putPeer n ⟨0x25, false, beBytes 8 bad⟩).portAlarm n 0x01 0

/-- A partner's map of bad lanes taken: the union of the maps; the port degrades where it leaves fewer lanes, and is lost with fewer
than 4. -/
def State.degradeIn (s : State) (n : Nat) (bs : List Byte) : State :=
  let old := s.rd F.lpFec_BADLANES n 0
  let bad := old ||| (beNat bs % 256)
  if bad = old then s
  else
    let t := s.setBadLanes n bad
    if t.lanesOf n = 0 then t.leavePort n 6
    else if t.lanesOf n = s.lanesOf n then t.putPeer n ⟨0x25, false, beBytes 8 bad⟩
    else s.removeLanes n bad

/-- DEGRADE (R481). -/
def execDegrade (port : Nat) (f : SlpFrame) (s : State) : Out := s.linkIn port 0x25 f fun s => s.degradeIn port f.payload

/-- The partner reports the last LSEQ that it received in order on the sibling port; the frames above it and those that
waited there go out on this port before any later one. A port in retraining goes on from that LSEQ afterwards, since its partner
expects the next one there (log entry 77). -/
def State.failoverIn (s : State) (n : Nat) (bs : List Byte) : State :=
  match sibling n with
  | none => s
  | some m =>
    let last := beNat ((bs.drop 4).take 4)
    let y := s.port m
    let s := if y.moving then s else s.failoverTo m n
    let fs := ((y.replay.filter fun e => seqBefore last e.1).map (·.2)) ++ y.txq
    let s := s.onPort m fun y => { y with
      replay := [], resend := [], txq := [], moving := false, lseqTx := if s.lpState m = 5 then (last + 1) % 2 ^ 32 else y.lseqTx }
    s.onPort n fun x => { x with txq := fs ++ x.txq }

/-- FAILOVER (R482). -/
def execFailover (port : Nat) (f : SlpFrame) (s : State) : Out := s.linkIn port 0x27 f fun s => s.failoverIn port f.payload

/-! ### Sending -/

/-- A request of this device over an Ethernet port becomes a KMT message on the session of its partner (14.5). A frame
with no KMT kind, or no session, cannot be carried. -/
def State.ethSend (s : State) (n : Nat) : State :=
  match (s.port n).txq with
  | [] => s
  | f :: q =>
    let s := s.onPort n fun x => { x with txq := q }
    let mine := fun (r : OutReq) => r.port == n && r.frame.tag == f.tag && r.frame.eng == f.eng
    let body := fun (typ : Nat) => match typ with
      | 1 => some (⟨0x09, f.window, f.srcpav, 0, f.offset, if f.fin then f.arg % 16 else 0, f.cstile, f.payload⟩ : KmtOut)
      | 2 => some ⟨0x0A, f.window, f.srcpav, 0, f.offset, f.arg % 16, 0, []⟩
      | 4 => some ⟨0x0C, 0, f.srcpav, 0, 0, 0, 0, beBytes 2 f.window ++ beBytes 2 f.cstile⟩
      | _ => none
    match s.lnk.kmt.find? fun e => e.2.port == n && e.2.partner.any fun p => p.dev == f.dst with
    | none => if f.src = s.devId then s.failReqs mine St.peerLost else s.unroutable f
    | some (k, x) =>
      match body f.typ with
      | none => if f.src = s.devId then s.failReqs mine St.accessFault else s.unroutable f
      | some m =>
        let seq := (x.txSeq + x.queue.length) % 2 ^ 32
        let s := { s with lnk := { s.lnk with outst := s.lnk.outst.map fun r => if mine r then { r with kmt := some (k, seq) } else r } }
        s.kmtPost k m

/-- PORT_FRAME_SEND (R493): the next frame of an output port. In AUTH only handshake frames go out; a lost device's
transmitters are squelched (R529). -/
def execPortFrameSend (port : Nat) (s : State) : Out :=
  if s.sys.lost then .next s
  else if s.lpMode port = 2 then
    if s.lpOpen port then .next (s.slpSend port)
    else if s.lpState port = 2 then
      match (s.port port).linkq with
      | [] => .next s
      | f :: q =>
        let x := (s.port port)
        .next ((s.setPort port { x with linkq := q }.count).send (.link port x.ctlTx x.txPhase f))
    else .next s
  else if s.lpMode port = 1 ∧ s.lpState port = 3 then .next (s.ethSend port)
  else .next s

/-! ### Timers of a scheduled port (R478 to R480) -/

/-- LACK_TIMER (R479): received frames are acknowledged, and credits that are owed go with it (R478). -/
def execLackTimer (port : Nat) (s : State) : Out :=
  if s.listens port ∧ (s.port port).lackDue then .next ((s.putLack port false).putCredit port) else .next s

/-- CREDIT_RETURN_TIMER (R478, R474). -/
def execCreditReturnTimer (port : Nat) (s : State) : Out :=
  if s.listens port then .next (s.putCredit port) else .next s

/-- REPLAY_TIMEOUT (R479): no LACK for 4 µs. -/
def execReplayTimeout (port : Nat) (s : State) : Out :=
  if s.listens port then .next (s.resendAll port) else .next s

/-- IDLE_TIMER (R480). -/
def execIdleTimer (port : Nat) (s : State) : Out :=
  if s.listens port then .next (s.putLink port ⟨0x24, false, []⟩) else .next s

/-! ### The port state machine (Table 14-11) -/

/-- PARTNER_ABSENCE_TIMEOUT (R495): 8 µs without a frame, or without PCS alignment in Ethernet mode. -/
def execPartnerAbsenceTimeout (port : Nat) (s : State) : Out :=
  if s.lpOpen port then .next (s.leavePort port 6) else .next s

/-- Whether a frame of a port waits for credit of a VC. -/
def State.creditStuck (s : State) (n vc : Nat) : Bool :=
  (s.port n).txq.any fun f => s.vcOf n f == vc && decide (tget (s.port n).cred vc 0 < f.credits)

/-- CREDIT_TIMEOUT (R495): frames wait for credit of a VC and none has come for LP_TMO.CREDIT µs. -/
def execCreditTimeout (port vc : Nat) (s : State) : Out :=
  if s.lpState port = 3 ∧ s.lpMode port = 2 ∧ s.creditStuck port vc then
    .next (((s.wr F.lpStatus_STATE port 0 4).onPort port fun x => { x with slowVc := vc }).portAlarm port 0x13 1)
  else .next s

/-- SLOW_TIMEOUT (R495). -/
def execSlowTimeout (port : Nat) (s : State) : Out :=
  if s.lpState port = 4 then .next (s.leavePort port 6) else .next s

/-- LOST_HOLD_EXPIRE (R495): the PMD restarts. -/
def execLostHoldExpire (port : Nat) (s : State) : Out :=
  if s.lpState port = 6 then .next (s.wr F.lpStatus_STATE port 0 1) else .next s

/-- The lane next in order of count after a failing one, among the lanes in use. -/
def nextLane (lane : Nat) (counts : List Nat) (good : List Nat) : Option Nat :=
  (good.filter (· != lane)).foldl (fun best i => match best with
    | none => some i
    | some b => if counts.getD b 0 < counts.getD i 0 then some i else some b) none

/-- Lanes in use of a port. -/
def State.goodLanes (s : State) (n : Nat) : List Nat :=
  (List.range 8).filter fun i => (s.port n).lanes.testBit i && !(s.rd F.lpFec_BADLANES n 0).testBit i

/-- The errors that the FEC of a port has corrected, and a codeword that it could not, counted while the partner is up. -/
def State.fecCount (s : State) (n : Nat) (counts : List Nat) (failed : Bool) : State :=
  if s.lpUp n then
    let s := s.bump F.lpFec_CORR n 0 counts.sum
    if failed then s.bump F.lpFec_UNCORR n 0 1 else s
  else s

/-- Whether a lane of a port has failed: it is in use, and its count or a codeword says so. -/
def State.fecFails (s : State) (n lane : Nat) (counts : List Nat) (failed : Bool) : Bool :=
  s.lpOpen n && (s.goodLanes n).contains lane && (failed || decide (2 ^ s.rd F.lpFec_LIMIT n 0 < counts.getD lane 0))

/-- FEC_DEGRADE (R481): the failing lane and the next one in order of count are removed; on 4 lanes, and in Ethernet
mode, the port is lost. -/
def execFecDegrade (port lane : Nat) (counts : List Nat) (codewordFailed : Bool) (s : State) : Out :=
  let s := s.fecCount port counts codewordFailed
  if !s.fecFails port lane counts codewordFailed then .next s
  else if s.lpMode port ≠ 2 ∨ s.rd F.lpStatus_LANES port 0 ≤ 4 then .next (s.leavePort port 6)
  else .next (s.removeLanes port ((lane :: (nextLane lane counts (s.goodLanes port)).toList).foldl (fun b i => b ||| 2 ^ i)
    (s.rd F.lpFec_BADLANES port 0)))

/-- The counters of a port cleared, but those marked ST (14.10). -/
def State.clearPortCounters (s : State) (n : Nat) : State :=
  let s := [Reg.lpLinkcnt, .lpGatecnt].foldl (fun s r => s.setReg r n 0 0) s
  let s := [F.lpQuar_REFUSED, F.lpQuar_HSFAIL, F.lpQuar_MULTI, F.lpFec_CORR, F.lpFec_UNCORR].foldl (fun s f => s.wr f n 0 0) s
  s

/-- A port reset (Table 14-11): the partner is lost when it was up, and the PMD restarts. -/
def State.resetPort (s : State) (n : Nat) : State :=
  let s := s.leavePort n 1
  (s.clearPortCounters n).onPort n fun x => { PortSt.init with
    lanes := x.lanes, enc := x.enc, share := x.share, beacons := x.beacons, partner := x.partner
    replay := x.replay, txq := x.txq, moving := x.moving, lseqRx := x.lseqRx }

/-- The fields of LP_CTL written (R506): TWT, and the requests of UNQUAR, RETRAIN and PRESET. -/
def State.lpCtlFields (s : State) (n twt : Nat) (unquar retrain preset : Bool) : State :=
  let s := if twt = 0 then s else s.wr F.lpCtl_TWT n 0 twt
  let s := if unquar && s.lpState n == 7 then
      (s.wr F.lpStatus_STATE n 0 1).onPort n fun x => { x with hostile := [] }
    else s
  let s := if retrain && s.lpUp n && !s.lnk.retrain.contains n then
      { s with lnk := { s.lnk with retrain := s.lnk.retrain ++ [n] } }
    else s
  if preset && s.lpState n != 0 then s.resetPort n else s

/-- A write of LP_CTL. -/
def State.lpCtlWrite (s : State) (a : Actor) (n : Nat) (v : BitVec 64) : State :=
  let w := v.toNat
  if !machineActor a then s.refuse
  else s.lpCtlFields n (natField w 11 8) (w.testBit 3) (w.testBit 2) (w.testBit 1)

/-- UNQUAR (R495): a QUARANTINED port goes to DOWN. -/
def execUnquar (a : Actor) (port : Nat) (v : BitVec 64) (s : State) : Out :=
  if !machineActor a then .next s.refuse
  else .next (s.lpCtlFields port (natField v.toNat 11 8) true (v.toNat.testBit 2) (v.toNat.testBit 1))

/-- RETRAIN (R483): retraining is requested. -/
def execLpRetrain (a : Actor) (port : Nat) (v : BitVec 64) (s : State) : Out :=
  if !machineActor a then .next s.refuse
  else .next (s.lpCtlFields port (natField v.toNat 11 8) (v.toNat.testBit 3) true (v.toNat.testBit 1))

/-- PRESET (R495): the port is reset. -/
def execPreset (a : Actor) (port : Nat) (v : BitVec 64) (s : State) : Out :=
  if !machineActor a then .next s.refuse
  else .next (s.lpCtlFields port (natField v.toNat 11 8) (v.toNat.testBit 3) (v.toNat.testBit 2) true)

/-- A retraining granted (R483): the traffic moves to the sibling, or is held. -/
def State.startRetrain (s : State) (n : Nat) : State :=
  let s := match s.goodSibling n with
    | some m => s.failoverTo n m
    | none => s
  s.wr F.lpStatus_STATE n 0 5

/-- A retraining no longer requested or granted. -/
def State.retrainOver (s : State) (n : Nat) : State :=
  { s with lnk := { s.lnk with retrain := s.lnk.retrain.filter (· != n) } }.upkeepEnded (.link n)

/-- PORT_RETRAIN_DONE (R483): lanes return and traffic resumes on the port. -/
def execPortRetrainDone (port : Nat) (s : State) : Out :=
  if s.lpState port ≠ 5 then .next s
  else .next ((((s.retrainOver port).wr F.lpStatus_STATE port 0 3).setBadLanes port 0).onPort port fun x => { x with moving := false })

/-- RETRAIN_TIMEOUT (R495): 10 ms have passed. -/
def execRetrainTimeout (port : Nat) (s : State) : Out :=
  if s.lpState port = 5 then .next ((s.retrainOver port).leavePort port 6) else .next s

/-! ### LP_DEVLOST (R497, R506) -/

/-- What LP_DEVLOST_WRITE does (R497): each device whose bit is set becomes lost. -/
def lpDevlostWriteOp (a : Actor) (i : Nat) (v : BitVec 64) (s : State) : Out :=
  if !machineActor a || 8 ≤ i then .next s.refuse
  else .next ((List.range 64).foldl (fun s j => if v.toNat.testBit j then s.loseDevice (64 * i + j) else s) s)

/-- LP_DEVLOST_WRITE (R497). -/
def execLpDevlostWrite (a : Actor) (i : Nat) (v : BitVec 64) (s : State) : Out := lpDevlostWriteOp a i v s

/-- What LP_DEVCLR_WRITE does (R497): bits of LP_DEVLOST cleared. -/
def lpDevclrWriteOp (a : Actor) (i : Nat) (v : BitVec 64) (s : State) : Out :=
  if !machineActor a || 8 ≤ i then .next s.refuse
  else .next (s.setReg .lpDevlost i 0 (s.reg .lpDevlost i 0 &&& ~~~v))

/-- LP_DEVCLR_WRITE (R497). -/
def execLpDevclrWrite (a : Actor) (i : Nat) (v : BitVec 64) (s : State) : Out := lpDevclrWriteOp a i v s

/-! ### Address resolution on Ethernet ports (R465) -/

/-- Whether a port answers for IPv4 or for IPv6 addresses; the management port has both (R597). -/
def State.answersFor (s : State) (n : Nat) (v6 : Bool) : Bool := s.lpMode n == 1 && (n == 16 || s.flag F.lpEth_IPV6 n 0 == v6)

/-- The IPv6 link-local address of a MAC address as a modified EUI-64 (R597). -/
def linkLocal (mac : Nat) : Nat :=
  0xFE80 * 2 ^ 112 + ((mac / 2 ^ 24 % 2 ^ 24) ^^^ 0x020000) * 2 ^ 40 + 0xFFFE * 2 ^ 24 + mac % 2 ^ 24

/-- ARP_REQUEST (R465): answered for the port's own IPv4 address. -/
def execArpRequest (port ip mac : Nat) (s : State) : Out :=
  if s.answersFor port false ∧ s.rd F.lpIpv4_ADDR port 0 = ip then .next (s.send (.neighbour port ip mac false)) else .next s

/-- NEIGHBOUR_SOLICITATION (R465): answered for the port's own IPv6 addresses. -/
def execNeighbourSolicitation (port : Nat) (ip : Nat) (mac : Nat) (s : State) : Out :=
  let own := s.rd F.lpIpv6Hi_ADDR port 0 * 2 ^ 64 + s.rd F.lpIpv6Lo_ADDR port 0
  let local_ := port == 16 && ip == linkLocal (s.rd F.lpMac_MAC port 0)
  if s.answersFor port true ∧ (own = ip ∨ local_) then .next (s.send (.neighbour port ip mac true)) else .next s

end Sys2Proof.Machine
end

