-- ==== Sys2Proof/Machine/Kmt.lean ====
section
/-! DEFINITION. KMT sessions (14.5) and remote queue pairs (R451, R453): the checks on a message, the messages of each
kind, acknowledgment, retransmission and the loss of a session. -/

namespace Sys2Proof.Machine

/-! ### The checks on a message (R487, R488) -/

/-- The ALLOW bit of a kind (Table 14-3). -/
def kmtAllow : Nat → Option Nat
  | 0x03 => some 4
  | 0x05 => some 4
  | 0x06 => some 4
  | 0x09 => some 0
  | 0x0A => some 1
  | 0x0C => some 3
  | _ => none

/-- Whether a message's form suits its kind (Table 14-9). -/
def kmtForm (kind : Nat) (m : KmtMsg) : Bool :=
  let n := m.body.length
  m.formOk && (match kind with
    | 0x03 => n == 16
    | 0x05 => n == 64 || n == 128 || n == 192 || n == 256
    | 0x06 => n == 2
    | 0x09 => decide (n ≤ 4096) && decide (m.cinc ≤ 15)
    | 0x0A => n == 0 && decide (m.cinc ≤ 7)
    | 0x0B => decide (n ≤ 4096)
    | 0x0C => n == 4
    | _ => n == 0)

/-- The acknowledgment that a message carries: progress restarts the retransmission, and a write or token is confirmed. -/
def State.kmtAcked (s : State) (k ack : Nat) : State :=
  match s.session k with
  | none => s
  | some x =>
    let rest := x.unacked.filter fun e => !seqBefore e.1 ack
    if rest.length = x.unacked.length then s
    else
      let s := s.setSession k { x with unacked := rest, tries := 0, rto := s.rd F.lpKmt_RTO 0 0 }
      let done := s.lnk.outst.filter fun r => (r.frame.typ == 1 || r.frame.typ == 4)
        && r.kmt.any fun e => e.1 == k && seqBefore e.2 ack
      (done.foldl (fun s r => s.okReq r []) s).kmtPump k kmtWindow

/-- The outcome of the checks: dropped, or to be acted on, with the partner of the session. -/
inductive KmtRes where
  | drop (s : State)
  | take (p : Partner) (s : State)

/-- A message ahead of its turn kept while it lies within the window; one beyond it is discarded (R487, R488). -/
def KmtSt.keepEarly (k : KmtSt) (kind : Nat) (m : KmtMsg) : KmtSt :=
  if kmtWindow ≤ (m.seq + 2 ^ 32 - k.rxSeq) % 2 ^ 32 then k
  else if k.early.any fun e => e.2.seq == m.seq then { k with mac := m.mac }
  else { k with mac := m.mac, early := k.early ++ [(kind, m)] }

/-- The checks of Table 14-4 in kind on a message: tag, SEQ, form, the claimed pavilion of window traffic, ALLOW. An ACK
takes no place in the sequence. The management port takes ACK, KEEPALIVE and CLOSE alone of these kinds (R598). -/
def State.kmtGate (s : State) (n kind : Nat) (m : KmtMsg) : KmtRes :=
  let outside := if n = 16 then s.bump F.lpGatecnt_DENIED 16 0 1 else s
  match s.session m.session with
  | none => .drop outside
  | some k =>
    match k.partner with
    | none => .drop outside
    | some p =>
      if k.port ≠ n ∨ s.lpMode n ≠ 1 ∨ s.lpState n ≠ 3 then .drop s
      else if !m.tagOk then .drop ((s.bump F.lpGatecnt_AUTHFAIL n 0 1).hostile n)
      else if kind ≠ kmtAckKind ∧ seqBefore m.seq k.rxSeq then
        .drop ((s.bump F.lpLinkcnt_DUP n 0 1).setSession m.session { k with ackDue := true })
      else if kind ≠ kmtAckKind ∧ m.seq ≠ k.rxSeq then .drop (s.setSession m.session (k.keepEarly kind m))
      else
        let s := s.setSession m.session (if kind = kmtAckKind then { k with mac := m.mac }
          else { k with
            rxSeq := (k.rxSeq + 1) % 2 ^ 32, ackDue := true, mac := m.mac, early := k.early.filter fun e => e.2.seq != m.seq })
        if !kmtForm kind m then .drop ((s.bump F.lpGatecnt_MALFORMED n 0 1).hostile n)
        else if (kind = 0x09 ∨ kind = 0x0A ∨ kind = 0x0C) ∧ !(decide (p.rule.pavlo ≤ m.pav) && decide (m.pav ≤ p.rule.pavhi)) then
          .drop ((s.bump F.lpGatecnt_SPOOF n 0 1).hostile n)
        else if p.dev < 512 ∧ s.devLost p.dev then .drop s
        else if n = 16 ∧ kind ≠ kmtAckKind ∧ kind ≠ 0x0F ∧ kind ≠ 0x10 then .drop (s.bump F.lpGatecnt_DENIED n 0 1)
        else if !((kmtAllow kind).all p.rule.allow.testBit) then
          .drop (((s.bump F.lpGatecnt_DENIED n 0 1).hostile n).kmtPost m.session ⟨0x0E, m.qpw, m.pav, St.remoteRefused, 0x22, 0, 0, []⟩)
        else .take p s

/-! ### Queue messages (R451, R453) -/

/-- Whether a pair is attached to a session. -/
def State.attached (s : State) (p q k : Nat) : Bool := s.qpState p q == 3 && tget (s.pav p).sessions q 0 == k

/-- A message refused with the remote-refused status. -/
def State.kmtRefuse (s : State) (m : KmtMsg) : State :=
  s.kmtPost m.session ⟨0x0E, m.qpw, m.pav, St.remoteRefused, 0, 0, 0, []⟩

/-- The four counts of a pair in the header of ATTACHED: SQ head, SQ tail, CQ head, CQ tail, from byte 20 on. -/
def State.attachedMsg (s : State) (p q : Nat) : KmtOut :=
  let w := s.rd F.pavQpState_SQ_HEAD p q * 2 ^ 48 + s.rd F.pavSqTail_TAIL p q * 2 ^ 32 + s.rd F.pavCqHead_HEAD p q * 2 ^ 16
    + s.rd F.pavQpState_CQ_TAIL p q
  ⟨kmtAttached, q, p, St.success, w / 2 ^ 24, w / 2 ^ 16 % 256, w % 2 ^ 16, []⟩

/-- A COMPLETION for each record from CQ head to CQ tail; `none` while memory waits. -/
def State.resendRecords (s : State) (p q k : Nat) : Option State :=
  let h := s.rd F.pavCqHead_HEAD p q
  (List.range (diff16 (s.rd F.pavQpState_CQ_TAIL p q) h)).foldl (fun acc i =>
    match acc with
    | none => none
    | some s =>
      match s.pavRead p (s.rd F.pavQpCq_BASE p q * 4096 + 32 * ((h + i) % 65536 % s.cqSize p q)) 32 with
      | .wait => none
      | .fault _ _ t => some t
      | .ok bs t => some (t.kmtPost k ⟨kmtCompletion, q, p, 0, 0, 0, 0, plain bs⟩)) (some s)

/-- An ATTACH answered with the remote-refused status. -/
def State.attachNo (s : State) (k p q : Nat) : State := s.kmtPost k ⟨kmtAttached, q, p, St.remoteRefused, 0, 0, 0, []⟩

/-- The events of a pair that its vectors hold, delivered. -/
def State.flushPair (s : State) (p q : Nat) : State :=
  (List.range 64).foldl (fun s v =>
    if s.flag F.pavEvec_KIND p v && s.rd F.pavEvec_QP p v == q && !s.flag F.pavEvec_MASK p v then s.flushVec p v else s) s

/-- A pair bound to a session: the counts, the records not acknowledged and the events that are held go to it. -/
def State.attachTo (s : State) (p q k : Nat) : Option State :=
  let v := s.pav p
  let s := (s.setPav p { v with sessions := tset v.sessions q k }).wr F.pavQpState_FAILS p q 0
  let s := s.setQp p q 3
  let s := s.kmtPost k (s.attachedMsg p q)
  (s.resendRecords p q k).map fun s => s.flushPair p q

/-- A wrong token counted; the eighth locks the pair. -/
def State.attachFails (s : State) (p q : Nat) : State :=
  let s := s.bump F.pavQpState_FAILS p q 1
  if 8 ≤ s.rd F.pavQpState_FAILS p q then (s.unbindQp p q).setQp p q 4 else s

/-- The token of a pair. -/
def State.qpToken (s : State) (p q : Nat) : Nat := (s.reg .pavQpToken1 p q).toNat * 2 ^ 64 + (s.reg .pavQpToken0 p q).toNat

/-- What an ATTACH message does (Table 13-5): the token is compared; a match binds the session. -/
def State.attachIn (s : State) (m : KmtMsg) : Option State :=
  let p := m.pav
  let q := m.qpw
  if 64 ≤ p ∨ 16 ≤ q ∨ (s.qpState p q ≠ 2 ∧ s.qpState p q ≠ 3) then some (s.attachNo m.session p q)
  else if beNat m.body ≠ s.qpToken p q then some ((s.attachFails p q).attachNo m.session p q)
  else s.attachTo p q m.session

/-- Entries of a SUBMIT written from the SQ tail on; `none` in the outer place while memory waits, in the inner where a
write faults. -/
def State.putEntries (s : State) (p q tail : Nat) : (n : Nat) → List Byte → Option (Option State)
  | 0, _ => some (some s)
  | n + 1, bs =>
    match s.pavWrite p (s.rd F.pavQpSq_BASE p q * 4096 + 64 * (tail % s.sqSize p q)) (bs.take 64) with
    | .wait => none
    | .fault _ _ _ => some none
    | .ok _ t => t.putEntries p q ((tail + 1) % 65536) n (bs.drop 64)

/-- What a SUBMIT message does: the entries are written and the tail is raised, or the whole message is refused. -/
def State.submitIn (s : State) (m : KmtMsg) : Option State :=
  let p := m.pav
  let q := m.qpw
  let n := m.body.length / 64
  let tail := s.rd F.pavSqTail_TAIL p q
  let t := (tail + n) % 65536
  if 64 ≤ p ∨ 16 ≤ q ∨ !s.attached p q m.session ∨ !s.tailOk p q t then some (s.kmtRefuse m)
  else (s.putEntries p q tail n m.body).map fun r => match r with
    | none => s.kmtRefuse m
    | some u => u.wr F.pavSqTail_TAIL p q t

/-- What a CQ_ACK message does: the CQ head of an attached pair, under the check of R450. -/
def State.cqAckIn (s : State) (m : KmtMsg) : State :=
  let p := m.pav
  let q := m.qpw
  let h := beNat m.body
  if 64 ≤ p ∨ 16 ≤ q ∨ !s.attached p q m.session then s.kmtRefuse m
  else if s.headOk p q h then s.wr F.pavCqHead_HEAD p q h else s.badDb p q

/-! ### Window traffic (R488) -/

/-- A window message as the request that it is. -/
def State.kmtFrame (s : State) (typ : Nat) (m : KmtMsg) (p : Partner) : OFrame :=
  ⟨typ, true, s.devId, p.dev, m.pav, 1, p.rule.keyid, 0, m.qpw, m.offset, 0, 0, m.cinc, m.cstile, m.seq, m.body, false⟩

/-- A window request performed, or kept until memory serves it. -/
def State.kmtRequest (s : State) (n : Nat) (m : KmtMsg) (f : OFrame) : State :=
  (s.perform n (some m.session) f).getD (s.keepIn n (some m.session) f)

/-- A token message as the request that it is. -/
def State.kmtTokenFrame (s : State) (m : KmtMsg) (p : Partner) : OFrame :=
  { s.kmtFrame 0x04 m p with window := beNat (m.body.take 2), cstile := beNat (m.body.drop 2) }

/-- The oldest unanswered request of a session that a test picks. -/
def State.kmtReq (s : State) (k : Nat) (pick : OutReq → Bool) : Option OutReq :=
  s.lnk.outst.find? fun r => r.kmt.any (fun e => e.1 == k) && pick r

/-- What an RDATA message does: the data of the oldest read of the session. -/
def State.rdataIn (s : State) (m : KmtMsg) : State :=
  match s.kmtReq m.session fun r => r.frame.typ == 2 with
  | some r => s.okReq r m.body
  | none => s

/-- What a REFUSE message does: the oldest unanswered request of the session is refused; with the retry status it is to be
sent again. -/
def State.refusedIn (s : State) (m : KmtMsg) : State :=
  match s.kmtReq m.session fun _ => true with
  | none => s
  | some r =>
    if m.status = St.retry then
      { s with lnk := { s.lnk with outst := s.lnk.outst.map fun q => if q == r then { q with retry := true, kmt := none } else q } }
    else s.badReq r (if m.status = St.peerLost then St.peerLost else St.remoteRefused)

/-! ### The kinds of messages (Table 14-9) -/

/-- What a message of a kind does once the checks have passed it; `none` while memory waits. READ holds its length less 1 in CINC,
as ARG does in an SLP frame. -/
def State.kmtAct (s : State) (n kind : Nat) (m : KmtMsg) (p : Partner) : Option State :=
  match kind with
  | 0x03 => s.attachIn m
  | 0x05 => s.submitIn m
  | 0x06 => some (s.cqAckIn m)
  | 0x09 => some (s.kmtRequest n m (s.kmtFrame 0x01 m p))
  | 0x0A => some (s.kmtRequest n m (s.kmtFrame 0x02 m p))
  | 0x0B => some (s.rdataIn m)
  | 0x0C => some (s.kmtRequest n m (s.kmtTokenFrame m p))
  | 0x0E => some (s.refusedIn m)
  | 0x10 => some (s.loseSession m.session)
  | _ => some s

/-- Messages kept ahead of their turn are acted on as the gap before them closes (R487). -/
def State.kmtEarly (s : State) (n k : Nat) : (fuel : Nat) → State
  | 0 => s
  | fuel + 1 =>
    match (s.session k).bind fun x => x.early.find? fun e => e.2.seq == x.rxSeq with
    | none => s
    | some (kind, m) =>
      match s.kmtGate n kind m with
      | .drop t => t.kmtEarly n k fuel
      | .take p t =>
        match t.kmtAct n kind m p with
        | none => s
        | some u => (u.kmtAcked k m.ack).kmtEarly n k fuel

/-- A message acted on, then the acknowledgment that it carries and the messages that waited for it. Where memory waits, nothing
has happened yet. -/
def State.kmtIn (s : State) (n kind : Nat) (m : KmtMsg) : Out :=
  match s.kmtGate n kind m with
  | .drop t => .next (t.kmtEarly n m.session kmtWindow)
  | .take p t =>
    match t.kmtAct n kind m p with
    | none => .next s
    | some u => .next ((u.kmtAcked m.session m.ack).kmtEarly n m.session kmtWindow)

/-- KMT_ATTACH (R453, Table 13-5). -/
def execKmtAttach (port : Nat) (m : KmtMsg) (s : State) : Out := s.kmtIn port 0x03 m

/-- KMT_SUBMIT (R451). -/
def execKmtSubmit (port : Nat) (m : KmtMsg) (s : State) : Out := s.kmtIn port 0x05 m

/-- KMT_CQ_ACK (R451). -/
def execKmtCqAck (port : Nat) (m : KmtMsg) (s : State) : Out := s.kmtIn port 0x06 m

/-- KMT_WRITE (R488). -/
def execKmtWrite (port : Nat) (m : KmtMsg) (s : State) : Out := s.kmtIn port 0x09 m

/-- KMT_READ (R488). -/
def execKmtRead (port : Nat) (m : KmtMsg) (s : State) : Out := s.kmtIn port 0x0A m

/-- KMT_TOKEN (R486, R475). -/
def execKmtToken (port : Nat) (m : KmtMsg) (s : State) : Out := s.kmtIn port 0x0C m

/-- KMT_RDATA (R486). -/
def execKmtRdata (port : Nat) (m : KmtMsg) (s : State) : Out := s.kmtIn port 0x0B m

/-- KMT_REFUSE (R486). -/
def execKmtRefuse (port : Nat) (m : KmtMsg) (s : State) : Out := s.kmtIn port 0x0E m

/-! ### The session itself (R487) -/

/-- KMT_ACK (R487). -/
def execKmtAck (port : Nat) (m : KmtMsg) (s : State) : Out := s.kmtIn port kmtAckKind m

/-- KMT_KEEPALIVE (R487). -/
def execKmtKeepalive (port : Nat) (m : KmtMsg) (s : State) : Out := s.kmtIn port 0x0F m

/-- KMT_CLOSE (R487): the session is lost. -/
def execKmtClose (port : Nat) (m : KmtMsg) (s : State) : Out := s.kmtIn port 0x10 m

/-- The longest retransmission interval in µs (R487). -/
def maxRto : Nat := 12800

/-- KMT_RETRANSMIT_TIMEOUT (R487): the oldest unacknowledged message is sent again, or after 16 tries the session is
lost. -/
def execKmtRetransmitTimeout (session : Nat) (s : State) : Out :=
  match s.session session with
  | none => .next s
  | some k =>
    match k.unacked with
    | [] => .next s
    | (seq, m) :: _ =>
      if 16 ≤ k.tries then .next (s.loseSession session)
      else if s.mute k then .next s
      else .next ((s.setSession session { k with tries := k.tries + 1, rto := min maxRto (2 * k.rto), ackDue := false }).send
        (.kmt session seq k.rxSeq m))

/-- KMT_ACK_TIMER (R487): received messages are acknowledged. -/
def execKmtAckTimer (session : Nat) (s : State) : Out :=
  match s.session session with
  | none => .next s
  | some k =>
    if k.ackDue && !s.mute k then
      .next ((s.setSession session { k with ackDue := false }).send (.kmt session k.txSeq k.rxSeq (hsMsg kmtAckKind [])))
    else .next s

/-- KMT_KEEPALIVE_TIMER (R487). -/
def execKmtKeepaliveTimer (session : Nat) (s : State) : Out := .next (s.kmtPost session (hsMsg 0x0F []))

/-- KMT_SESSION_TIMEOUT (R487). -/
def execKmtSessionTimeout (session : Nat) (s : State) : Out :=
  if (s.session session).isSome then .next (s.loseSession session) else .next s

end Sys2Proof.Machine
end

