-- ==== Sys2Proof/Machine/Hub.lean ====
section
/-! DEFINITION. Services of the hub that the units share: the APLIC (12.5), the state of the Keeper (15.7), and device
loss (15.6). -/

namespace Sys2Proof.Machine

/-! ### The APLIC in MSI delivery mode (R431, Table 12-6) -/

/-- Offset of `domaincfg`. -/
def aplicDomaincfg : Nat := 0x0000
/-- Offset of `sourcecfg` of a source. -/
def aplicSourcecfg (n : Nat) : Nat := 4 * n
/-- Offset of `target` of a source. -/
def aplicTarget (n : Nat) : Nat := 0x3000 + 4 * n
/-- Offset under which the pending bits lie. -/
def aplicIp : Nat := 0x1C00
/-- Offset under which the enable bits lie. -/
def aplicIe : Nat := 0x1E00

/-- A word of a domain of the APLIC. -/
def State.aplic (s : State) (d off : Nat) : Nat := tget s.hub.aplic (d, off) 0

/-- A word of the APLIC set. -/
def State.setAplic (s : State) (d off v : Nat) : State :=
  { s with hub := { s.hub with aplic := tset s.hub.aplic (d, off) v } }

/-- Bit `n` of a word as `b`. -/
def bitTo (w n : Nat) (b : Bool) : Nat := if b then w ||| 2 ^ n else if w.testBit n then w - 2 ^ n else w

/-- Source `n` of a domain forwarded as an MSI when it is pending and enabled and the domain delivers. -/
def State.aplicForward (s : State) (d n : Nat) : State :=
  if (s.aplic d aplicIp).testBit n && (s.aplic d aplicIe).testBit n && (s.aplic d aplicDomaincfg).testBit 8 then
    let t := s.aplic d (aplicTarget n)
    let s := s.setAplic d aplicIp (bitTo (s.aplic d aplicIp) n false)
    s.msi 10 (natField t 31 18) (if d = 0 then 0 else 1 + natField t 17 12) (natField t 10 0)
  else s

/-- The domain that has source `n`: the machine domain, or the supervisor domain to which it is delegated. -/
def State.aplicDomain (s : State) (n : Nat) : Nat := if (s.aplic 0 (aplicSourcecfg n)).testBit 10 then 1 else 0

/-- A wired source signalled: it becomes pending where its domain has made it active. -/
def State.aplicSource (s : State) (n : Nat) : State :=
  let d := s.aplicDomain n
  if natField (s.aplic d (aplicSourcecfg n)) 2 0 < 4 then s
  else (s.setAplic d aplicIp (bitTo (s.aplic d aplicIp) n true)).aplicForward d n

/-! ### The Keeper (Table 15-9) -/

/-- State of the Keeper: 0 RUNNING, 1 CHECK, 2 RESET, 3 DEGRADED, 4 HALTED. -/
def State.keeper (s : State) : Nat := s.rd F.telKeeper_STATE 0 0

/-- Whether the Keeper's firmware runs. -/
def State.keeperUp (s : State) : Bool := s.keeper == 0 || s.keeper == 3

/-! ### Device loss (R528, R529) -/

/-- TEL_ALQ as the queue of alarms stands. -/
def State.alqSync (s : State) : State :=
  (s.wr F.telAlq_FILL 0 0 s.tel.queue.length).wr F.telAlq_SUMMARIES 0 0 (s.tel.queue.filter fun e => e.2.2.flags.testBit 0).length

/-- An alarm put ahead of every queued one. -/
def State.alarmFirst (s : State) (r : AlarmRec) : State :=
  { s with tel := { s.tel with queue := (10, none, r) :: s.tel.queue } }.alqSync

/-- The device-loss record. -/
def lossRecord (cause die : Nat) : FaultReport :=
  { FaultReport.blank St.deviceLoss 2 0x13 die 0xFF with info := cause }

/-- The first cause recorded in TEL_LOSS. -/
def State.lossCause (s : State) (cause die : Nat) : State :=
  if s.rd F.telLoss_CAUSE 0 0 = 0 then (s.wr F.telLoss_CAUSE 0 0 cause).wr F.telLoss_DIE 0 0 die else s

/-- Device loss by a cause: every pavilion is fenced with the device-loss status, the alarm goes ahead of every queued one,
and the link ports are squelched; the state stays until cold reset. The first cause stays recorded. -/
def State.deviceLoss (s : State) (cause die : Nat) : State :=
  if s.sys.lost then s
  else
    let named := cause == 1 || cause == 3
    let s := s.lossCause cause (if named then die else 0)
    let s := (List.range 64).foldl (fun s p => s.fence p St.deviceLoss) s
    let r := lossRecord cause (if named then die else 10)
    let s := s.record r
    { s.alarmFirst ⟨0x17, 0, 1, s.mtime, s.mtime, r⟩ with sys := { s.sys with lost := true } }

end Sys2Proof.Machine
end

