-- ==== Sys2Proof/Machine/Pace.lean ====
section
/-! DEFINITION. Pace, brake, power cap, droop and temperature (16.2 to 16.6). -/

namespace Sys2Proof.Machine

/-! ### Targets (R551, R562) -/

/-- The unthrottled pace in beats/s. -/
def paceLimit : Nat := 1450000000

/-- The floor of the cap pace and the thermal pace. -/
def paceFloor : Nat := 400000000

/-- The requested pace in beats/s. -/
def State.paceReq (s : State) : Nat := s.rd F.pwrPaceReq_REQ 0 0 * 1000000

/-- The target pace of the device: the lowest of four. -/
def State.target (s : State) : Nat := min (min s.paceReq s.pwr.capHz) (min s.pwr.thermHz paceLimit)

/-- Which of the four it is. -/
def State.limiter (s : State) : Nat :=
  let t := s.target
  if s.paceReq = t then 0 else if s.pwr.capHz = t then 1 else if s.pwr.thermHz = t then 2 else 3

/-- Dies that the loop of a rail measures. -/
def railDies (k : Nat) : List Nat := if k < 8 then [k] else [8, 9, 10]

/-- The rail that supplies a die. -/
def railOf (die : Nat) : Nat := min die 8

/-- Whether the loop of a rail is held by a droop or by the 5 µs after it. -/
def State.railHeld (s : State) (k : Nat) : Bool := (railDies k).any s.pwr.inDroop.contains || s.pwr.hold.contains k

/-- A loop that takes the target as it stands, or latches it. -/
def State.loopTarget (s : State) (k : Nat) : State :=
  let t := s.target
  let w := s.rd F.pwrStatus_LATCHED 0 0
  if s.railHeld k then s.wr F.pwrStatus_LATCHED 0 0 (bitTo w k (tget s.pwr.taken k 0 != t))
  else { s with pwr := { s.pwr with taken := tset s.pwr.taken k t } }.wr F.pwrStatus_LATCHED 0 0 (bitTo w k false)

/-- PWR_STATUS and the loops after a change of one of the four paces. -/
def State.retarget (s : State) : State :=
  let s := (((s.wr F.pwrStatus_TARGET 0 0 (s.target / 1000000)).wr F.pwrStatus_CAPPACE 0 0 (s.pwr.capHz / 1000000)).wr
    F.pwrStatus_THERMPACE 0 0 (s.pwr.thermHz / 1000000)).wr F.pwrStatus_LIMITER 0 0 s.limiter
  (List.range 9).foldl State.loopTarget s

/-- An alarm of the power control (code 0x0E). -/
def State.powerAlarm (s : State) (unit info : Nat) : State :=
  s.alarm 10 0x0E { FaultReport.blank St.success 3 unit 10 0xFF with info := info }

/-- What PACE_REQUEST_WRITE does (R551, R576). -/
def paceRequestWriteOp (a : Actor) (v : BitVec 64) (s : State) : Out :=
  let n := natField v.toNat 10 0
  if !machineActor a then .next s.refuse
  else if n < 400 ∨ 1450 < n then .next s
  else
    let s := s.wr F.pwrPaceReq_REQ 0 0 n
    .next (if s.trl.force.isEmpty then s else s.drift 0xB 0xFFFF).retarget

/-- PACE_REQUEST_WRITE (R551, R576). -/
def execPaceRequestWrite (a : Actor) (v : BitVec 64) (s : State) : Out := paceRequestWriteOp a v s

/-! ### The governor (R552, R553) -/

/-- Range of a rail's set point in mV (Table 16-1). -/
def railRange (k : Nat) : Nat × Nat := if k < 8 then (550, 800) else (650, 850)

/-- Measured pace of a rail's loop from the paces of the dies. -/
def loopPace (paces : List Nat) (k : Nat) : Nat := ((railDies k).map fun d => paces.getD d 0).foldl min (paces.getD (railDies k).head! 0)

/-- One step of a loop: 5 mV towards the target, inside the range; the second component tells that it holds at the top and
falls short. -/
def State.loopStep (s : State) (paces : List Nat) (k : Nat) : State × Bool :=
  if s.railHeld k then (s, false)
  else
    let p := loopPace paces k
    let t := tget s.pwr.taken k 0
    let v := s.rd F.pwrRail_SETPT k 0
    let (lo, hi) := railRange k
    let n := if p * 10000 < 9975 * t then min hi (v + 5) else if 10025 * t < p * 10000 then max lo (v - 5) else v
    let s := if n = v then s else (s.wr F.pwrRail_SETPT k 0 n).send (.setPoint k n)
    (s, v == hi && decide (p * 100 < 99 * t))

/-- The measured paces of the dies. -/
def State.showPaces (s : State) (paces : List Nat) : State :=
  (List.range 11).foldl (fun s d => s.wr F.pwrDie_PACE d 0 (paces.getD d 0 / 1000000)) s

/-- One step of every loop, and whether one holds at the top and falls short. -/
def State.loopSteps (s : State) (paces : List Nat) : State × Bool :=
  (List.range 9).foldl (fun (acc : State × Bool) k =>
    let (s, b) := acc.1.loopStep paces k
    (s, acc.2 || b)) (s, false)

/-- SHORT set, with its alarm as it rises. -/
def State.shortNow (s : State) (short : Bool) : State :=
  let was := s.flag F.pwrStatus_SHORT 0 0
  let s := s.wr F.pwrStatus_SHORT 0 0 (if short then 1 else 0)
  if short && !was then s.powerAlarm 0x16 0 else s

/-- GOVERNOR_TICK (R552): `paces` in beats/s by die. The Keeper steps the loops while it runs. -/
def execGovernorTick (paces : List Nat) (s : State) : Out :=
  let s := s.showPaces paces
  if !s.keeperUp then .next s else .next ((s.loopSteps paces).1.shortNow (s.loopSteps paces).2)

/-! ### The brake (R555, R556) -/

/-- PWR_BRAKE.HWLEVEL from the brakes that hardware holds. -/
def State.hwBrakes (s : State) : State :=
  s.wr F.pwrBrake_HWLEVEL 0 0
    (if s.pwr.shut then 0 else if s.pwr.therm then 2 else if s.flag F.pwrStatus_ALERT 0 0 then 4 else 8)

/-- The fields of PWR_BRAKE written: LEVEL where it is 1 to 8, and ACLR once no regulator asserts its alert. -/
def State.brakeFields (s : State) (level : Nat) (aclr : Bool) : State :=
  let s := if 1 ≤ level ∧ level ≤ 8 then s.wr F.pwrBrake_LEVEL 0 0 level else s
  if aclr && s.pwr.alerts.isEmpty then (s.wr F.pwrStatus_ALERT 0 0 0).hwBrakes else s

/-- A write of PWR_BRAKE. -/
def State.brakeWrite (s : State) (a : Actor) (v : BitVec 64) : State :=
  if !machineActor a then s.refuse else s.brakeFields (natField v.toNat 3 0) (v.toNat.testBit 12)

/-- BRAKE_LEVEL_WRITE (R555). -/
def execBrakeLevelWrite (a : Actor) (v : BitVec 64) (s : State) : Out := .next (s.brakeWrite a v)

/-- ACLR (R556). -/
def execAclr (a : Actor) (v : BitVec 64) (s : State) : Out := 
  if !machineActor a then .next s.refuse else .next (s.brakeFields (natField v.toNat 3 0) true)

/-- A regulator that asserts its alert. -/
def State.alertAt (s : State) (reg : Nat) : State :=
  { s with pwr := { s.pwr with alerts := if s.pwr.alerts.contains reg then s.pwr.alerts else s.pwr.alerts ++ [reg] } }

/-- REGULATOR_ALERT (R556): the alert brake, by the hub hardware, and APLIC source 2. -/
def execRegulatorAlert (reg : Nat) (s : State) : Out :=
  .next (((s.alertAt reg).wr F.pwrStatus_ALERT 0 0 1).hwBrakes.aplicSource 2)

/-! ### Telemetry and the power cap (R548, R549, R557 to R559) -/

/-- The domains by ORDER: kept first to yielding first; 0 compute, 1 memory, 2 links (Table 16-2). -/
def capOrder : Nat → List Nat
  | 0 => [2, 1, 0]
  | 1 => [2, 0, 1]
  | 2 => [1, 2, 0]
  | 3 => [1, 0, 2]
  | 4 => [0, 2, 1]
  | _ => [0, 1, 2]

/-- The effective cap in W: LIMIT alone while no image has committed. -/
def State.cap (s : State) : Nat :=
  let t := s.rd F.pwrCap_TCAP 0 0
  let l := s.rd F.pwrCap_LIMIT 0 0
  if t = 0 then l else min t l

/-- Whether the throttle of a domain is above its floor (Table 16-3). -/
def State.aboveFloor (s : State) : Nat → Bool
  | 0 => decide (paceFloor < s.pwr.capHz)
  | 1 => decide (40 < s.rd F.pwrCap_MEMORY 0 0)
  | _ => decide (25 < s.rd F.pwrCap_LINKS 0 0)

/-- Whether a throttle is engaged. -/
def State.engaged (s : State) : Nat → Bool
  | 0 => s.pwr.capHz != paceLimit
  | 1 => s.rd F.pwrCap_MEMORY 0 0 != 100
  | _ => s.rd F.pwrCap_LINKS 0 0 != 100

/-- The cap pace set. -/
def State.setCapPace (s : State) (hz : Nat) : State := ({ s with pwr := { s.pwr with capHz := hz } }).retarget

/-- A throttle lowered by one step. -/
def State.lowerThrottle (s : State) : Nat → State
  | 0 => s.setCapPace (max paceFloor (min s.pwr.capHz s.target * 99 / 100))
  | 1 => s.wr F.pwrCap_MEMORY 0 0 (max 40 (s.rd F.pwrCap_MEMORY 0 0 - 5))
  | _ => s.wr F.pwrCap_LINKS 0 0 (max 25 (s.rd F.pwrCap_LINKS 0 0 - 5))

/-- A throttle raised by one step. -/
def State.raiseThrottle (s : State) : Nat → State
  | 0 =>
    let n := s.pwr.capHz * 100 / 99
    s.setCapPace (if min s.paceReq s.pwr.thermHz ≤ n then paceLimit else min paceLimit n)
  | 1 => s.wr F.pwrCap_MEMORY 0 0 (min 100 (s.rd F.pwrCap_MEMORY 0 0 + 5))
  | _ => s.wr F.pwrCap_LINKS 0 0 (min 100 (s.rd F.pwrCap_LINKS 0 0 + 5))

/-- One step of the cap control (R559); `uw` the package power in µW. -/
def State.capStep (s : State) (uw : Nat) : State :=
  let c := s.cap * 1000000
  let order := capOrder (s.rd F.pwrCap_ORDER 0 0)
  if c < uw then
    match order.reverse.find? s.aboveFloor with
    | some d => s.lowerThrottle d
    | none =>
      let s := s.wr F.pwrBrake_LEVEL 0 0 6
      if s.pwr.braked then s else { s with pwr := { s.pwr with braked := true } }.powerAlarm 0x16 s.cap
  else if uw * 100 < 98 * c then
    if s.pwr.braked then { s with pwr := { s.pwr with braked := false } }.wr F.pwrBrake_LEVEL 0 0 8
    else
      match order.find? s.engaged with
      | some d => s.raiseThrottle d
      | none => s
  else s

/-- Whether a voltage in mV lies in the range of Table 19-6 for a rail; VDDQ's is that of JESD239, which the specification
does not quote. VAUX is the board's to watch (R622). -/
def railInRange (k mv : Nat) : Bool :=
  if k ≤ 7 then decide (550 ≤ mv ∧ mv ≤ 800)
  else if k = 8 then decide (650 ≤ mv ∧ mv ≤ 850)
  else if k = 9 then decide (750 ≤ mv ∧ mv ≤ 850)
  else if k = 10 then decide (75000 * 97 ≤ mv * 10000 ∧ mv * 10000 ≤ 75000 * 103)
  else if k = 11 then decide (120000 * 97 ≤ mv * 10000 ∧ mv * 10000 ≤ 120000 * 103)
  else if k = 12 then Config.vddqInRange mv
  else true

/-- What a successful read finds of a rail's range (R631): the alarm at the first read that finds it out of range. -/
def State.railRange (s : State) (k mv : Nat) : State :=
  if railInRange k mv || !s.sys.pwrGood then { s with pwr := { s.pwr with outside := s.pwr.outside.filter (· != k) } }
  else if s.pwr.outside.contains k then s
  else { s with pwr := { s.pwr with outside := s.pwr.outside ++ [k] } }.powerAlarm 0x16 k

/-- A rail's read: its values, or after the third failure in succession the alarm and the substitution. The regulator's
alert is seen by a read that succeeds. -/
def State.railRead (s : State) (k : Nat) (x : RailSample) : State :=
  if x.ok then
    let s := ((s.wr F.pwrRail_VOUT k 0 x.mv).wr F.pwrRail_IOUT k 0 x.ma).wr F.pwrRail_STALE k 0 0
    { s with pwr := { s.pwr with
      fails := tset s.pwr.fails k 0
      alerts := if x.alert then s.pwr.alerts else s.pwr.alerts.filter (· != k) } }.railRange k x.mv
  else
    let n := tget s.pwr.fails k 0 + 1
    let s := { s with pwr := { s.pwr with fails := tset s.pwr.fails k n } }
    if n = 3 then (s.wr F.pwrRail_STALE k 0 1).powerAlarm 0x16 k else s

/-- Power of a rail in µW as last read, or as R549 substitutes it. -/
def State.railPower (s : State) (k : Nat) : Nat :=
  if s.flag F.pwrRail_STALE k 0 then s.rd F.pwrRail_SETPT k 0 * s.kpr.cfg.limits.getD k 0
  else s.rd F.pwrRail_VOUT k 0 * s.rd F.pwrRail_IOUT k 0

/-- Every rail read. -/
def State.readRails (s : State) (rs : List RailSample) : State := (rs.zipIdx.take 14).foldl (fun s (x, k) => s.railRead k x) s

/-- Power of rails in µW. -/
def State.powerOf (s : State) (ks : List Nat) : Nat := (ks.map s.railPower).sum

/-- PWR_POWER: the package and the domains, in W. -/
def State.showPower (s : State) : State :=
  let watts := fun (ks : List Nat) => min 65535 (s.powerOf ks / 1000000)
  (((s.wr F.pwrPower_PACKAGE 0 0 (watts (List.range 14))).wr F.pwrPower_COMPUTE 0 0 (watts (List.range 9))).wr
    F.pwrPower_MEMORY 0 0 (watts [9, 12])).wr F.pwrPower_LINKS 0 0 (watts [10, 11])

/-- TELEMETRY_READ (R548): every rail is read, power is summed by domain, and the cap control makes a step. -/
def execTelemetryRead (rs : List RailSample) (s : State) : Out :=
  if !s.keeperUp then .next s
  else
    let s := s.readRails rs
    .next (s.showPower.capStep (s.powerOf (List.range 14)))

/-! ### Droop (R561, R562) -/

/-- Ticks in a second. -/
def tickS : Nat := 100000000

/-- A detector of a die in droop. -/
def State.droopAt (s : State) (die det : Nat) : State :=
  let l := tget s.pwr.droop die []
  { s with pwr := { s.pwr with
    droop := tset s.pwr.droop die (if l.contains det then l else l ++ [det])
    inDroop := if s.pwr.inDroop.contains die then s.pwr.inDroop else s.pwr.inDroop ++ [die] } }

/-- DROOP_DETECT (R561). -/
def execDroopDetect (die det : Nat) (s : State) : Out :=
  .next (s.droopAt die det)

/-- The droops of a die in this second, this one among them. -/
def State.droopsNow (s : State) (die : Nat) : Nat :=
  let sec := s.mtime / tickS
  let (t, n) := tget s.pwr.droopS die (sec, 0)
  if t = sec then n + 1 else 1

/-- A droop over, the `n`-th of this second: the loop of its rail is held. -/
def State.droopOver (s : State) (die n : Nat) : State :=
  let k := railOf die
  { s with pwr := { s.pwr with
    droop := terase s.pwr.droop die
    inDroop := s.pwr.inDroop.filter (· != die)
    droopS := tset s.pwr.droopS die (s.mtime / tickS, n)
    hold := if s.pwr.hold.contains k then s.pwr.hold else s.pwr.hold ++ [k] } }

/-- DROOP_END (R561): the droop is counted, and the droop alarm is raised once in a second with more than LIMIT. -/
def execDroopEnd (die : Nat) (s : State) : Out :=
  if !s.pwr.inDroop.contains die then .next s
  else
    let n := s.droopsNow die
    let s := (s.droopOver die n).bump F.pwrDie_DROOPS die 0 1
    .next (if n = s.rd F.pwrDroop_LIMIT 0 0 + 1 then s.alarm die 0x0D (FaultReport.blank St.success 3 0x15 die 0xFF) else s)

/-- DROOP_HOLD_END (R562): 5 µs after the droop the loop takes the target as it then stands. -/
def execDroopHoldEnd (rail : Nat) (s : State) : Out :=
  .next ({ s with pwr := { s.pwr with hold := s.pwr.hold.filter (· != rail) } }.loopTarget rail)

/-! ### Temperature (R564 to R568) -/

/-- The hardware shutdown: the shutdown brake, the alert of the SMBus, rails 0 to 9 off, and device loss by cause 4. -/
def State.shutdown (s : State) : State :=
  if s.pwr.shut then s
  else
    let s := { s with pwr := { s.pwr with shut := true }, sys := { s.sys with smbOwn := true } }
    let s := (s.hwBrakes.aplicSource 3).deviceLoss 4 0
    (List.range 10).foldl (fun s k => s.send (.railOff k)) s

/-- The temperature of a die, and of the device. -/
def State.takeTemp (s : State) (die t : Nat) : State :=
  let s := s.wr F.pwrDie_TEMP die 0 t
  s.wr F.pwrTherm_MAXT 0 0 (((List.range 11).map fun d => s.rd F.pwrDie_TEMP d 0).foldl max 0)

/-- The warning of a die, raised once until it has cooled by more than 5 °C. -/
def State.warnTemp (s : State) (die t : Nat) : State :=
  let warn := s.rd F.pwrTherm_WARN 0 0
  if warn ≤ t ∧ !s.pwr.warned.contains die then
    ({ s with pwr := { s.pwr with warned := s.pwr.warned ++ [die] } }.alarm die 0x0C
      { FaultReport.blank St.success 3 0x15 die 0xFF with info := t }).aplicSource 6
  else if t + 5 < warn then { s with pwr := { s.pwr with warned := s.pwr.warned.filter (· != die) } }
  else s

/-- The thermal brake: held from 8 °C above THROTTLE until below it. -/
def State.thermBrake (s : State) : State :=
  let m := s.rd F.pwrTherm_MAXT 0 0
  let thr := s.rd F.pwrTherm_THROTTLE 0 0
  if thr + 8 ≤ m then { s with pwr := { s.pwr with therm := true } }.hwBrakes
  else if m < thr then { s with pwr := { s.pwr with therm := false } }.hwBrakes else s

/-- SENSOR_READ (R564): the temperatures of the die and of the device, the warning, the thermal brake and the shutdown. -/
def execSensorRead (die : Nat) (ts : List Nat) (s : State) : Out :=
  let t := ts.foldl max 0
  let s := ((s.takeTemp die t).warnTemp die t).thermBrake
  .next (if ts.any fun x => decide (115 ≤ x) then s.shutdown else s)

/-- The thermal pace after one step. -/
def State.nextTherm (s : State) : Nat :=
  let m := s.rd F.pwrTherm_MAXT 0 0
  let thr := s.rd F.pwrTherm_THROTTLE 0 0
  let h := s.pwr.thermHz
  if thr ≤ m then max paceFloor (h * 98 / 100) else if m + 3 < thr then min paceLimit (h * 102 / 100) else h

/-- THERMAL_PACE_STEP (R566), by the Lodges. -/
def execThermalPaceStep (s : State) : Out :=
  .next ({ s with pwr := { s.pwr with thermHz := s.nextTherm } }.retarget)

end Sys2Proof.Machine
end

