-- ==== Sys2Proof/Machine/Image.lean ====
section
/-! DEFINITION. Trellis images: the layout of header and sections (05.1, 05.2), the effect of each section in force, and the
checks of Table 5-5. -/

namespace Sys2Proof.Machine

/-! ### Bytes -/

/-- Bytes that are all zero. -/
def zeros (bs : List Byte) : Bool := bs.all (· == 0)

/-- The entries of `n` bytes of a payload. -/
def chunksOf (n : Nat) (bs : List Byte) : List (List Byte) := (List.range (bs.length / n)).map fun i => (bs.drop (n * i)).take n

/-! ### Header (Table 5-1) -/

/-- SCOPE: whether the image is for one pavilion. -/
def imgPav (b : List Byte) : Bool := (fieldAt b 6 2).testBit 0
/-- LENGTH. -/
def imgLen (b : List Byte) : Nat := fieldAt b 12 4
/-- COUNT. -/
def imgCount (b : List Byte) : Nat := fieldAt b 16 2
/-- PAVILION. -/
def imgTarget (b : List Byte) : Nat := byteAt b 19
/-- EPOCH. -/
def imgEpoch (b : List Byte) : Nat := fieldAt b 20 4

/-! ### Sections (Tables 5-2 to 5-4) -/

/-- LENGTH of a section header. -/
def secLen (h : List Byte) : Nat := fieldAt h 8 4

/-- Whether a payload length suits a type (reason 0x09). -/
def lenSuits (typ n : Nat) : Bool :=
  match typ with
  | 1 => n == 576
  | 2 => n % 8 == 0
  | 3 => n % 8 == 0
  | 4 => n == 40
  | 5 => n == 32
  | 6 => n == 16
  | 7 => n == 48
  | 8 => n % 32 == 0
  | 9 => n % 32 == 0 && decide (n ≤ 8192)
  | 10 => n == 16
  | 11 => n == 16
  | _ => n % 8 == 0

/-- The sections of an image after its header, in order, with the index of the first that breaks reason 0x09. -/
def parseSecs : (n ix : Nat) → List Byte → List TSec × Option Nat
  | 0, ix, rest => ([], if rest.isEmpty then none else some (ix - 1))
  | n + 1, ix, rest =>
    let h := rest.take 32
    let len := secLen h
    let pay := (rest.drop 32).take len
    if rest.length < 32 || rest.length < 32 + len || !lenSuits (fieldAt h 0 2) len || crc32c pay != fieldAt h 12 4 then
      ([], some ix)
    else
      let (l, e) := parseSecs n (ix + 1) (rest.drop (32 + len))
      (⟨h, pay⟩ :: l, e)

/-- The order of R147. -/
def TSec.key (t : TSec) : Nat := t.typ * 65536 + t.target

/-- Sections of an image put in the place of those in force with the same type and target. -/
def mergeSecs (force img : List TSec) : List TSec :=
  let keep := force.filter fun t => !img.any fun u => u.key == t.key
  (keep ++ img).mergeSort fun a b => decide (a.key ≤ b.key)

/-! ### Contents of a configuration -/

/-- PAVILION_MAP: the pavilion of a bed; 0xFF none, also where no map is in force. -/
def mapBed (l : List TSec) (b : Nat) : Nat := match secPay l 1 0xFFFF with | some p => byteAt p b | none => 0xFF

/-- PAVILION_MAP: the group of a pavilion. -/
def mapGroup (l : List TSec) (p : Nat) : Nat := match secPay l 1 0xFFFF with | some b => fieldAt b (64 + 8 * p) 2 | none => 0xFFFF

/-- The beds of a pavilion. -/
def mapBeds (l : List TSec) (p : Nat) : List Nat := (List.range 64).filter fun b => mapBed l b == p

/-- The QUOTA payload of a pavilion; all zero where it has none (R149). -/
def quotaOf (l : List TSec) (p : Nat) : List Byte := (secPay l 6 p).getD (List.replicate 16 0)

/-- MODE and OWNER of a way-group; off where no section is in force. -/
def wayOf (l : List TSec) (d w : Nat) : Nat × Nat :=
  match secPay l 5 d with
  | some b => (byteAt b (2 * w), byteAt b (2 * w + 1))
  | none => (2, 0xFF)

/-- The owner of a stream engine; 0xFF none. -/
def engineOf (l : List TSec) (e : Nat) : Nat := match secPay l 4 (e / 32) with | some b => byteAt b (8 + e % 32) | none => 0xFF

/-- The entries of GATE_RULES of a port. -/
def gateEntries (l : List TSec) (n : Nat) : List (List Byte) := chunksOf 32 ((secPay l 9 n).getD [])

/-- An admission rule of a GATE_RULES entry (Table 14-3). -/
def ruleOf (ix : Nat) (b : List Byte) : GateRule :=
  ⟨ix, byteAt b 1, fieldAt b 2 2, byteAt b 4, byteAt b 5, byteAt b 6, byteAt b 7, fieldAt b 8 2, byteAt b 10, (b.drop 12).take 16⟩

/-- A partner of a plan stop: device and engine; none at 0xFFFF_FFFF. -/
def stopPeer (b : List Byte) (off : Nat) : Option (Nat × Nat) :=
  if fieldAt b off 4 = 0xFFFFFFFF then none else some (fieldAt b off 2, fieldAt b (off + 2) 2)

/-- A plan stop of a GATE_RULES entry (Table 14-13). -/
def stopOf (b : List Byte) : PlanStop :=
  ⟨byteAt b 1, byteAt b 2, byteAt b 3 == 1, fieldAt b 4 2, fieldAt b 6 2, fieldAt b 8 2, stopPeer b 10, fieldAt b 14 2,
    stopPeer b 16, stopPeer b 20, fieldAt b 24 2⟩

/-- The plan stops of every port. -/
def stopsOf (l : List TSec) : List PlanStop :=
  allPorts.flatMap fun n => ((gateEntries l n).filter fun b => byteAt b 0 == 2).map stopOf

/-- BEACON entries of a PORT_MODE payload. -/
def portBeacons (b : List Byte) : List Nat := (List.range 8).map fun i => fieldAt b (8 + 2 * i) 2

/-- SHARE entries in use: pavilion and sixteenths. -/
def portShares (b : List Byte) : List (Nat × Nat) :=
  ((List.range 8).map fun i => (byteAt b (24 + 2 * i), byteAt b (25 + 2 * i))).filter fun e => e.1 != 0xFF

/-- The words of a WAYSTATION entry as the registers hold them, and its index. -/
def windowOf (b : List Byte) : Nat × (BitVec 64 × BitVec 64 × BitVec 64 × BitVec 64) :=
  let w := fun off => BitVec.ofNat 64 (fieldAt b off 8)
  let pav := fieldAt b 18 2
  let w2 := fieldAt b 16 2 + pav * 2 ^ 16 + fieldAt b 20 2 * 2 ^ 32 + fieldAt b 22 2 * 2 ^ 48
  (fieldAt b 26 2, w 0, w 8, BitVec.ofNat 64 w2, BitVec.ofNat 64 (byteAt b 24 + byteAt b 25 % 2 * 256))

/-- The entries of the WAYSTATION section of a pavilion. -/
def windowsOf (l : List TSec) (p : Nat) : List (List Byte) := chunksOf 32 ((secPay l 8 p).getD [])

/-! ### The effect of the sections in force (05.2) -/

/-- PAVILION_MAP: beds, groups, and the states of the pavilions: FENCED and clean where they have beds (Table 13-2). -/
def State.layMap (s : State) (l : List TSec) : State :=
  let s := (List.range 64).foldl (fun s b =>
    let p := mapBed l b
    if p < 64 then (s.wr F.bedStatus_PAV_V b 0 1).wr F.bedStatus_PAV b 0 p
    else ((s.wr F.bedStatus_PAV_V b 0 0).wr F.bedStatus_PAV b 0 0).wr F.bedStatus_STATE b 0 0) s
  (List.range 64).foldl (fun s p =>
    let s := s.wr F.trlPavEpoch_GROUP p 0 (mapGroup l p)
    if (mapBeds l p).isEmpty then s.wr F.pavStatus_STATE p 0 0
    else (s.setPavState p 3).wr F.pavStatus_CLEAN p 0 1) s

/-- BED_ROUTE of a pavilion: the multicast groups of its beds. -/
def State.layRoutes (s : State) (l : List TSec) (p : Nat) : State :=
  let es := chunksOf 8 ((secPay l 2 p).getD [])
  let keep := s.arr.mcast.filter fun e => !s.owns p e.1.1
  { s with arr := { s.arr with
    mcast := es.foldl (fun t b => tset t (byteAt b 0, byteAt b 1) (fieldAt b 4 4)) keep } }

/-- The ARRAY_GROUP entries of a pavilion. -/
def groupEntries (l : List TSec) (p : Nat) : List (List Byte) := chunksOf 8 ((secPay l 3 p).getD [])

/-- The cells of a bed that entries give to an array group. -/
def groupCells (es : List (List Byte)) (b g : Nat) : List Nat :=
  (List.range 8).filter fun k => es.any fun e => byteAt e 0 == b && byteAt e 1 == g && (byteAt e 3).testBit k

/-- ARRAY_GROUP of a pavilion: CELL_SHAPE of every cell of its beds. -/
def State.layGroups (s : State) (l : List TSec) (p : Nat) : State :=
  let s := (s.beds p).foldl (fun s b => (List.range 8).foldl (fun s k => s.setReg .cellShape (8 * b + k) 0 0) s) s
  let es := groupEntries l p
  es.foldl (fun s e =>
    let b := byteAt e 0
    let cells := groupCells es b (byteAt e 1)
    cells.foldl (fun s k =>
      (((s.wr F.cellShape_JOIN (8 * b + k) 0 (cells.length - 1)).wr F.cellShape_SHAPE (8 * b + k) 0 (byteAt e 2)).wr
        F.cellShape_AG_V (8 * b + k) 0 1).wr F.cellShape_AG (8 * b + k) 0 (byteAt e 1)) s) s

/-- Registers of an engine that clear with its contexts (R306). -/
def contextRegs : List Reg := [.seCtxStatus, .seCtxDesc, .seFaultVa]

/-- Registers cleared of the engines that a test picks. -/
def State.clearEngines (s : State) (rs : List Reg) (mine : Nat → Bool) : State :=
  { s with regs := s.regs.filter fun e => !(rs.contains e.1.r && mine e.1.i) }

/-- The pavilion of an engine; 0xFF none. -/
def State.engineNow (s : State) (e : Nat) : Nat := if s.flag F.seCfg_PAV_V e 0 then s.rd F.seCfg_PAV e 0 else 0xFF

/-- STREAM_SPLIT of a die: the shares and the owners of its engines; an engine that changes its owner loses its contexts and
counts (R306). -/
def State.laySplit (s : State) (l : List TSec) (d : Nat) : State :=
  let b := (secPay l 4 d).getD []
  let s := s.clearEngines (contextRegs ++ [.seStall, .sePoison]) fun e => e / 32 == d && s.engineNow e != engineOf l e
  let s := ((s.wr F.snSplit_READ d 0 (byteAt b 0)).wr F.snSplit_WRITE d 0 (byteAt b 1)).wr F.snSplit_REMOTE d 0 (byteAt b 2)
  (List.range 32).foldl (fun s i =>
    let e := 32 * d + i
    let p := engineOf l e
    if p < 64 then ((s.wr F.seCfg_PAV_V e 0 1).wr F.seCfg_PAV e 0 p).wr F.seCfg_ON_BED e 0 (boolNat (mapBed l (e / 4) == p))
    else ((s.wr F.seCfg_PAV_V e 0 0).wr F.seCfg_PAV e 0 0).wr F.seCfg_ON_BED e 0 0) s

/-- ORANGERY_WAYS of a die. -/
def State.layWays (s : State) (l : List TSec) (d : Nat) : State :=
  (List.range 16).foldl (fun s w =>
    (s.wr F.orgWaymap_MODE d w (wayOf l d w).1).wr F.orgWaymap_OWNER d w (wayOf l d w).2) s

/-- QUOTA of a pavilion. -/
def State.layQuota (s : State) (l : List TSec) (p : Nat) : State :=
  let q := quotaOf l p
  let s := (((((s.wr F.pavQuota_SCRATCH p 0 (fieldAt q 0 2)).wr F.pavQuota_WAYS p 0 (byteAt q 2)).wr F.pavQuota_GDDR p 0
    (byteAt q 3)).wr F.pavQuota_TAGS p 0 (fieldAt q 4 2)).wr F.pavQuota_STILES p 0 (fieldAt q 6 2)).wr F.pavQuota_WINDOWS p 0
    (fieldAt q 8 2)
  (List.range 8).foldl (fun s d => s.wr F.snTaguse_QUOTA d p (fieldAt q 4 2)) s

/-- WAYSTATION of a pavilion (R370): every entry whose PAV is the pavilion is replaced, active values and shadows (R169). -/
def State.layWindows (s : State) (l : List TSec) (p : Nat) : State :=
  let es := (windowsOf l p).map windowOf
  let old := ((s.regs.filter fun e => e.1.r == .wsEntry3).map fun e => e.1.i).filter fun w =>
    wsValid (s.wsActive w) && wsPav (s.wsActive w) == p && !es.any fun e => e.1 == w
  let both := fun (s : State) w e => ((((s.wsInstall w e).setShadow .wsEntry0 w 0 e.1).setShadow .wsEntry1 w 0 e.2.1).setShadow
    .wsEntry2 w 0 e.2.2.1).setShadow .wsEntry3 w 0 e.2.2.2
  let s := old.foldl (fun s w =>
    let (a, b, c, d) := s.wsActive w
    both s w (a, b, c, putBits d 8 8 0)) s
  let s := es.foldl (fun s e => both s e.1 e.2) s
  { s with ws := { s.ws with
    trellis := s.ws.trellis.filter (fun e => e.2 != p && !es.any fun x => x.1 == e.1) ++ es.map fun e => (e.1, p) } }

/-- PORT_MODE of a port. A port whose mode, lane map or encryption changes restarts (R581, Table 14-11). -/
def State.layPort (s : State) (l : List TSec) (n : Nat) : State :=
  let b := (secPay l 7 n).getD []
  let m := byteAt b 0
  let x := s.port n
  let same := s.lpMode n == m && x.lanes == byteAt b 1 && x.enc == (byteAt b 2 == 1)
  let beacons := if b.isEmpty then [] else portBeacons b
  let s := (s.wr F.lpStatus_MODE n 0 m).onPort n fun x => { x with
    lanes := byteAt b 1, enc := byteAt b 2 == 1, share := portShares b, beacons := beacons }
  let s := if same then s
    else
      let s := if s.lpState n = 0 then s else s.leavePort n 0
      s.wr F.lpStatus_STATE n 0 (if m = 0 then 0 else 1)
  (List.range 8).foldl (fun s i =>
    (s.wr F.trlAgree_GROUP n i (beacons.getD i 0xFFFF)).wr F.trlAgree_STATE n i 0) s

/-- GATE_RULES of every port: admission rules and plan stops. -/
def State.layGate (s : State) (l : List TSec) : State :=
  let rules := allPorts.map fun n =>
    (n, ((gateEntries l n).zipIdx.filter fun e => byteAt e.1 0 == 1).map fun e => ruleOf e.2 e.1)
  { s with lnk := { s.lnk with rules := rules, plans := stopsOf l } }

/-- The slots of a die's logical beds set: TRL_SPARE_LIVE and BED_STATUS.SLOT; 0xF unavailable. SPARE names the slot that no bed
occupies, good or bad; of several a good one, and the lowest (Table 5-20). -/
def State.setSlots (s : State) (d : Nat) (slots : List Nat) : State :=
  let bad := s.rd F.trlSpareLive_BAD d 0
  let free := (List.range 9).filter fun n => !slots.contains n
  let word := ((List.range 8).map fun i => slots.getD i 0xF * 16 ^ i).sum
  let s := (s.wr F.trlSpareLive_SLOT d 0 word).wr F.trlSpareLive_SPARE d 0 (((free.find? fun n => !bad.testBit n).or free.head?).getD 0xF)
  (List.range 8).foldl (fun s i => s.wr F.bedStatus_SLOT (8 * d + i) 0 (slots.getD i 0xF)) s

/-- The spare slot of a die where it is good, else 0xF: the slot that a bed can take (R173, R518). -/
def State.goodSpare (s : State) (d : Nat) : Nat :=
  let sp := if s.rd F.trlSpareLive_SLOT d 0 = 0 then 8 else s.rd F.trlSpareLive_SPARE d 0
  if (s.rd F.trlSpareLive_BAD d 0).testBit sp then 0xF else sp

/-- The slots that a SPARE_MAP gives under the present bad marks (R173). -/
def spareSlots (img : List Nat) (bad : Nat) : List Nat :=
  let left := (List.range 9).filter fun n => !bad.testBit n && !img.any fun m => m == n && !bad.testBit m
  (img.foldl (fun (acc : List Nat × List Nat) n =>
    if bad.testBit n then
      match acc.2 with
      | [] => (acc.1 ++ [0xF], [])
      | m :: rest => (acc.1 ++ [m], rest)
    else (acc.1 ++ [n], acc.2)) ([], left)).1

/-- SPARE_MAP of a die. What a self-test found of the earlier spare, and a rotation asked for, hold no more (R172). -/
def State.laySpare (s : State) (l : List TSec) (d : Nat) : State :=
  let b := (secPay l 10 d).getD []
  let s := { s with pwr := { s.pwr with tested := s.pwr.tested.filter (· != d), rotate := terase s.pwr.rotate d } }
  s.setSlots d (spareSlots ((List.range 8).map (byteAt b)) (s.rd F.trlSpareLive_BAD d 0))

/-- A pavilion with an unavailable bed stays fenced with that status (R173). -/
def State.layUnavailable (s : State) (p : Nat) : State :=
  if (s.beds p).any fun b => s.slotOf b == 0xF then s.wr F.pavFence_CAUSE p 0 St.bedUnavailable else s

/-- PACE_CLASS. -/
def State.layPace (s : State) (l : List TSec) : State :=
  match secPay l 11 0xFFFF with
  | none => s
  | some b => (((s.wr F.pwrPaceReq_REQ 0 0 (fieldAt b 0 2)).wr F.pwrCap_TCAP 0 0 (fieldAt b 4 2)).wr F.pwrCap_ORDER 0 0
      (byteAt b 6)).retarget

/-- The sections of one pavilion that a pavilion image may carry, given effect. -/
def State.layPav (s : State) (l : List TSec) (p : Nat) : State := (((s.layRoutes l p).layGroups l p).layQuota l p).layWindows l p

/-- Everything that the sections in force set. -/
def State.layAll (s : State) (l : List TSec) : State :=
  let s := s.layMap l
  let s := { s with arr := { s.arr with mcast := [] }, regs := s.regs.filter fun e => e.1.r != Reg.cellShape }
  let s := (List.range 8).foldl (fun s d => ((s.laySplit l d).layWays l d).laySpare l d) s
  let s := (List.range 64).foldl (fun s p => s.layPav l p) s
  let s := (allPorts.foldl (fun (s : State) n => s.layPort l n) s).layGate l
  ((List.range 64).foldl State.layUnavailable s).layPace l

/-! ### Verification (Table 5-5) -/

/-- The lowest index among sections that a test picks; 0xFFFF where it picks none. -/
def lowest (img : List TSec) (f : TSec → Bool) : Nat := (img.findIdx? f).getD 0xFFFF

/-- Checks 0x01 to 0x08 on the header. -/
def State.headerCheck (s : State) (b : List Byte) (staged : Nat) : Nat :=
  let slot := byteAt b 18
  let key := s.trl.keys.getD slot []
  let sig := ((b.drop 80).take 48).reverse ++ ((b.drop 128).take 48).reverse
  if b.take 4 ≠ [0x4B, 0x58, 0x54, 0x4C] ∨ byteAt b 5 ≠ 1 then 0x01
  else if fieldAt b 8 4 ≠ 8640 then 0x02
  else if imgLen b ≠ staged ∨ imgLen b < 288 ∨ 2097152 < imgLen b ∨ imgLen b % 8 ≠ 0 ∨ imgCount b = 0 ∨ 512 < imgCount b then 0x03
  else if fieldAt b 6 2 / 2 ≠ 0 ∨ fieldAt b 24 8 ≠ 0 ∨ !zeros ((b.drop 176).take 80)
      ∨ (if imgPav b then 63 < imgTarget b else imgTarget b ≠ 0xFF) then 0x04
  else if 4 ≤ slot ∨ !(s.rd F.trlKeys_LOADED 0 0).testBit slot ∨ (s.rd F.trlKeys_REVOKED 0 0).testBit slot then 0x05
  else if imgEpoch b < s.rd F.trlEpoch_FLOOR 0 0 then 0x06
  else if !Config.ecdsaVerify key (b.take 80) sig then 0x07
  else if Config.sha384 (b.drop 256) ≠ (b.drop 32).take 48 then 0x08
  else 0

/-- Check 0x0A: the first section that does not come after the one before it. -/
def orderCheck (img : List TSec) : Option Nat :=
  (List.range (img.length - 1)).findSome? fun i =>
    match img[i]?, img[i + 1]? with
    | some a, some b => if b.key ≤ a.key then some (i + 1) else none
    | _, _ => none

/-- Whether a section's type, target and AGREE use are allowed (Table 5-3, R148). -/
def secAllowed (pav : Option Nat) (t : TSec) : Bool :=
  let n := t.target
  let ok := match t.typ with
    | 1 => n == 0xFFFF && !t.agree
    | 2 => decide (n < 64)
    | 3 => decide (n < 64)
    | 4 => decide (n < 8)
    | 5 => decide (n < 8)
    | 6 => decide (n < 64)
    | 7 => decide (n < 16) && !t.agree
    | 8 => decide (n < 64) && !t.agree
    | 9 => decide (n < 16) && !t.agree
    | 10 => decide (n < 8) && !t.agree
    | 11 => n == 0xFFFF
    | _ => false
  match pav with
  | none => ok
  | some p => ok && n == p && (t.typ == 2 || t.typ == 3 || t.typ == 6 || t.typ == 8)

/-- The sections that a device image must have, in order. -/
def required : List (Nat × Nat) :=
  (1, 0xFFFF) :: ((List.range 8).map fun d => (4, d)) ++ ((List.range 8).map fun d => (5, d))
    ++ ((List.range 8).map fun d => (10, d)) ++ [(11, 0xFFFF)]

/-- Check 0x0B: the first section that is not allowed, else the place of the first that is missing. -/
def kindCheck (img : List TSec) (pav : Option Nat) : Option Nat :=
  match img.findIdx? fun t => !secAllowed pav t with
  | some i => some i
  | none =>
    if pav.isSome then none
    else
      (required.find? fun r => !img.any fun t => t.typ == r.1 && t.target == r.2).map fun r =>
        (img.filter fun t => decide (t.key < r.1 * 65536 + r.2)).length

/-- Reserved encodings of a WAYSTATION entry (Table 10-7, R370). -/
def windowClean (target : Nat) (b : List Byte) : Bool :=
  let dev := fieldAt b 16 2
  let sp := byteAt b 18
  fieldAt b 0 8 / 2 ^ 52 == 0 && fieldAt b 0 8 % 4096 == 0 && fieldAt b 8 8 % 4096 == 0 && decide (4096 ≤ fieldAt b 8 8)
    && decide (fieldAt b 8 8 ≤ 2 ^ 40) && natField dev 14 9 == 0 && (decide (sp < 64) || sp == 0xFF) && byteAt b 19 == target
    && decide (byteAt b 20 < 16) && (fieldAt b 22 2 == 0 || byteAt b 24 != 0) && decide (byteAt b 25 < 2)
    && decide (fieldAt b 26 2 < 4096) && fieldAt b 28 4 == 0

/-- Whether a partner of a plan stop is a listed one: none, or a device ID and an engine. -/
def peerClean (b : List Byte) (off : Nat) : Bool :=
  fieldAt b off 4 == 0xFFFFFFFF || (decide (fieldAt b off 2 < 512) && decide (fieldAt b (off + 2) 2 < 256))

/-- Reserved encodings of a GATE_RULES entry (Tables 14-3 and 14-13). -/
def gateClean (b : List Byte) : Bool :=
  if byteAt b 0 = 1 then
    let m := byteAt b 1
    let dev := fieldAt b 2 2
    decide (m ≤ 2) && (decide (dev < 512) || (m == 0 && dev == 0xFFFF)) && byteAt b 4 != 0 && decide (byteAt b 5 < 128)
      && decide (byteAt b 6 ≤ byteAt b 7) && (fieldAt b 8 2 == 0 || byteAt b 10 != 0) && byteAt b 11 == 0
      && (m != 2 || (decide (byteAt b 12 < 8) && zeros ((b.drop 13).take 15))) && fieldAt b 28 4 == 0
  else if byteAt b 0 = 2 then
    decide (byteAt b 1 < 64) && decide (byteAt b 3 ≤ 1) && decide (2 ≤ fieldAt b 6 2) && decide (fieldAt b 6 2 ≤ 1024)
      && decide (fieldAt b 8 2 < 256) && peerClean b 10 && peerClean b 16 && peerClean b 20
      && decide (fieldAt b 14 2 < 4096) && decide (fieldAt b 24 2 < 4096)
      && (byteAt b 3 == 1 || (fieldAt b 20 4 == 0xFFFFFFFF && fieldAt b 10 4 != 0xFFFFFFFF)) && zeros ((b.drop 26).take 6)
  else false

/-- Check 0x0C on one section: reserved bytes zero, no reserved encoding. -/
def TSec.clean (t : TSec) : Bool :=
  let b := t.pay
  let owner := fun (n : Nat) => decide (n < 64) || n == 0xFF
  t.flags / 2 == 0 && fieldAt t.hdr 6 2 == 0 && zeros ((t.hdr.drop 16).take 16) && (match t.typ with
    | 1 => ((b.take 64).all fun x => owner x.toNat) && (List.range 64).all fun p => zeros ((b.drop (66 + 8 * p)).take 6)
    | 2 => (chunksOf 8 b).all fun e => decide (byteAt e 0 < 64) && decide (byteAt e 1 < 16) && fieldAt e 2 2 == 0
        && decide (fieldAt e 4 4 < 2 ^ 29)
    | 3 => (chunksOf 8 b).all fun e => decide (byteAt e 0 < 64) && decide (byteAt e 1 < 8) && decide (byteAt e 2 < 4)
        && fieldAt e 4 4 == 0
    | 4 => byteAt b 0 != 0 && byteAt b 1 != 0 && byteAt b 2 != 0 && byteAt b 0 + byteAt b 1 + byteAt b 2 == 16
        && zeros ((b.drop 3).take 5) && (b.drop 8).all fun x => owner x.toNat
    | 5 => (List.range 16).all fun w =>
        let o := byteAt b (2 * w + 1)
        match byteAt b (2 * w) with
        | 0 => decide (o < 64) || o == 0xFE
        | 1 => decide (o < 64) || o == 0xFE
        | 2 => o == 0xFF
        | _ => false
    | 6 => decide (fieldAt b 4 2 ≤ 512) && decide (fieldAt b 6 2 ≤ 256) && decide (fieldAt b 8 2 ≤ 4096) && zeros (b.drop 10)
    | 7 =>
        let m := byteAt b 0
        let n := byteAt b 1
        decide (m ≤ 2) && (n == 0xFF || n == 0x3F || n == 0x0F) && (m != 1 || n == 0xFF) && decide (byteAt b 2 ≤ 1)
          && (byteAt b 2 == 0 || m == 2) && zeros ((b.drop 3).take 5)
          && ((List.range 8).all fun i => owner (byteAt b (24 + 2 * i))) && zeros (b.drop 40)
    | 8 => (chunksOf 32 b).all (windowClean t.target)
    | 9 => (chunksOf 32 b).all gateClean
    | 10 =>
        let sl := (List.range 8).map (byteAt b)
        (sl.all fun n => decide (n ≤ 8)) && sl.eraseDups.length == 8 && decide (byteAt b 8 ≤ 1) && zeros (b.drop 9)
    | 11 =>
        decide (400 ≤ fieldAt b 0 2) && decide (fieldAt b 0 2 ≤ 1450) && decide (600 ≤ fieldAt b 4 2)
          && decide (fieldAt b 4 2 ≤ 1800) && decide (byteAt b 6 ≤ 5) && zeros (b.drop 7)
    | _ => true)

/-- A constraint of R152, R371 or R500: whether it fails, and the sections that enter it. -/
structure Constraint where
  fails  : Bool
  enters : TSec → Bool

/-- Sections of a type. -/
def ofTyp (n : Nat) (t : TSec) : Bool := t.typ == n

/-- Sections of a type and target. -/
def secIs (n k : Nat) (t : TSec) : Bool := t.typ == n && t.target == k

/-- The pavilions with beds on a die. -/
def diePavs (l : List TSec) (d : Nat) : List Nat :=
  (((List.range 8).map fun i => mapBed l (8 * d + i)).filter fun p => decide (p < 64)).eraseDups

/-- The constraints that every bed named in the routes and array groups of a pavilion is its own. -/
def ownBeds (l : List TSec) (p : Nat) : List Constraint :=
  [2, 3].map fun typ =>
    ⟨!(chunksOf 8 ((secPay l typ p).getD [])).all fun e => mapBed l (byteAt e 0) == p, fun t => ofTyp 1 t || secIs typ p t⟩

/-- The constraint that no cell of a pavilion lies in two array groups. -/
def oneGroup (l : List TSec) (p : Nat) : Constraint :=
  let groups := groupEntries l p
  ⟨groups.any fun e => groups.any fun f => byteAt e 0 == byteAt f 0 && byteAt e 1 != byteAt f 1
    && byteAt e 3 &&& byteAt f 3 != 0, secIs 3 p⟩

/-- The constraint that the beds of an array group give it one shape code and one cell count. -/
def oneShape (l : List TSec) (p : Nat) : Constraint :=
  let groups := groupEntries l p
  let count := fun e => (groupCells groups (byteAt e 0) (byteAt e 1)).length
  ⟨groups.any fun e => groups.any fun f => byteAt e 1 == byteAt f 1 && (byteAt e 2 != byteAt f 2 || count e != count f),
    secIs 3 p⟩

/-- Cache way-groups of an owner on a die. -/
def cacheWays (l : List TSec) (o d : Nat) : Nat := ((List.range 16).filter fun w => wayOf l d w == (1, o)).length

/-- The constraint on cache way-groups. -/
def wayConstraint (l : List TSec) : Constraint :=
  let owners := ((List.range 8).flatMap fun d => ((List.range 16).map (wayOf l d)).filter fun e => e.1 == 1).map (·.2)
  ⟨owners.eraseDups.any fun o => (List.range 8).any fun d => decide (cacheWays l o d < 2) || cacheWays l o d != cacheWays l o 0, ofTyp 5⟩

/-- The constraint that every group beaconed on a port is the group of exactly one pavilion. -/
def beaconConstraint (l : List TSec) (n : Nat) : Constraint :=
  let gs := (portBeacons ((secPay l 7 n).getD [])).filter (· != 0xFFFF)
  ⟨(secPay l 7 n).isSome && !gs.all fun g => ((List.range 64).filter fun p => mapGroup l p == g).length == 1,
    fun t => ofTyp 1 t || secIs 7 n t⟩

/-- The SHARE entries of a port that are in use. -/
def sharesOf (l : List TSec) (n : Nat) : List (Nat × Nat) :=
  match secPay l 7 n with
  | none => []
  | some b => portShares b

/-- The constraint that every SHARE entry of a port names an assigned pavilion. -/
def shareConstraint (l : List TSec) (n : Nat) : Constraint :=
  ⟨!(sharesOf l n).all fun e => decide (e.1 < 64) && !(mapBeds l e.1).isEmpty, fun t => ofTyp 1 t || secIs 7 n t⟩

/-- The constraint that the shares of a port sum to at most 16. -/
def sumConstraint (l : List TSec) (n : Nat) : Constraint := ⟨decide (16 < ((sharesOf l n).map (·.2)).sum), secIs 7 n⟩

/-- The sections that fix who owns the memory of a window. -/
def windowDeps (base p : Nat) (t : TSec) : Bool :=
  if base < scratchBase then secIs 8 p t
  else if base < cellBase then secIs 8 p t || ofTyp 5 t || secIs 6 p t
  else secIs 8 p t || ofTyp 1 t

/-- The constraint that a pavilion has no more window entries than its quota. -/
def windowCount (l : List TSec) (p : Nat) : Constraint :=
  ⟨decide (fieldAt (quotaOf l p) 8 2 < (windowsOf l p).length), fun t => secIs 6 p t || secIs 8 p t⟩

/-- The constraints of R371 on the windows of a pavilion; `c` the state with the configuration laid out. -/
def windowConstraints (c : State) (l : List TSec) (p : Nat) : List Constraint :=
  (windowsOf l p).map fun e =>
    ⟨byteAt e 25 % 2 == 1 && !c.windowOwned p (fieldAt e 0 8) (fieldAt e 8 8), windowDeps (fieldAt e 0 8) p⟩

/-- The constraint that no two entries of the device use one window index. -/
def indexConstraint (l : List TSec) : Constraint :=
  let ix := (List.range 64).flatMap fun p => (windowsOf l p).map fun e => fieldAt e 26 2
  let dup := ix.filter fun n => decide (1 < ix.count n)
  ⟨!dup.isEmpty, fun t => ofTyp 8 t && (chunksOf 32 t.pay).any fun e => dup.contains (fieldAt e 26 2)⟩

/-- Constraints on the plan stops of a device image (R500). -/
def planConstraints (l : List TSec) : List Constraint :=
  let ss := stopsOf l
  let dup := ss.filter fun a => decide (1 < (ss.filter fun b => b.pav == a.pav && b.plan == a.plan && b.eng == a.eng).length)
  let has := fun (bad : PlanStop → Bool) (t : TSec) =>
    ofTyp 9 t && (chunksOf 32 t.pay).any fun e => byteAt e 0 == 2 && bad (stopOf e)
  let foreign := fun (x : PlanStop) => engineOf l x.eng != x.pav
  let high := fun (x : PlanStop) => decide (x.count ≤ x.rank)
  [⟨!dup.isEmpty, has dup.contains⟩,
    ⟨ss.any foreign, fun t => has foreign t || (ofTyp 4 t && ss.any fun x => foreign x && x.eng / 32 == t.target)⟩,
    ⟨ss.any high, has high⟩]

/-- The state with ownership as a configuration would give it, for the window checks. -/
def State.candidate (s : State) (l : List TSec) : State :=
  let s := (List.range 8).foldl (fun s d => s.layWays l d) (s.layMap l)
  (List.range 64).foldl (fun s p => s.layQuota l p) s

/-- The constraints of R152 in its order, then those of R371 and R500. DESIGN CHOICE (log 145): where several fail, which of
them fixes SECTION is open; it is the first in this order, and under one sentence of R152 the lowest die, pavilion or port. -/
def State.constraints (s : State) (l : List TSec) (device : Bool) : List Constraint :=
  let c := s.candidate l
  let pavs := List.range 64
  ((List.range 8).map fun d => (⟨decide (8 < (diePavs l d).length), ofTyp 1⟩ : Constraint))
    ++ pavs.flatMap (ownBeds l) ++ pavs.map (oneGroup l) ++ pavs.map (oneShape l) ++ [wayConstraint l]
    ++ allPorts.map (beaconConstraint l) ++ allPorts.map (shareConstraint l) ++ allPorts.map (sumConstraint l)
    ++ pavs.map (windowCount l) ++ [indexConstraint l] ++ pavs.flatMap (windowConstraints c l)
    ++ (if device then planConstraints l else [])

/-- A QUOTA field summed over all pavilions. -/
def quotaSum (l : List TSec) (off n : Nat) : Nat := ((List.range 64).map fun p => fieldAt (quotaOf l p) off n).sum

/-- The capacity constraints of R153. -/
def State.capacities (s : State) (l : List TSec) : List Constraint :=
  let gib := ((List.range 8).map fun d => s.rd F.gdrCap_USABLE d 0).sum / 2 ^ 30
  let own := fun d => ((List.range 16).filter fun w => (wayOf l d w).1 == 1 && decide ((wayOf l d w).2 < 64)).length
  [⟨decide (478 < quotaSum l 0 2), ofTyp 6⟩, ⟨decide (gib < quotaSum l 3 1), ofTyp 6⟩, ⟨decide (256 < quotaSum l 6 2), ofTyp 6⟩,
    ⟨decide (4096 < quotaSum l 8 2), ofTyp 6⟩, ⟨decide (512 < quotaSum l 4 2), ofTyp 6⟩]
    ++ (List.range 8).map fun d => ⟨decide (own d < quotaSum l 2 1), fun t => ofTyp 6 t || secIs 5 d t⟩

/-- Checks 0x0D and 0x0E on the configuration `l` that an image's sections give: reason and section, or reason 0. -/
def State.fitCheck (s : State) (img l : List TSec) (device : Bool) : Nat × Nat :=
  match (s.constraints l device).find? (·.fails) with
  | some c => (0x0D, lowest img c.enters)
  | none =>
    match (s.capacities l).find? (·.fails) with
    | some c => (0x0E, lowest img c.enters)
    | none => (0, 0xFFFF)

/-- The sections of a staged image. -/
def imageSecs (b : List Byte) : List TSec := (parseSecs (imgCount b) 0 (b.drop 256)).1

/-- The configuration that an image gives when it commits (R149). -/
def State.afterImage (s : State) (b : List Byte) : List TSec :=
  if imgPav b then mergeSecs s.trl.force (imageSecs b) else imageSecs b

/-- Verification of a staged image (R151): the reason and section of the first check that fails, or reason 0. -/
def State.verifyImage (s : State) (b : List Byte) : Nat × Nat :=
  let r := s.headerCheck b b.length
  let pav := if imgPav b then some (imgTarget b) else none
  let (img, e) := parseSecs (imgCount b) 0 (b.drop 256)
  if r ≠ 0 then (r, 0xFFFF)
  else
    match e with
    | some i => (0x09, i)
    | none =>
      match orderCheck img with
      | some i => (0x0A, i)
      | none =>
        match kindCheck img pav with
        | some i => (0x0B, i)
        | none =>
          match img.findIdx? fun t => !t.clean with
          | some i => (0x0C, i)
          | none =>
            let f := s.fitCheck img (s.afterImage b) pav.isNone
            if f.1 ≠ 0 then f
            else if pav.isNone && !(fieldAt ((secPay img 11 0xFFFF).getD []) 2 2).testBit (s.rd F.pwrClass_CLASS 0 0) then (0x0F, 0xFFFF)
            else (0, 0xFFFF)

end Sys2Proof.Machine
end

