-- ==== Sys2Proof/Machine/Trellis.lean ====
section
/-! DEFINITION. The Trellis control block (05.4), the digests (05.7) and the agreement entries (05.8). -/

namespace Sys2Proof.Machine

/-! ### The load state machine (Table 5-6) -/

/-- TRL_STATUS.STATE: 0 IDLE, 1 STAGING, 2 STAGED, 3 VERIFYING, 4 VERIFIED, 5 FAILED, 6 ARMED, 7 COMMITTING. -/
def State.trlState (s : State) : Nat := s.rd F.trlStatus_STATE 0 0

/-- The load state set. -/
def State.setTrl (s : State) (st : Nat) : State := s.wr F.trlStatus_STATE 0 0 st

/-- REASON recorded. -/
def State.trlReason (s : State) (r : Nat) : State := s.wr F.trlStatus_REASON 0 0 r

/-- The staged image discarded. -/
def State.dropImage (s : State) : State := { s with trl := { s.trl with image := none } }

/-- A failing check recorded (R151). -/
def State.trlFail (s : State) (f : Nat × Nat) : State :=
  ((s.trlReason f.1).wr F.trlStatus_SECTION 0 0 f.2).setTrl 5

/-- A command that the present state does not accept (R157). -/
def State.trlReject (s : State) : State := (s.bump F.trlStatus_REJECTS 0 0 1).trlReason 0x10

/-- STAGE (R155, R158). -/
def State.trlStage (s : State) : State :=
  let base := s.rd F.trlStageBase_BASE 0 0
  let len := s.rd F.trlStageLen_LEN 0 0
  let s := s.dropImage
  if len = 0 ∨ 2097152 < len ∨ base % 8 ≠ 0 then (s.trlReason 0x15).setTrl 5
  else { s with trl := { s.trl with stage := (base, len) } }.setTrl 1

/-- COMMIT of a verified image (R159, R161): a device image is armed; a pavilion image commits while its pavilion is fenced. -/
def State.trlCommit (s : State) (b : List Byte) : State :=
  if !imgPav b then s.setTrl 6
  else if s.pavState (imgTarget b) = 3 then { s with trl := { s.trl with target := imgTarget b } }.setTrl 7
  else s.trlReason 0x11

/-- A write of TRL_CTL (R156, R157, Table 5-6). -/
def State.trlWrite (s : State) (a : Actor) (v : BitVec 64) : State :=
  let st := s.trlState
  if !machineActor a then s.refuse
  else
    match v.toNat % 16 with
    | 0 => s
    | 1 => if st = 0 ∨ st = 2 ∨ st = 4 ∨ st = 5 then s.trlStage else s.trlReject
    | 2 => if st = 2 then s.setTrl 3 else s.trlReject
    | 4 =>
      match s.trl.image with
      | some b => if st = 4 then s.trlCommit b else s.trlReject
      | none => s.trlReject
    | 8 => if st = 2 ∨ st = 4 ∨ st = 5 ∨ st = 6 then s.dropImage.setTrl 0 else s.trlReject
    | _ => s.trlReject

/-- TRL_STAGE (R158). -/
def execTrlStage (a : Actor) (v : BitVec 64) (s : State) : Out := .next (s.trlWrite a (v ||| 1))

/-- TRL_VERIFY (R151). -/
def execTrlVerify (a : Actor) (v : BitVec 64) (s : State) : Out := .next (s.trlWrite a (v ||| 2))

/-- TRL_COMMIT (R159, R161). -/
def execTrlCommit (a : Actor) (v : BitVec 64) (s : State) : Out := .next (s.trlWrite a (v ||| 4))

/-- TRL_ABORT (Table 5-6). -/
def execTrlAbort (a : Actor) (v : BitVec 64) (s : State) : Out := .next (s.trlWrite a (v ||| 8))

/-- TRL_STAGE_COPY_END (R155): the copy is read with the rights of the Keeper. -/
def execTrlStageCopyEnd (s : State) : Out :=
  if s.trlState ≠ 1 then .next s
  else
    let (base, len) := s.trl.stage
    match s.readAs .keeper true true base len with
    | .wait => .next s
    | .refuse _ _ => .next ((s.trlReason 0x12).setTrl 5)
    | .done bs t =>
      if allReadable bs then .next ({ t with trl := { t.trl with image := some (plain bs) } }.setTrl 2)
      else .next ((t.trlReason 0x12).setTrl 5)

/-- TRL_VERIFY_DONE (R151); VERIFY waits while the Keeper does not run (R534). -/
def execTrlVerifyDone (s : State) : Out :=
  if s.trlState ≠ 3 || !s.keeperUp then .next s
  else
    let f := s.verifyImage (s.trl.image.getD [])
    .next (if f.1 = 0 then (s.trlReason 0).setTrl 4 else s.trlFail f)

/-- A pending commit of fields that a Trellis commit sets is cancelled (R169). -/
def State.cancelWs (s : State) (img : List TSec) : State :=
  if img.any fun t => t.typ == 8 then s.commitCancel .wsCommit 0 else s

/-- The sections of a pavilion image replace those in force, in one event (R162); the pavilion is no longer clean, and its
beacon goes out. -/
def State.commitPav (s : State) (b : List Byte) : State :=
  let p := imgTarget b
  let img := imageSecs b
  let l := mergeSecs s.trl.force img
  let s := { s with trl := { s.trl with force := l } }.cancelWs img
  let s := if img.any (ofTyp 2) then s.layRoutes l p else s
  let s := if img.any (ofTyp 3) then s.layGroups l p else s
  let s := if img.any (ofTyp 6) then s.layQuota l p else s
  let s := if img.any (ofTyp 8) then s.layWindows l p else s
  let s := (img.foldl (fun s t => s.undrift t.typ t.target) s).layPace l
  ((s.wr F.trlPavEpoch_EPOCH p 0 (imgEpoch b)).needReset p |>.announce p).digestDue

/-- A device image replaces the whole configuration (R159), and every beacon goes out (R178, R179). DESIGN CHOICE (log 146): the
epoch of every pavilion becomes the image's, also of one with no section of its own, for which Table 5-17 names no image. -/
def State.commitDevice (s : State) (b : List Byte) : State :=
  let l := imageSecs b
  let s := { s with trl := { s.trl with force := l, drifts := [] } }.commitCancel .wsCommit 0
  let s := (s.wr F.trlStatus_DRIFT 0 0 0).wr F.trlEpoch_EPOCH 0 0 (imgEpoch b)
  let s := (List.range 64).foldl (fun s p => s.wr F.trlPavEpoch_EPOCH p 0 (imgEpoch b)) s
  (allPorts.foldl State.putBeacons (s.layAll l)).digestDue

/-- The commit step of a warm reset (R159, R160): the armed image after the repeated checks, or the configuration already
committed. A load under way is discarded. DESIGN CHOICE (log 147): Table 5-6 has no row for a warm reset in COMMITTING; the load
stays there with its image, and its commit completes after the reset. -/
def State.warmCommit (s : State) : State :=
  let again := fun (s : State) =>
    let s := { s with trl := { s.trl with drifts := [] } }.wr F.trlStatus_DRIFT 0 0 0
    if s.trl.force.isEmpty then s else (s.commitCancel .wsCommit 0).layAll s.trl.force
  match s.trlState, s.trl.image with
  | 6, some b =>
    let f := s.fitCheck (imageSecs b) (imageSecs b) true
    if f.1 = 0 then (s.commitDevice b).dropImage.setTrl 0 else (again s).trlFail f
  | 1, _ => ((again s).dropImage.trlReason 0x14).setTrl 0
  | 3, _ => ((again s).dropImage.trlReason 0x14).setTrl 0
  | _, _ => again s

/-! ### Digests (R174, R176) -/

/-- TRL_DIGEST: every section in force other than SPARE_MAP, then the program digests. -/
def State.configDigest (s : State) : List Byte :=
  Config.sha384 (((s.trl.force.filter fun t => t.typ != 10).flatMap fun t => t.hdr ++ t.pay)
    ++ (List.range 64).flatMap fun p => (s.pav p).digest)

/-- A digest in its six words. -/
def State.putDigest (s : State) (r : Reg) (key : Nat → Nat × Nat) (d : List Byte) : State :=
  (List.range 6).foldl (fun s i => s.setReg r (key i).1 (key i).2 (BitVec.ofNat 64 (fieldAt d (8 * i) 8))) s

/-- The configuration digest and every agreement digest in their words. -/
def State.putDigests (s : State) : State :=
  (List.range 64).foldl (fun (t : State) p => t.putDigest .trlAgd (fun i => (p, i)) (s.agreementDigest p))
    (s.putDigest .trlDigest (fun i => (i, 0)) s.configDigest)

/-- DIGEST_RECOMPUTE_DONE (R176): every digest takes its new words in one event. -/
def execDigestRecomputeDone (s : State) : Out :=
  if !s.flag F.trlStatus_DIGEST_BUSY 0 0 then .next s
  else
    .next (s.putDigests.wr F.trlStatus_DIGEST_BUSY 0 0 0)

/-- The bytes of six digest words. -/
def State.digestWords (s : State) (r : Reg) (key : Nat → Nat × Nat) : List Byte :=
  (List.range 6).flatMap fun i => leBytes 8 (s.reg r (key i).1 (key i).2).toNat

/-- TRL_DIGEST_CAPTURE (R176): the six words are captured, and the first is answered. -/
def execTrlDigestCapture (_a : Actor) (s : State) : Out :=
  .next ({ s with trl := { s.trl with cap := s.digestWords .trlDigest fun i => (i, 0) } }.send (.value (s.reg .trlDigest 0 0)))

/-- TRL_AGD_CAPTURE (R176). -/
def execTrlAgdCapture (_a : Actor) (p : Nat) (s : State) : Out :=
  .next ((s.setPav p { s.pav p with agdCap := s.digestWords .trlAgd fun i => (p, i) }).send (.value (s.reg .trlAgd p 0)))

/-! ### Agreement entries (R178 to R181, Table 5-9) -/

/-- The digest-mismatch alarm, the entry FENCED, and event source 6 of the group's pavilion (Table 13-6). -/
def State.agreeFence (s : State) (n i : Nat) : State :=
  let s := (s.wr F.trlAgree_STATE n i 3).bump F.trlAgree_MISMATCH n i 1
  let p := s.pavOfGroup (s.rd F.trlAgree_GROUP n i)
  let s := s.alarm 10 0x11 { FaultReport.blank St.success 1 0x10 10 (p.getD 0xFF) with
    port := n, info := s.rd F.trlAgree_GROUP n i }
  match p with
  | some q => s.event q 6 n
  | none => s

/-- A beacon of a group at its entry: its epoch and its beacon digest. -/
def State.beaconAt (s : State) (n i epoch digest : Nat) : State :=
  let p := (s.pavOfGroup (s.rd F.trlAgree_GROUP n i)).getD 64
  let sameE := epoch == s.rd F.trlPavEpoch_EPOCH p 0
  let sameD := digest == s.beaconDigest p
  let s := s.wr F.trlAgree_PEER_EPOCH n i epoch
  match s.rd F.trlAgree_STATE n i with
  | 0 => if sameE && sameD then s.wr F.trlAgree_STATE n i 2 else if sameE then s.agreeFence n i else s.wr F.trlAgree_STATE n i 1
  | 1 => if sameE && sameD then s.wr F.trlAgree_STATE n i 2 else if sameE then s.agreeFence n i else s
  | 2 => if sameE && sameD then s else s.agreeFence n i
  | _ => s

/-- A beacon's payload taken: the group's entry moves, or the beacon is counted as unknown. -/
def State.beaconIn (s : State) (n : Nat) (bs : List Byte) : State :=
  match s.beaconIx n (beNat (bs.take 2)) with
  | none => s.bump F.trlAgreeCtl_UNKNOWN 0 0 1
  | some i => s.beaconAt n i (beNat ((bs.drop 4).take 4)) (beNat ((bs.drop 8).take 8))

/-- SLP_BEACON (R179, R180). -/
def execSlpBeacon (port : Nat) (f : SlpFrame) (s : State) : Out := s.linkIn port 0x21 f fun s => s.beaconIn port f.payload

/-- GRACE_TIMER_EXPIRE (R180): an entry in PENDING goes to FENCED. -/
def execGraceTimerExpire (n i : Nat) (s : State) : Out :=
  .next (if s.rd F.trlAgree_STATE n i = 1 then s.agreeFence n i else s)

/-- A write of TRL_AGREE: CLEAR takes a FENCED entry to UNAGREED and sends its beacon. -/
def State.agreeWrite (s : State) (n i : Nat) (v : BitVec 64) : State :=
  if v.toNat.testBit 3 && s.rd F.trlAgree_STATE n i == 3 then (s.wr F.trlAgree_STATE n i 0).putBeacon n i else s

/-- TRL_AGREE_CLEAR (R179). The Trellis control block takes the write from the Keeper and harts in machine mode (Table
18-2). -/
def execTrlAgreeClear (a : Actor) (n i : Nat) (s : State) : Out :=
  .next (if machineActor a then s.agreeWrite n i 8 else s.refuse)

/-- BEACON_SEND (R178): the beacon of a BEACON entry, due since the sundial of the group's pavilion passed a multiple of 2^20
beats. -/
def execBeaconSend (n i : Nat) (s : State) : Out :=
  .next (if s.lnk.beacons.contains (n, i) then
      { s with lnk := { s.lnk with beacons := s.lnk.beacons.erase (n, i) } }.putBeacon n i
    else s)

end Sys2Proof.Machine
end

