-- ==== Sys2Proof/Machine/Renew.lean ====
section
/-! DEFINITION. Reset and release of a pavilion (13.6, Table 13-2, Table 13-8). -/

namespace Sys2Proof.Machine

/-! ### Release -/

/-- A request of PAV_CTL that is refused. -/
def State.pavReject (s : State) (p : Nat) : State := s.bump F.pavStatus_REJECTS p 0 1

/-- The number of a pavilion's slice on a die: its place among the pavilions with beds there (R522). -/
def State.sliceNo (s : State) (p d : Nat) : Nat := ((List.range p).filter fun q => (s.dies q).contains d).length

/-- Whether the slice of a pavilion on a die is marked bad in TEL_BADSLICE. -/
def State.badSlice (s : State) (p d : Nat) : Bool := (s.rd F.telBadslice_BAD 0 0).testBit (8 * d + s.sliceNo p d)

/-- Whether a pavilion may be released: no pavilion commit of it is under way (R164), every slice that it needs is good
(R522), every bed has a slot (R173) and the device is not lost (R529). -/
def State.releasable (s : State) (p : Nat) : Bool :=
  !s.committing p && ((s.dies p).all fun d => !s.badSlice p d) && ((s.beds p).all fun b => s.slotOf b != 0xF)
    && !s.sys.lost

/-- A release: FENCE and CAUSE clear, the counts of R463 clear, and the beacons go out (R179). -/
def State.release (s : State) (p : Nat) : State :=
  let s := ((s.wr F.pavFence_CAUSE p 0 0).wr F.pavStatus_REJECTS p 0 0).setReg .pavEvtStat p 0 0
  (s.setPavState p 1).announce p

/-! ### Reset -/

/-- What a pavilion has outstanding is given up: runs with their remote tags, tokens and collectives. -/
def State.dropRuns (s : State) (p : Nat) : State :=
  let mine := fun (a : Asker) => match a with
    | .run e c => s.str.runs.any fun r => r.1 == (e, c) && r.2.op.pav == p
    | .token q _ => q == p
    | .hart _ _ => false
  { s with
    lnk := { s.lnk with outst := s.lnk.outst.filter fun r => !mine r.asker }
    str := { runs := s.str.runs.filter fun r => r.2.op.pav != p, colRx := s.str.colRx.filter fun r => r.1.1 != p } }

/-- Whether the drain of a reset has nothing left to wait for: local requests, signals about to take effect, a page release
already begun. Remote tags and unconfirmed operations are given up at 30 µs. -/
def State.drainedPav (s : State) (p : Nat) : Bool :=
  (s.str.runs.all fun r => r.2.op.pav != p || r.2.reqs.all (·.remote))
    && ((s.pav p).sigs.all fun g => !g.whole || g.dev.isSome) && !s.moveInv p

/-- The contexts of a pavilion's engines INVALID, their descriptors and SE_FAULT_VA clear (Table 8-1, R306). -/
def State.dropContexts (s : State) (p : Nat) : State := s.clearEngines contextRegs (s.ownsEngine p)

/-- Bytes of a scratchpad way-group that a pavilion's quota admits. -/
def State.scratchPart (s : State) (p d w : Nat) : Nat :=
  min (wayBytes w) (s.rd F.pavQuota_SCRATCH p 0 * 2 ^ 26 - s.scratchBefore p d w)

/-- Lines of a pavilion's partitions in a range dropped. -/
def State.dropLines (s : State) (p lo hi : Nat) : State :=
  { s with org := { s.org with lines := s.org.lines.filter fun e =>
    !(decide (lo ≤ e.2.la) && decide (e.2.la < hi) && s.rd F.orgWaymap_OWNER e.1.1 e.1.2.1 == p) } }

/-- The scrub of PAV_CTL.SCRUB (Table 13-8, step 5): cell stores, admitted scratchpad, owned plots. -/
def State.scrubPav (s : State) (p : Nat) : State :=
  let m := s.rd F.pavCtl_SCRUB p 0
  let s := if m.testBit 0 then (s.beds p).foldl (fun s b =>
      s.zeroRange (cellAddr (8 * b) 0) (cellAddr (8 * b) 0 + 8 * cellSize)) s else s
  let s := if m.testBit 1 then (s.scratchWays p).foldl (fun s (d, w) =>
      let a := scratchBase + d * 2 ^ 32 + w * 0xF000000
      s.zeroRange a (a + s.scratchPart p d w)) s else s
  if m.testBit 2 then (s.plotsOf p).foldl (fun s (d, i) =>
      let a := d * 2 ^ 34 + i * 2 ^ 30
      (s.dropLines p a (a + 2 ^ 30)).zeroRange a (a + 2 ^ 30)) s else s

/-- Steps 3 and 4 of a reset, but for the records of its MOVEs: beds, translations, stiles, contexts, sundial, snapshots; what R460
keeps stays. -/
def State.clearPav (s : State) (p : Nat) : State :=
  let s := (s.dropRuns p).resetBeds p
  let s := (s.groupsOf p).foldl (fun s g => s.clearGroup g) (s.dropTag (some (s.ctxAst p)))
  let s := ((s.dropContexts p).wr F.pavSundial_COUNT p 0 0).setReg .telHang p 0 0
  let s := (s.setReg .smmuFault p 0 0).setReg .smmuFaultVa p 0 0
  let v := s.pav p
  let s := s.setPav p { PavSt.init with
    digest := v.digest, agdCap := v.agdCap, sessions := v.sessions, lastTok := v.lastTok, served := v.served }
  (List.range 8).foldl (fun s d =>
    match tfind s.slices (p, d) with
    | some _ => s.setSlice p d .init
    | none => s) s

/-- The record of the request that a drain ends (R449); a lost device writes none (R529). -/
def State.drainRecord (s : State) (p : Nat) : Option State :=
  match (s.pav p).req with
  | none => some s
  | some r => if s.sys.lost then some s else s.writeRecord p r (s.rd F.pavFence_CAUSE p 0) (s.lastWord p)

/-- The fields of PAV_CTL written (Table 13-2): SCRUB and AUTOREL take their values, then the requests. -/
def State.pavCtlFields (s : State) (p scrub autorel : Nat) (reset release : Bool) : State :=
  s.pageWrite fun s =>
  let s := (s.wr F.pavCtl_SCRUB p 0 scrub).wr F.pavCtl_AUTOREL p 0 autorel
  match reset, release with
  | true, true => s.pavReject p
  | true, false =>
    if s.pavState p = 3 then (s.setPav p { s.pav p with soiled := false }).setPavState p 4 else s.pavReject p
  | false, true =>
    if s.pavState p = 3 && s.flag F.pavStatus_CLEAN p 0 && s.releasable p then s.release p else s.pavReject p
  | false, false => s

/-- A write of PAV_CTL. -/
def State.pavCtlWrite (s : State) (p : Nat) (v : BitVec 64) : State :=
  let n := v.toNat
  s.pavCtlFields p (natField n 10 8) (natField n 2 2) (n.testBit 0) (n.testBit 1)

/-- PAV_RESET (R459): a write of PAV_CTL with RESET. -/
def execPavReset (_a : Actor) (p : Nat) (v : BitVec 64) (s : State) : Out :=
  .next (s.pavCtlFields p (natField v.toNat 10 8) (natField v.toNat 2 2) true (v.toNat.testBit 1))

/-- PAV_RELEASE (R444): a write of PAV_CTL with RELEASE. -/
def execPavRelease (_a : Actor) (p : Nat) (v : BitVec 64) (s : State) : Out :=
  .next (s.pavCtlFields p (natField v.toNat 10 8) (natField v.toNat 2 2) (v.toNat.testBit 0) true)

/-- PAV_RESET_DONE (R444, Table 13-8): the last step of a reset is complete; the pavilion is clean, unless a commit or a die
reset came after the reset began (R34, R164), and released where AUTOREL asks for it and nothing refuses it. -/
def execPavResetDone (p : Nat) (s : State) : Out :=
  if s.pavState p ≠ 4 || !s.drainedPav p || (s.dies p).any s.sys.dieReq.contains then .next s
  else
    match (s.drainRecord p).bind fun t => t.discardMoves p with
    | none => .next s
    | some t =>
      let clean := !(s.pav p).soiled
      let t := (((t.clearPav p).scrubPav p).wr F.pavStatus_CLEAN p 0 (boolNat clean)).setPavState p 3
      .next (if t.flag F.pavCtl_AUTOREL p 0 && clean && t.releasable p then t.release p else t)

end Sys2Proof.Machine
end

