-- ==== Sys2Proof/Machine/Recover.lean ====
section
/-! DEFINITION. Contained and shared faults (01.4), the parity faults of the slices, context recovery and bed replacement
(15.1, 15.4). -/

namespace Sys2Proof.Machine

/-! ### Faults as units report them (R30 to R33) -/

/-- The alarm code of a contained fault (Table 15-11). -/
def faultAlarm (r : FaultReport) : Nat :=
  if r.code = St.bedFault then 0x05 else if r.code = St.controlFault then 0x06
  else if r.unit = 0x02 then 0x03 else if r.unit = 0x09 then 0x07 else 0x02

/-- The pavilions that use a shared resource: those with a plot behind a GDDR7 controller, those that the SHARE list of a link
port names, those with a bed on the die, and every assigned one for the hub. -/
def State.usersOf (s : State) (r : FaultReport) : List Nat :=
  if r.unit = 0x0D then s.plotUsers r.die
  else if r.unit = 0x10 ∧ r.port < 17 then (s.port r.port).share.map (·.1)
  else if r.die < 8 then (List.range 64).filter fun p => (s.dies p).contains r.die
  else (List.range 64).filter fun p => s.pavState p != 0

/-- SHARED_FAULT_EVENT (R32): the record, a fault event to every user, and the alarm; nothing is fenced. -/
def execSharedFaultEvent (f : FaultReport) (s : State) : Out :=
  let r := { f with cls := 1, pav := 0xFE }
  .next ((s.sharedFault r (s.usersOf r)).alarm r.die (faultAlarm r) r)

/-- IBUF_PARITY_ERROR (R508): the word is fetched again before issue; a second failure is a program-fetch fault. -/
def execIbufParityError (p die word : Nat) (again : Bool) (s : State) : Out :=
  if again then .next (s.sliceFault p die St.fetchFault)
  else
    let x := s.slice p die
    let s := s.setSlice p die { x with buf := terase x.buf word }
    let s := s.record { FaultReport.blank St.success 0 0x0A die p with info := word }
    match s.fetchWord p die word with
    | none => .next s
    | some (bs, t) => .next (t.setSlice p die ((t.slice p die).bufPut word bs))

/-! ### Replay (R515, R521) -/

/-- A replay begun in a fenced pavilion that has a complete snapshot and a request in progress (R213, R521); whether it was. -/
def State.beginReplay (s : State) (p : Nat) : State × Bool :=
  let v := s.pav p
  if s.pavState p = 3 ∧ v.snap.isSome ∧ v.req.isSome then (s.setPav p { v with replay := true }, true) else (s, false)

/-- Whether a fault of a pavilion is one that a replay may absorb: it runs, or a replay of it is under way (R520), and is not fenced
for another cause. -/
def State.absorbs (s : State) (p : Nat) : Bool := s.pavState p == 2 || (s.pavState p == 3 && (s.pav p).replay)

/-- The fault policy that stood at the fence. -/
def State.fencePoison (s : State) (p : Nat) : Bool := (s.slice p (s.lead p)).poison

/-! ### Bed replacement (R516 to R519) -/

/-- One word as the copy of a cell store reads it: corrected, or poisoned in the spare; whether it could be read. -/
def copyWord (acc : State × Bool) (c w : Nat) : State × Bool :=
  let ok := match tfind acc.1.marks w with
    | some .double => false
    | some .poison => false
    | _ => true
  let s := eccWord c w acc.1
  (if ok then s else { s with marks := tset s.marks w .poison }, acc.2 && ok)

/-- The eight cell stores of a bed copied to another slot through their code; logical addresses stay (R37). -/
def State.copyStores (s : State) (b : Nat) : State × Bool :=
  (List.range 8).foldl (fun acc k =>
    let c := 8 * b + k
    let ws := (acc.1.marks.map (·.1)).filter fun w =>
      decide (cellAddr c 0 ≤ w) && decide (w < cellAddr c 0 + cellSize)
    ws.foldl (fun acc w => copyWord acc c w) acc) (s, true)

/-- The slots of the logical beds of a die. -/
def State.slotsOf (s : State) (d : Nat) : List Nat := (List.range 8).map fun i => s.slotOf (8 * d + i)

/-- A slot marked bad. -/
def State.markBad (s : State) (d n : Nat) : State :=
  if n < 9 then s.wr F.trlSpareLive_BAD d 0 (s.rd F.trlSpareLive_BAD d 0 ||| 2 ^ n) else s

/-- A bed logic fault in a slot that no logical bed uses: the slot is bad, and no bed is replaced (R518). -/
def State.spareFault (s : State) (r : FaultReport) : State :=
  if r.code = St.bedFault ∧ r.die < 8 ∧ r.slot < 9 ∧ !(s.slotsOf r.die).contains r.slot then
    (s.markBad r.die r.slot).setSlots r.die (s.slotsOf r.die)
  else s

/-- CONTAINED_FAULT (R31): the pavilion that owns the resource is fenced, the Lodge records the fault, and its alarm is
raised. A bed logic fault in the spare slot of a die marks the slot bad (R518). -/
def execContainedFault (f : FaultReport) (s : State) : Out :=
  let r := { f with cls := 1 }
  let s := s.spareFault r
  .next ((if r.pav < 64 then s.faultPav r.pav r else s.record r).alarm r.die (faultAlarm r) r)

/-- A bed moved from its slot to the spare of its die, or made unavailable where there is none (R518): the outcome tells
which. A rotation asked for on the die is given up. -/
def State.replaceBed (s : State) (b : Nat) : State × Bool :=
  let d := dieOfBed b
  let sp := s.goodSpare d
  let slots := s.slotsOf d
  let s := s.markBad d (s.slotOf b)
  let s := { s with pwr := { s.pwr with tested := s.pwr.tested.filter (· != d), rotate := terase s.pwr.rotate d } }
  (s.setSlots d (slots.set (b % 8) sp), sp != 0xF)

/-- A bed logic fault after its fence: the bed is replaced, and its pavilion replays where it can (Table 15-5, R519, R521) and this
fault has fenced it (`mine`). A pavilion whose bed finds no slot stays fenced as unavailable. -/
def State.absorbBed (s : State) (b : Nat) (mine : Bool) : State :=
  let (t, ok) := s.replaceBed b
  if !ok then
    match t.bedOwner b with
    | some p => (t.setPav p { t.pav p with replay := false }).wr F.pavFence_CAUSE p 0 St.bedUnavailable
    | none => t
  else
    let (t, clean) := (t.bump F.telRecov_REPLACE 0 0 1).copyStores b
    match t.bedOwner b with
    | none => t
    | some p =>
      if clean || t.fencePoison p then (if mine then (t.beginReplay p).1 else t)
      else
        let t := t.record (t.cellReport St.dataFault 0x02 (8 * b))
        (t.setPav p { t.pav p with replay := false }).wr F.pavFence_CAUSE p 0 St.dataFault

/-- Whether the fence of a pavilion stands for a bed logic fault of the bed that has not been absorbed. -/
def State.bedFaultStands (s : State) (b : Nat) : Bool :=
  match s.bedOwner b with
  | none => false
  | some p => s.rd F.pavFence_CAUSE p 0 == St.bedFault && s.flag F.pavFenceInfo_V p 0
      && s.rd F.pavFenceInfo_LBED p 0 == b && s.rd F.pavFenceInfo_CODE p 0 == St.bedFault
      && s.rd F.pavFenceInfo_SLOT p 0 == s.slotOf b

/-- A bed logic fault detected: fence, record and alarm, unless its unit has reported it, then its absorption. -/
def State.bedLogicFault (s : State) (b : Nat) : State :=
  let r := s.bedReport St.bedFault 0x08 b
  (if s.bedFaultStands b then s else (s.bedFault b r).alarm (dieOfBed b) 0x05 r).absorbBed b
    (s.bedFaultStands b || (s.bedOwner b).any s.absorbs)

/-- A bed logic fault now, or at the end of a commit of the bed's pavilion (R164). -/
def State.bedFails (s : State) (b : Nat) : State :=
  if (s.bedOwner b).any s.committing then
    if s.trl.beds.contains b then s else { s with trl := { s.trl with beds := s.trl.beds ++ [b] } }
  else s.bedLogicFault b

/-- BED_REPLACEMENT (R516). A bed without a slot has none to lose. -/
def execBedReplacement (bed : Nat) (s : State) : Out := .next (if s.slotOf bed = 0xF then s else s.bedFails bed)

/-- What waited for the end of a pavilion commit: faults are recorded, and beds replaced (R164). -/
def State.lateFaults (s : State) : State :=
  let s1 := s.trl.late.foldl (fun s r => s.faultPav r.pav r) { s with trl := { s.trl with late := [], beds := [] } }
  s.trl.beds.foldl State.bedLogicFault s1

/-- TRL_PAV_COMMIT_DONE (R162, R164). -/
def execTrlPavCommitDone (s : State) : Out :=
  match s.trl.image with
  | none => .next s
  | some b =>
    if s.trlState ≠ 7 || !s.keeperUp then .next s
    else
      let f := s.fitCheck (imageSecs b) (s.afterImage b) false
      .next (if f.1 = 0 then ((s.commitPav b).dropImage.setTrl 0).lateFaults else (s.trlFail f).lateFaults)

/-! ### Control-state faults (R509, R515, R522) -/

/-- Whether an MTIME lies within the last second. -/
def State.withinS (s : State) (t : Option Nat) : Bool := t.any fun x => decide (s.mtime < x + 100000000)

/-- Context recovery: the fence, the record and the alarm, and a replay on the same beds where there is a snapshot. -/
def State.contextRecovery (s : State) (p : Nat) (r : FaultReport) : State :=
  let mine := s.absorbs p
  let s := (s.faultPav p r).alarm r.die 0x06 r
  if !mine then s
  else
    let (s, ok) := s.beginReplay p
    if ok then s.bump F.telRecov_CTXREC 0 0 1 else s

/-- A slice marked bad: its pavilion stays fenced. -/
def State.sliceLost (s : State) (p d : Nat) : State :=
  let r := FaultReport.blank St.controlFault 1 0x0A d p
  let s := (s.faultPav p r).alarm d 0x02 r
  let n := 8 * d + s.sliceNo p d
  let old := s.rd F.telBadslice_BAD 0 0
  let s := if old.testBit n then s else (s.wr F.telBadslice_BAD 0 0 (old ||| 2 ^ n)).bump F.telRecov_BADCOUNT 0 0 1
  (s.setPav p { s.pav p with replay := false }).wr F.pavFence_CAUSE p 0 St.controlFault

/-- CONTROL_STATE_FAULT (R509): in a unit of a bed, or in the slice. A second one within 1 s at the same bed slot is a bed
logic fault; a second one at the same slice marks the slice bad. -/
def execControlStateFault (p die : Nat) (bed : Option Nat) (s : State) : Out :=
  match bed with
  | some b =>
    let k := die * 9 + s.slotOf b
    let again := s.withinS (tfind s.tel.slotHit k)
    let s := { s with tel := { s.tel with slotHit := tset s.tel.slotHit k s.mtime } }
    .next (if again then s.bedFails b else s.contextRecovery p (s.bedReport St.controlFault 0x08 b))
  | none =>
    let k := die * 8 + s.sliceNo p die
    let again := s.withinS (tfind s.tel.sliceHit k)
    let s := { s with tel := { s.tel with sliceHit := tset s.tel.sliceHit k s.mtime } }
    .next (if again then s.sliceLost p die else s.contextRecovery p (FaultReport.blank St.controlFault 1 0x0A die p))

end Sys2Proof.Machine
end

