-- ==== Sys2Proof/Machine/Hang.lean ====
section
/-! DEFINITION. The wait-for detector (15.5): the edges of Table 15-6, the hang and the stall. -/

namespace Sys2Proof.Machine

/-- What a wait is for. -/
inductive WNode where
  | slice (d : Nat)
  | stile (n : Nat)
  | unit (k : UnitKey)
  | cell (c : Nat)
  | track (b t : Nat)
  | run (e c : Nat)
  | dev (d : Nat)
  | port (n : Nat)
  | memory
  deriving DecidableEq, Repr

/-- Units of a pavilion with an operation in the scope before a place in program order that has not completed: queues, cells
with a pass, runs. -/
def State.waitUnits (s : State) (p scope seq : Nat) (onDie : Nat → Bool) : List WNode :=
  (s.arr.disp.filter fun e => onDie e.1.die && e.2.any fun q => opBefore q.op p seq && inScope scope e.1 q).map (fun e => .unit e.1)
  ++ (s.arr.cells.filter fun e => onDie (dieOfBed (e.1 / 8)) && scope.testBit (s.rd F.cellShape_AG e.1 0)
      && e.2.passes.any fun x => opBefore x.op p seq).map
    (fun e => .cell e.1)
  ++ (s.str.runs.filter fun e => onDie (e.1.1 / 32) && opBefore e.2.op p seq && inScope scope (.eng e.1.1) ⟨e.2.opc, e.2.op⟩).map
    (fun e => .run e.1.1 e.1.2)

/-- Whether a slice stands, after the issue of its word, at the same control operation as another. -/
def SliceSt.sameStand (x y : SliceSt) : Bool := x.post.isSome && x.post == y.post && x.issued == y.issued

/-- Edges of a slice. -/
def State.sliceEdges (s : State) (p d : Nat) : List WNode :=
  let x := s.slice p d
  let others := (s.dies p).filter (· != d)
  let edge := fun (f : SliceSt → Bool) => (others.filter fun e => f (s.slice p e)).map WNode.slice
  if x.halted then edge fun y => !y.halted
  else if x.post.isSome then edge fun y => !x.sameStand y
  else if x.held then edge fun y => !y.held
  else
    match x.waiting with
    | some st => [.stile st]
    | none =>
      match s.sliceWord p d with
      | some (b :: bs) =>
        if slotOp (wordSlot (b :: bs) 0) = 6 ∧ !x.marked then
          s.waitUnits p fullScope (x.issued * 16) fun e => e == d
        else ((s.deliveries p d x (b :: bs)).filter fun e => decide (queuePlaces ≤ (s.queue e.1).length)).map fun e => .unit e.1
      | _ => []

/-- Source devices of a pavilion's valid windows that admit signals; every device where one says so. -/
def State.signalDevs (s : State) (p : Nat) : List Nat :=
  let ws := (s.regs.filter fun e => e.1.r == .wsEntry3).map fun e => e.1.i
  let ws := ws.filter fun w => s.flag F.wsEntry3_V w 0 && s.rd F.wsEntry2_PAV w 0 == p && (s.rd F.wsEntry2_PERM w 0).testBit 3
  if ws.any fun w => (s.rd F.wsEntry2_SRCDEV w 0).testBit 15 then (List.range 512).filter (· != s.devId)
  else (ws.map fun w => s.rd F.wsEntry2_SRCDEV w 0 % 512).eraseDups

/-- Edges of a stile. A signal that only waits to be applied is no cause of a hang. -/
def State.stileEdges (s : State) (p st : Nat) : List WNode :=
  let sigs := (s.pav p).sigs.filter fun g => g.stile == st && g.dev.isNone
  let us := sigs.flatMap fun g => s.waitUnits p (opField g.op 11 0) g.op.seq fun _ => true
  (if sigs.isEmpty then [] else if us.isEmpty then [.memory] else us)
    ++ (match s.boundTo st with
      | [] => (s.signalDevs p).map .dev
      | ds => ds.eraseDups.map .dev)

/-- What the operation at the head of a unit's queue waits for. -/
def State.headEdges (s : State) : UnitKey → List WNode
  | .ag b n => ((s.agCells b n).filter fun c => !(s.cell c).passes.isEmpty).map .cell
  | .cvt b =>
    if (s.queue (.cvt b)).isEmpty then []
    else ((List.range 8).filter fun k => !(s.cell (8 * b + k)).passes.isEmpty).map (fun k => .cell (8 * b + k))
      ++ (s.arr.disp.filter fun e => match e.1 with | .ag b' _ => b' == b && !e.2.isEmpty | _ => false).map fun e => .unit e.1
  | .vec b =>
    match s.queue (.vec b) with
    | [] => []
    | q :: _ =>
      if q.opc = 0x12 ∧ !(s.vec b).rows.any fun r => r.1 == opField q.op 32 30 then [.unit (.cvt b)]
      else if q.opc = 0x14 ∧ (tget s.arr.rx (b, opField q.op 32 31, BusDst.vec) []).isEmpty then [.track b (opField q.op 32 31)]
      else []
  | .eng e => (s.str.runs.filter fun r => r.1.1 == e).map fun r => .run r.1.1 r.1.2

/-- Edges of a dispatcher's unit. An operation that an ENDF holds waits for memory, and one whose bed a QUIET window closes for the
calibration; both always progress. -/
def State.unitEdges (s : State) (k : UnitKey) : List WNode :=
  if (s.queue k).head?.any fun q => s.heldByEndf k q || s.bedsClosed q.op then [.memory] else s.headEdges k

/-- Edges of a cell: the tracks that its feeders wait for, and the converters that have not taken its outputs. -/
def State.cellEdges (s : State) (c : Nat) : List WNode :=
  let b := c / 8
  let k := c % 8
  let x := s.cell c
  let dry := fun (src : Nat) (d : BusDst) => decide (4 ≤ src) && (tget s.arr.rx (b, src - 4, d) []).isEmpty
  ((x.passes.flatMap fun q =>
      (if dry q.xSrc (.west k) then [WNode.track b (q.xSrc - 4)] else [])
        ++ (if q.readsY && dry q.ySrc (.north k) then [WNode.track b (q.ySrc - 4)] else [])
        ++ (if q.readsN && dry q.nSrc (.north k) then [WNode.track b (q.nSrc - 4)] else [])).eraseDups)
    ++ (if x.outs.any (·.full) then [.unit (.cvt b)] else [])

/-- Edges of a track: the destinations without room of its next transfer, or the units that send on it. -/
def State.trackEdges (s : State) (b t : Nat) : List WNode :=
  match tget s.arr.tracks (b, t) [] with
  | x :: _ =>
    ((x.dsts.filter fun d => !s.roomAt b t x d).map fun d => match d with
      | .cell k => WNode.cell (8 * b + k)
      | .west k => .cell (8 * b + k)
      | .north k => .cell (8 * b + k)
      | .vec => .unit (.vec b)
      | .eng e => .unit (.eng e)).eraseDups
  | [] => (s.str.runs.filter fun r => r.2.track == some (b, t) && !r.2.dead).map fun r => .run r.1.1 r.1.2

/-- Edges of a run: the devices or ports on which its remote requests wait, memory for its local ones, its track. -/
def State.runEdges (s : State) (e c : Nat) : List WNode :=
  match tfind s.str.runs (e, c) with
  | none => []
  | some x =>
    let far := (s.lnk.outst.filter fun r => r.asker == .run e c).map fun r =>
      if (s.port r.port).txq.contains r.frame then WNode.port r.port else .dev r.frame.dst
    let far := if far.isEmpty then (x.stops.filter (·.remote)).map fun t => .dev (t.target % 512) else far
    far.eraseDups ++ (if x.reqs.any fun q => !q.remote then [.memory] else [])
      ++ (match x.track with | some (b, t) => if x.reqs.isEmpty then [.track b t] else [] | none => [])

/-- The edges of Table 15-6. -/
def State.waitEdges (s : State) (p : Nat) : WNode → List WNode
  | .slice d => s.sliceEdges p d
  | .stile n => s.stileEdges p n
  | .unit k => s.unitEdges k
  | .cell c => s.cellEdges c
  | .track b t => s.trackEdges b t
  | .run e c => s.runEdges e c
  | .port n => match s.peerDev n with | some d => if s.agrees n p then [.dev d] else [] | none => []
  | .dev _ => []
  | .memory => []

/-- Whether a port's agreement entry for a pavilion's group is FENCED. -/
def State.portFenced (s : State) (n p : Nat) : Bool :=
  match s.beaconIx n (s.groupOf p) with
  | some i => s.rd F.trlAgree_STATE n i == 3
  | none => false

/-- The number under which TEL_HANG names an object. -/
def WNode.obj : WNode → Nat
  | .stile n => n
  | .dev d => d
  | .port n => n
  | .run e _ => e
  | .unit (.eng e) => e
  | _ => 0

/-- A cycle or a dead path from a node: its kind, the object, and its edges (R524); `path` the nodes before it, latest first. -/
def State.deadPath (s : State) (p : Nat) : (fuel : Nat) → List WNode → WNode → Option (Nat × Nat × Nat)
  | 0, _, _ => none
  | fuel + 1, path, n =>
    if path.contains n then some (1, ((path.reverse.getD 1 n)).obj, path.idxOf n + 1)
    else
      let dead := match n with
        | .dev d => if s.devLost d then some (2, d, path.length) else none
        | .port k => if s.portFenced k p then some (3, k, path.length) else none
        | .stile st => if (s.stileEdges p st).isEmpty then some (4, st, path.length) else none
        | _ => none
      match dead with
      | some r => some r
      | none => (s.waitEdges p n).findSome? (s.deadPath p fuel (n :: path))

/-- Slices of a pavilion that wait. -/
def State.waitingSlices (s : State) (p : Nat) : List Nat := (s.dies p).filter fun d => !(s.sliceEdges p d).isEmpty

/-- The hang of a pavilion, if its graph shows one: the first waiter's die, the kind, the object and the edges. -/
def State.hung (s : State) (p : Nat) : Option (Nat × Nat × Nat × Nat) :=
  (s.waitingSlices p).findSome? fun d => (s.deadPath p 64 [] (.slice d)).map fun r => (d, r)

/-- TEL_HANG of a pavilion. -/
def State.putHang (s : State) (p d kind obj edges : Nat) : State :=
  let s := (s.setReg .telHang p 0 0).wr F.telHang_V p 0 1
  ((((s.wr F.telHang_KIND p 0 kind).wr F.telHang_UNIT p 0 0x0A).wr F.telHang_DIE p 0 d).wr F.telHang_LBED p 0 0xFF |>.wr
    F.telHang_OBJ p 0 obj).wr F.telHang_EDGES p 0 edges

/-- Partner devices bound to a pavilion's stiles, at most 16 (R530). -/
def State.boundDevs (s : State) (p : Nat) : List Nat :=
  let cols := s.str.runs.filterMap fun r => r.2.col.map (·.dstile)
  (((s.binds.map (·.1) ++ cols).eraseDups.filter fun st => s.stileOwner st == some p).flatMap s.boundTo).eraseDups.take 16

/-- The report of a hang. -/
def State.hangReport (s : State) (p d : Nat) : FaultReport := { FaultReport.blank St.hang 1 0x0A d p with info := s.groupOf p }

/-- The hang alarm and the records of the bound partners. -/
def State.hangAlarms (s : State) (d : Nat) (r : FaultReport) (devs : List Nat) : State :=
  devs.foldl (fun s e => s.alarm d 0x08 { r with info := e }) (s.alarm d 0x08 r)

/-- HANG_WINDOW_EXPIRE (R524, R526): WINDOW µs without progress of a running pavilion; where the graph shows a hang, the
pavilion is fenced, TEL_HANG recorded, and the alarm goes with the records of the bound partners. -/
def execHangWindowExpire (p : Nat) (s : State) : Out :=
  if s.pavState p ≠ 2 then .next s
  else
    match s.hung p with
    | none => .next s
    | some (d, kind, obj, edges) =>
      .next ((((s.putHang p d kind obj edges).bump F.telRecov_HANGS 0 0 1).faultPav p (s.hangReport p d)).hangAlarms d
        (s.hangReport p d) (s.boundDevs p))

/-- The counts of which a change is progress (R524): BED_PROGRESS, issues, bursts, and the stiles of a pavilion. -/
def State.progressNow (s : State) (p : Nat) : List Nat :=
  (s.beds p).map (fun b => s.rd F.bedProgress_COUNT b 0) ++ (s.dies p).map (fun d => (s.slice p d).issued)
  ++ ((List.range 256).filter (s.ownsEngine p)).flatMap (fun e => (List.range 16).map fun c => s.rd F.seCtxStatus_BURSTS e c)
  ++ ((s.regs.filter fun e => e.1.r == .stlState && s.stileOwner e.1.i == some p).map fun e => s.rd F.stlState_COUNT e.1.i 0)

/-- STALL_TIMEOUT (R525): STALL × 100 µs without progress of a pavilion that is not hung; the alarm is raised again only after
progress. -/
def execStallTimeout (p : Nat) (s : State) : Out :=
  let v := s.pav p
  let now := s.progressNow p
  if s.pavState p != 2 || (s.hung p).isSome || (v.stalled && v.lastProg == now) then .next s
  else
    match (s.waitingSlices p).head? with
    | none => .next s
    | some d =>
      let s := s.setPav p { v with stalled := true, lastProg := now }
      let obj := ((s.sliceEdges p d).headD .memory).obj
      .next ((s.putHang p d 5 obj 1).alarm d 0x09 { FaultReport.blank St.success 3 0x0A d p with info := obj })

end Sys2Proof.Machine
end

