-- ==== Sys2Proof/Machine/Telemetry.lean ====
section
/-! DEFINITION. The Keeper's states (15.7), device loss (15.6), and alarms, logs and traces on their way (15.8, 15.9). -/

namespace Sys2Proof.Machine

/-! ### The Keeper (Table 15-9) -/

/-- The Keeper put into a state. -/
def State.setKeeper (s : State) (st : Nat) : State := s.wr F.telKeeper_STATE 0 0 st

/-- An alarm of the Keeper itself. -/
def State.keeperAlarm (s : State) (code : Nat) : State := s.alarm 10 code (FaultReport.blank St.success 1 0x13 10 0xFF)

/-- A Keeper-only reset from RUNNING or DEGRADED. -/
def State.keeperReset (s : State) : State :=
  if s.keeperUp then (s.bump F.telKeeper_KRESETS 0 0 1).setKeeper 2 else s

/-- HALTED (R536): device loss by cause 6 is recorded and its alarm goes ahead; the pavilions run on. -/
def State.keeperHalt (s : State) : State :=
  ((s.setKeeper 4).lossCause 6 0).alarmFirst ⟨0x17, 0, 1, s.mtime, s.mtime, lossRecord 6 10⟩

/-- A checker fault (R533). -/
def State.checkerFault (s : State) : State :=
  (((s.bump F.telKeeper_CHECKFAIL 0 0 1).wr F.telKeeper_DEGRADED 0 0 1).keeperAlarm 0x14).setKeeper 3

/-- KEEPER_MISMATCH (R532): both cores are held for the self-test. -/
def execKeeperMismatch (s : State) : Out := .next (if s.keeper = 0 then s.setKeeper 1 else s)

/-- A passing mismatch noted beside those of the last 10 s. -/
def State.noteMismatch (s : State) : State :=
  { s with tel := { s.tel with mism := s.mtime :: s.tel.mism.filter fun t => decide (s.mtime < t + 1000000000) } }

/-- KEEPER_SELFTEST_DONE (R532, R533): the third passing mismatch in 10 s halts the Keeper, an earlier one resets it, and a
failing self-test leaves it unchecked. -/
def execKeeperSelftestDone (ok : Bool) (s : State) : Out :=
  if s.keeper ≠ 1 then .next s
  else if !ok then .next s.checkerFault
  else
    let s := s.noteMismatch
    if 3 ≤ s.tel.mism.length then .next s.keeperHalt
    else .next (((s.bump F.telKeeper_MISMATCH 0 0 1).keeperAlarm 0x15).setKeeper 2)

/-- KEEPER_PERIODIC_SELFTEST (R532). -/
def execKeeperPeriodicSelftest (ok : Bool) (s : State) : Out :=
  .next (if s.keeper = 0 ∧ !ok then s.checkerFault else s)

/-- KEEPER_WATCHDOG_EXPIRE (R532). -/
def execKeeperWatchdogExpire (s : State) : Out := .next s.keeperReset

/-- The records that the Lodges hold marked as buffered. -/
def State.markBuffered (s : State) : State :=
  let mark := fun (e : Nat × List AlarmRec) => (e.1, e.2.map fun r => { r with flags := r.flags ||| 2 })
  { s with tel := { s.tel with fwFails := 0, lodge := s.tel.lodge.map mark } }

/-- KEEPER_RESUME (R535): on leaving RESET the firmware copy matches its digest, or is loaded again and verified; a second
failure halts the Keeper. Records that the Lodges held meanwhile are marked as buffered (R538). -/
def execKeeperResume (digestMatches reloadOk : Bool) (s : State) : Out :=
  if s.keeper ≠ 2 then .next s
  else if digestMatches || reloadOk then
    .next (s.markBuffered.setKeeper (if s.flag F.telKeeper_DEGRADED 0 0 then 3 else 0))
  else
    let s := { s with tel := { s.tel with fwFails := s.tel.fwFails + 1 } }
    .next (if 2 ≤ s.tel.fwFails then s.keeperHalt else s)

/-- DEVICE_LOSS_DECLARE (R529) by a cause of Table 15-8; that of a HALTED Keeper has the effect of R536. -/
def execDeviceLossDeclare (cause die : Nat) (s : State) : Out :=
  if cause = 0 ∨ 7 < cause then .next s
  else if cause = 6 then .next (if s.keeper = 4 then s else s.keeperHalt)
  else .next (s.deviceLoss cause die)

/-! ### Alarms at a Lodge (R538) -/

/-- Places of a Lodge for alarm records. -/
def lodgePlaces : Nat := 32

/-- Records that a Lodge holds. -/
def State.lodgeHeld (s : State) (d : Nat) : List AlarmRec := tget s.tel.lodge d []

/-- What a Lodge holds set. -/
def State.setLodge (s : State) (d : Nat) (l : List AlarmRec) : State := { s with tel := { s.tel with lodge := tset s.tel.lodge d l } }

/-- One more alarm in a counter: its first record and first MTIME stay. -/
def countAlarm (old : Option AlarmRec) (r : AlarmRec) : AlarmRec :=
  match old with
  | none => { r with flags := r.flags ||| 1 }
  | some c => { c with count := c.count + r.count, last := r.last }

/-- An alarm counted at its Lodge. -/
def State.countAt (s : State) (die : Nat) (r : AlarmRec) : State :=
  { s with tel := { s.tel with counts := tset s.tel.counts (die, r.code) (countAlarm (tfind s.tel.counts (die, r.code)) r) } }

/-- LODGE_ALARM (R538): an alarm raised on a die is held by its Lodge, or counted where the Lodge is full or the Keeper is in
RESET. -/
def execLodgeAlarm (die : Nat) (r : AlarmRec) (s : State) : Out :=
  let s := { s with raised := s.raised.erase (die, r) }
  if lodgePlaces ≤ (s.lodgeHeld die).length ∨ s.keeper = 2 then .next (s.countAt die r)
  else .next (s.setLodge die (s.lodgeHeld die ++ [r]))

/-- Codes with a nonzero counter at a Lodge, ascending. -/
def State.lodgeCodes (s : State) (d : Nat) : List Nat := (List.range 256).filter fun c => (tfind s.tel.counts (d, c)).isSome

/-- The summary of a code put into a free place of its Lodge. -/
def lodgeSummary (die : Nat) (s : State) (c : Nat) : State :=
  match tfind s.tel.counts (die, c) with
  | some r =>
    if (s.lodgeHeld die).length < lodgePlaces then
      let t := s.setLodge die (s.lodgeHeld die ++ [r])
      { t with tel := { t.tel with counts := terase s.tel.counts (die, c) } }
    else s
  | none => s

/-- LODGE_SUMMARY_SEND (R538): with 8 places free, the summaries take places in ascending order of code. -/
def execLodgeSummarySend (die : Nat) (s : State) : Out :=
  if lodgePlaces - 8 < (s.lodgeHeld die).length ∨ s.keeper = 2 then .next s
  else .next ((s.lodgeCodes die).foldl (lodgeSummary die) s)

/-! ### The Keeper's alarm queue (R539, R540) -/

/-- The number of the record behind an alarm; all ones where the Lodge has written none. -/
def State.recordSeq (s : State) (r : AlarmRec) : Nat :=
  ((s.records.find? fun e => e.rep == r.report && e.mtime == r.first).map (·.seq)).getD 0xFFFFFFFF

/-- The bytes of an alarm record (Table 15-12). -/
def State.alarmBytes (s : State) (r : AlarmRec) : List Byte :=
  leBytes 1 r.code ++ leBytes 1 r.flags ++ leBytes 2 s.devId ++ leBytes 4 r.count ++ leBytes 8 r.first ++ leBytes 8 r.last
    ++ leBytes 8 0 ++ faultBytes r.report (s.recordSeq r) r.first

/-- Places of the alarm queue. -/
def alarmPlaces : Nat := 64

/-- The coalescing counter of a source. -/
def State.coalCount (s : State) (src n : Nat) : State := s.wr F.telCoal_COUNT src 0 (min F.telCoal_COUNT.top n)

/-- A record counted at its source, where the queue is full. -/
def State.coalesce (s : State) (die : Nat) (r : AlarmRec) : State :=
  let src := die * 32 + r.code
  let c := countAlarm (tfind s.tel.coal src) r
  let s := { s with tel := { s.tel with coal := tset s.tel.coal src c } }
  (s.coalCount src c.count).bump F.telAlq_COALESCED 0 0 1

/-- KEEPER_ALARM_ENQUEUE (R539): a record that its Lodge sends enters the queue, or is counted where the queue is full; it
waits while the Keeper does not run (R534). -/
def execKeeperAlarmEnqueue (die : Nat) (r : AlarmRec) (s : State) : Out :=
  if !s.keeperUp then .next s
  else
    let s := (s.setLodge die ((s.lodgeHeld die).erase r)).manage die true (s.alarmBytes r)
    if alarmPlaces ≤ s.tel.queue.length then .next (s.coalesce die r)
    else .next { s with tel := { s.tel with queue := s.tel.queue ++ [(die, none, r)] } }.alqSync

/-- The summary of a source put into a free place of the queue. -/
def queueSummary (s : State) (src : Nat) : State :=
  match tfind s.tel.coal src with
  | some r =>
    if s.tel.queue.length < alarmPlaces then
      { s with tel := { s.tel with queue := s.tel.queue ++ [(src / 32, none, r)], coal := terase s.tel.coal src } }.coalCount src 0
    else s
  | none => s

/-- ALARM_SUMMARY_ENQUEUE (R539): with 16 places free, the queue takes the summary of each source, in ascending order, while it
has places. -/
def execAlarmSummaryEnqueue (s : State) : Out :=
  if alarmPlaces - 16 < s.tel.queue.length || !s.keeperUp then .next s
  else .next (((List.range 352).foldl queueSummary s).alqSync)

/-- A record written to the alarm ring where TEL_RING.V is 1; one that cannot be written counts with those overwritten. -/
def State.ringWrite (s : State) (bs : List Byte) : State :=
  if !s.flag F.telRing_V 0 0 then s
  else
    let n := 2 ^ (s.rd F.telRing_LOG2N 0 0 + 6)
    let head := s.rd F.telRingHead_HEAD 0 0
    let a := s.rd F.telRing_BASE 0 0 * 4096 + 64 * (head % n)
    let lose := s.bump F.telRingHead_OVERRUN 0 0 1
    if !s.systemPlot a then lose
    else
      match s.pathWrite (.part (hashDie a) 0xFE) (some 1) none a bs with
      | none => lose
      | some s =>
        let s := if n ≤ head then s.bump F.telRingHead_OVERRUN 0 0 1 else s
        s.wr F.telRingHead_HEAD 0 0 ((head + 1) % 2 ^ 32)

/-- KMT kinds of the management port (Table 17-10). -/
def kmtAlarm : Nat := 0x23
/-- LOG. -/
def kmtLog : Nat := 0x24

/-- The session on which the Keeper sends alarms, logs and traces: the most recent subscriber (R598). -/
def State.subscriber (s : State) : Option Nat := s.tel.subs.find? fun n => (s.session n).isSome

/-- The place of the oldest record not yet sent. -/
def State.unsent (s : State) : Option Nat := s.tel.queue.findIdx? fun e => e.2.1.isNone

/-- A record sent on session `n`: it keeps the message's sequence number, goes to the ring, and the Keeper gives its notice. -/
def State.sentAlarm (s : State) (n i : Nat) (e : Nat × Option (Nat × Nat) × AlarmRec) (k : KmtSt) : State :=
  let bs := s.alarmBytes e.2.2
  let seq := (k.txSeq + k.queue.length) % 2 ^ 32
  let s := { s with tel := { s.tel with queue := s.tel.queue.set i (e.1, some (n, seq), e.2.2) } }
  ((s.kmtPost n ⟨kmtAlarm, 0, 0, 0, 0, 0, 0, bs⟩).ringWrite bs).aplicSource 5

/-- ALARM_SEND (R540): the oldest record not yet sent goes to the subscriber and to the alarm ring, and the Keeper gives its
alarm notice on the APLIC; a HALTED Keeper's hardware sends the device-loss alarm alone (R536). -/
def execAlarmSend (s : State) : Out :=
  match s.subscriber, s.unsent with
  | some n, some i =>
    match s.tel.queue[i]?, s.session n with
    | some e, some k =>
      if !(s.keeperUp || (s.keeper == 4 && e.2.2.code == 0x17)) then .next s else .next (s.sentAlarm n i e k)
    | _, _ => .next s
  | _, _ => .next s

/-- Whether the message with a sequence number of a session is acknowledged: sent, and no longer kept. -/
def State.ackedOn (s : State) (n seq : Nat) : Bool :=
  match s.session n with
  | none => false
  | some k => !(k.unacked.any fun e => e.1 == seq) && (List.range k.queue.length).all fun i => (k.txSeq + i) % 2 ^ 32 != seq

/-- The place of the oldest record whose message is acknowledged. -/
def State.ackedAlarm (s : State) : Option Nat := s.tel.queue.findIdx? fun e => e.2.1.any fun m => s.ackedOn m.1 m.2

/-- ALARM_ACK (R540, R598): the oldest record leaves once its message is acknowledged. -/
def execAlarmAck (s : State) : Out :=
  match s.ackedAlarm with
  | some i => .next { s with tel := { s.tel with queue := s.tel.queue.eraseIdx i } }.alqSync
  | none => .next s

/-! ### Logs and traces (R541, R542) -/

/-- Records that the log buffer holds. -/
def logPlaces : Nat := 1024

/-- What the bucket of a log source holds now, in hundred-thousandths of a record. -/
def State.logTokens (s : State) (die unit : Nat) : Nat :=
  let top := s.rd F.telCtl_LOGBURST 0 0 * 100000
  let (n, t) := tget s.tel.buckets (die, unit) (top, s.mtime)
  min top (n + s.rd F.telCtl_LOGRATE 0 0 * (s.mtime - t))

/-- The bucket of a log source set at this time. -/
def State.setLogTokens (s : State) (die unit n : Nat) : State :=
  { s with tel := { s.tel with buckets := tset s.tel.buckets (die, unit) (n, s.mtime) } }

/-- A record put into the log buffer, which displaces its oldest when it is full. -/
def State.putLog (s : State) (r : FaultReport) : State :=
  let full := logPlaces ≤ s.tel.log.length
  let l := (if full then s.tel.log.drop 1 else s.tel.log) ++ [(s.mtime, r)]
  let s := { s with tel := { s.tel with log := l } }
  if full then s.bump F.telLog_DROPPED 0 0 1 else s

/-- LOG_RECORD (R541): a source sends within its rate and burst; the log buffer displaces its oldest record when it is
full. -/
def execLogRecord (die unit : Nat) (r : FaultReport) (s : State) : Out :=
  let n := s.logTokens die unit
  if n < 100000 then .next ((s.setLogTokens die unit n).bump F.telLog_LIMITED 0 0 1)
  else .next (((s.setLogTokens die unit (n - 100000)).manage die true (faultBytes r 0xFFFFFFFF s.mtime)).putLog r)

/-- The oldest logs, at most 64, sent to the subscriber; an alarm that waits goes first (R537, R598). -/
def State.logSend (s : State) : State :=
  match s.subscriber with
  | none => s
  | some n =>
    if s.tel.log.isEmpty || !s.keeperUp || s.tel.queue.any (fun e => e.2.1.isNone) then s
    else
      let bs := (s.tel.log.take 64).flatMap fun e => faultBytes e.2 0xFFFFFFFF e.1
      { s with tel := { s.tel with log := s.tel.log.drop 64 } }.kmtPost n ⟨kmtLog, 0, 0, 0, 0, 0, 0, bs⟩

/-- TRACE of the management port. -/
def kmtTrace : Nat := 0x25

/-- The bytes of a trace record (Table 17-10): it carries the sundial of its pavilion (R219), zero where it has none. -/
def State.traceBytes (s : State) (r : TraceSrc) (data : BitVec 64) : List Byte :=
  leBytes 8 (if r.pav < 64 then s.rd F.pavSundial_COUNT r.pav 0 else 0) ++ leBytes 8 s.mtime
    ++ [BitVec.ofNat 8 r.die, BitVec.ofNat 8 r.unit, BitVec.ofNat 8 r.pav, BitVec.ofNat 8 r.ev] ++ List.replicate 4 0
    ++ leBytes 8 data.toNat

/-- TRACE_RECORD (R219, R542): a record that every hop has credit for travels in the debug class to the hub die and waits for the
management port; one that meets a hop without credit is dropped and counted. DESIGN CHOICE (log 155): without a subscriber the
management port has no trace credit. -/
def execTraceRecord (r : TraceSrc) (data : BitVec 64) (credit : Bool) (s : State) : Out :=
  if !credit || s.subscriber.isNone then .next (s.bump F.telTrace_DROPPED 0 0 1)
  else
    let bs := s.traceBytes r data
    let s := s.carry .debug r.die hubDie bs
    .next { s with tel := { s.tel with traces := s.tel.traces ++ [bs] } }

/-- The oldest trace records, at most 64, sent to the subscriber; an alarm or a log that waits goes first (R537, R598). -/
def State.traceSend (s : State) : State :=
  match s.subscriber with
  | none => s
  | some n =>
    if s.tel.traces.isEmpty || !s.keeperUp || !s.tel.log.isEmpty || s.tel.queue.any (fun e => e.2.1.isNone) then s
    else
      { s with tel := { s.tel with traces := s.tel.traces.drop 64 } }.kmtPost n
        ⟨kmtTrace, 0, 0, 0, 0, 0, 0, (s.tel.traces.take 64).flatten⟩

end Sys2Proof.Machine
end

