-- ==== Sys2Proof/Machine/Upkeep.lean ====
section
/-! DEFINITION. QUIET windows (06.7) and upkeep: retraining of GDDR7, of link ports, self-test of the spare and rotation of
beds (16.7). -/

namespace Sys2Proof.Machine

/-! ### Requests and their users (R216) -/

/-- Whether the SPARE_MAP in force lets a die rotate (R172). -/
def State.rotates (s : State) (die : Nat) : Bool :=
  match secPay s.trl.force 10 die with
  | some b => byteAt b 8 == 1
  | none => false

/-- Whether a request for upkeep waits for its grant. A rotation waits only where the SPARE_MAP in force still allows it (R172). -/
def State.upkeepPending (s : State) : Upkeep → Bool
  | .gddr d => s.flag F.gdrTrain_PENDING d 0
  | .link n => s.lnk.retrain.contains n && s.lpState n == 3
  | .bed d => (tfind s.pwr.rotate d).isSome && s.rotates d

/-- The pavilions that use the resource. -/
def State.upkeepUsers (s : State) : Upkeep → List Nat
  | .gddr _ => (List.range 64).filter fun p => s.rd F.pavQuota_GDDR p 0 != 0
  | .link n => (s.port n).share.map (·.1)
  | .bed d => match tfind s.pwr.rotate d with
    | some b => (s.bedOwner b).toList
    | none => []

/-- Whether a pavilion yields its resources of a class: it is idle, fenced or unassigned, or in a window that selects it. -/
def State.yields (s : State) (cls p : Nat) : Bool :=
  s.pavQuiet p || match (s.pav p).quiet with
    | some q => !q.ended && q.classes.testBit cls
    | none => false

/-- Whether a request can be granted now (R216). -/
def State.grantable (s : State) (r : Upkeep) : Bool := s.upkeepPending r && (s.upkeepUsers r).all (s.yields (upkeepClass r))

/-- Whether nothing of a bed is under way that its owner issued before its window: its dispatcher queues have drained, and so
have its cells and tracks (R573). -/
def State.bedDrained (s : State) (b : Nat) : Bool :=
  let seq := match (s.bedOwner b).bind fun p => (s.pav p).quiet with
    | some q => q.seq
    | none => 2 ^ 64
  (s.arr.disp.all fun e => (match e.1 with
      | .ag b' _ => b' != b
      | .cvt b' => b' != b
      | .vec b' => b' != b
      | .eng e => e / 4 != b) || e.2.all fun q => seq ≤ q.op.seq)
    && (s.arr.cells.all fun e => e.1 / 8 != b || e.2.passes.isEmpty)
    && (s.arr.banks.all fun e => e.1.1 / 8 != b || e.2.isEmpty)
    && s.arr.tracks.all fun e => e.1.1 != b || e.2.isEmpty

/-! ### Rotation (R573, R574) -/

/-- A bed reset with what a rotation carries over: the bed's register page, and of each drain what a MARK snapshot holds. -/
def State.bedCarried (s : State) (b : Nat) : State :=
  let keep := s.regs.filter fun e => bedResetReg b e.1
  let drains := (List.range 8).map fun k => (8 * b + k, { s.drain (8 * b + k) with stats := [] })
  let s := s.bedReset b
  drains.foldl (fun s e => s.setDrain e.1 e.2) { s with regs := keep ++ s.regs }

/-- A logical bed moved to the spare slot of its die, without a fence. An unreadable word under abort fences the pavilion
after the copy, as in a replacement (R519). -/
def State.rotateBed (s : State) (d b : Nat) : State :=
  let sp := s.goodSpare d
  let (t, clean) := s.copyStores b
  let t := (t.bedCarried b).setSlots d ((t.slotsOf d).set (b % 8) sp)
  let t := { t with pwr := { t.pwr with rotate := terase t.pwr.rotate d, tested := t.pwr.tested.filter (· != d) } }
  match t.bedOwner b with
  | none => t
  | some p =>
    let t := match (t.pav p).quiet with
      | some q => t.setPav p { t.pav p with quiet := some { q with moved := q.moved ++ [b] } }
      | none => t.armBed b
    if clean || t.fencePoison p then t else t.faultPav p (t.cellReport St.dataFault 0x02 (8 * b))

/-! ### Grants (R570, R571) -/

/-- An upkeep no longer deferred. -/
def State.undefer (s : State) (r : Upkeep) : State := { s with pwr := { s.pwr with deferred := s.pwr.deferred.filter (· != r) } }

/-- A request granted: the work starts, and counts in each window of its class that a user has open. A rotation is done in the
event. -/
def State.grant (s : State) (r : Upkeep) : State :=
  let s := (s.upkeepUsers r).foldl (fun s p =>
    match (s.pav p).quiet with
    | some q => if q.classes.testBit (upkeepClass r) && !q.ended then
        s.setPav p { s.pav p with quiet := some { q with granted := q.granted ++ [r] } } else s
    | none => s) (s.undefer r)
  match r with
  | .gddr d => (s.wr F.gdrTrain_PENDING d 0 0).wr F.gdrStatus_STATE d 0 4
  | .link n => s.startRetrain n
  | .bed d => match tfind s.pwr.rotate d with
    | some b => (s.rotateBed d b).upkeepEnded r
    | none => s

/-- The requests of the device in the order in which those granted in one event start (R571). -/
def allUpkeep : List Upkeep :=
  (List.range 8).map Upkeep.gddr ++ (List.range 16).map Upkeep.link ++ (List.range 8).map Upkeep.bed

/-- Whether a request is granted as soon as it can be: a rotation waits for its bed to drain. -/
def State.grantNow (s : State) (r : Upkeep) : Bool :=
  s.grantable r && match r with
    | .bed d => match tfind s.pwr.rotate d with
      | some b => s.bedDrained b && s.goodSpare d != 0xF
      | none => false
    | _ => true

/-- UPKEEP_GRANT (R570, R571). -/
def execUpkeepGrant (r : Upkeep) (s : State) : Out := .next (if s.grantNow r then s.grant r else s)

/-- The deferral counter of a resource. -/
def State.countDeferral (s : State) : Upkeep → State
  | .gddr d => s.bump F.gdrTrain_DEFERRED d 0 1
  | .link _ => s.bump F.pwrCal_LINK_DEFERRED 0 0 1
  | .bed _ => s.bump F.pwrCal_BT_DEFERRED 0 0 1

/-- The report behind a deferral's alarm. -/
def deferReport : Upkeep → FaultReport
  | .gddr d => FaultReport.blank St.success 3 0x0D d 0xFF
  | .link n => { FaultReport.blank St.success 3 0x10 10 0xFF with port := n }
  | .bed d => FaultReport.blank St.success 3 0x14 d 0xFF

/-- UPKEEP_DEADLINE (R570): the deadline of a request has passed: it is deferred once, and stays. -/
def execUpkeepDeadline (r : Upkeep) (s : State) : Out :=
  if !s.upkeepPending r || s.pwr.deferred.contains r then .next s
  else
    let s := { s with pwr := { s.pwr with deferred := s.pwr.deferred ++ [r] } }
    .next ((s.countDeferral r).alarm (deferReport r).die 0x16 (deferReport r))

/-! ### QUIET (R188, R215, R217) -/

/-- Whether a slice stands after the issue of a QUIET word with a class set and length. -/
def State.quietAt (s : State) (p d classes len : Nat) : Bool :=
  s.dueCtl p d 7 fun w => slotMod w % 8 == classes && slotField w 15 0 == len

/-- Whether every slice of a pavilion stands after the same QUIET word. -/
def State.quietDue (s : State) (p die classes len : Nat) : Bool :=
  s.quietAt p die classes len
    && (s.dies p).all fun d => s.quietAt p d classes len && (s.slice p d).issued == (s.slice p die).issued

/-- The window opened in every slice of a pavilion; what an earlier one had granted stays with it. -/
def State.openQuiet (s : State) (p classes len n : Nat) : State :=
  let s := (s.dies p).foldl (fun s d => s.setSlice p d (s.slice p d).advance) s
  let old := match (s.pav p).quiet with
    | some q => q
    | none => ⟨0, 0, 0, false, [], []⟩
  s.setPav p { s.pav p with quiet := some ⟨classes, len, n * 16, false, old.granted, old.moved⟩ }

/-- What an open window has granted. -/
def State.quietGranted (s : State) (p : Nat) : List Upkeep := ((s.pav p).quiet.map (·.granted)).getD []

/-- Whether a window of a class set has a request that can be granted. -/
def State.quietUse (s : State) (p classes : Nat) : Bool :=
  allUpkeep.any fun r => classes.testBit (upkeepClass r) && (s.upkeepUsers r).contains p && s.grantable r

/-- A request granted as a window opens, where it can start now. -/
def quietGrant (p classes : Nat) (t : State) (r : Upkeep) : State :=
  if classes.testBit (upkeepClass r) && (t.upkeepUsers r).contains p && t.grantNow r then t.grant r else t

/-- The slices of a pavilion past a QUIET word without a window. -/
def State.passQuiet (s : State) (p : Nat) : State := (s.dies p).foldl (fun s d => s.setSlice p d (s.slice p d).advance) s

/-- CTL QUIET: once every slice of the pavilion stands after the word, the window opens in all of them, the requests that can
be granted are, and they go on. A window in which no request can be granted closes as it opens. -/
def execCtlQuiet (p die classes len : Nat) (s : State) : Out :=
  if !s.quietDue p die classes len then .next s
  else
    let t := s.openQuiet p classes len (s.slice p die).issued
    if !t.quietUse p classes && (t.quietGranted p).isEmpty then .next (s.passQuiet p)
    else .next (allUpkeep.foldl (quietGrant p classes) t)

/-- QUIET_CLOSE (R217): the window's length has run out. What is granted completes, and its resources stay closed. -/
def execQuietClose (p : Nat) (s : State) : Out :=
  match (s.pav p).quiet with
  | none => .next s
  | some q =>
    if q.granted.isEmpty then .next (s.closeQuiet p q)
    else
      .next (s.setPav p { s.pav p with quiet := some { q with ended := true } })

/-! ### Self-test of the spare and rotation (R572, R573) -/

/-- SPARE_SELFTEST (R572): a spare that fails is marked bad. -/
def execSpareSelftest (die : Nat) (ok : Bool) (s : State) : Out :=
  let sp := s.goodSpare die
  if sp = 0xF ∨ s.rd F.pwrCal_BT_PERIOD 0 0 = 0 then .next s
  else if ok then
    .next { s with pwr := { s.pwr with tested := if s.pwr.tested.contains die then s.pwr.tested else s.pwr.tested ++ [die] } }
  else
    let t := (s.markBad die sp).setSlots die (s.slotsOf die)
    .next { t with pwr := { t.pwr with tested := t.pwr.tested.filter (· != die), rotate := terase t.pwr.rotate die } }

/-- The logical bed of a die in the lowest-numbered good slot above the spare, wrapping after slot 8. -/
def State.rotationBed (s : State) (d : Nat) : Option Nat :=
  let sp := s.goodSpare d
  let order := (List.range 8).map fun i => (sp + 1 + i) % 9
  (order.findSome? fun n => (List.range 8).find? fun i => s.slotOf (8 * d + i) == n).map (8 * d + ·)

/-- Whether a die may ask for a rotation. -/
def State.mayRotate (s : State) (die : Nat) : Bool :=
  s.rotates die && s.pwr.tested.contains die && s.rd F.pwrCal_BT_PERIOD 0 0 != 0 && s.goodSpare die != 0xF
    && (tfind s.pwr.rotate die).isNone

/-- ROTATION_REQUEST (R572, R573): on a die whose SPARE_MAP allows it, after the spare has passed its self-test. -/
def execRotationRequest (die : Nat) (s : State) : Out :=
  if !s.mayRotate die then .next s
  else
    match s.rotationBed die with
    | some b => .next { s with pwr := { s.pwr with rotate := tset s.pwr.rotate die b } }
    | none => .next s

end Sys2Proof.Machine
end

