-- ==== Sys2Proof/Machine/D2d.lean ====
section
/-! DEFINITION. Die-to-die ports, the Lodge bus and the board references (01.2, 01.3). -/

namespace Sys2Proof.Machine

/-! ### Ports -/

/-- State of a port in LDG_D2D: 0 training, 1 up, 2 degraded, 3 down. -/
def State.d2dState (s : State) (die port : Nat) : Nat := s.rd F.ldgD2d_STATE die port

/-- Whether a port carries traffic. -/
def State.d2dUp (s : State) (die port : Nat) : Bool := s.d2dState die port == 1 || s.d2dState die port == 2

/-! ### Arbitration (R17) -/

/-- Receive credits of a class (Table 1-3). -/
def classCredits : D2dClass → Nat
  | .interrupt => 16
  | .management => 16
  | .coherence => 128
  | .memory => 512
  | .debug => 32

/-- Turns of a class in a round of the weighted classes. -/
def classTurns : D2dClass → Nat
  | .coherence => 4
  | .memory => 11
  | .debug => 1
  | _ => 0

/-- Flits that the replay buffer of a direction keeps (R18). -/
def replayFlits : Nat := 256

/-- Whether a class has a flit ready and a credit. -/
def D2dPort.canSend (x : D2dPort) (c : D2dClass) : Bool :=
  (x.txq.any fun f => f.cls == c) && decide (tget x.used c 0 < classCredits c)

/-- Turns left to a class in the present round. -/
def D2dPort.turnsLeft (x : D2dPort) (c : D2dClass) : Nat := classTurns c - tget x.turns c 0

/-- The class whose flit goes next: interrupt and management, each at most one flit in 16 while another waits, then the
weighted classes; where only the two limited ones wait, the first of them. -/
def D2dPort.nextClass (x : D2dPort) : Option D2dClass :=
  let all := [D2dClass.interrupt, .management, .coherence, .memory, .debug].filter x.canSend
  let alone := all.length ≤ 1
  if all.contains .interrupt && (alone || decide (15 ≤ x.sinceI)) then some .interrupt
  else if all.contains .management && (alone || decide (15 ≤ x.sinceM)) then some .management
  else
    let w := all.filter fun c => decide (0 < classTurns c)
    match w.find? fun c => decide (0 < x.turnsLeft c) with
    | some c => some c
    | none => if w.isEmpty then all.head? else w.head?

/-- A port after a flit of a class. A class without a turn left begins a new round. -/
def D2dPort.count (x : D2dPort) (c : D2dClass) : D2dPort :=
  let turns := if classTurns c = 0 then x.turns
    else if x.turnsLeft c = 0 then [(c, 1)] else tset x.turns c (tget x.turns c 0 + 1)
  { x with
    used := tset x.used c (tget x.used c 0 + 1)
    turns := turns
    sinceI := if c = .interrupt then 0 else min 15 (x.sinceI + 1)
    sinceM := if c = .management then 0 else min 15 (x.sinceM + 1) }

/-- D2D_FLIT_TRANSMIT (R17, R18). -/
def execD2dFlitTransmit (die port : Nat) (s : State) : Out :=
  let x := s.d2dPort die port
  if !s.d2dUp die port || decide (replayFlits ≤ x.replay.length) then .next s
  else
    match x.nextClass.bind fun c => x.txq.find? fun f => f.cls == c with
    | none => .next s
    | some f =>
      let g := { f with seq := x.txSeq }
      let x := { x.count f.cls with
        txq := x.txq.erase f, replay := x.replay ++ [g], txSeq := (x.txSeq + 1) % 2 ^ 32 }
      .next ((s.setD2d die port x).send (.flit die port g (flitSum g)))

/-- The sender of a port's flits learns of a delivery: the credit returns and the replay buffer lets the flit go. -/
def State.flitDelivered (s : State) (die port : Nat) (f : Flit) : State :=
  match farEnd die port with
  | none => s
  | some (e, k) =>
    let x := s.d2dPort e k
    s.setD2d e k { x with
      used := tset x.used f.cls (tget x.used f.cls 0 - 1), replay := x.replay.filter fun g => g.seq != f.seq }

/-- A flit that a die has received: delivered to its class where its path ends there, else put on the port to the next die of
its path, or of the route as it now stands where that port is down (R21). -/
def State.arrive (s : State) (die port : Nat) (f : Flit) : State :=
  match f.path.drop 1 with
  | [] => s.send (.flitIn die port f)
  | e :: rest =>
    let path := if (portTo die e).any (s.d2dUp die) then e :: rest
      else (s.dieRoute die ((e :: rest).getLastD e)).drop 1
    s.putFlits die path f.cls [f.data]

/-- D2D_FLIT_RECEIVE (R18): a flit whose CRC-32C holds is delivered once and in order; one that fails its check, or comes
early, is asked for again. -/
def execD2dFlitReceive (die port : Nat) (f : Flit) (crc : Nat) (s : State) : Out :=
  let x := s.d2dPort die port
  if !s.d2dUp die port then .next s
  else if !flitGood f crc || seqBefore x.rxSeq f.seq then .next (s.send (.flitNak die port x.rxSeq))
  else if f.seq ≠ x.rxSeq then .next s
  else .next (((s.setD2d die port { x with rxSeq := (x.rxSeq + 1) % 2 ^ 32 }).arrive die port f).flitDelivered die port f)

/-- Flits of the replay buffer of a port sent again from a sequence number on. -/
def State.resendFlits (s : State) (die port seq : Nat) : State :=
  let fs := (s.d2dPort die port).replay.filter fun g => !seqBefore g.seq seq
  (fs.foldl (fun s g => s.send (.flit die port g (flitSum g))) s).bump F.ldgD2d_RETRIES die port fs.length

/-- D2D_FLIT_RETRANSMIT (R18). -/
def execD2dFlitRetransmit (die port seq : Nat) (s : State) : Out :=
  .next (if s.d2dUp die port then s.resendFlits die port seq else s)

/-! ### Lanes (R19, R20) -/

/-- A report of a die-to-die port. -/
def d2dReport (die port cls : Nat) : FaultReport :=
  { FaultReport.blank St.success cls 0x0E die 0xFE with port := 0x20 + port }

/-- A port's state and lanes in LDG_D2D. -/
def State.setD2dState (s : State) (die port st lanes : Nat) : State :=
  (s.wr F.ldgD2d_STATE die port st).wr F.ldgD2d_LANES die port lanes

/-- Pavilions with a bed on a die. -/
def State.diePavilions (s : State) (d : Nat) : List Nat := (List.range 64).filter fun p => (s.dies p).contains d

/-- A die that neither its Lodge bus nor a data port reaches is lost (R23). -/
def State.dieReach (s : State) (d : Nat) : State :=
  if d ≥ 10 || s.flag F.ldgStatus_LBUS d 0 || (List.range (diePeers d).length).any fun n => s.d2dUp d n then s
  else (s.wr F.ldgStatus_STATE d 0 4).deviceLoss 1 d

/-- The two ends of a port, the lower die first (R33). -/
def portEnds (die port : Nat) : List (Nat × Nat) :=
  match farEnd die port with
  | none => [(die, port)]
  | some e => if e.1 < die then [e, (die, port)] else [(die, port), e]

/-- A port down at both ends (R21): the Lodges raise their alarms, and the pavilions on both dies a fault event. -/
def State.d2dDown (s : State) (die port : Nat) : State :=
  let ends := portEnds die port
  let s := ends.foldl (fun s e =>
    let r := d2dReport e.1 e.2 1
    ((s.setD2dState e.1 e.2 3 0).sharedFault r (s.diePavilions e.1)).alarm e.1 0x10 r) s
  ends.foldl (fun s e => s.dieReach e.1) s

/-- A failing lane of the direction that a die receives: a spare lane covers it, or the direction runs on 16 lanes, or the
port is down. Held traffic comes again from the replay buffer. -/
def State.laneFails (s : State) (die port lane : Nat) : State :=
  let x := s.d2dPort die port
  if !s.d2dUp die port || x.bad.contains lane then s
  else
    let bad := x.bad ++ [lane]
    let s := s.setD2d die port { x with bad := bad }
    let again := fun (s : State) => match farEnd die port with
      | some (e, k) => s.resendFlits e k (s.d2dPort die port).rxSeq
      | none => s
    if bad.length ≤ 2 then
      again ((s.bump F.ldgD2d_FAILOVERS die port 1).alarm die 0x0F (d2dReport die port 0))
    else if bad.length ≤ 18 then
      if s.d2dState die port = 2 then again s
      else again ((s.setD2dState die port 2 16).alarm die 0x02 (d2dReport die port 1))
    else s.d2dDown die port

/-- D2D_LANE_FAILOVER (R19). -/
def execD2dLaneFailover (die port lane : Nat) (s : State) : Out := .next (s.laneFails die port lane)

/-- D2D_LANE_DEGRADE (R20). -/
def execD2dLaneDegrade (die port lane : Nat) (s : State) : Out := .next (s.laneFails die port lane)

/-- D2D_PORT_DOWN (R21). -/
def execD2dPortDown (die port : Nat) (s : State) : Out :=
  .next (if (peerOf die port).isSome && s.d2dState die port != 3 then s.d2dDown die port else s)

/-! ### Reroute (R21) -/

/-- Dies one hop from a die over ports that are up. -/
def State.hops (s : State) (d : Nat) : List Nat :=
  ((diePeers d).zipIdx.filter fun e => s.d2dUp d e.2).map (·.1)

/-- Simple paths of exactly `k` hops from the end of a path, which is kept latest first. -/
def State.pathsOf (s : State) : (k : Nat) → List Nat → List (List Nat)
  | 0, path => [path.reverse]
  | k + 1, path => ((s.hops (path.headD 0)).filter fun d => !path.contains d).flatMap fun d => s.pathsOf k (d :: path)

/-- The remaining path with the fewest hops between two dies. -/
def State.bestPath (s : State) (src dst : Nat) : Option (List Nat) :=
  (List.range 10).findSome? fun k =>
    let ps := (s.pathsOf (k + 1) [src]).filter fun p => p.getLast? == some dst
    (List.range 3).findSome? fun r => ps.find? fun p => pathRank p == r

/-- A flit that was to cross a failed port, on the path that now leads round it. -/
def flitAlong (f : Flit) (path : List Nat) : Flit := { f with seq := 0, path := path.drop 1 ++ f.path.drop 1 }

/-- What a failed port had sent and not delivered, and what waited there, put on another port of its die along a path. -/
def State.moveFlits (s : State) (die n m : Nat) (path : List Nat) : State :=
  let x := s.d2dPort die n
  let y := s.d2dPort die m
  (s.setD2d die n { x with txq := [], replay := [], used := [] }).setD2d die m
    { y with txq := y.txq ++ (x.replay ++ x.txq).map (flitAlong · path) }

/-- D2D_REROUTE (R21): the traffic of a die pair whose port is down takes the new path, beginning with what the failed port had
sent and not delivered. The Keeper reprograms the routes, and it waits while the Keeper is in RESET (R534). -/
def execD2dReroute (src dst : Nat) (s : State) : Out :=
  match portTo src dst with
  | none => .next s
  | some n =>
    if s.d2dUp src n || !s.keeperUp then .next s
    else
      match s.bestPath src dst with
      | none => .next s
      | some path =>
        let s := { s with d2d := { s.d2d with routes := tset s.d2d.routes (src, dst) path } }
        match portTo src (path.getD 1 0) with
        | none => .next s
        | some m => .next (s.moveFlits src n m path)

/-! ### The Lodge bus and the references (R23, R27) -/

/-- LODGE_BUS_FAIL (R23): management traffic of the die moves to its data ports. -/
def execLodgeBusFail (die : Nat) (s : State) : Out :=
  if 10 ≤ die || !s.flag F.ldgStatus_LBUS die 0 then .next s
  else
    let r := FaultReport.blank St.success 1 0x0F die 0xFE
    let s := ((s.wr F.ldgStatus_LBUS die 0 0).wr F.ldgStatus_FALLBACK die 0 1).alarm hubDie 0x02 r
    .next (s.dieReach die)

/-- The 156.25 MHz reference gone: every link port and the management port lose lock. -/
def State.lose156 (s : State) : State :=
  let s := { s with sys := { s.sys with r156 := false } }
  let s := s.wr F.kprBoot_REFFAIL 0 0 (s.rd F.kprBoot_REFFAIL 0 0 ||| 4)
  let up := (List.range 17).filter fun n => s.lpUp n || s.lpState n == 2
  up.foldl (fun s n => s.leavePort n 6) s

/-- The 100 MHz reference gone: MTIME stops, and the die-to-die ports and GDDR7 interfaces fail. -/
def State.lose100 (s : State) : State :=
  let s := { s with sys := { s.sys with r100 := false } }
  let s := s.wr F.kprBoot_REFFAIL 0 0 (s.rd F.kprBoot_REFFAIL 0 0 ||| 8)
  let s := (List.range 11).foldl (fun s d =>
    (List.range (diePeers d).length).foldl (fun s n => s.setD2dState d n 3 0) s) s
  (List.range 8).foldl (fun s d => s.wr F.gdrStatus_STATE d 0 0) s

/-- REFERENCE_LOST (R27): without 156.25 MHz every link port and the management port lose lock; without 100 MHz the
die-to-die ports and the GDDR7 interfaces fail, MTIME stops, and the device is lost. -/
def execReferenceLost (ref : RefClock) (s : State) : Out :=
  match ref with
  | .r156 =>
    if !s.sys.r156 then .next s else .next s.lose156
  | .r100 =>
    if !s.sys.r100 then .next s else .next (s.lose100.deviceLoss 2 hubDie)

end Sys2Proof.Machine
end

