-- ==== Sys2Proof/Machine/Coherence.lean ====
section
/-! DEFINITION. The coherence protocol between the core dies and the home agents (11.1 to 11.4): requests, snoops,
responses and data as messages, and the directory that lies in the tags of the shared partition. -/

namespace Sys2Proof.Machine

/-! ### Homes and the directory (R381 to R383) -/

/-- The owner value of the shared partition. -/
def sharedOwner : Nat := 0xFE

/-- The die of a line's home agent (R381). -/
def homeDie (la : Nat) : Nat := hashDie (la * 256)

/-- A line as the shared partition of its home holds it, with its way. -/
def State.homeLine (s : State) (la : Nat) : Option (Nat × PLine) :=
  match s.partFind (homeDie la) sharedOwner la with
  | some w => (s.pline (homeDie la) w (la % partSets)).map fun x => (w, x)
  | none => none

/-- The directory entry of a line. -/
def State.dir (s : State) (la : Nat) : Dir := ((s.homeLine la).map fun e => e.2.dir).getD .none

/-- The directory entry of a line that the home holds, set. -/
def State.setDir (s : State) (la : Nat) (d : Dir) : State :=
  match s.homeLine la with
  | some (w, x) => s.setPline (homeDie la) w (la % partSets) { x with dir := d }
  | none => s

/-- Presence of a core die. -/
def Dir.has (d : Dir) (cd : Nat) : Bool := if cd = 0 then d.p0 else d.p1

/-- An entry with presence of a core die set or cleared; a cleared one is owner no longer. -/
def Dir.put (d : Dir) (cd : Nat) (b : Bool) : Dir :=
  let d := if cd = 0 then { d with p0 := b } else { d with p1 := b }
  if !b && d.own == some cd then { d with own := Option.none, st := .i } else d

/-- The entry of a line that one core die holds. -/
def Dir.sole (cd : Nat) (st : LineState) : Dir := ⟨cd == 0, cd == 1, some cd, st, false⟩

/-- The entry of a line that both hold, with its responder. -/
def Dir.both (resp : Nat) : Dir := ⟨true, true, some resp, .f, false⟩

/-- Whether a state answers a read snoop (Table 11-1). -/
def answersRead : LineState → Bool
  | .d => true
  | .c => true
  | .f => true
  | _ => false

/-- A line at its home read in demand class, allocated in the shared partition when absent (R382); `none` while it waits for a
way or for its GDDR7. -/
def State.homeFetch (s : State) (la : Nat) : Option (LineD × State) :=
  s.partAccess (homeDie la) sharedOwner la (some 1) none none false

/-- Data taken at the home: the shared partition's copy becomes it, dirty; `none` while it waits for a way. -/
def State.homePut (s : State) (la : Nat) (d : LineD) : Option State :=
  (s.partAccess (homeDie la) sharedOwner la (some 1) none (some fun _ => d) true).map (·.2)

/-! ### Messages (Table 11-4) -/

/-- The dies that a message crosses between and the bytes that cross: the number of its kind in Table 11-4, its line address,
and the data it carries. Data for the home crosses from the core die that answers (`State.answerSnoop`). -/
def CMsg.crossing : CMsg → Nat × Nat × List Byte
  | .req k cd la d => (8 + cd, homeDie la, (match k with | .readShared => 1 | .readOwn => 2 | .upgrade => 3 | .cleanEvict => 4 | .writeBack => 5)
      :: leBytes 8 (256 * la) ++ (d.map (·.bytes)).getD [])
  | .snp k cd la => (homeDie la, 8 + cd, (match k with | .shared => 6 | .clean => 7 | .own => 8 | .inv => 9 | .back => 10 | .promote => 11)
      :: leBytes 8 (256 * la))
  | .ack cd la was => (8 + cd, homeDie la, 12 :: (match was with | .d => 0 | .c => 1 | .s => 2 | .f => 3 | .i => 4) :: leBytes 8 (256 * la))
  | .ackWb cd la => (8 + cd, homeDie la, 13 :: leBytes 8 (256 * la))
  | .complete cd la _ => (homeDie la, 8 + cd, 14 :: leBytes 8 (256 * la))
  | .data (.cd n) la d => (homeDie la, 8 + n, 15 :: leBytes 8 (256 * la) ++ d.bytes)
  | .data .home la _ => (homeDie la, homeDie la, [])
  | .query die cd set => (die, 8 + cd, 16 :: leBytes 8 (set.getD (2 ^ 64 - 1)))
  | .presence die cd la _ => (8 + cd, die, 17 :: leBytes 8 (256 * la))
  | .endRec die cd _ => (8 + cd, die, [18])

/-- A message sent. -/
def State.post (s : State) (m : CMsg) : State :=
  let (src, dst, bs) := m.crossing
  let s := s.carry .coherence src dst bs
  { s with coh := { s.coh with msgs := s.coh.msgs ++ [m] } }

/-- A message taken. -/
def State.take (s : State) (m : CMsg) : State := { s with coh := { s.coh with msgs := s.coh.msgs.erase m } }

/-- The outstanding request of an agent for a line. -/
def State.creq (s : State) (cd la : Nat) : Option CReq := tfind s.coh.reqs (cd, la)

/-- A request stored. -/
def State.setCreq (s : State) (cd la : Nat) (r : CReq) : State :=
  { s with coh := { s.coh with reqs := tset s.coh.reqs (cd, la) r } }

/-- A request sent to the home. -/
def State.request (s : State) (k : CReqKind) (cd la : Nat) (loads : List WaitLoad) : State :=
  (s.setCreq cd la ⟨k, none, none, loads⟩).post (.req k cd la none)

/-- The transaction of a line. -/
def State.txn (s : State) (la : Nat) : Option Txn := s.coh.txns.find? fun t => t.la == la

/-- A transaction stored in the place of the line's, and one removed. -/
def State.setTxn (s : State) (t : Txn) : State :=
  { s with coh := { s.coh with txns := t :: s.coh.txns.filter fun u => u.la != t.la } }
/-- The transaction of a line removed. -/
def State.endTxn (s : State) (la : Nat) : State :=
  { s with coh := { s.coh with txns := s.coh.txns.filter fun u => u.la != la } }

/-- The request of a message, if it is one for a line. -/
def CMsg.reqFor (la : Nat) : CMsg → Option (CReqKind × Nat × Option LineD)
  | .req k cd l d => if l = la then some (k, cd, d) else none
  | _ => none

/-- The request for a line that arrived first (R392). -/
def State.firstReq (s : State) (la : Nat) : Option (CReqKind × Nat × Option LineD) := s.coh.msgs.findSome? (CMsg.reqFor la)

/-! ### The core caches (R422, Table 12-2) -/

/-- The way that a tree of `n` leaves points to, from node `i` on: a set bit points to the upper half. -/
def treeVictim (n tree : Nat) : (fuel i : Nat) → Nat
  | 0, i => i - n
  | k + 1, i => if n ≤ i then i - n else treeVictim n tree k (2 * i + boolNat (tree.testBit i))

/-- A tree whose bits on the path of node `i` point away from it. -/
def treeTouch (tree : Nat) : (fuel i : Nat) → Nat
  | 0, _ => tree
  | k + 1, i =>
    if i ≤ 1 then tree
    else treeTouch (if i % 2 = 0 then tree ||| 2 ^ (i / 2) else if tree.testBit (i / 2) then tree - 2 ^ (i / 2) else tree) k (i / 2)

/-- A line used in a set of `n` ways, by tree pseudo-LRU: the set after it and the line that it has displaced. An invalid way, the
lowest, is filled first (PRESUMED, log 156). -/
def PrivSet.use (x : PrivSet) (n la : Nat) : PrivSet × Option Nat :=
  match x.ways.idxOf? (some la) with
  | some w => ({ x with tree := treeTouch x.tree 4 (n + w) }, none)
  | none =>
    let w := (x.ways.idxOf? none).getD (treeVictim n x.tree 4 1)
    (⟨x.ways.set w (some la), treeTouch x.tree 4 (n + w)⟩, (x.ways[w]?).join)

/-- An empty set of `n` ways. -/
def PrivSet.empty (n : Nat) : PrivSet := ⟨List.replicate n none, 0⟩

/-- A line used by a hart in its L2, and in its L1I for a fetch or its L1D: the L1D is included in the L2. -/
def State.usePrivate (s : State) (h la : Nat) (fetch : Bool) : State :=
  let (x2, out) := (tget s.coh.l2 (h, la % l2Sets) (.empty 8)).use 8 la
  let l1d := match out with
    | some v => dropPriv s.coh.l1d l1Sets v (· == h)
    | none => s.coh.l1d
  let k := (h, la % l1Sets)
  { s with coh := { s.coh with
    l2 := tset s.coh.l2 (h, la % l2Sets) x2
    l1i := if fetch then tset s.coh.l1i k ((tget s.coh.l1i k (.empty 4)).use 4 la).1 else s.coh.l1i
    l1d := if fetch then l1d else tset l1d k ((tget l1d k (.empty 4)).use 4 la).1 } }

/-- A line of a core die used by a hart: a hit sets its age to 0 (R323, R422). -/
def State.useLine (s : State) (h la : Nat) (fetch : Bool) : State :=
  let c := s.cline (coreDie h) la
  if c.st = .i then s else (s.setCline (coreDie h) la { c with age := 0 }).usePrivate h la fetch

/-- A line leaves its core die: a D line with WriteBack and its data, a C, S or F line with CleanEvict (R385). -/
def State.evictCore (s : State) (cd la : Nat) : State :=
  let c := s.cline cd la
  match c.st with
  | .i => s
  | .d => (((s.givenErrs la c).setCline cd la .gone).setCreq cd la ⟨.writeBack, none, none, []⟩).post
      (.req .writeBack cd la (some c.given))
  | _ => (s.setCline cd la .gone).post (.req .cleanEvict cd la none)

/-- The lines of a core die's L3 in the set of a line. -/
def State.l3Lines (s : State) (cd la : Nat) : List (Nat × CLine) :=
  (s.coh.lines.filter fun e => e.1.1 == cd && e.1.2 % l3Sets == la % l3Sets).map fun e => (e.1.2, e.2)

/-- A way of the L3 for a line: its own, the lowest invalid one, or that of the line of greatest age, which leaves, while the
others age (R324, R422); `none` while every line of the set has a request outstanding. -/
def State.l3Place (s : State) (cd la : Nat) : Option (Nat × State) :=
  let ls := s.l3Lines cd la
  match ls.find? fun e => e.1 == la with
  | some e => some (e.2.way, s)
  | none =>
    match (List.range 16).find? fun w => !ls.any fun e => e.2.way == w with
    | some w => some (w, s)
    | none =>
      let free := ls.filter fun e => (s.creq cd e.1).isNone
      let g := (free.map fun e => e.2.age).foldl max 0
      match (List.range 16).findSome? fun w => free.find? fun e => e.2.way == w && e.2.age == g with
      | none => none
      | some v =>
        let s := ls.foldl (fun s e => if e.1 == v.1 then s else s.setCline cd e.1 { e.2 with age := min 3 (e.2.age + (3 - g)) }) s
        some (v.2.way, s.evictCore cd v.1)

/-! ### Core side: loads and stores (R385, R412, R424) -/

/-- The store buffer of a hart. -/
def State.stores (s : State) (h : Nat) : List StoreEnt := tget s.coh.sb h []

/-- Bytes at an address in a store, if it covers all of them. -/
def StoreEnt.covers (e : StoreEnt) (a n : Nat) : Option (List Byte) :=
  if e.pa ≤ a ∧ a + n ≤ e.pa + e.data.length then some ((e.data.drop (a - e.pa)).take n) else none

/-- Whether a store shares bytes with a range. -/
def StoreEnt.overlaps (e : StoreEnt) (a n : Nat) : Bool := decide (e.pa < a + n) && decide (a < e.pa + e.data.length)

/-- What a load of one line takes from the store buffer: the youngest overlapping entry decides (R412). -/
inductive Forward where
  | none
  | value (bs : List Byte)
  | wait

/-- The store buffer looked up for a load. -/
def State.forwarded (s : State) (h a n : Nat) : Forward :=
  match (s.stores h).reverse.find? fun (e : StoreEnt) => e.overlaps a n with
  | some e => match e.covers a n with
    | some bs => .value bs
    | none => .wait
  | none => .none

/-- The pieces of a cacheable load read from the hart's own stores and the die's copies: `inl` the line that is missing, or
none where a store must leave the buffer first; `inr` the bytes. -/
def State.cachedRead (s : State) (h pa n : Nat) : Sum (Option Nat) (List (Option Byte)) :=
  (linePieces pa n).foldl (fun acc e => match acc with
    | .inl x => .inl x
    | .inr bs => match s.forwarded h e.1 e.2 with
      | .wait => .inl none
      | .value v => .inr (bs ++ v.map some)
      | .none =>
        let c := s.cline (coreDie h) (e.1 / 256)
        if c.st = .i then .inl (some (e.1 / 256)) else .inr (bs ++ c.data.get (e.1 % 256) e.2)) (.inr [])

/-- The cache in which a hart finds a line that its die holds, as CORE_ERR.SRC numbers it (Table 12-8). -/
def State.foundIn (s : State) (h la : Nat) (fetch : Bool) : Nat :=
  let has := fun (t : Tab (Nat × Nat) PrivSet) (sets n : Nat) => (tget t (h, la % sets) (.empty n)).ways.contains (some la)
  if fetch && has s.coh.l1i l1Sets 4 then 0
  else if !fetch && has s.coh.l1d l1Sets 4 then 1
  else if has s.coh.l2 l2Sets 8 then 2
  else 3

/-- The words of a line that a hart's access reads, in the cache where it finds them (R422, R424): corrected errors are counted and
go; a word that cannot be corrected is counted and is the answer, with its kind (Table 12-8), and a dirty line leaves as poison. -/
def State.readWords (s : State) (h la : Nat) (fetch : Bool) (ws : List Nat) : Option (Nat × Nat) × State :=
  let cd := coreDie h
  let c := s.cline cd la
  let src := s.foundIn h la fetch
  let met := fun (e : CErr) => e.src == src && (src == 3 || e.hart == h) && ws.contains e.word
  let es := c.errs.filter met
  let dirty := c.st == .d
  let s := es.foldl (fun s e => s.countErr h la dirty e) s
  let c' := { c with errs := c.errs.filter fun e => !met e || e.fatal }
  if es.isEmpty then (none, s)
  else if !es.any CErr.fatal then (none, s.setCline cd la c')
  else if dirty then
    (some (src, 2), (s.setCline cd la { c with data := c.given, errs := [] }).evictCore cd la)
  else (some (src, 0), s.setCline cd la c')

/-- The words of 8 bytes that a range of one line touches. -/
def wordsOf (a n : Nat) : List Nat := (List.range 32).filter fun w => decide (a % 256 < 8 * w + 8) && decide (8 * w < a % 256 + n)

/-- The pieces of a load that its die's copies supply, read in the caches: the first error, and the state after. -/
def State.readCaches (s : State) (w : WaitLoad) : Option (Nat × Nat) × State :=
  (linePieces w.pa w.size).foldl (fun acc e => match acc with
    | (some x, s) => (some x, s)
    | (none, s) => match s.forwarded w.hart e.1 e.2 with
      | .none => s.readWords w.hart (e.1 / 256) w.fetch (wordsOf e.1 e.2)
      | _ => (none, s)) (none, s)

/-- A cacheable load: answered from the cache, or a ReadShared of the missing line, for which it waits. `came` that its line has
come for it from outside its die. -/
def State.loadTry (s : State) (came : Bool) (w : WaitLoad) : State :=
  match s.cachedRead w.hart w.pa w.size with
  | .inr bs =>
    let src := if came then 4 else s.foundIn w.hart (w.pa / 256) w.fetch
    match s.readCaches w with
    | (some (src, kind), t) => (t.loadFault w.hart w.fetch).coreErr w.hart src kind w.pa
    | (none, t) =>
      ((linePieces w.pa w.size).foldl (fun s e => s.useLine w.hart (e.1 / 256) w.fetch) t).answerLoad w.hart w.pa w.fetch src bs
  | .inl none => s
  | .inl (some la) =>
    match s.creq (coreDie w.hart) la with
    | some r => s.setCreq (coreDie w.hart) la { r with loads := r.loads ++ [w] }
    | none => s.request .readShared (coreDie w.hart) la [w]

/-- The oldest store of a hart performed if its die owns the line; else the request that it needs. -/
def State.storeHead (s : State) (h : Nat) : Option State :=
  match s.stores h with
  | [] => none
  | e :: es =>
    let cd := coreDie h
    let la := e.pa / 256
    let c := s.cline cd la
    let part := (wordsOf e.pa e.data.length).filter fun w =>
      !(decide (e.pa % 256 ≤ 8 * w) && decide (8 * w + 8 ≤ e.pa % 256 + e.data.length))
    let ask := fun (k : CReqKind) => if (s.creq cd la).isSome then none else some (s.request k cd la [])
    match c.st with
    | .i => ask .readOwn
    | .s => ask .upgrade
    | .f => ask .upgrade
    | _ =>
      match s.readWords h la false part, c.st with
      | (some _, t), .d => some t
      | (err, s), _ =>
        let c := s.cline cd la
        let d := if err.isSome then c.data.poisoned part else c.data
        let errs := c.errs.filter fun x => !(wordsOf e.pa e.data.length).contains x.word
        let s := ((s.unreserve (some h) la).setCline cd la
          { c with st := .d, data := d.merge (e.pa % 256) e.data, errs := errs }).useLine h la false
        some { s with coh := { s.coh with sb := tset s.coh.sb h es } }

/-- Stores of a hart performed in order as far as they can be. -/
def State.drainStores (s : State) (h : Nat) : (fuel : Nat) → State
  | 0 => s
  | fuel + 1 => match s.storeHead h with
    | some t => if (t.stores h).length < (s.stores h).length then t.drainStores h fuel else t
    | none => s

/-- The stores of every hart of a core die performed as far as they can be. -/
def State.drainDie (s : State) (cd : Nat) : State :=
  (s.coh.sb.map (·.1)).foldl (fun s h => if coreDie h = cd then s.drainStores h 33 else s) s

/-- A request that has ended: stores of the die go on, and its loads look again. -/
def State.wake (s : State) (cd : Nat) (loads : List WaitLoad) : State := loads.foldl (fun s w => s.loadTry true w) (s.drainDie cd)

/-- The completion of an agent's request: it has the home's Complete and the data, or for an Upgrade still the
line (R391), and a place in the L3. -/
def State.agentDone (s : State) (cd la : Nat) : State :=
  match s.creq cd la with
  | none => s
  | some r =>
    let own := s.cline cd la
    let data := match r.data with
      | some d => some d
      | none => if own.st = LineState.i then none else some own.data
    match r.grant, data with
    | some st, some d =>
      (match s.l3Place cd la with
      | none => s
      | some (w, s) =>
        let s := s.setCline cd la ⟨st, d, w, if own.st = LineState.i then 1 else 0, if own.st = LineState.i then [] else own.errs⟩
        let s := { s with coh := { s.coh with reqs := terase s.coh.reqs (cd, la) } }
        (s.endTxn la).wake cd r.loads)
    | _, _ => s

/-! ### Home side (R384, R392 to R394) -/

/-- Whether a line's snoops go to both core dies: its entry is unknown, or the mode is forced (R394). -/
def State.ownerOrder (s : State) (la : Nat) : Bool :=
  let die := homeDie la
  let unknown := s.dirAsked die la
    && (match s.homeLine la with
      | some (_, x) => x.dir.unknown
      | none => true)
  s.flag F.cohStatus_MODE die 0 && !s.flag F.cohStatus_DRAIN die 0 && (s.flag F.cohCtl_OO_FORCE die 0 || unknown)

/-- Which states the answers and the directory give the two dies, as far as they are known. -/
def Txn.state (t : Txn) (cd : Nat) : LineState := tget t.was cd .i

/-- The end of a transaction at its home, once every answer and all data are there: the Complete with the new state, data from
the home where no holder passes it, and the directory entry (Table 11-2). It stays while the home waits for a way. -/
def State.finishTxn (s : State) (la : Nat) : State :=
  match s.txn la with
  | none => s
  | some t =>
    if !t.wait.isEmpty || t.data || t.granted || t.wb.isSome then s
    else
      let resp := [0, 1].find? fun o => answersRead (t.state o) && (o != t.cd || t.kind != .readShared)
      let hold := t.kind == .upgrade
      let other := 1 - t.cd
      let (st, d) : LineState × Dir := match t.kind, resp with
        | .readShared, some o => (LineState.s, Dir.both o)
        | .readShared, none => if t.state other = .s then (.f, Dir.both t.cd) else (.c, Dir.sole t.cd .c)
        | _, _ => (.d, Dir.sole t.cd .d)
      let here := (s.homeLine la).isSome && (resp.isSome || hold)
      match (if here then some (⟨[], []⟩, s) else s.homeFetch la) with
      | none => s
      | some (x, s) =>
        let s := s.setDir la d
        let s := if resp.isSome || hold then s else s.post (.data (.cd t.cd) la x)
        (s.setTxn { t with granted := true }).post (.complete t.cd la st)

/-- A ReadShared, ReadOwn or Upgrade taken by the home: its transaction begins and its snoops are sent. -/
def State.begin (s : State) (k : CReqKind) (cd la : Nat) : State :=
  let die := homeDie la
  let s := (s.take (.req k cd la none)).tagCheck die sharedOwner la
  let oo := s.ownerOrder la
  let d := s.dir la
  let other := 1 - cd
  let k := if k = .upgrade && (oo || !d.has cd) then CReqKind.readOwn else k
  let (snp, targets) := match k with
    | .readShared => (SnpKind.shared, if oo then [0, 1] else if d.own == some other then [other] else [])
    | .upgrade => (.inv, if d.has other then [other] else [])
    | _ => (.own, if oo then [0, 1] else if d.has other then [other] else [])
  let was : Tab Nat LineState := if targets.contains other || !d.has other then [] else [(other, .s)]
  let s := targets.foldl (fun s t => s.post (.snp snp t la)) (s.snoops die targets.length)
  (s.setTxn ⟨la, k, cd, targets, was, false, none, false, oo⟩).finishTxn la

/-- A request row: it is taken when it is the line's first and the line is free; until then it waits (R392). -/
def State.takeReq (s : State) (k : CReqKind) (cd la : Nat) : State :=
  match s.firstReq la, s.txn la with
  | some (k', cd', _), none => if k' = k ∧ cd' = cd then s.begin k cd la else s
  | _, _ => s

/-- READ_SHARED (R385, R392). -/
def execReadShared (cd la : Nat) (s : State) : Out := .next (s.takeReq .readShared cd la)

/-- READ_OWN (R385, R392). -/
def execReadOwn (cd la : Nat) (s : State) : Out := .next (s.takeReq .readOwn cd la)

/-- UPGRADE (R385, R392). -/
def execUpgrade (cd la : Nat) (s : State) : Out := .next (s.takeReq .upgrade cd la)

/-- CLEAN_EVICT (R384, R385): the home clears the agent's presence; when it was the responder and the other die holds the
line, the other is promoted before the next transaction. -/
def execCleanEvict (cd la : Nat) (s : State) : Out :=
  match s.firstReq la, s.txn la with
  | some (.cleanEvict, cd', _), none =>
    if cd' ≠ cd then .next s
    else
      let d := s.dir la
      let other := 1 - cd
      let s := (s.take (.req .cleanEvict cd la none)).setDir la (d.put cd false)
      if d.own == some cd && d.has other then
        .next (((s.snoops (homeDie la) 1).post (.snp .promote other la)).setTxn
          ⟨la, .cleanEvict, cd, [other], [], false, none, false, false⟩)
      else .next s
  | _, _ => .next s

/-- The rest of a WriteBack once the home has its data: the agent's presence is cleared, its request ends, and a snooped
request that met the WriteBack goes on. -/
def State.tookBack (s : State) (cd la : Nat) : State :=
  let t := s.setDir la ((s.dir la).put cd false)
  let loads := ((t.creq cd la).map (·.loads)).getD []
  let t := { t with coh := { t.coh with reqs := terase t.coh.reqs (cd, la) } }
  let t := match t.txn la with
    | some x => (t.setTxn { x with wb := none }).finishTxn la
    | none => t
  t.wake cd loads

/-- WRITE_BACK (R385, R390): the home takes the data and clears the agent's presence; a snooped request that met the WriteBack
goes on with it. -/
def execWriteBack (cd la : Nat) (s : State) : Out :=
  match s.firstReq la with
  | some (.writeBack, cd', some d) =>
    let free := match s.txn la with
      | none => true
      | some t => t.wb == some cd
    if cd' ≠ cd || !free then .next s
    else
      match (s.take (.req .writeBack cd la (some d))).homePut la d with
      | none => .next s
      | some t =>
        .next (t.tookBack cd la)
  | _ => .next s

/-! ### Snoops at an agent (Table 11-2, R389, R390) -/

/-- Data of a snooped line to the requester, counted where it passes between the core dies (R391). -/
def State.passData (s : State) (cd la : Nat) (d : LineD) : State :=
  match s.txn la with
  | none => s
  | some t =>
    let s := s.post (.data (.cd t.cd) la d)
    if t.cd = cd then s else s.bump F.cohCnt_C2C (homeDie la) 0 1

/-- The next state of a snooped line (Table 11-2). -/
def snoopNext : SnpKind → LineState → LineState
  | .shared, .d => .f
  | .shared, .c => .f
  | .clean, .d => .c
  | .own, _ => .i
  | .inv, _ => .i
  | .back, _ => .i
  | .promote, .s => .f
  | _, st => st

/-- Whether a snoop passes data to the requester, and whether it returns data to the home (Table 11-2). -/
def snoopPasses : SnpKind → LineState → Bool
  | .shared, st => answersRead st
  | .own, st => answersRead st
  | _, _ => false
/-- Whether a snoop returns data to the home (Table 11-2). -/
def snoopReturns : SnpKind → LineState → Bool
  | .shared, .d => true
  | .clean, .d => true
  | .inv, .d => true
  | .back, .d => true
  | _, _ => false

/-- A snoop answered by an agent from its present state; with AckWB while a WriteBack of the line is on its way. -/
def State.answerSnoop (s : State) (k : SnpKind) (cd la : Nat) : State :=
  let s := s.take (.snp k cd la)
  if (s.creq cd la).any fun r => r.kind == .writeBack then s.post (.ackWb cd la)
  else
    let old := s.cline cd la
    let gives := snoopPasses k old.st || snoopReturns k old.st
    let s := if gives then s.givenErrs la old else s
    let c := if gives then { old with data := old.given, errs := [] } else old
    let s := if snoopPasses k c.st then s.passData cd la c.data else s
    let s := if snoopReturns k c.st then
        (s.post (.data .home la c.data)).carry .coherence (8 + cd) (homeDie la) (15 :: leBytes 8 (256 * la) ++ c.data.bytes)
      else s
    (s.setCline cd la { c with st := snoopNext k c.st }).post (.ack cd la c.st)

/-- A snoop that the home sends for an access or an eviction (R382, R386), answered in its event: dirty data is merged at the
home. -/
def State.homeSnoop (s : State) (k : SnpKind) (cd la : Nat) : State :=
  let c := s.cline cd la
  if s.lineBusy la || c.st = .i then s
  else
    match (if c.st = .d then (s.givenErrs la c).homePut la c.given else some s) with
    | none => s
    | some t =>
      let t := (t.setCline cd la (if c.st = .d then { c with st := snoopNext k c.st, data := c.given, errs := [] }
        else { c with st := snoopNext k c.st })).snoops (homeDie la) 1
      t.setDir la (if k = .clean then { t.dir la with st := snoopNext k c.st } else (t.dir la).put cd false)

/-- A snoop row: the snoop in flight is answered. -/
def State.snoopRow (s : State) (k : SnpKind) (cd la : Nat) : State :=
  if s.coh.msgs.contains (.snp k cd la) then s.answerSnoop k cd la else s

/-- SNP_SHARED (R385). -/
def execSnpShared (cd la : Nat) (s : State) : Out := .next (s.snoopRow .shared cd la)

/-- SNP_OWN (R385). -/
def execSnpOwn (cd la : Nat) (s : State) : Out := .next (s.snoopRow .own cd la)

/-- PROMOTE (R385). -/
def execPromote (cd la : Nat) (s : State) : Out := .next (s.snoopRow .promote cd la)

/-- SNP_CLEAN (R385, R386): a dirty holder writes back and keeps the line clean. -/
def execSnpClean (cd la : Nat) (s : State) : Out :=
  .next (if s.coh.msgs.contains (.snp .clean cd la) then s.answerSnoop .clean cd la
    else if (s.cline cd la).st = .d then s.homeSnoop .clean cd la else s)

/-- SNP_INV (R385, R386). -/
def execSnpInv (cd la : Nat) (s : State) : Out :=
  .next (if s.coh.msgs.contains (.snp .inv cd la) then s.answerSnoop .inv cd la else s.homeSnoop .inv cd la)

/-- BACK_INVALIDATION (R382): the holder gives the line up, and dirty data goes to the home. -/
def execBackInvalidation (cd la : Nat) (s : State) : Out :=
  .next (if s.coh.msgs.contains (.snp .back cd la) then s.answerSnoop .back cd la else s.homeSnoop .back cd la)

/-! ### Responses and data (R389, R391) -/

/-- An answer taken into the transaction of its line. -/
def State.answered (s : State) (cd la : Nat) (was : LineState) (wb : Bool) : State :=
  match s.txn la with
  | none => s
  | some t =>
    if !t.wait.contains cd then s
    else if t.kind = .cleanEvict then
      ((s.setDir la (if was = .s then { (s.dir la).put cd true with own := some cd, st := .f } else s.dir la)).endTxn la)
    else
      let due := s.coh.msgs.any fun m => match m with
        | .data .home l _ => l == la
        | _ => false
      (s.setTxn { t with
        wait := t.wait.erase cd, was := tset t.was cd was, data := t.data || due,
        wb := if wb then some cd else t.wb }).finishTxn la

/-- The state that a message carries as an agent's Ack for a line. -/
def CMsg.ackOf (cd la : Nat) : CMsg → Option LineState
  | .ack c l was => if c = cd ∧ l = la then some was else none
  | _ => none

/-- The state that a message grants as the home's Complete to an agent for a line. -/
def CMsg.completeOf (cd la : Nat) : CMsg → Option LineState
  | .complete c l st => if c = cd ∧ l = la then some st else none
  | _ => none

/-- The data that a message carries to a destination for a line. -/
def CMsg.dataOf (dst : CohDst) (la : Nat) : CMsg → Option LineD
  | .data t l d => if t = dst ∧ l = la then some d else none
  | _ => none

/-- The scope of a message that is a home's query to an agent. -/
def CMsg.queryOf (die cd : Nat) : CMsg → Option (Option Nat)
  | .query d c set => if d = die ∧ c = cd then some set else none
  | _ => none

/-- Whether a message is an agent's presence record for a home. -/
def CMsg.isPresence (die cd : Nat) : CMsg → Bool
  | .presence d c _ _ => d == die && c == cd
  | _ => false

/-- ACK (R385): the response of a snooped agent, which carries its state. -/
def execCohAck (cd la : Nat) (s : State) : Out :=
  match s.coh.msgs.findSome? (CMsg.ackOf cd la) with
  | none => .next s
  | some was => .next ((s.take (.ack cd la was)).answered cd la was false)

/-- ACK_WB (R390): the agent's WriteBack is on its way; the home uses its data. -/
def execAckWb (cd la : Nat) (s : State) : Out :=
  if !s.coh.msgs.contains (.ackWb cd la) then .next s
  else .next ((s.take (.ackWb cd la)).answered cd la .i true)

/-- COMPLETE (R391): the home's Complete reaches the requester; a transaction whose home still waits, and a request that waits for
a place in its L3, are tried again. -/
def execCohComplete (cd la : Nat) (s : State) : Out :=
  match s.coh.msgs.findSome? (CMsg.completeOf cd la) with
  | none => .next ((s.finishTxn la).agentDone cd la)
  | some st =>
    let s := s.take (.complete cd la st)
    match s.creq cd la with
    | none => .next s
    | some r => .next ((s.setCreq cd la { r with grant := some st }).agentDone cd la)

/-- COHERENCE_DATA (R391): line data reaches the requester, or the home, which keeps it. -/
def execCoherenceData (dst : CohDst) (la : Nat) (_data : List Byte) (s : State) : Out :=
  match s.coh.msgs.findSome? (CMsg.dataOf dst la) with
  | none => .next s
  | some d =>
    let t := s.take (.data dst la d)
    match dst with
    | .cd cd =>
      match t.creq cd la with
      | none => .next t
      | some r => .next ((t.setCreq cd la { r with data := some d }).agentDone cd la)
    | .home =>
      match t.homePut la d with
      | none => .next s
      | some t =>
        match t.txn la with
        | some x => .next ((t.setTxn { x with data := false }).finishTxn la)
        | none => .next t

/-! ### Owner order (R393 to R395) -/

/-- The lines of a core die whose home is a die, all of them or those of one set. -/
def State.linesOf (s : State) (die cd : Nat) (set : Option Nat) : List ((Nat × Nat) × CLine) :=
  s.coh.lines.filter fun e => e.1.1 == cd && homeDie e.1.2 == die
    && inQuery set e.1.2

/-- SNP_QUERY (R395): the agent walks its lines and sends a presence record for each of the querying home's, then its end
record. -/
def execSnpQuery (die cd : Nat) (s : State) : Out :=
  match s.coh.msgs.findSome? (CMsg.queryOf die cd) with
  | none => .next s
  | some set => .next (((s.linesOf die cd set).foldl
      (fun (s : State) (e : (Nat × Nat) × CLine) => s.post (.presence die cd e.1.2 e.2.st))
      (s.take (.query die cd set))).post (.endRec die cd set))

/-- A presence record written into the directory entry of its line. The entry stays under query until both dies have answered. -/
def State.learn (s : State) (die cd la : Nat) (st : LineState) (d : Dir) : State :=
  let d := d.put cd true
  s.setDir la { (if answersRead st then { d with own := some cd, st := st } else d) with unknown := s.dirAsked die la }

/-- PRESENCE_RECORD (R395): the home writes a directory entry for the record, allocating the line when it is absent; an entry
that a transaction has written since stands. -/
def execPresenceRecord (die cd la : Nat) (st : LineState) (s : State) : Out :=
  if !s.coh.msgs.contains (.presence die cd la st) then .next s
  else
    let t := s.take (.presence die cd la st)
    match t.homeLine la with
    | some (_, x) => .next (if x.dir.unknown then t.learn die cd la st x.dir else t)
    | none => match t.homeFetch la with
      | some (_, t) => .next (t.learn die cd la st .none)
      | none => .next s

/-- The entries of a home that no query asks for any more, known; owner order drains once none is asked for, unless it is
forced. -/
def State.allKnown (s : State) (die : Nat) : State :=
  let settle := fun (e : (Nat × Nat × Nat) × PLine) =>
    if e.1.1 == die && !(s.dirAsked die e.2.la) then (e.1, { e.2 with dir := { e.2.dir with unknown := false } }) else e
  let s := { s with org := { s.org with lines := s.org.lines.map settle } }
  if s.flag F.cohCtl_OO_FORCE die 0 || !(tget s.coh.ends die []).isEmpty then s else s.wr F.cohStatus_DRAIN die 0 1

/-- The scope of a message that is an agent's end record for a home. -/
def CMsg.endOf (die cd : Nat) : CMsg → Option (Option Nat)
  | .endRec d c set => if d = die ∧ c = cd then some set else none
  | _ => none

/-- END_RECORD (R395): when both have arrived, every entry of their scope still unknown has no holder, and owner order drains. -/
def execEndRecord (die cd : Nat) (s : State) : Out :=
  match s.coh.msgs.findSome? (CMsg.endOf die cd) with
  | none => .next s
  | some set =>
    if s.coh.msgs.any (CMsg.isPresence die cd) then .next s
    else
      let t := s.take (.endRec die cd set)
      .next ({ t with coh := { t.coh with
        ends := tset t.coh.ends die ((tget t.coh.ends die []).erase (cd, set)) } }.allKnown die)

/-- COH_CTL written (R393, Table 11-10). -/
def State.ooForceWrite (s : State) (a : Actor) (die : Nat) (v : BitVec 64) : State :=
  let new := v.toNat % 2
  let old := s.rd F.cohCtl_OO_FORCE die 0
  if !machineActor a then s.refuse
  else
    let s := s.wr F.cohCtl_OO_FORCE die 0 new
    if old = 0 ∧ new = 1 then
      ((s.wr F.cohStatus_MODE die 0 1).wr F.cohStatus_DRAIN die 0 0).wr F.cohStatus_CAUSE die 0 3
    else if old = 1 ∧ new = 0 ∧ (tget s.coh.ends die []).isEmpty then s.wr F.cohStatus_DRAIN die 0 1
    else s

/-- COH_OO_FORCE (R393). -/
def execCohOoForce (a : Actor) (die : Nat) (v : BitVec 64) (s : State) : Out := .next (s.ooForceWrite a die v)

/-- OWNER_ORDER_DRAINED (R393): once every transaction begun in owner order is complete, the home is back in home order. -/
def execOwnerOrderDrained (die : Nat) (s : State) : Out :=
  if !s.flag F.cohStatus_DRAIN die 0 || s.coh.txns.any (fun t => t.owner && homeDie t.la == die) then .next s
  else .next (((s.wr F.cohStatus_MODE die 0 0).wr F.cohStatus_DRAIN die 0 0).wr F.cohStatus_CAUSE die 0 0)

/-! ### Bias (R401 to R405, Table 11-14) -/

/-- Whether an owner has a cache partition on some die. -/
def State.hasPartition (s : State) (o : Nat) : Bool :=
  (List.range 8).any fun d => (List.range 16).any fun w =>
    s.rd F.orgWaymap_MODE d w == 1 && s.rd F.orgWaymap_OWNER d w == o

/-- The bias command started, or refused for an owner without a partition. -/
def State.biasStart (s : State) : State :=
  if s.rd F.cohBiasCtl_OP 0 0 = 0 && !s.hasPartition (s.rd F.cohBiasCtl_OWNER 0 0) then
    (s.wr F.cohBiasCtl_ERROR 0 0 1).wr F.cohBiasCtl_GO 0 0 0
  else (s.wr F.cohBiasCtl_GO 0 0 1).wr F.cohBiasCtl_BUSY 0 0 1

/-- The fields of COH_BIAS_CTL written: while a command runs only ERROR is cleared; GO with a commit waiting runs after it. -/
def State.biasFields (s : State) (clear : Bool) (op owner : Nat) (go : Bool) : State :=
  let s := if clear then s.wr F.cohBiasCtl_ERROR 0 0 0 else s
  if s.flag F.cohBiasCtl_BUSY 0 0 then s
  else
    let s := if op < 2 then s.wr F.cohBiasCtl_OP 0 0 op else s
    let s := if owner < 64 then s.wr F.cohBiasCtl_OWNER 0 0 owner else s
    if !go then s
    else if s.commitDue .cohBiasCommit 0 then
      { s.wr F.cohBiasCtl_GO 0 0 1 with coh := { s.coh with biasGo := true } }
    else s.biasStart

/-- COH_BIAS_CTL written. -/
def State.biasWrite (s : State) (a : Actor) (v : BitVec 64) : State :=
  if !machineActor a then s.refuse
  else s.biasFields (v.toNat.testBit 2) (natField v.toNat 5 4) (natField v.toNat 15 8) (v.toNat.testBit 0)

/-- BIAS_RELEASE (R404): COH_BIAS_CTL written with GO and OP RELEASE. -/
def execBiasRelease (a : Actor) (v : BitVec 64) (s : State) : Out :=
  if !machineActor a then .next s.refuse
  else .next (s.biasFields (v.toNat.testBit 2) 0 (natField v.toNat 15 8) true)

/-- BIAS_RECALL (R404): COH_BIAS_CTL written with GO and OP RECALL. -/
def execBiasRecall (a : Actor) (v : BitVec 64) (s : State) : Out :=
  if !machineActor a then .next s.refuse
  else .next (s.biasFields (v.toNat.testBit 2) 1 (natField v.toNat 15 8) true)

/-- COH_BIAS_COMMIT_GO (R167, R419). -/
def execCohBiasCommitGo (a : Actor) (s : State) : Out :=
  if !machineActor a then .next s.refuse else .next (s.commitGo .cohBiasCommit 0)

/-- The pair check of the bias range. -/
def State.biasRangeOk (s : State) : Bool :=
  let b := s.rdShadow F.cohBiasBase_BASE 0 0 * 2 ^ 16
  let l := s.rdShadow F.cohBiasSize_LOG2 0 0
  decide (16 ≤ l) && decide (l ≤ 40) && b % 2 ^ l == 0 && decide (b + 2 ^ l ≤ scratchBase)

/-- COH_BIAS_COMMIT_APPLY (R167, Table 11-14): while no bias command runs, the range that passes the pair check is taken. -/
def execCohBiasCommitApply (s : State) : Out :=
  if !s.commitDue .cohBiasCommit 0 || s.flag F.cohBiasCtl_BUSY 0 0 then .next s
  else
    let s := if s.biasRangeOk then
        ((s.commitField F.cohBiasBase_BASE 0 0 0 0).commitField F.cohBiasSize_LOG2 0 0 0 0).commitEnd .cohBiasCommit 0 0
      else s.commitEnd .cohBiasCommit 0 1
    .next (if s.coh.biasGo then { s with coh := { s.coh with biasGo := false } }.biasStart else s)

/-- Whether a line lies in the committed range. -/
def State.inBias (s : State) (la : Nat) : Bool :=
  let b := s.rd F.cohBiasBase_BASE 0 0 * 2 ^ 16
  decide (b ≤ la * 256) && decide (la * 256 < b + 2 ^ s.rd F.cohBiasSize_LOG2 0 0)

/-- The lines of an owner's partitions that lie in the range. -/
def State.biasLines (s : State) (o : Nat) : List ((Nat × Nat × Nat) × PLine) :=
  s.org.lines.filter fun e => s.inBias e.2.la && s.rd F.orgWaymap_MODE e.1.1 e.1.2.1 == 1
    && s.rd F.orgWaymap_OWNER e.1.1 e.1.2.1 == o

/-- Lines written back where they are dirty, and dropped. -/
def State.clearLines (s : State) (ls : List ((Nat × Nat × Nat) × PLine)) : State :=
  ls.foldl (fun s e => match s.pline e.1.1 e.1.2.1 e.1.2.2 with
    | some x => (s.writeBackLine e.1.1 x).dropPline e.1.1 e.1.2.1 e.1.2.2
    | none => s) s

/-- The data of core copies taken by SnpInv, put into the shared partition's copy, or into GDDR7 where it has none. -/
def State.recallLine (s : State) (la : Nat) : State :=
  let (d, s) := s.snoopInv (homeDie la) la
  match d with
  | none => s
  | some d => match s.homeLine la with
    | some (w, x) => s.setPline (homeDie la) w (la % partSets) { x with data := d, dirty := true }
    | none => s.gddrPut la d

/-- Whether the bias command is RECALL. -/
def State.biasCalls (s : State) : Bool := s.rd F.cohBiasCtl_OP 0 0 == 1

/-- The partition lines that the bias command visits: the owner's for RELEASE, the shared partition's for RECALL. -/
def State.biasVisit (s : State) : List ((Nat × Nat × Nat) × PLine) :=
  s.biasLines (if s.biasCalls then sharedOwner else s.rd F.cohBiasCtl_OWNER 0 0)

/-- The lines in core caches that RECALL takes back. -/
def State.biasHeld (s : State) : List Nat :=
  if s.biasCalls then ((s.coh.lines.map fun e => e.1.2).filter s.inBias).eraseDups else []

/-- Whether the visit waits: for a busy line of the range, or for a GDDR7 that retrains. -/
def State.biasWaits (s : State) : Bool :=
  (s.biasCalls && ((s.coh.txns.any fun t => s.inBias t.la) || s.coh.reqs.any fun e => s.inBias e.1.2))
    || (s.biasVisit.map (fun e => e.2.la) ++ s.biasHeld).any fun la => !s.gddrOpen la

/-- Whether the visit of the range passes a set of a die's partitions: a line of the range whose home is the die lies in it. -/
def State.biasPasses (s : State) (die set : Nat) : Bool :=
  let b := s.rd F.cohBiasBase_BASE 0 0 * 2 ^ 8
  let n := 2 ^ (s.rd F.cohBiasSize_LOG2 0 0 - 8)
  let first := (set + partSets - b % partSets) % partSets
  (List.range ((n + partSets - 1) / partSets)).any fun k =>
    decide (first + k * partSets < n) && homeDie (b + first + k * partSets) == die

/-- BIAS_DONE (R404, R405): every home agent has visited the range. RELEASE has cleared it from the owner's partition, RECALL
from the core caches and the shared partition. The visit waits for a busy line and for a GDDR7 that retrains. -/
def execBiasDone (s : State) : Out :=
  if !s.flag F.cohBiasCtl_BUSY 0 0 || s.biasWaits then .next s
  else
    let o := if s.biasCalls then sharedOwner else s.rd F.cohBiasCtl_OWNER 0 0
    let t := (List.range 8).foldl (fun t die => t.visitTags die o (s.biasPasses die)) (s.biasHeld.foldl State.recallLine s)
    let t := t.clearLines t.biasVisit
    .next ((t.wr F.cohBiasCtl_BUSY 0 0 0).wr F.cohBiasCtl_GO 0 0 0)

end Sys2Proof.Machine
end

