-- ==== Sys2Proof/Machine/Caches.lean ====
section
/-! DEFINITION. Cache management by the harts (12.2, 12.4) and evictions of the core caches (11.2). -/

namespace Sys2Proof.Machine

/-- Whether a physical address can lie in a core cache: GDDR7 whose home has a shared partition (Table 12-3, R322). -/
def State.cacheable (s : State) (pa : Nat) : Bool :=
  inGddr pa && !(s.ways (homeDie (pa / 256)) sharedOwner (pa / 256)).isEmpty

/-- Whether a hart still holds a store to a line in its buffer. -/
def State.holdsStore (s : State) (h la : Nat) : Bool := (s.stores h).any fun e => e.pa / 256 == la

/-- Dirty data of a snooped line merged at its home; `none` while the home waits. -/
def State.mergeHome (s : State) (la : Nat) (d : Option LineD) : Option State :=
  match d with
  | some d => s.homePut la d
  | none => some s

/-- Every dirty copy of a line written back to its home, every copy left valid and clean (R429). It waits for the hart's own
stores to the line and for a transaction of the line. -/
def State.cleanLine (s : State) (h la : Nat) : State :=
  if s.holdsStore h la || s.lineBusy la then s
  else
    let (d, t) := s.snoopClean (homeDie la) la
    match t.mergeHome la d with
    | some t => if d.isSome then t.setDir la { t.dir la with st := .c } else t
    | none => s

/-- Every dirty copy of a line written back, and every copy invalidated (R429). -/
def State.flushLine (s : State) (h la : Nat) : State :=
  if s.holdsStore h la || s.lineBusy la then s
  else
    let (d, t) := s.snoopInv (homeDie la) la
    match t.mergeHome la d with
    | some t => t.setDir la .none
    | none => s

/-- A store of a hart put into its store buffer, where there is room, and performed as far as it can be (R412). -/
def State.pushStores (s : State) (h : Nat) (es : List StoreEnt) : State :=
  if 32 < (s.stores h).length + es.length then s
  else
    let s := { s with coh := { s.coh with sb := tset s.coh.sb h (s.stores h ++ es) } }
    s.drainStores h 33

/-- Zeros written to an aligned block, as one store of its line. -/
def State.zeroBlock (s : State) (h pa n : Nat) : State := s.pushStores h [⟨pa / n * n, List.replicate n 0⟩]

/-- A synchronous exception of a hart, by its RISC-V cause. -/
def State.trap (s : State) (h cause : Nat) : State := s.send (.trap h cause)

/-- The checks of a cache-management instruction (R423, R430), in order: disabled, it raises the exception of its gate; without its
permission a store page fault or a store access fault; on a non-cacheable address it has no effect, but for one that writes
zeros (`zero`), which raises a store access fault. -/
def State.cacheOp (s : State) (h pa : Nat) (gate : CboGate) (perm : CboPerm) (zero : Bool) (f : State) : State :=
  match gate, perm with
  | .illegal, _ => s.trap h 2
  | .virt, _ => s.trap h 22
  | .on, .page => s.trap h 15
  | .on, .access => s.trap h 7
  | .on, .ok =>
    if !inGddr pa then (if zero then s.trap h 7 else s)
    else if !zero && !s.cacheable pa then s
    else f

/-- A custom-0 word that spells the KX instruction has its effect; every other encoding is reserved and raises an
illegal-instruction exception (R427). -/
def State.kx (s : State) (h : Nat) (w : BitVec 32) (op : KxOp) (f : State) : State := if kxOf w = some op then f else s.trap h 2

/-- KX_EFENCE (R414, R428): the stores of the hart are performed as far as they can be; it retires when none is left and every
aperture write is acknowledged, and until then it waits. -/
def execKxEfence (x : KxFetch) (s : State) : Out := .next (s.kx x.hart x.word .efence (s.drainStores x.hart 33))

/-- KX_LCLEAN (R429). -/
def execKxLclean (x : KxFetch) (pa : Nat) (gate : CboGate) (perm : CboPerm) (s : State) : Out :=
  .next (s.kx x.hart x.word .lclean (s.cacheOp x.hart pa gate perm false (s.cleanLine x.hart (pa / 256))))

/-- KX_LFLUSH (R429). -/
def execKxLflush (x : KxFetch) (pa : Nat) (gate : CboGate) (perm : CboPerm) (s : State) : Out :=
  .next (s.kx x.hart x.word .lflush (s.cacheOp x.hart pa gate perm false (s.flushLine x.hart (pa / 256))))

/-- CBO_CLEAN (R423): on the whole line. -/
def execCboClean (hart pa : Nat) (gate : CboGate) (perm : CboPerm) (s : State) : Out :=
  .next (s.cacheOp hart pa gate perm false (s.cleanLine hart (pa / 256)))

/-- CBO_FLUSH (R423): on the whole line. -/
def execCboFlush (hart pa : Nat) (gate : CboGate) (perm : CboPerm) (s : State) : Out :=
  .next (s.cacheOp hart pa gate perm false (s.flushLine hart (pa / 256)))

/-- CBO_INVAL (R423): it performs CBO.FLUSH, so that no dirty data is discarded. -/
def execCboInval (hart pa : Nat) (gate : CboGate) (perm : CboPerm) (s : State) : Out :=
  .next (s.cacheOp hart pa gate perm false (s.flushLine hart (pa / 256)))

/-- Zeros written by a hart: through the store buffer where the line is cacheable, else at the memory. -/
def State.zeroAs (s : State) (h pa n : Nat) : State :=
  if s.cacheable pa then s.zeroBlock h pa n
  else
    match s.writeAs (.hart h .s true) false false (pa / n * n) (List.replicate n 0) with
    | .done _ t => t
    | .wait => s
    | .refuse _ t => t.trap h 7

/-- KX_LZERO (R429): 256 zero bytes as one write of the line. -/
def execKxLzero (x : KxFetch) (pa : Nat) (gate : CboGate) (perm : CboPerm) (s : State) : Out :=
  .next (s.kx x.hart x.word .lzero (s.cacheOp x.hart pa gate perm true (s.zeroAs x.hart pa 256)))

/-- CBO_ZERO (R423): exactly the 64 bytes of the block. -/
def execCboZero (hart pa : Nat) (gate : CboGate) (perm : CboPerm) (s : State) : Out :=
  .next (s.cacheOp hart pa gate perm true (s.zeroAs hart pa 64))

/-- CORE_EVICTION (R385): a D line leaves with WriteBack and its data, a C, S or F line with CleanEvict. A line with a request
outstanding stays. -/
def execCoreEviction (cd la : Nat) (s : State) : Out :=
  .next (if (s.creq cd la).isSome || 2 ≤ cd then s else s.evictCore cd la)

end Sys2Proof.Machine
end

