-- ==== Sys2Proof/Machine/Flash.lean ====
section
/-! DEFINITION. The SPI NOR flash (R586, R587) and the checks on a firmware bundle (R588, R589). -/

namespace Sys2Proof.Machine

/-! ### Flash bytes -/

/-- `n` bytes of the flash; each is stored as its complement, so that an erased byte reads 0xFF. -/
def State.flashRead (s : State) (off n : Nat) : List Byte := (memRead s.kpr.flash off n).map fun b => ~~~b

/-- Bytes of an erase sector. -/
def sector : Nat := 4096

/-- The first byte of the sectors that a range covers, and the byte after their last. -/
def sectorsOf (off n : Nat) : Nat × Nat := (off / sector * sector, (off + n + sector - 1) / sector * sector)

/-- The sectors that a range covers erased, and the range written. -/
def State.flashWrite (s : State) (off : Nat) (bs : List Byte) : State :=
  let (lo, hi) := sectorsOf off bs.length
  let erased := s.kpr.flash.filter fun e => !(decide (lo ≤ e.1) && decide (e.1 < hi))
  { s with kpr := { s.kpr with flash := memWrite erased off (bs.map fun b => ~~~b) } }

/-! ### The directory (R587) -/

/-- "KXFD". -/
def dirMagic : List Byte := [0x4B, 0x58, 0x46, 0x44]

/-- A directory copy, if it is valid: its SEQ and the active bundle and Trellis slots. -/
def State.dirCopy (s : State) (i : Nat) : Option (Nat × Nat × Nat) :=
  let b := s.flashRead (i * 0x1000) 16
  if b.take 4 = dirMagic ∧ fieldLe b 12 4 = crc32c (b.take 12) then
    some (fieldLe b 4 4, if fieldLe b 8 1 = 1 then 1 else 0, if fieldLe b 9 1 = 1 then 1 else 0)
  else none

/-- The active bundle and Trellis slots: those of the valid copy with the higher SEQ, or A. -/
def State.activeSlots (s : State) : Nat × Nat :=
  match s.dirCopy 0, s.dirCopy 1 with
  | some a, some b => if a.1 < b.1 then b.2 else a.2
  | some a, none => a.2
  | none, some b => b.2
  | none, none => (0, 0)

/-- The directory written with new active slots: over the copy of lower SEQ, or one that is not valid, with SEQ one above the
higher (R604). -/
def State.writeDir (s : State) (fw trl : Nat) : State :=
  let (at_, seq) : Nat × Nat := match s.dirCopy 0, s.dirCopy 1 with
    | some a, some b => if a.1 < b.1 then (0, b.1 + 1) else (1, a.1 + 1)
    | some a, none => (1, a.1 + 1)
    | none, some b => (0, b.1 + 1)
    | none, none => (0, 1)
  let body := dirMagic ++ leBytes 4 seq ++ leBytes 1 fw ++ leBytes 1 trl ++ leBytes 2 0
  s.flashWrite (at_ * 0x1000) (body ++ leBytes 4 (crc32c body))

/-- Where a bundle slot and a Trellis slot begin (Table 17-4). -/
def bundleSlot (n : Nat) : Nat := 0x10_0000 + n * 0x40_0000
/-- Where a Trellis slot begins. -/
def trellisSlot (n : Nat) : Nat := 0x90_0000 + n * 0x20_0000
/-- Where the region free to firmware begins. -/
def freeRegion : Nat := 0xD0_0000

/-! ### Bundles (Table 17-5, R589) -/

/-- A component: type, offset, length and load address. -/
structure Comp where
  typ  : Nat
  off  : Nat
  len  : Nat
  load : Nat
  deriving DecidableEq, Repr

/-- The component table: the entries that COUNT names. -/
def comps (b : List Byte) : List Comp :=
  (List.range (fieldLe b 11 1)).map fun i =>
    let o := 136 + 24 * i
    ⟨fieldLe b o 1, fieldLe b (o + 4) 4, fieldLe b (o + 8) 4, fieldLe b (o + 16) 8⟩

/-- The first component of a type. -/
def compOf (b : List Byte) (typ : Nat) : Option Comp := (comps b).find? fun c => c.typ == typ

/-- Bytes of a component. -/
def Comp.bytes (c : Comp) (b : List Byte) : List Byte := slice b c.off c.len

/-- LENGTH of a bundle. -/
def bundleLen (b : List Byte) : Nat := fieldLe b 12 4

/-- What a bundle's configuration holds. -/
def bundleCfg (b : List Byte) : FwConfig := Config.firmware (((compOf b 4).map fun c => c.bytes b).getD [])

/-- The system plots of a configuration: its list, or plot 0 of the dies given. -/
def systemPlots (c : FwConfig) (dies : List Nat) : List (Nat × Nat) := if c.plots.isEmpty then dies.map fun d => (d, 0) else c.plots

/-- Whether two ranges share a byte. -/
def rangesMeet (a n b m : Nat) : Bool := decide (a < b + m) && decide (b < a + n)

/-- Whether each pair of a list satisfies a relation. -/
def allPairs {α : Type} (r : α → α → Bool) : List α → Bool
  | [] => true
  | x :: xs => xs.all (r x) && allPairs r xs

/-- Whether a range of the physical map lies in the system plots of a list: each of its 1 GiB pieces does. -/
def inPlots (plots : List (Nat × Nat)) (a n : Nat) : Bool :=
  decide (a + n ≤ 2 ^ 37) && (List.range ((a + n + 2 ^ 30 - 1) / 2 ^ 30 - a / 2 ^ 30)).all fun i =>
    let k := a / 2 ^ 30 + i
    plots.contains (k / 16, k % 16)

/-- Whether the component table is consistent (R588, R589). -/
def compsOk (b : List Byte) (plots : List (Nat × Nat)) : Bool :=
  let n := fieldLe b 11 1
  let cs := comps b
  let loads := cs.filter fun c => c.typ == 3 || c.typ == 5
  decide (4 ≤ n) && decide (n ≤ 8)
    && ((slice b (136 + 24 * n) (192 - 24 * n)).all (· == 0))
    && ([1, 2, 3, 4].all fun t => (cs.filter fun c => c.typ == t).length == 1)
    && decide ((cs.filter fun c => c.typ == 5).length ≤ 4)
    && (cs.all fun c => decide (1 ≤ c.typ) && decide (c.typ ≤ 5) && decide (512 ≤ c.off) && decide (c.off + c.len ≤ bundleLen b))
    && allPairs (fun x y : Comp => !rangesMeet x.off x.len y.off y.len) cs
    && (loads.all fun c => inPlots plots c.load c.len)
    && allPairs (fun x y : Comp => !rangesMeet x.load x.len y.load y.len) loads

/-- Whether the boot ROM accepts a bundle (R589). -/
def bundleOk (f : Fuses) (b : List Byte) : Bool :=
  let n := bundleLen b
  let key := fieldLe b 10 1
  let pub := slice b 32 97
  b.take 4 == [0x4B, 0x58, 0x46, 0x57] && fieldLe b 16 4 == 8640 && decide (512 ≤ n) && decide (n ≤ 4194304) && decide (n ≤ b.length)
    && decide (key < 2) && Config.sha384 pub == Config.romKeyHash key && !f.romRev.testBit key
    && Config.ecdsaVerify pub (b.take 392) (slice b 392 96)
    && Config.sha384 (slice b 512 (n - 512)) == slice b 344 48
    && decide (f.svn ≤ fieldLe b 8 2) && decide (1 ≤ fieldLe b 8 2) && decide (fieldLe b 8 2 ≤ 64)
    && compsOk b (systemPlots (bundleCfg b) (List.range 8))

/-- The bundle in a slot, as many bytes as its header names. -/
def State.slotBundle (s : State) (n : Nat) : List Byte :=
  let h := s.flashRead (bundleSlot n) 512
  if bundleLen h ≤ 512 ∨ 4194304 < bundleLen h then h else h ++ s.flashRead (bundleSlot n + 512) (bundleLen h - 512)

/-- The Trellis image in a slot, as many bytes as its header names. -/
def State.slotTrellis (s : State) (n : Nat) : List Byte :=
  let h := s.flashRead (trellisSlot n) 256
  if imgLen h ≤ 256 ∨ 2097152 < imgLen h then h else h ++ s.flashRead (trellisSlot n + 256) (imgLen h - 256)

end Sys2Proof.Machine
end

