-- ==== Sys2Proof/Machine/Reset.lean ====
section
/-! DEFINITION. Reset domains (17.1): cold reset, the warm reset of Table 17-2, die reset, and their requests. -/

namespace Sys2Proof.Machine

/-! ### Cold reset (R577 to R579) -/

/-- Whether a shut-down device is still too hot to leave the shutdown (R568). -/
def State.hotShut (s : State) : Bool := s.pwr.shut && decide (s.rd F.pwrTherm_THROTTLE 0 0 ≤ s.rd F.pwrTherm_MAXT 0 0)

/-- The registers of the temperatures. -/
def heatReg (r : Reg) : Bool := r == .pwrDie || r == .pwrTherm

/-- The shutdown brake and the temperatures behind it kept through a cold reset that cannot yet end it (R568). -/
def State.keepShut (t s : State) : State :=
  let hot := s.regs.filter fun e => heatReg e.1.r
  let cold := t.regs.filter fun e => !heatReg e.1.r
  if s.hotShut then
    { t with
      regs := hot ++ cold
      pwr := { t.pwr with shut := true } }.hwBrakes
  else t

/-- The state while cold reset holds: every unit, store and register field reset; fuses, flash and what the board drives stay. -/
def State.coldState (s : State) (cause : Nat) (hold : Option Nat) : State :=
  { State.reset with
    pending := s.pending
    freeCtr := s.freeCtr
    out := s.out
    regs := fuseRegs s.sys.fuses s.sys.straps
    kpr := { State.reset.kpr with flash := s.kpr.flash, size := s.kpr.size }
    sys := { s.sys with
      smbOwn := false, coldHold := hold, coldAt := none, phase := .inReset, cause := cause, warmReq := none
      warmHeld := false, warmOn := false, dieReq := [], lost := false } }.keepShut s

/-- MTIME ticks of the 1 ms for which a requested cold reset holds (R579). -/
def coldTicks : Nat := 100000

/-- A cold reset requested by register, request or SBI. -/
def State.coldRequest (s : State) (cause : Nat) : State := s.coldState cause (some coldTicks)

/-- Whether a condition of cold reset holds. -/
def State.heldCold (s : State) : Bool := !s.sys.resetN || !s.sys.pwrGood || !s.sys.vauxOk || s.sys.coldHold.isSome || s.hotShut

/-- The end of a cold reset, when its last condition has cleared: the straps are sampled. -/
def State.coldEnd (s : State) : State :=
  if s.sys.phase = .inReset && !s.heldCold then
    { s with
      regs := fuseRegs s.sys.fuses s.sys.straps, pwr := State.reset.pwr, sys := { s.sys with phase := .booting } }
  else s

/-- SYS_RESET_N (R579): low holds cold reset; it ends when this and every other condition has cleared. -/
def execSysResetN (level : Bool) (s : State) : Out :=
  if level then .next { s with sys := { s.sys with resetN := true } }.coldEnd
  else
    let t := s.coldState 1 s.sys.coldHold
    .next { t with sys := { t.sys with resetN := false } }

/-- Ticks from the fall of PWR_GOOD to cold reset: 10 µs (R630). -/
def pwrTicks : Nat := 1000

/-- PWR_GOOD_FALL (R630): device loss by cause 5, and cold reset 10 µs later. -/
def execPwrGoodFall (s : State) : Out :=
  let t := { s with sys := { s.sys with pwrGood := false } }
  if s.sys.phase = .inReset then .next t
  else
    let t := t.deviceLoss 5 0
    .next { t with sys := { t.sys with coldAt := some (s.mtime + pwrTicks) } }

/-- VAUX_OUT_OF_RANGE (R622, R577): device loss by cause 5, and cold reset at once. -/
def execVauxOutOfRange (s : State) : Out :=
  let t := (s.deviceLoss 5 0).coldState 1 s.sys.coldHold
  .next { t with sys := { t.sys with vauxOk := false } }

/-- What the clock does to a cold reset: PWR_GOOD's fall leads to it after 10 µs, and a requested one ends after 1 ms. -/
def State.coldTick (s : State) : State :=
  match s.sys.coldAt with
  | some t => if t ≤ s.mtime then s.coldState 1 none else s
  | none =>
    match s.sys.coldHold with
    | some t => if t ≤ s.mtime then { s with sys := { s.sys with coldHold := none } }.coldEnd else s
    | none => s

/-! ### Requests (R577, R578, Table 17-17) -/

/-- A warm reset requested, by its cause; it waits for its sequence, and absorbs a second request. -/
def State.warmRequest (s : State) (cause : Nat) : State :=
  if s.sys.warmReq.isSome then s else { s with sys := { s.sys with warmReq := some cause } }

/-- A die reset requested; one for a die that waits for its reset merges with it, and a warm reset absorbs it. -/
def State.dieRequest (s : State) (die : Nat) : State :=
  if s.sys.warmReq.isSome || s.sys.dieReq.contains die then s
  else { s with sys := { s.sys with dieReq := s.sys.dieReq ++ [die] } }

/-- Die numbers that a die reset may name (R584). -/
def resetsDie (die : Nat) : Bool := decide (die ≤ 9)

/-- A write of KPR_RESET (R607): with more than one bit set it changes nothing. -/
def State.kprResetWrite (s : State) (a : Actor) (v : BitVec 64) : State :=
  if !machineActor a then s.refuse
  else
    match v.toNat % 16 with
    | 1 => s.coldRequest 2
    | 2 => s.warmRequest 4
    | 4 =>
      let die := natField v.toNat 11 8
      if resetsDie die then s.dieRequest die else s.send (.status St.invalidOp)
    | 8 => s.keeperReset
    | _ => s

/-- KPR_RESET_COLD (R577). -/
def execKprResetCold (a : Actor) (v : BitVec 64) (s : State) : Out := .next (s.kprResetWrite a (v ||| 1))

/-- KPR_RESET_WARM (R577). -/
def execKprResetWarm (a : Actor) (v : BitVec 64) (s : State) : Out := .next (s.kprResetWrite a (v ||| 2))

/-- KPR_RESET_DIE (R577). -/
def execKprResetDie (a : Actor) (v : BitVec 64) (s : State) : Out := .next (s.kprResetWrite a (v ||| 4))

/-- KPR_RESET_KEEPER (R577). -/
def execKprResetKeeper (a : Actor) (v : BitVec 64) (s : State) : Out := .next (s.kprResetWrite a (v ||| 8))

/-- SRST_WARM_REBOOT (R436): a warm reset through the Keeper. -/
def execSrstWarmReboot (_hart : Nat) (s : State) : Out := .next (s.warmRequest 5)

/-- SRST_COLD_REBOOT (R436): a cold reset through the Keeper, which must run. -/
def execSrstColdReboot (_hart : Nat) (s : State) : Out := .next (if s.keeperUp then s.coldRequest 5 else s)

/-- WARM_RESET_N_FALL (R577, R624): ignored until the boot is complete. -/
def execWarmResetNFall (s : State) : Out :=
  let t := { s with sys := { s.sys with warmN := false } }
  .next (if s.rd F.kprBoot_STEP 0 0 = 9 ∧ s.sys.warmN then t.warmRequest 3 else t)

/-! ### The harts (R592) -/

/-- The harts of a core die. -/
def hartsOf (cd : Nat) : List Nat := (List.range 48).map fun c => 48 * cd + c

/-- A hart set. -/
def State.setHart (s : State) (h : Nat) (x : HartSt) : State := { s with hub := { s.hub with harts := tset s.hub.harts h x } }

/-- The harts of a core die stopped: what they had on its way through the aperture is given up. -/
def State.stopHarts (s : State) (cd : Nat) : State :=
  let mine := fun (r : OutReq) => match r.asker with
    | .hart h _ => coreDie h == cd
    | _ => false
  let s := (hartsOf cd).foldl (fun s h => s.setHart h ⟨false, 0, 0, 0⟩) s
  { s with lnk := { s.lnk with outst := s.lnk.outst.filter fun r => !mine r } }

/-- Where the copy of the configuration lies: the first 4 KiB boundary after the core firmware. -/
def cfgAddr (b : List Byte) : Nat :=
  match compOf b 3 with
  | some c => (c.load + c.len + 4095) / 4096 * 4096
  | none => 0

/-- The harts of a core die whose bring-up succeeded start in machine mode at ENTRY. -/
def State.startHarts (s : State) (cd : Nat) : State :=
  let b := s.kpr.bundle
  if s.rd F.ldgStatus_STATE (8 + cd) 0 ≠ 2 then s
  else (hartsOf cd).foldl (fun s h => s.setHart h ⟨true, fieldLe b 336 8, h, cfgAddr b⟩) s

/-- System plots given to the system: a plot that changes its owner is filled with zeros. -/
def State.setPlots (s : State) : State :=
  let dies := (List.range 8).filter fun d => !s.flag F.gdrStatus_ABSENT d 0
  (systemPlots s.kpr.cfg dies).foldl (fun s (d, i) =>
    if s.rd F.gdrPlot_OWNER d i = 0xFE ∨ s.rd F.gdrCap_USABLE d 0 ≤ i * 2 ^ 30 then s
    else
      let a := d * 2 ^ 34 + i * 2 ^ 30
      (s.zeroRange a (a + 2 ^ 30)).wr F.gdrPlot_OWNER d i 0xFE) s

/-- The core firmware and additional images of the running bundle copied to their places where memory differs, and the copy of
the configuration after them. -/
def State.loadCores (s : State) : State :=
  let b := s.kpr.bundle
  let put := fun (s : State) (a : Nat) (bs : List Byte) =>
    if s.load a bs.length = bs && (List.range bs.length).all fun i => !s.unreadable (a + i) then s
    else (linePieces a bs.length).foldl (fun s e =>
      let d := (bs.drop (e.1 - a)).take e.2
      if inGddr e.1 then s.gddrWrite (e.1 / 256) (e.1 % 256) d else s.store e.1 d) s
  let s := ((comps b).filter fun c => c.typ == 3 || c.typ == 5).foldl (fun s c => put s c.load (c.bytes b)) s
  match compOf b 4 with
  | some c => put s (cfgAddr b) (c.bytes b)
  | none => s

/-! ### Warm reset (R580, Table 17-2) -/

/-- Pavilions with beds. -/
def State.assigned (s : State) : List Nat := (List.range 64).filter fun p => s.pavState p != 0

/-- Step 1: every running pavilion fenced with the aborted status. -/
def State.warmFence (s : State) : State :=
  s.assigned.foldl (fun s p => if s.pavState p = 1 ∨ s.pavState p = 2 then s.fence p St.aborted else s) s

/-- Step 1: the record of a request in progress, with the aborted status, and those of the MOVEs that the reset discards (R313);
`none` while a write waits. -/
def State.warmRecord (s : State) (p : Nat) : Option State :=
  (match (s.pav p).req with
    | none => some s
    | some r => s.writeRecord p r St.aborted (s.lastWord p)).bind fun s => s.discardMoves p

/-- Step 1: the records of every pavilion. -/
def State.warmRecords (s : State) : Option State :=
  s.assigned.foldl (fun acc p => acc.bind fun s => s.warmRecord p) (some s)

/-- Step 1: every session bound to a queue pair closed. -/
def State.closeBound (s : State) : State :=
  let ks := (s.assigned.flatMap fun p => ((List.range 16).filter fun q => s.qpState p q == 3).map fun q =>
    tget (s.pav p).sessions q 0).eraseDups
  ks.foldl (fun s k => (s.kmtPost k ⟨0x10, 0, 0, 0, 0, 0, 0, []⟩).loseSession k) s

/-- Data that a core die still held put at its home, or into GDDR7 where its home cannot take it. -/
def State.putHome (s : State) (la : Nat) (d : LineD) : State := (s.homePut la d).getD (s.gddrPut la d)

/-- Dirty data on its way to a home. -/
def CMsg.homeData : CMsg → Option (Nat × LineD)
  | .req .writeBack _ la (some d) => some (la, d)
  | .data .home la d => some (la, d)
  | _ => none

/-- Step 2: core caches written back and invalidated, with the stores that the harts had retired; nothing is on its way
after it. -/
def State.flushCores (s : State) : State :=
  let s := (s.coh.msgs.filterMap CMsg.homeData).foldl (fun s e => s.putHome e.1 e.2) s
  let s := (s.coh.lines.filter fun e => e.2.st == .d).foldl (fun s e => (s.givenErrs e.1.2 e.2).putHome e.1.2 e.2.given) s
  let sb := s.coh.sb.flatMap (·.2)
  let s := { s with coh := { s.coh with
    lines := [], reqs := [], msgs := [], txns := [], sb := [], resv := [], ends := []
    l1i := [], l1d := [], l2 := [] } }
  sb.foldl (fun s e =>
    (s.partWrite (homeDie (e.pa / 256)) sharedOwner (e.pa / 256) (e.pa % 256) e.data (some 1)).getD
      (s.gddrWrite (e.pa / 256) (e.pa % 256) e.data)) s

/-- Step 3: dirty lines of the dies that ask for it written back, poison as poison (R329). -/
def State.warmWriteBack (s : State) : State :=
  s.org.lines.foldl (fun s e => if s.flag F.orgCtl_WB_ON_WARM e.1.1 0 then s.writeBackLine e.1.1 e.2 else s) s

/-- The directories home-ordered. -/
def State.homeOrdered (s : State) : State :=
  (List.range 8).foldl (fun s d => ((s.wr F.cohStatus_MODE d 0 0).wr F.cohStatus_DRAIN d 0 0).wr F.cohStatus_CAUSE d 0 0) s

/-- Commands of the invalidation queue completed in order. -/
def State.invDrain (s : State) : (fuel : Nat) → State
  | 0 => s
  | n + 1 => s.invComplete.invDrain n

/-- Step 4: tags invalidated, the directories empty and home-ordered, every translation dropped with the queued commands
complete, stile counts 0. -/
def State.warmClear (s : State) : State :=
  let s := { s with org := { s.org with lines := [], pfq := [] } }.homeOrdered
  let s := (s.dropTag none).invDrain (s.smmu.invq.length + s.smmu.waiting.length)
  { s with regs := s.regs.map fun e =>
    if e.1.r = .stlState then (e.1, putBits e.2 F.stlState_COUNT.hi F.stlState_COUNT.lo 0) else e }

/-- Registers of a pavilion page that warm reset returns to their reset values (R463); the Trellis sets PAV_QUOTA. -/
def pageRegs : List Reg :=
  [.pavStatus, .pavCtl, .pavFence, .pavFenceInfo, .pavSundial, .pavProgBase, .pavProgLen, .pavProgCommit, .pavMovelog,
    .pavMovelogHead, .pavEvtStat, .pavQpCommit, .pavQpSq, .pavQpCq, .pavQpState, .pavQpToken0, .pavQpToken1, .pavEvec,
    .pavEroute, .pavSqTail, .pavCqHead]

/-- Registers without ST fields that clear whole at warm reset: counters, and the Waystation entries and region table, which
take their Trellis values after it. -/
def warmRegs : List Reg :=
  pageRegs ++ contextRegs ++ [.telCoal, .cohCnt, .seStall, .sePoison, .orgPf, .orgAtomic, .wsCnt, .lpLinkcnt, .lpGatecnt, .telLog, .telTrace, .wsEntry0,
    .wsEntry1, .wsEntry2, .wsEntry3, .orgRgnBase, .orgRgnSize, .orgRgnAttr]

/-- Counter fields that clear at warm reset, with the indexes of their registers. -/
def warmFields : List (Fld × List (Nat × Nat)) :=
  let r := fun (n : Nat) => (List.range n).map fun i => (i, 0)
  [(F.gdrTrain_DEFERRED, r 8), (F.gdrTrain_DONE, r 8), (F.gdrScrub_PASSES, r 8), (F.pwrDie_DROOPS, r 11),
    (F.pwrCal_BT_DEFERRED, [(0, 0)]), (F.pwrCal_LINK_DEFERRED, [(0, 0)]), (F.telAlq_COALESCED, [(0, 0)]),
    (F.telRingHead_OVERRUN, [(0, 0)]), (F.telRecov_HANGS, [(0, 0)]), (F.trlAgreeCtl_UNKNOWN, [(0, 0)]),
    (F.lpQuar_REFUSED, r 17), (F.lpQuar_HSFAIL, r 17), (F.lpQuar_MULTI, r 17), (F.lpFec_CORR, r 17), (F.lpFec_UNCORR, r 17)]
  ++ [F.ldgD2d_RETRIES, F.ldgD2d_FAILOVERS].map (fun f => (f, (List.range 11).flatMap fun d => (List.range 11).map fun n => (d, n)))
  ++ [F.trlAgree_MISMATCH, F.trlAgree_STATE].map (fun f => (f, (List.range 16).flatMap fun n => (List.range 8).map fun i => (n, i)))

/-- Counters, pavilion pages, Waystation entries and regions at their reset values; agreement entries UNAGREED (R581). -/
def State.warmRegisters (s : State) : State :=
  let s := { s with
    regs := s.regs.filter fun e => !warmRegs.contains e.1.r
    shadows := s.shadows.filter fun e => !warmRegs.contains e.1.r
    ws := { s.ws with trellis := [] }
    tel := { s.tel with coal := [] } }
  warmFields.foldl (fun s e => e.2.foldl (fun s k => if (tfind s.regs ⟨e.1.r, k.1, k.2⟩).isSome then s.wr e.1 k.1 k.2 0 else s) s) s

/-- Way-groups whose mode or owner differs from an earlier state. -/
def State.waysChanged (s old : State) : List (Nat × Nat) :=
  ((List.range 8).flatMap fun d => (List.range 16).map fun w => (d, w)).filter fun e =>
    s.reg .orgWaymap e.1 e.2 != old.reg .orgWaymap e.1 e.2

/-- Way-groups filled with zeros. -/
def State.zeroWays (s : State) (ws : List (Nat × Nat)) : State :=
  ws.foldl (fun s (d, w) =>
    let a := scratchBase + d * 2 ^ 32 + w * 0xF000000
    s.zeroRange a (a + 0xF000000)) s

/-- The snapshot regions cleared, so that no replay crosses a warm reset (R330). -/
def State.clearSnapshots (s : State) : State :=
  (List.range 8).foldl (fun s d =>
    let a := scratchBase + d * 2 ^ 32 + 0xEF00_0000
    s.zeroRange a (a + 2 ^ 24)) s

/-- Units of the pavilions as a pavilion reset leaves them, with no request, snapshot, program or session (R330, R463). -/
def State.warmPavs (s : State) : State :=
  let s := s.assigned.foldl State.clearPav s
  { s with
    slices := []
    pavs := s.pavs.map fun e => (e.1, { PavSt.init with agdCap := e.2.agdCap }) }

/-- Step 6: every assigned pavilion is FENCED with CLEAN 1 (Table 13-2). -/
def State.warmStates (s : State) : State :=
  (List.range 64).foldl (fun s p =>
    if (s.beds p).isEmpty then s
    else ((s.setPavState p 3).wr F.pavStatus_CLEAN p 0 1).layUnavailable p) s

/-- Step 7: the core firmware is checked and the harts start; the reset is over. -/
def State.warmEnd (s : State) : State :=
  let s := { s with sys := { s.sys with warmReq := none, warmHeld := false } }
  [0, 1].foldl State.startHarts s.setPlots.loadCores

/-- Steps 2 to 6 of a warm reset, once the pavilions are drained and their records are written. -/
def State.warmSteps (s : State) : State :=
  let s := (([0, 1].foldl State.stopHarts s.closeBound).flushCores).warmWriteBack
  let t := (s.warmPavs.warmClear.warmRegisters).warmCommit
  let t := (t.zeroWays (t.waysChanged s)).clearSnapshots.warmStates.digestDue
  let t := { t with sys := { t.sys with dieReq := [], warmOn := false } }
  t.wr F.kprBoot_RCAUSE 0 0 (s.sys.warmReq.getD 0)

/-- WARM_RESET_SEQUENCE (R580, R581): the steps of Table 17-2, in one event once step 1 has drained the pavilions. Step 7 is
held while WARM_RESET_N is low; the request waits while the Keeper does not run (R534). -/
def execWarmResetSequence (s : State) : Out :=
  if s.sys.warmReq.isNone || s.sys.warmHeld || !s.keeperUp || s.sys.phase != .running || s.sys.lost then .next s
  else
    let f := { s.warmFence with sys := { s.warmFence.sys with warmOn := true } }
    if !f.assigned.all f.drainedPav then .next f
    else
      match f.warmRecords with
      | none => .next f
      | some t =>
        let t := t.warmSteps
        .next (if t.sys.warmN then t.warmEnd else { t with sys := { t.sys with warmHeld := true } })

/-- WARM_RESET_N_RISE (R581): a warm reset that waited for the pin at the end of step 6 goes on. -/
def execWarmResetNRise (s : State) : Out :=
  let t := { s with sys := { s.sys with warmN := true } }
  .next (if s.sys.warmHeld then t.warmEnd else t)

/-! ### Die reset (R583, R584) -/

/-- The state of a Lodge's die. -/
def State.setDie (s : State) (die st : Nat) : State := s.wr F.ldgStatus_STATE die 0 st

/-- The die-to-die ports of a die trained again, at both ends. -/
def State.retrainPorts (s : State) (die : Nat) : State :=
  (List.range (diePeers die).length).foldl (fun s n =>
    ((die, n) :: (farEnd die n).toList).foldl (fun s e => (s.setD2d e.1 e.2 .init).setD2dState e.1 e.2 1 32) s) s

/-- The reset of a tensor die (R583). -/
def State.resetTensorDie (s : State) (die : Nat) : State :=
  let s := (s.org.lines.filter fun e => e.1.1 == die).foldl (fun s e => s.writeBackLine die e.2) s
  let s := ((List.range 8).map fun i => 8 * die + i).foldl State.bedReset s
  let s := { s with
    slices := s.slices.filter fun e => e.1.2 != die
    coh := { s.coh with resv := s.coh.resv.filter fun e => homeDie (e.2 / 256) != die }
    org := { s.org with lines := s.org.lines.filter (fun e => e.1.1 != die), pfq := terase s.org.pfq die } }
  (s.retrainPorts die).queryDies die 1 none

/-- A line that a core die held dirty and has lost: poisoned at its home, counted, with an alarm (R396). -/
def State.loseLine (s : State) (la : Nat) : State :=
  let d : LineD := ⟨List.replicate 256 0, allWords⟩
  let s := match s.homeLine la with
    | some (w, x) => s.setPline (homeDie la) w (la % partSets) { x with data := { x.data with bad := allWords }, dirty := true }
    | none => s.gddrPut la { d with bytes := s.load (la * 256) 256 }
  (s.bump F.cohLost_LINES (homeDie la) 0 1).alarm (homeDie la) 0x02 (FaultReport.blank St.dataFault 1 0x0C (homeDie la) 0xFE)

/-- Every entry without the presence of a core die. -/
def State.sweep (s : State) (cd : Nat) : State :=
  { s with org := { s.org with lines := s.org.lines.map fun e => (e.1, { e.2 with dir := e.2.dir.put cd false }) } }

/-- The reset of a core die (R584, R396). -/
def State.resetCoreDie (s : State) (cd : Nat) (answers : Bool) : State :=
  let s := s.stopHarts cd
  let late := s.coh.msgs.filterMap fun m => match m with
    | .req .writeBack c la (some d) => if c = cd then some (la, d) else none
    | _ => none
  let dirty := (s.coh.lines.filter fun e => e.1.1 == cd && e.2.st == .d).map fun e => (e.1.2, e.2.given)
  let s := late.foldl (fun s e => s.putHome e.1 e.2) s
  let s := dirty.foldl (fun s e => if answers then s.putHome e.1 e.2 else s.loseLine e.1) s
  let mine := fun (m : CMsg) => match m with
    | .req _ c _ _ => c == cd
    | .query _ _ _ => false
    | _ => false
  let s := { s with
    coh := { s.coh with
      lines := s.coh.lines.filter fun e => e.1.1 != cd
      l1i := s.coh.l1i.filter fun e => coreDie e.1.1 != cd
      l1d := s.coh.l1d.filter fun e => coreDie e.1.1 != cd
      l2 := s.coh.l2.filter fun e => coreDie e.1.1 != cd
      reqs := s.coh.reqs.filter fun e => e.1.1 != cd
      msgs := s.coh.msgs.filter fun m => !mine m
      sb := s.coh.sb.filter fun e => coreDie e.1 != cd
      resv := s.coh.resv.filter fun e => coreDie e.1 != cd }
    imsic := s.imsic.filter fun e => coreDie e.1 != cd
    hub := { s.hub with
      timer := s.hub.timer.filter fun e => coreDie e.1 != cd
      cmp := s.hub.cmp.filter fun e => coreDie e.1.1 != cd || e.1.2 == TimerSel.mtimecmp } }
  (s.sweep cd).startHarts cd

/-- Whether a die reset would cut a coherence transaction. -/
def State.dieCut (s : State) (die : Nat) : Bool := s.coh.txns.any fun t => 8 ≤ die || homeDie t.la == die

/-- DIE_RESET (R583, R584): a requested die reset. The pavilions of a tensor die are fenced first, and stay so until a pavilion
reset (R34); the reset waits for the coherence transactions that it would cut, and for a Keeper that runs. -/
def execDieReset (die : Nat) (answers : Bool) (s : State) : Out :=
  if !s.sys.dieReq.contains die || !s.keeperUp || !resetsDie die || s.sys.warmReq.isSome then .next s
  else
    let f := if die < 8 then (s.diePavilions die).foldl (fun s p => (s.fence p St.dieReset).needReset p) s else s
    if s.dieCut die then .next s
    else
      let t := { f with sys := { f.sys with dieReq := f.sys.dieReq.erase die } }
      .next (if die < 8 then t.resetTensorDie die else t.resetCoreDie (die - 8) answers)

end Sys2Proof.Machine
end

