-- ==== Sys2Proof/Machine/Boot.lean ====
section
/-! DEFINITION. Cold boot (R590 to R592) and recovery over the UART (R593). -/

namespace Sys2Proof.Machine

/-! ### The UART and the boot status (R606, Table 17-16) -/

/-- A line of the UART with the step number and KPR_BOOT. -/
def State.bootLine (s : State) : State :=
  s.send (.uart (leBytes 1 (s.rd F.kprBoot_STEP 0 0) ++ leBytes 8 (s.reg .kprBoot 0 0).toNat))

/-- A boot step begins. -/
def State.bootStep (s : State) (n : Nat) : State := (s.wr F.kprBoot_STEP 0 0 n).bootLine

/-- Boot stops with a cause. -/
def State.bootStop (s : State) (cause : Nat) : State :=
  let s := (s.wr F.kprBoot_CAUSE 0 0 cause).bootLine
  { s with sys := { s.sys with phase := .stopped } }

/-- Whether boot has stopped. -/
def State.bootStopped (s : State) : Bool := s.sys.phase == .stopped

/-- The next step, unless boot has stopped. -/
def State.bootThen (s : State) (f : State → State) : State := if s.bootStopped then s else f s

/-! ### Step 1: self-test, fuses, straps, references -/

/-- The set points of the rails after power-up, in mV (Table 16-1, R575). -/
def bootRail (f : Fuses) (k : Nat) : Nat :=
  if k < 8 then 550 + 5 * f.vbootA
  else if k = 8 then 650 + 5 * f.vbootL
  else if k = 9 then 750 + 5 * f.vddm
  else if k = 10 then 750
  else if k = 13 then 1800
  else 1200

/-- Rails at their set points; the regulators of rails 0 to 8 take theirs over AVSBus (R547). -/
def State.bootRails (s : State) : State :=
  (List.range 14).foldl (fun s k =>
    let v := bootRail s.sys.fuses k
    let s := s.wr F.pwrRail_SETPT k 0 v
    if k ≤ 8 then s.send (.setPoint k v) else s) s

/-- Whether a strap holds a reserved value (Table 17-3). -/
def strapReserved (t : Straps) : Bool := decide (3 ≤ t.bootMode) || decide (5 ≤ t.rate)

/-- Step 1. -/
def State.bootOne (s : State) (b : BootInputs) : State :=
  let s := (s.bootRails.wr F.kprDbgNonce_NONCE 0 0 b.nonce.toNat).bootStep 1
  let s := if b.selftest then s else s.checkerFault
  if strapReserved s.sys.straps then s.bootStop 3
  else
    let s := { s with sys := { s.sys with r156 := b.ref156, r100 := b.ref100 } }
    let s := s.wr F.kprBoot_REFFAIL 0 0 (boolNat (!b.ref156) + 2 * boolNat (!b.ref100))
    if b.ref156 && b.ref100 then s else s.bootStop 4

/-! ### Steps 2 and 3: the bundle, the identity, the management port -/

/-- The certificates of the identity region: DER sequences one after another. -/
def derChain : (fuel : Nat) → List Byte → List Byte
  | 0, _ => []
  | n + 1, bs =>
    if byteAt bs 0 = 0x30 ∧ byteAt bs 1 = 0x82 then
      let k := 4 + beNat (slice bs 2 2)
      if k ≤ bs.length then bs.take k ++ derChain n (bs.drop k) else []
    else []

/-- The identity key (R594). -/
def identityKey (f : Fuses) : List Byte :=
  Config.deriveKey (Config.hkdf f.secret [] (asciiBytes "KX-ID-1") 56)

/-- The identity chain, if its leaf certifies the derived key; else an empty chain (R594). -/
def State.identityChain (s : State) (key : List Byte) : List Byte :=
  let c := derChain 16 (s.flashRead 0x10000 0x10000)
  if Config.chainKey c = Config.publicKey key then c else []

/-- Bundle slots in the order in which boot tries them. -/
def State.slotOrder (s : State) : List Nat :=
  let first := if s.sys.straps.bootMode = 1 then 1 else s.activeSlots.1
  [first, 1 - first]

/-- A verified bundle put in force: its configuration, the identity, and the management port, which answers from here on. -/
def State.adopt (s : State) (slot : Nat) (b : List Byte) : State :=
  let c := bundleCfg b
  let s := { s with
    kpr := { s.kpr with bundle := b, cfg := c }
    trl := { s.trl with keys := c.keys }
    lnk := { s.lnk with anchors := c.anchors, revoked := c.revoked } }
  let loaded := ((List.range 4).map fun i => if (c.keys.getD i []).isEmpty then 0 else 2 ^ i).sum
  let s := s.wr F.trlKeys_LOADED 0 0 loaded
  let s := ((s.wr F.kprFw_VERSION 0 0 (fieldLe b 4 4)).wr F.kprFw_SVN 0 0 (fieldLe b 8 2)).wr F.kprFw_SLOT 0 0 slot
  let s := s.wr F.lpIpv4_ADDR 16 0 c.ipv4
  (s.wr F.lpIpv6Hi_ADDR 16 0 (c.ipv6 / 2 ^ 64)).wr F.lpIpv6Lo_ADDR 16 0 (c.ipv6 % 2 ^ 64)

/-- The identity key and chain derived. -/
def State.identify (s : State) : State :=
  let key := identityKey s.sys.fuses
  { s with lnk := { s.lnk with idKey := key, idChain := s.identityChain key } }

/-- Steps 2 and 3. With both slots bad boot stops, and only SPDM is answered (Table 17-7). -/
def State.bootTwo (s : State) : State :=
  let s := (s.bootStep 2).bootStep 3
  let s := s.identify
  match s.slotOrder.find? fun n => bundleOk s.sys.fuses (s.slotBundle n) with
  | none => s.bootStop 1
  | some n => (s.adopt n (s.slotBundle n)).wr F.lpStatus_STATE 16 0 3

/-! ### Step 4: Lodges and die-to-die ports -/

/-- The Lodges run, and each die-to-die port is trained, or down. -/
def State.bootDies (s : State) (b : BootInputs) : State :=
  let s := (List.range 11).foldl (fun s d =>
    if b.dieLost.contains d then s.wr F.ldgStatus_STATE d 0 4
    else ((s.wr F.ldgStatus_STATE d 0 2).wr F.ldgStatus_LBUS d 0 (boolNat (decide (d < 10)))).wr F.ldgFw_VERSION d 0
      (fieldLe s.kpr.bundle 4 4)) s
  (List.range 11).foldl (fun s d =>
    (diePeers d).zipIdx.foldl (fun s (e, n) =>
      let far := ((farEnd d n).toList).any b.d2dFail.contains
      let down := b.d2dFail.contains (d, n) || far || b.dieLost.contains d || b.dieLost.contains e
      (s.setD2dState d n (if down then 3 else 1) (if down then 0 else 32)).wr F.ldgD2d_PEER d n e) s) s

/-- Step 4: a die that nothing reaches is device loss. -/
def State.bootThree (s : State) (b : BootInputs) : State :=
  let s := (s.bootStep 4).bootDies b
  match b.dieLost.find? fun d => decide (d < 10) with
  | some d => (s.deviceLoss 1 d).bootStop 2
  | none => s

/-! ### Step 5: GDDR7 (R340, R341) -/

/-- Usable bytes of a die's GDDR7 (Table 9-7). -/
def usableBytes (dense : Bool) : Nat := 3 * gddrDataLines dense * 256

/-- Steps 5 and 6. -/
def State.bootGddr (s : State) (b : BootInputs) : State :=
  ((List.range 8).foldl (fun s d =>
    match b.gddrFail.find? fun e => e.1 == d with
    | some (_, c) =>
      (s.gddrAbsent d c).alarm d 0x02 (FaultReport.blank St.dataFault 1 0x0D d 0xFF)
    | none =>
      let s := (s.wr F.gdrStatus_STATE d 0 3).wr F.gdrCap_USABLE d 0 (usableBytes s.sys.straps.density)
      s.trainTemps d ((b.gddrTemps.drop (3 * d)).take 3))
    (s.bootStep 5)).bootStep 6

/-! ### Steps 7 and 8 -/

/-- Verification of a base image: R151, and a pavilion image is no base image (R159, the check of reason 0x0B of Table 5-5). -/
def State.baseCheck (s : State) (img : List Byte) : Nat × Nat :=
  let f := s.verifyImage img
  if imgPav img && (f.1 == 0 || decide (0x0B ≤ f.1)) then (0x0B, 0xFFFF) else f

/-- The base image in a Trellis slot staged, verified and committed (Table 5-6), or the load left in FAILED with the check that
failed; the outcome is the reason. -/
def State.bootTrellis (s : State) (slot : Nat) : State × Nat :=
  let img := s.slotTrellis slot
  let f := s.baseCheck img
  if f.1 = 0 then (((s.commitDevice img).wr F.kprBoot_TSLOT 0 0 slot |>.trlReason 0).setTrl 0, 0) else (s.trlFail f, f.1)

/-- Step 7: the active slot, else the other; with both bad nothing is committed. REASON is that of the active slot. -/
def State.bootBase (s : State) : State :=
  let s := s.bootStep 7
  let a := s.activeSlots.2
  match s.bootTrellis a with
  | (t, 0) => t.warmStates
  | (t, r) =>
    match (t.wr F.kprBoot_REASON 0 0 r).bootTrellis (1 - a) with
    | (t, 0) => t.warmStates
    | (t, _) => t

/-- Step 8, and the end of the boot. -/
def State.bootLast (s : State) : State :=
  let s := ([0, 1].foldl State.startHarts ((s.bootStep 8).setPlots.loadCores)).bootStep 9
  { s with sys := { s.sys with phase := .running } }

/-- BOOT_MODE 2: the Keeper waits on the UART after step 1. -/
def State.bootRecovery (s : State) : State := { s with sys := { s.sys with phase := .stopped } }

/-- Table 17-6 from step 1. -/
def State.boot (s : State) (b : BootInputs) : State :=
  let s := s.bootOne b
  s.bootThen fun s =>
    if s.sys.straps.bootMode = 2 then s.bootRecovery
    else s.bootTwo.bootThen fun s => (s.bootThree b).bootThen fun s => (s.bootGddr b).bootBase.bootLast

/-- The release of a cold reset: supplies in range, straps and fuses sampled. -/
def State.powered (s : State) : State :=
  let y := { s.sys with pwrGood := true, vauxOk := true, coldHold := none, coldAt := none, phase := .booting }
  let s := { s with regs := fuseRegs s.sys.fuses s.sys.straps, pwr := State.reset.pwr, sys := y }
  s.wr F.kprBoot_RCAUSE 0 0 s.sys.cause

/-- COLD_BOOT (R590): after cold reset, once SYS_RESET_N is high and the supplies are up in the order of Table 19-10. -/
def execColdBoot (b : BootInputs) (s : State) : Out :=
  let s := if s.sys.coldAt.isSome then s.coldState 1 none else s
  if s.sys.phase = .running ∨ s.sys.phase = .stopped ∨ !s.sys.resetN ∨ !b.ordered ∨ s.hotShut then .next s
  else .next (s.powered.boot b)

/-- Whether the Keeper waits for a bundle on the UART. -/
def State.awaitsBundle (s : State) : Bool :=
  s.sys.phase == .stopped && (s.sys.straps.bootMode == 2 || s.rd F.kprBoot_CAUSE 0 0 == 1)

/-- A bundle written to the inactive slot and made active. -/
def State.recoverBundle (s : State) (bundle : List Byte) : State :=
  let (fw, trl) := s.activeSlots
  (s.flashWrite (bundleSlot (1 - fw)) (bundle.take (bundleLen bundle))).writeDir (1 - fw) trl

/-- UART_RECOVERY (R593): the bundle is verified, written to the inactive slot and made active; the outcome goes out on the
UART. -/
def execUartRecovery (bundle : List Byte) (s : State) : Out :=
  if !s.awaitsBundle then .next s
  else if bundleOk s.sys.fuses bundle then
    .next ((s.recoverBundle bundle).send (.uart [1]))
  else .next (s.send (.uart [0]))

end Sys2Proof.Machine
end

