-- ==== Sys2Proof/Machine/Keeper.lean ====
section
/-! DEFINITION. Requests of the Keeper: the mailbox, the management port, and the operations of Table 17-12 (R598 to
R605). -/

namespace Sys2Proof.Machine

/-! ### The header of a request (Table 17-11)

DESIGN CHOICE (log entry 150): OP, LEN, ARG0 and RLEN are little-endian in a REQUEST or RESPONSE message of the management
port as they are in memory: R599 gives one layout for both, beside R3's big-endian fields of KMT messages. -/

/-- OP; little-endian in a message as in memory (log entry 150). -/
def kOp (m : List Byte) : Nat := fieldAt m 0 2
/-- LEN. -/
def kLen (m : List Byte) : Nat := fieldAt m 4 4
/-- ARG0; little-endian in a message as in memory (log entry 150). -/
def kArg (m : List Byte) : Nat := fieldAt m 8 8
/-- The payload. -/
def kPay (m : List Byte) : List Byte := (m.drop 32).take (kLen m)

/-- The answer written over a request: STATUS, RLEN, and the payload as far as it fits;
little-endian in a message as in memory (log entry 150). -/
def kAnswer (m : List Byte) (status : Nat) (pay : List Byte) : List Byte :=
  let p := pay.take (m.length - 32)
  m.take 24 ++ leBytes 1 status ++ (m.drop 25).take 3 ++ leBytes 4 p.length ++ p ++ m.drop (32 + p.length)

/-- Whether a request's length suits its header. -/
def kForm (m : List Byte) : Bool := decide (32 ≤ m.length) && decide (kLen m ≤ 4064) && decide (32 + kLen m ≤ m.length)

/-! ### Operations (Table 17-12) -/

/-- What the Keeper answers to a request, and what it does after it has answered. -/
structure KRes where
  status : Nat
  pay    : List Byte
  after  : State → State

/-- An answer with a status alone. -/
def kStatus (n : Nat) : KRes := ⟨n, [], id⟩

/-- An operation that succeeds. -/
def kDo (f : State → State) : KRes := ⟨St.success, [], f⟩

/-- The response of INFO. -/
def State.infoBytes (s : State) : List Byte :=
  ([Reg.kprId, .kprFw, .kprDevid, .kprBoot, .kprStrap, .pwrClass].flatMap fun r => leBytes 8 (s.reg r 0 0).toNat)
    ++ List.replicate 16 0

/-- ASSIGN_ID (R602). -/
def State.assignId (s : State) (id : Nat) : KRes :=
  if s.flag F.kprDevid_V 0 0 ∨ 511 < id then kStatus St.invalidOp
  else kDo fun s => allPorts.foldl State.recheck ((s.wr F.kprDevid_ID 0 0 id).wr F.kprDevid_V 0 0 1)

/-- TRL_EPOCH.FLOOR, which the Keeper alone writes and which does not fall. -/
def State.epochFloor (s : State) (v : Nat) : State :=
  if s.rd F.trlEpoch_FLOOR 0 0 < v then s.wr F.trlEpoch_FLOOR 0 0 (min v 0xFFFFFFFF) else s

/-- Whether a range lies within the inactive slots and the free region (R603): each sector that it covers does. -/
def State.mayFlash (s : State) (off n : Nat) : Bool :=
  let (lo, hi) := sectorsOf off n
  let (fw, trl) := s.activeSlots
  (List.range ((hi - lo) / sector)).all fun i =>
    let a := lo + i * sector
    let within := fun (b k : Nat) => decide (b ≤ a) && decide (a < b + k)
    within (bundleSlot (1 - fw)) 0x40_0000 || within (trellisSlot (1 - trl)) 0x20_0000
      || within freeRegion (s.kpr.size - freeRegion)

/-- FLASH_ACTIVATE (R604): the inactive slot is verified, and the directory names it active. -/
def State.flashActivate (s : State) (what : Nat) : KRes :=
  let (fw, trl) := s.activeSlots
  if what = 0 then
    if bundleOk s.sys.fuses (s.slotBundle (1 - fw)) then kDo fun s => s.writeDir (1 - fw) trl else kStatus St.invalidOp
  else if what = 1 then
    let img := s.slotTrellis (1 - trl)
    let ok := s.headerCheck img img.length == 0 && (parseSecs (imgCount img) 0 (img.drop 256)).2.isNone
    if ok then kDo fun s => s.writeDir fw (1 - trl) else kStatus St.invalidOp
  else kStatus St.invalidOp

/-- SVN_COMMIT: fuses blown until FUSE_SVN equals the running SVN. -/
def State.svnCommit (s : State) : State :=
  let n := s.rd F.kprFw_SVN 0 0
  if n ≤ s.rd F.kprFw_FUSE_SVN 0 0 then s
  else { s.wr F.kprFw_FUSE_SVN 0 0 n with sys := { s.sys with fuses := { s.sys.fuses with svn := n } } }

/-- What DEBUG_UNLOCK's signature is made over (R605). -/
def State.unlockMsg (s : State) : List Byte :=
  (Config.sha384 (Config.publicKey s.lnk.idKey)).take 16 ++ leBytes 8 (s.rd F.kprDbgNonce_NONCE 0 0)

/-- DEBUG_UNLOCK (R605). -/
def State.debugUnlock (s : State) (sig : List Byte) : KRes :=
  if sig.length = 96 ∧ Config.ecdsaVerify s.kpr.cfg.debug s.unlockMsg sig then kDo fun s => s.wr F.kprDbg_UNLOCKED 0 0 1
  else kStatus St.accessFault

/-- A session that becomes the most recent subscriber. -/
def State.subscribe (s : State) (via : Option Nat) : State :=
  { s with tel := { s.tel with subs := via.toList ++ s.tel.subs.filter fun k => via != some k } }

/-- Operations that come from the management port alone. -/
def kPortOnly (op : Nat) : Bool := op == 6 || op == 7 || decide (0xA ≤ op ∧ op ≤ 0xD)

/-- The operations of Table 17-12; `via` is the session of a request from the management port. -/
def State.kOperate (s : State) (via : Option Nat) (m : List Byte) : KRes :=
  let op := kOp m
  if !kForm m then kStatus St.invalidOp
  else if via.isNone && kPortOnly op then kStatus St.accessFault
  else
    match op with
    | 0x0001 => ⟨St.success, s.infoBytes, id⟩
    | 0x0002 => kDo fun s => s.warmRequest 4
    | 0x0003 => kDo fun s => s.coldRequest 2
    | 0x0004 => if resetsDie (kArg m) then kDo fun s => s.dieRequest (kArg m) else kStatus St.invalidOp
    | 0x0005 => kDo State.keeperReset
    | 0x0006 => s.assignId (kArg m)
    | 0x0007 => kDo fun s => s.epochFloor (kArg m)
    | 0x0008 =>
      if s.mayFlash (kArg m) (kPay m).length then kDo fun s => s.flashWrite (kArg m) (kPay m) else kStatus St.accessFault
    | 0x0009 => s.flashActivate (kArg m)
    | 0x000A => kDo State.svnCommit
    | 0x000B => kDo fun s => s.deviceLoss 7 0
    | 0x000C => kDo fun s => s.subscribe via
    | 0x000D => s.debugUnlock (kPay m)
    | _ => kStatus St.invalidOp

/-! ### The queue of requests (R440, R601) -/

/-- Requests that may be outstanding. -/
def kPlaces : Nat := 16

/-- The queue of requests set. -/
def State.setKqueue (s : State) (q : List KReq) : State := { s with kpr := { s.kpr with queue := q } }

/-- The response message of a session. -/
def State.kRespond (s : State) (n : Nat) (m : List Byte) : State := s.kmtPost n ⟨0x22, 0, 0, 0, 0, 0, 0, m⟩

/-- The answer of a request in memory at its endpoint, then its count and its interrupt. -/
def State.mbxAnswer (s : State) (addr : Nat) (m : List Byte) : Option State :=
  let done := fun (s : State) =>
    (s.wr F.kprMbxStatus_ANSWERED 0 0 ((s.rd F.kprMbxStatus_ANSWERED 0 0 + 1) % 2 ^ 24)).aplicSource 4
  match s.writeAs .keeper true true addr m with
  | .wait => none
  | .refuse _ _ => some (done s)
  | .done _ t => some (done t)

/-- The bytes of the request at the head of the queue, with where it came from: what it reads as, or an answer that says that
its memory refused or could not be read; `none` while memory waits. -/
def State.kFetch (s : State) : KReq → Option (Option Nat × List Byte × Bool × State)
  | .port n m => some (some n, m, true, s)
  | .mailbox a len =>
    match s.readAs .keeper true true a len with
    | .wait => none
    | .refuse _ _ => some (none, List.replicate len 0, false, s)
    | .done bs t => some (none, plain bs, allReadable bs, t)

/-- A request that leaves the queue with its result: the answer is complete before the effect. -/
def State.kFinish (t : State) (rest : List KReq) (r : KReq) (m : List Byte) (k : KRes) : Option State :=
  let ans := kAnswer m k.status k.pay
  let u := t.setKqueue rest
  match r with
  | .port n _ => some (k.after (u.kRespond n ans))
  | .mailbox a _ => (u.mbxAnswer a ans).map k.after

/-- The request at the head served: its answer is complete before its effect. `op` is the operation whose turn it is; a
request of an unlisted operation takes any turn. -/
def State.kServe (s : State) (op : Nat) : State :=
  match s.kpr.queue with
  | [] => s
  | r :: rest =>
    if !s.keeperUp then s
    else
      match s.kFetch r with
      | none => s
      | some (via, m, ok, t) =>
        if kOp m ≠ op && decide (1 ≤ kOp m ∧ kOp m ≤ 0xD) then s
        else
          let k := if ok then t.kOperate via m else kStatus St.dataFault
          (t.kFinish rest r m k).getD s

/-- A REQUEST message in order on a session of the management port (R598): it takes a place in the queue, or is answered with
the retry status; a HALTED Keeper's hardware answers with the device-loss status (R536). -/
def State.kArrive (s : State) (n : Nat) (m : List Byte) : State :=
  match s.session n with
  | none => s.bump F.lpGatecnt_DENIED 16 0 1
  | some k =>
    if k.port ≠ 16 ∨ k.partner.isNone ∨ s.lpState 16 ≠ 3 then s.bump F.lpGatecnt_DENIED 16 0 1
    else
      let s := s.setSession n { k with rxSeq := (k.rxSeq + 1) % 2 ^ 32, ackDue := true }
      if m.length < 32 ∨ 4096 < m.length then s.bump F.lpGatecnt_MALFORMED 16 0 1
      else if s.keeper = 4 then s.kRespond n (kAnswer m St.deviceLoss [])
      else if kPlaces ≤ s.kpr.queue.length then s.kRespond n (kAnswer m St.retry [])
      else s.setKqueue (s.kpr.queue ++ [.port n m])

/-- A request row: a message that arrives takes its place, and the head is served if it asks for this operation. -/
def State.kRow (s : State) (op : Nat) : KSrc → Out
  | .head => .next (s.kServe op)
  | .port n m =>
    let t := s.kArrive n m
    .next (if s.kpr.queue.isEmpty then t.kServe op else t)

/-- INFO (R600). -/
def execReqInfo (k : KSrc) (s : State) : Out := s.kRow 0x0001 k
/-- WARM_RESET (R600). -/
def execReqWarmReset (k : KSrc) (s : State) : Out := s.kRow 0x0002 k
/-- COLD_RESET (R600). -/
def execReqColdReset (k : KSrc) (s : State) : Out := s.kRow 0x0003 k
/-- DIE_RESET_REQUEST (R600, R584). -/
def execReqDieReset (k : KSrc) (s : State) : Out := s.kRow 0x0004 k
/-- KEEPER_RESET (R600). -/
def execReqKeeperReset (k : KSrc) (s : State) : Out := s.kRow 0x0005 k
/-- ASSIGN_ID (R602). -/
def execReqAssignId (k : KSrc) (s : State) : Out := s.kRow 0x0006 k
/-- EPOCH_FLOOR (R600). -/
def execReqEpochFloor (k : KSrc) (s : State) : Out := s.kRow 0x0007 k
/-- FLASH_WRITE (R603). -/
def execReqFlashWrite (k : KSrc) (s : State) : Out := s.kRow 0x0008 k
/-- FLASH_ACTIVATE (R604). -/
def execReqFlashActivate (k : KSrc) (s : State) : Out := s.kRow 0x0009 k
/-- SVN_COMMIT (R600). -/
def execReqSvnCommit (k : KSrc) (s : State) : Out := s.kRow 0x000A k
/-- DEVICE_LOSS (R600, R529). -/
def execReqDeviceLoss (k : KSrc) (s : State) : Out := s.kRow 0x000B k
/-- SUBSCRIBE (R598). -/
def execReqSubscribe (k : KSrc) (s : State) : Out := s.kRow 0x000C k
/-- DEBUG_UNLOCK (R605). -/
def execReqDebugUnlock (k : KSrc) (s : State) : Out := s.kRow 0x000D k

/-! ### The mailbox (R601) -/

/-- A write of KPR_MBX_SUBMIT from the Keeper's own requesters or a hart in machine mode: whether it was enqueued, and the
state after it. -/
def State.mbxWrite (s : State) (v : BitVec 64) : Bool × State :=
  let n := natField v.toNat 63 52 * 16
  let a := natField v.toNat 51 4 * 16
  if kPlaces ≤ s.kpr.queue.length ∨ n < 32 ∨ 4096 < n ∨ !s.systemPlot a ∨ a / 2 ^ 30 ≠ (a + n - 1) / 2 ^ 30
      ∨ !s.systemPlot (a + n - 1) then
    (false, s.bump F.kprMbxStatus_REJECTS 0 0 1)
  else
    (true, (s.setKqueue (s.kpr.queue ++ [.mailbox a n])).wr F.kprMbxStatus_SUBMITTED 0 0
      ((s.rd F.kprMbxStatus_SUBMITTED 0 0 + 1) % 2 ^ 24))

/-- KPR_MBX_SUBMIT (R601). -/
def execKprMbxSubmit (a : Actor) (v : BitVec 64) (s : State) : Out :=
  .next (if machineActor a then (s.mbxWrite v).2 else s.refuse)

end Sys2Proof.Machine
end

