-- ==== Sys2Proof/Machine/Spdm.lean ====
section
/-! DEFINITION. The SPDM 1.2 responder (R595, R596, DMTF DSP0274) with the options of Table 17-8. -/

namespace Sys2Proof.Machine

/-! ### Messages -/

/-- The responder's state set. -/
def State.setSpdm (s : State) (x : SpdmSt) : State := { s with kpr := { s.kpr with spdm := x } }

/-- The header of a message: version 1.2, code, two parameters. -/
def spdmHead (code p1 p2 : Nat) : List Byte := [0x12, BitVec.ofNat 8 code, BitVec.ofNat 8 p1, BitVec.ofNat 8 p2]

/-- An ERROR response. -/
def spdmError (code : Nat) : List Byte := spdmHead 0x7F code 0

/-- InvalidRequest. -/
def errInvalid : List Byte := spdmError 0x01
/-- UnexpectedRequest. -/
def errUnexpected : List Byte := spdmError 0x04
/-- DecryptError. -/
def errDecrypt : List Byte := spdmError 0x06
/-- VersionMismatch. -/
def errVersion : List Byte := spdmError 0x41

/-- Characters as bytes. -/
def ascii (t : String) : List Byte := t.toList.map fun c => BitVec.ofNat 8 c.toNat

/-- Whether the management port answers SPDM: from the end of boot step 3, also where no bundle was valid (R590, R591). -/
def State.spdmOn (s : State) : Bool :=
  s.keeperUp && (decide (4 ≤ s.rd F.kprBoot_STEP 0 0) || (s.rd F.kprBoot_STEP 0 0 == 3 && s.rd F.kprBoot_CAUSE 0 0 == 1))

/-- A message received: on a session it takes its place in the sequence; outside it needs none. -/
def State.spdmTake (s : State) : Option Nat → Option State
  | none => some s
  | some n =>
    match s.session n with
    | none => none
    | some k =>
      if k.port ≠ 16 ∨ k.partner.isNone then none
      else some (s.setSession n { k with rxSeq := (k.rxSeq + 1) % 2 ^ 32, ackDue := true })

/-- A response sent the way its request came. -/
def State.spdmSend (s : State) (via : Option Nat) (m : List Byte) : State :=
  match via with
  | none => s.send (.spdm m)
  | some n => s.kmtPost n ⟨0x20, 0, 0, 0, 0, 0, 0, m⟩

/-- A request of a code: its version and its place in the negotiation checked, then answered. -/
def State.spdmRow (s : State) (via : Option Nat) (m : List Byte) (code version stage : Nat) (go : State → List Byte × State) :
    Out :=
  if !s.spdmOn ∨ byteAt m 1 ≠ code ∨ m.length < 4 then .next s
  else
    match s.spdmTake via with
    | none => .next s
    | some t =>
      if byteAt m 0 ≠ version then .next (t.spdmSend via errVersion)
      else if t.kpr.spdm.stage < stage then .next (t.spdmSend via errUnexpected)
      else
        let (r, u) := go t
        .next (u.spdmSend via r)

/-- Messages that enter the transcript. -/
def State.note (s : State) (m r : List Byte) : State := s.setSpdm { s.kpr.spdm with msgs := s.kpr.spdm.msgs ++ m ++ r }

/-! ### Negotiation -/

/-- The answer to GET_VERSION. -/
def State.versionReply (s : State) (msg : List Byte) : List Byte × State :=
  let r : List Byte := [0x10, 0x04, 0, 0, 0, 1, 0x00, 0x12]
  (r, s.setSpdm { s.kpr.spdm with stage := 1, msgs := msg ++ r })

/-- GET_VERSION (R595): version 1.2 only; the negotiation begins again. -/
def execSpdmGetVersion (via : Option Nat) (msg : List Byte) (s : State) : Out :=
  s.spdmRow via msg 0x84 0x10 0 fun s => s.versionReply msg

/-- Capabilities: certificates, challenge, signed measurements, encryption, MAC, key exchange, heartbeat, key update. -/
def spdmFlags : Nat := 0x62D6

/-- The answer to GET_CAPABILITIES. -/
def State.capsReply (s : State) (msg : List Byte) : List Byte × State :=
  let (ct, s) := s.free
  let (sizes, s) := s.free
  let r := spdmHead 0x61 0 0 ++ [0, BitVec.ofNat 8 ct.toNat, 0, 0] ++ leBytes 4 spdmFlags ++ leBytes 8 sizes.toNat
  (r, (s.note msg r).setSpdm { (s.note msg r).kpr.spdm with stage := 2 })

/-- GET_CAPABILITIES (R595). The response times and sizes that DSP0274 leaves to the responder are free values. -/
def execSpdmGetCapabilities (via : Option Nat) (msg : List Byte) (s : State) : Out :=
  s.spdmRow via msg 0xE1 0x12 1 fun s =>
    if s.kpr.spdm.stage ≠ 1 then (errUnexpected, s) else s.capsReply msg

/-- The answer to NEGOTIATE_ALGORITHMS. -/
def State.algsReply (s : State) (msg : List Byte) : List Byte × State :=
  let r := spdmHead 0x63 3 0 ++ leBytes 2 48 ++ [1, 2] ++ leBytes 4 4 ++ leBytes 4 0x80 ++ leBytes 4 2 ++ List.replicate 16 0
    ++ [2, 0x20, 0x10, 0, 3, 0x20, 2, 0, 5, 0x20, 1, 0]
  (r, (s.note msg r).setSpdm { (s.note msg r).kpr.spdm with stage := 3 })

/-- NEGOTIATE_ALGORITHMS (R595): P-384, SHA-384, secp384r1 and AES-256-GCM, if the requester offers them. -/
def execSpdmNegotiateAlgorithms (via : Option Nat) (msg : List Byte) (s : State) : Out :=
  s.spdmRow via msg 0xE3 0x12 2 fun s =>
    if s.kpr.spdm.stage ≠ 2 then (errUnexpected, s)
    else if !(fieldAt msg 8 4).testBit 7 || !(fieldAt msg 12 4).testBit 1 then (errInvalid, s)
    else s.algsReply msg

/-! ### Certificates -/

/-- The certificate chain of slot 0, with its header; empty where the identity does not verify (R594). -/
def State.slotChain (s : State) : List Byte :=
  let c := s.lnk.idChain
  if c.isEmpty then [] else leBytes 2 (52 + c.length) ++ [0, 0] ++ Config.chainRoot c ++ c

/-- The answer to GET_DIGESTS. -/
def State.digestsReply (s : State) (msg : List Byte) : List Byte × State :=
  let r := spdmHead 0x01 0 1 ++ Config.sha384 s.slotChain
  (r, s.note msg r)

/-- GET_DIGESTS (R595). -/
def execSpdmGetDigests (via : Option Nat) (msg : List Byte) (s : State) : Out :=
  s.spdmRow via msg 0x81 0x12 3 fun s => s.digestsReply msg

/-- The answer to GET_CERTIFICATE. -/
def State.certReply (s : State) (msg : List Byte) : List Byte × State :=
  let c := s.slotChain
  let off := fieldAt msg 4 2
  let p := (c.drop off).take (fieldAt msg 6 2)
  let r := spdmHead 0x02 0 0 ++ leBytes 2 p.length ++ leBytes 2 (c.length - off - p.length) ++ p
  (r, s.note msg r)

/-- GET_CERTIFICATE (R595): a portion of the chain of slot 0. -/
def execSpdmGetCertificate (via : Option Nat) (msg : List Byte) (s : State) : Out :=
  s.spdmRow via msg 0x82 0x12 3 fun s =>
    if byteAt msg 2 % 16 ≠ 0 ∨ msg.length < 8 ∨ s.slotChain.length < fieldAt msg 4 2 then (errInvalid, s)
    else s.certReply msg

/-! ### Measurements (Table 17-9) -/

/-- The value type and value of a measurement. -/
def State.measured (s : State) : Nat → Option (Nat × List Byte)
  | 1 => some (0x00, Config.romDigest)
  | 2 => some (0x01, Config.sha384 (s.kpr.bundle.take 392))
  | 3 =>
    let f := s.sys.fuses
    some (0x82, ([s.rd F.kprFw_FUSE_SVN 0 0, s.rd F.pwrClass_CLASS 0 0, f.trlRev, f.romRev].map (BitVec.ofNat 8 ·)) ++ List.replicate 4 0)
  | 4 => some (0x83, s.digestWords .trlDigest fun i => (i, 0))
  | 5 => some (0x82, [BitVec.ofNat 8 (s.reg .kprStrap 0 0).toNat, BitVec.ofNat 8 (s.rd F.kprDbg_UNLOCKED 0 0)])
  | _ => none

/-- A measurement block. -/
def State.measBlock (s : State) (i : Nat) : List Byte :=
  match s.measured i with
  | none => []
  | some (t, v) => leBytes 1 i ++ [1] ++ leBytes 2 (v.length + 3) ++ leBytes 1 t ++ leBytes 2 v.length ++ v

/-- Every block. -/
def State.allMeas (s : State) : List Byte := [1, 2, 3, 4, 5].flatMap s.measBlock

/-- The measurement summary hash that a request asks for: types 1 and 0xFF. -/
def State.summary (s : State) (typ : Nat) : List Byte := if typ = 1 ∨ typ = 0xFF then Config.sha384 s.allMeas else []

/-- The signature of the device over a transcript, in the context of a response. -/
def State.spdmSign (s : State) (context : String) (t : List Byte) : List Byte :=
  let head := (List.range 4).flatMap fun _ => ascii "dmtf-spdm-v1.2.*"
  let ctx := ascii context
  Config.ecdsaSign s.lnk.idKey (head ++ List.replicate (36 - ctx.length) 0 ++ ctx ++ Config.sha384 t)

/-- The answer to GET_MEASUREMENTS. -/
def State.measReply (s : State) (msg : List Byte) : List Byte × State :=
  let op := byteAt msg 3
  let blocks := if op = 0 then [] else if op = 0xFF then [1, 2, 3, 4, 5] else [op]
  let rec_ := blocks.flatMap s.measBlock
  let (nonce, s) := s.freeBytes 4
  let body := spdmHead 0x60 (if op = 0 then 5 else 0) 0 ++ leBytes 1 blocks.length ++ leBytes 3 rec_.length ++ rec_ ++ nonce
    ++ leBytes 2 0
  (body ++ (if (byteAt msg 2).testBit 0 then s.spdmSign "responder-measurements signing" (s.kpr.spdm.msgs ++ msg ++ body) else []), s)

/-- Whether a GET_MEASUREMENTS asks for what there is. -/
def measOk (msg : List Byte) : Bool :=
  (decide (byteAt msg 3 ≤ 5) || byteAt msg 3 == 0xFF)
    && (!(byteAt msg 2).testBit 0 || (decide (37 ≤ msg.length) && byteAt msg 36 % 16 == 0))

/-- GET_MEASUREMENTS (R596): the number of blocks, one block, or all; signed where the request asks for it. -/
def execSpdmGetMeasurements (via : Option Nat) (msg : List Byte) (s : State) : Out :=
  s.spdmRow via msg 0xE0 0x12 3 fun s =>
    if !measOk msg then (errInvalid, s) else s.measReply msg

/-- The answer to CHALLENGE. -/
def State.challengeReply (s : State) (msg : List Byte) : List Byte × State :=
  let (nonce, s) := s.freeBytes 4
  let body := spdmHead 0x03 0 1 ++ Config.sha384 s.slotChain ++ nonce ++ s.summary (byteAt msg 3) ++ leBytes 2 0
  (body ++ s.spdmSign "responder-challenge_auth signing" (s.kpr.spdm.msgs ++ msg ++ body), s)

/-- CHALLENGE (R595). -/
def execSpdmChallenge (via : Option Nat) (msg : List Byte) (s : State) : Out :=
  s.spdmRow via msg 0x83 0x12 3 fun s =>
    if byteAt msg 2 % 16 ≠ 0 ∨ msg.length < 36 then (errInvalid, s) else s.challengeReply msg

/-! ### Sessions of SPDM -/

/-- HKDF-Expand to one hash length, with the labelled string of DSP0274. -/
def spdmExpand (key : List Byte) (label : String) (context : List Byte) : List Byte :=
  Config.hmac key (leBytes 2 48 ++ ascii "spdm1.2 " ++ ascii label ++ context ++ [1])

/-- The key of a finished message, from a handshake secret of one direction. -/
def spdmFinished (secret : List Byte) : List Byte := spdmExpand secret "finished" []

/-- The answer to KEY_EXCHANGE. -/
def State.keyReply (s : State) (msg : List Byte) : List Byte × State :=
  let (id, s) := s.free
  let (beat, s) := s.free
  let (nonce, s) := s.freeBytes 4
  let (eph, s) := s.freeBytes 6
  let pub := (Config.publicKey eph).drop 1
  let body := spdmHead 0x64 (beat.toNat % 256) 0 ++ leBytes 2 id.toNat ++ [0, 0] ++ nonce ++ pub ++ s.summary (byteAt msg 2)
    ++ leBytes 2 0
  let t := s.kpr.spdm.msgs ++ Config.sha384 s.slotChain ++ msg ++ body
  let signed := body ++ s.spdmSign "responder-key_exchange_rsp signing" t
  let th := s.kpr.spdm.msgs ++ Config.sha384 s.slotChain ++ msg ++ signed
  let hs := Config.hmac (List.replicate 48 0) (Config.ecdh eph (4 :: (msg.drop 40).take 96))
  let rsp := spdmExpand hs "rsp hs data" (Config.sha384 th)
  let r := signed ++ Config.hmac (spdmFinished rsp) (Config.sha384 th)
  (r, s.setSpdm { s.kpr.spdm with
    ses := some (fieldAt msg 4 2 + id.toNat % 2 ^ 16 * 2 ^ 16), up := false, trans := th, key := hs })

/-- KEY_EXCHANGE (R595): a session begins; its number, its heartbeat period, the nonce and the ephemeral key are free
values. -/
def execSpdmKeyExchange (via : Option Nat) (msg : List Byte) (s : State) : Out :=
  s.spdmRow via msg 0xE4 0x12 3 fun s =>
    if byteAt msg 3 % 16 ≠ 0 ∨ msg.length < 138 then (errInvalid, s)
    else s.keyReply msg

/-- The verify data that a FINISH must carry. -/
def SpdmSt.verifyData (x : SpdmSt) (msg : List Byte) : List Byte :=
  let req := spdmExpand x.key "req hs data" (Config.sha384 x.trans)
  Config.hmac (spdmFinished req) (Config.sha384 (x.trans ++ msg.take 4))

/-- The master secret of a session. -/
def SpdmSt.master (x : SpdmSt) : List Byte := Config.hmac (spdmExpand x.key "derived" []) (List.replicate 48 0)

/-- SPDM_FINISH (R595): the requester's verify data opens the session. -/
def execSpdmFinish (via : Option Nat) (msg : List Byte) (s : State) : Out :=
  s.spdmRow via msg 0xE5 0x12 3 fun s =>
    let x := s.kpr.spdm
    if x.ses.isNone ∨ x.up then (errUnexpected, s)
    else
      if (msg.drop 4).take 48 ≠ x.verifyData msg then (errDecrypt, s)
      else
        (spdmHead 0x65 0 0, s.setSpdm { x with up := true, trans := x.trans ++ msg, key := x.master })

/-- A request that only an open session takes. -/
def State.inSpdm (s : State) (r : List Byte) (x : SpdmSt) : List Byte × State :=
  if s.kpr.spdm.up then (r, s.setSpdm x) else (errUnexpected, s)

/-- HEARTBEAT (R595). -/
def execSpdmHeartbeat (via : Option Nat) (msg : List Byte) (s : State) : Out :=
  s.spdmRow via msg 0xE8 0x12 3 fun s => s.inSpdm (spdmHead 0x68 0 0) s.kpr.spdm

/-- KEY_UPDATE (R595): operations 1 and 2 derive new keys, 3 verifies them. -/
def execSpdmKeyUpdate (via : Option Nat) (msg : List Byte) (s : State) : Out :=
  s.spdmRow via msg 0xE9 0x12 3 fun s =>
    let op := byteAt msg 2
    let x := s.kpr.spdm
    if op = 0 ∨ 3 < op then (errInvalid, s)
    else s.inSpdm (spdmHead 0x69 op (byteAt msg 3)) (if op = 3 then x else { x with key := spdmExpand x.key "traffic upd" [] })

/-- END_SESSION (R595). -/
def execSpdmEndSession (via : Option Nat) (msg : List Byte) (s : State) : Out :=
  s.spdmRow via msg 0xEC 0x12 3 fun s =>
    s.inSpdm (spdmHead 0x6C 0 0) { s.kpr.spdm with ses := none, up := false, trans := [], key := [] }

end Sys2Proof.Machine
end

