-- ==== Sys2Proof/Machine/Jtag.lean ====
section
/-! DEFINITION. The JTAG TAP (R605), the SMBus alert (R618), address of the comparators of time (R432). -/

namespace Sys2Proof.Machine

/-- The TAP set. -/
def State.setJtag (s : State) (x : JtagSt) : State := { s with kpr := { s.kpr with jtag := x } }

/-- An instruction in the TAP's instruction register. -/
def State.jtagIr (s : State) (ir : Nat) : State := s.setJtag { s.kpr.jtag with ir := ir }

/-- BYPASS: the one-bit register shifts out 0. -/
def State.bypass (s : State) : State := s.send (.tdo 1 0)

/-- BYPASS (R605). -/
def execJtagBypass (s : State) : Out := .next (s.jtagIr 0x1F).bypass

/-- IDCODE (R605): revision, part, the vendor's code, and 1. -/
def execJtagIdcode (s : State) : Out :=
  .next ((s.jtagIr 0x01).send (.tdo 32 (1 * 2 ^ 28 + 0x21C0 * 2 ^ 12 + s.sys.fuses.jep106 % 2 ^ 11 * 2 + 1)))

/-- Bits as a number, the first the least significant. -/
def bitsNat (bs : List Bool) : Nat := bs.foldr (fun b n => boolNat b + 2 * n) 0

/-- SAMPLE_PRELOAD (R605): the levels on the pins are shifted out, and the cells take their preload. -/
def execJtagSamplePreload (cells : List Bool) (s : State) : Out :=
  let s := s.jtagIr 0x02
  let n := Config.pinLevels.length
  .next ((s.setJtag { s.kpr.jtag with cells := cells.take n }).send (.tdo n (bitsNat Config.pinLevels)))

/-- EXTEST, CLAMP and HIGHZ act while cold reset holds, and are BYPASS otherwise. -/
def State.jtagDrive (s : State) (ir mode : Nat) (act : State → State) : State :=
  let s := s.jtagIr ir
  if s.sys.phase = .inReset then act (s.setJtag { s.kpr.jtag with drive := mode }) else s.bypass

/-- EXTEST (R605): the cells drive the pins; the levels sensed are shifted out. -/
def execJtagExtest (s : State) : Out :=
  .next (s.jtagDrive 0x03 1 fun s => s.send (.tdo Config.pinLevels.length (bitsNat Config.pinLevels)))

/-- CLAMP (R605): the cells drive the pins, with the bypass register in the path. -/
def execJtagClamp (s : State) : Out := .next (s.jtagDrive 0x04 2 State.bypass)

/-- HIGHZ (R605): the pins are released, with the bypass register in the path. -/
def execJtagHighz (s : State) : Out := .next (s.jtagDrive 0x05 3 State.bypass)

/-- Whether the debug transport acts. -/
def State.unlocked (s : State) : Bool := s.flag F.kprDbg_UNLOCKED 0 0

/-- DTMCS (R605): read as zero and without effect while locked; unlocked, the RISC-V transport's control: version 1 and the
width of an address are read, and `dmireset` clears the result of the last access. -/
def execJtagDtmcs (v : BitVec 32) (s : State) : Out :=
  let s := s.jtagIr 0x10
  if !s.unlocked then .next (s.send (.tdo 32 0))
  else
    let (w, s) := s.free
    let s := if v.toNat.testBit 16 || v.toNat.testBit 17 then s.setJtag { s.kpr.jtag with dmi := 0 } else s
    .next (s.send (.tdo 32 (w.toNat % 2 ^ 32 / 16 * 16 + 1)))

/-- DMI (R605): read as zero and without effect while locked; unlocked, the result of the access before is shifted out, and the
debug module answers with a free value. -/
def execJtagDmi (v : BitVec 64) (s : State) : Out :=
  let s := s.jtagIr 0x11
  if !s.unlocked then .next (s.send (.tdo 64 0))
  else
    let old := s.kpr.jtag.dmi
    let (w, s) := s.free
    let s := if v.toNat % 4 = 0 then s else s.setJtag { s.kpr.jtag with dmi := w }
    .next (s.send (.tdo 64 old.toNat))

/-- SMB_ALERT_N (R618): the level that the board drives on the pin; APLIC source 3 follows the falling of the level sensed. -/
def execSmbAlertN (level : Bool) (s : State) : Out :=
  let was := s.sys.smbN && !s.sys.smbOwn
  let t := { s with sys := { s.sys with smbN := level } }
  .next (if was && !level then t.aplicSource 3 else t)

/-- The comparator of a hart: all ones at reset would never expire; it resets to zero as its register does. -/
def State.timeCmp (s : State) (h : Nat) (w : TimerSel) : BitVec 64 := tget s.hub.cmp (h, w) 0

/-- MTIMECMP_EXPIRE (R432): a comparator that the time has reached makes its timer interrupt pending. -/
def execMtimecmpExpire (hart : Nat) (which : TimerSel) (s : State) : Out :=
  if (s.timeCmp hart which).toNat ≤ s.mtime ∧ !s.hub.timer.contains (hart, which) then
    .next { s with hub := { s.hub with timer := s.hub.timer ++ [(hart, which)] } }
  else .next s

end Sys2Proof.Machine
end

