-- ==== Sys2Proof/Machine/Registers.lean ====
section
/-! DEFINITION. Register space (18.2, 18.3): where an address leads, what a read returns, and what a write does by the
access types of Table 0-3 and the rules of the blocks. -/

namespace Sys2Proof.Machine

/-! ### The blocks (Table 18-2) -/

/-- Who may write in a block. -/
inductive Writers where
  | all | machine | nobody
  deriving DecidableEq, Repr

/-- Spans of the blocks: first offset in register space, the offset after the last, and their writers. The core interrupt
block stands apart. -/
def spans : List (Nat × Nat × Writers) :=
  [(0x000_0000, 0x001_0000, .machine), (0x100_0000, 0x1B0_0000, .nobody), (0x200_0000, 0x240_0000, .all),
    (0x400_0000, 0x411_0000, .machine), (0x500_0000, 0x580_0000, .machine), (0x600_0000, 0x680_0000, .machine),
    (0x700_0000, 0x710_0000, .nobody), (0x800_0000, 0x801_0000, .machine), (0x900_0000, 0x910_0000, .machine),
    (0xA00_0000, 0xA01_0000, .machine), (0xB00_0000, 0xB10_0000, .machine), (0xC00_0000, 0xC01_0000, .machine),
    (0xD00_0000, 0xD01_0000, .machine)]

/-- Bytes of register space. -/
def regSize : Nat := 0x1000_0000

/-- Offset of the core interrupt block and its size. -/
def intBase : Nat := 0xE00_0000
/-- Bytes of the core interrupt block. -/
def intSize : Nat := 0x200_0000

/-- Whether an address lies in register space. -/
def inRegs (a : Nat) : Bool := decide (regBase ≤ a) && decide (a < regBase + regSize)

/-! ### The register index (Table 18-3) -/

/-- One dimension of a family of registers: its stride and count, and what a step adds to the two indexes of the family. -/
structure Dim where
  stride : Nat
  count  : Nat
  wi     : Nat
  wj     : Nat
  deriving DecidableEq, Repr

/-- A family of registers: the offset of its first in register space, the first index, and its dimensions, the widest stride
first. -/
structure RegRow where
  r    : Reg
  base : Nat
  i0   : Nat
  dims : List Dim
  deriving DecidableEq, Repr

/-- The index that an offset gives in dimensions, as the two indexes and the byte that remain. -/
def walkDims : List Dim → (x i j : Nat) → Option (Nat × Nat × Nat)
  | [], x, i, j => if x < 8 then some (i, j, x) else none
  | d :: ds, x, i, j =>
    let k := x / d.stride
    if k < d.count then walkDims ds (x % d.stride) (i + k * d.wi) (j + k * d.wj) else none

/-- Registers of single words in a row of a block. -/
def wordsAt (base : Nat) (dims : List Dim) (l : List (Reg × Nat)) : List RegRow := l.map fun e => ⟨e.1, base + e.2, 0, dims⟩

/-- The Keeper block. -/
def keeperRows : List RegRow := wordsAt 0 []
  [(.kprId, 0x000), (.kprBoot, 0x008), (.kprReset, 0x010), (.kprDevid, 0x018), (.kprFw, 0x020), (.kprStrap, 0x028),
    (.kprMbxSubmit, 0x030), (.kprMbxStatus, 0x038), (.kprDbg, 0x040), (.kprDbgNonce, 0x048)]

/-- The Lodge blocks. -/
def lodgeRows : List RegRow :=
  let b := 0x100_0000
  let die : Dim := ⟨0x10_0000, 11, 1, 0⟩
  let bed : List Dim := [⟨0x10_0000, 8, 8, 0⟩, ⟨0x1000, 8, 1, 0⟩]
  let cell : List Dim := [⟨0x10_0000, 8, 64, 0⟩, ⟨0x1000, 8, 8, 0⟩]
  wordsAt b [die] [(.ldgStatus, 0x0), (.ldgFw, 0x8)]
  ++ [⟨.ldgD2d, b + 0x100, 0, [⟨0x10_0000, 8, 1, 0⟩, ⟨8, 4, 0, 1⟩]⟩,
    ⟨.ldgD2d, b + 0x80_0100, 8, [⟨0x10_0000, 2, 1, 0⟩, ⟨8, 6, 0, 1⟩]⟩, ⟨.ldgD2d, b + 0xA0_0100, 10, [⟨8, 10, 0, 1⟩]⟩]
  ++ wordsAt (b + 0x8_0000) bed [(.bedStatus, 0x000), (.bedProgress, 0x008), (.bedStall, 0x010), (.bedTrackWait, 0x018),
    (.bedVflags, 0x020), (.bedCtl, 0x028)]
  ++ wordsAt (b + 0x8_0000) (cell ++ [⟨8, 8, 1, 0⟩]) [(.cellEcc, 0x100), (.cellShape, 0x140)]
  ++ wordsAt (b + 0x8_0000) (cell ++ [⟨0x40, 8, 1, 0⟩]) [(.drnCtl, 0x200), (.drnPosLo, 0x208), (.drnPosHi, 0x210),
    (.drnZp, 0x218), (.drnLfsr, 0x220), (.drnSatunf, 0x228), (.drnPoison, 0x230), (.drnStatus, 0x238)]
  ++ wordsAt (b + 0x8_0000) (cell ++ [⟨0x100, 8, 1, 0⟩, ⟨8, 32, 0, 1⟩]) [(.drnScale, 0x400)]
  ++ wordsAt (b + 0x9_0000) [⟨0x10_0000, 8, 1, 0⟩] [(.snSplit, 0)]
  ++ wordsAt (b + 0x9_0100) [⟨0x10_0000, 8, 1, 0⟩, ⟨8, 64, 0, 1⟩] [(.snTaguse, 0)]
  ++ wordsAt (b + 0x8A_0000) [⟨0x10_0000, 2, 1, 0⟩, ⟨8, 48, 0, 1⟩] [(.coreErr, 0), (.coreEcc, 0x200)]

/-- The pavilion pages. -/
def pavRows : List RegRow :=
  let b := 0x200_0000
  let p : Dim := ⟨0x1_0000, 64, 1, 0⟩
  wordsAt b [p] [(.pavStatus, 0x00), (.pavCtl, 0x08), (.pavFence, 0x10), (.pavFenceInfo, 0x18), (.pavSundial, 0x20),
    (.pavProgBase, 0x28), (.pavProgLen, 0x30), (.pavProgCommit, 0x38), (.pavMovelog, 0x40), (.pavMovelogHead, 0x48),
    (.pavQuota, 0x50), (.pavEvtStat, 0x58), (.pavQpCommit, 0x60), (.pavView, 0x8100)]
  ++ wordsAt b [p, ⟨0x40, 16, 0, 1⟩] [(.pavQpSq, 0x100), (.pavQpCq, 0x108), (.pavQpState, 0x110), (.pavQpToken0, 0x118),
    (.pavQpToken1, 0x120)]
  ++ wordsAt b [p, ⟨8, 64, 0, 1⟩] [(.pavEvec, 0x800)]
  ++ wordsAt b [p, ⟨8, 16, 0, 1⟩] [(.pavEroute, 0xA00)]
  ++ wordsAt b [p, ⟨0x10, 16, 0, 1⟩] [(.pavSqTail, 0x8000), (.pavCqHead, 0x8008)]

/-- The link-port blocks; the device-wide registers lie in P0's. -/
def portRows : List RegRow :=
  let b := 0x400_0000
  wordsAt b [⟨0x1_0000, 17, 1, 0⟩] [(.lpStatus, 0x00), (.lpCtl, 0x08), (.lpTmo, 0x10), (.lpFec, 0x18), (.lpLinkcnt, 0x20),
    (.lpGatecnt, 0x28), (.lpQuar, 0x30), (.lpEth, 0x40), (.lpMac, 0x48), (.lpIpv4, 0x50), (.lpIpv6Lo, 0x58), (.lpIpv6Hi, 0x60)]
  ++ wordsAt b [] [(.lpTopo, 0x1000), (.lpKmt, 0x1008)]
  ++ [⟨.lpDevlost, b + 0x1100, 0, [⟨8, 8, 1, 0⟩]⟩, ⟨.lpDevclr, b + 0x1140, 0, [⟨8, 8, 1, 0⟩]⟩,
    ⟨.lpRoute, b + 0x2000, 0, [⟨8, 512, 1, 0⟩]⟩, ⟨.lpWfill, b + 0x4000, 0, [⟨8, 256, 1, 0⟩]⟩]

/-- The GDDR7 and Orangery blocks; region and bias registers lie in TD0's. -/
def memRows : List RegRow :=
  let d : Dim := ⟨0x10_0000, 8, 1, 0⟩
  wordsAt 0x500_0000 [d] [(.gdrCfg, 0x00), (.gdrStatus, 0x08), (.gdrCap, 0x10), (.gdrTrain, 0x18), (.gdrEcc, 0x20),
    (.gdrScrub, 0x28), (.gdrRetireCtl, 0x30), (.gdrErrlog, 0x38)]
  ++ wordsAt 0x500_0000 [d, ⟨8, 32, 0, 1⟩] [(.gdrRetire, 0x100)]
  ++ wordsAt 0x500_0000 [d, ⟨8, 16, 0, 1⟩] [(.gdrPlot, 0x200)]
  ++ wordsAt 0x600_0000 [d] [(.orgCtl, 0x00), (.orgStatus, 0x08), (.orgEcc, 0x10), (.orgFlush, 0x18), (.orgPf, 0x20),
    (.orgAtomic, 0x28), (.cohCtl, 0x800), (.cohStatus, 0x808), (.cohCnt, 0x810), (.cohLost, 0x818)]
  ++ wordsAt 0x600_0000 [d, ⟨8, 16, 0, 1⟩] [(.orgWaymap, 0x100)]
  ++ wordsAt 0x600_0000 [⟨0x20, 16, 0, 1⟩] [(.orgRgnBase, 0x200), (.orgRgnSize, 0x208), (.orgRgnAttr, 0x210)]
  ++ wordsAt 0x600_0000 [] [(.orgRgnCommit, 0x400), (.cohBiasBase, 0x840), (.cohBiasSize, 0x848), (.cohBiasCtl, 0x850),
    (.cohBiasCommit, 0x858)]

/-- The stream engines, the stream MMU and the Waystation. -/
def streamRows : List RegRow :=
  let e : Dim := ⟨0x1000, 256, 1, 0⟩
  wordsAt 0x700_0000 [e] [(.seCfg, 0x00), (.seStatus, 0x08), (.seStall, 0x10), (.sePoison, 0x18), (.seFaultVa, 0x20)]
  ++ wordsAt 0x700_0000 [e, ⟨8, 16, 0, 1⟩] [(.seCtxStatus, 0x100)]
  ++ wordsAt 0x700_0000 [e, ⟨0x40, 16, 0, 8⟩, ⟨8, 8, 0, 1⟩] [(.seCtxDesc, 0x200)]
  ++ wordsAt 0x800_0000 [] [(.smmuInv, 0x00), (.smmuInvStatus, 0x08), (.smmuStats, 0x10)]
  ++ wordsAt 0x800_0000 [⟨0x40, 64, 1, 0⟩] [(.smmuCtxRoot, 0x1000), (.smmuCtxTag, 0x1008), (.smmuCtxCommit, 0x1010),
    (.smmuFaultVa, 0x1018), (.smmuFault, 0x1020)]
  ++ wordsAt 0x900_0000 [⟨0x20, 4096, 1, 0⟩] [(.wsEntry0, 0x00), (.wsEntry1, 0x08), (.wsEntry2, 0x10), (.wsEntry3, 0x18)]
  ++ wordsAt 0x900_0000 [] [(.wsCommit, 0x2_0000), (.wsLastref, 0x2_0008), (.wsOutCommit, 0x4_0800)]
  ++ wordsAt 0x900_0000 [⟨8, 4096, 1, 0⟩] [(.wsCnt, 0x3_0000)]
  ++ wordsAt 0x900_0000 [⟨8, 256, 1, 0⟩] [(.wsOut, 0x4_0000)]

/-- The Trellis control block, the stiles, power and telemetry. -/
def controlRows : List RegRow :=
  wordsAt 0xA00_0000 [] [(.trlCtl, 0x00), (.trlStatus, 0x08), (.trlStageBase, 0x10), (.trlStageLen, 0x18), (.trlEpoch, 0x20),
    (.trlKeys, 0x28), (.trlAgreeCtl, 0x80)]
  ++ wordsAt 0xA00_0000 [⟨8, 6, 1, 0⟩] [(.trlDigest, 0x40)]
  ++ wordsAt 0xA00_0000 [⟨8, 8, 1, 0⟩] [(.trlSpareLive, 0x100)]
  ++ wordsAt 0xA00_0000 [⟨0x40, 16, 1, 0⟩, ⟨8, 8, 0, 1⟩] [(.trlAgree, 0x400)]
  ++ wordsAt 0xA00_0000 [⟨0x40, 64, 1, 0⟩, ⟨8, 6, 0, 1⟩] [(.trlAgd, 0x800)]
  ++ wordsAt 0xA00_0000 [⟨0x40, 64, 1, 0⟩] [(.trlPavEpoch, 0x830)]
  ++ [⟨.stlState, 0xB00_0000, 0, [⟨8, 65536, 1, 0⟩]⟩, ⟨.stlGroup, 0xB08_0000, 0, [⟨8, 256, 1, 0⟩]⟩]
  ++ wordsAt 0xC00_0000 [] [(.pwrPaceReq, 0x00), (.pwrStatus, 0x08), (.pwrCap, 0x10), (.pwrBrake, 0x18), (.pwrClass, 0x20),
    (.pwrTherm, 0x28), (.pwrDroop, 0x30), (.pwrCal, 0x38), (.pwrPower, 0x40)]
  ++ [⟨.pwrRail, 0xC00_0100, 0, [⟨8, 14, 1, 0⟩]⟩, ⟨.pwrDie, 0xC00_0200, 0, [⟨8, 11, 1, 0⟩]⟩]
  ++ wordsAt 0xD00_0000 [] [(.telCtl, 0x00), (.telKeeper, 0x08), (.telLoss, 0x10), (.telAlq, 0x18), (.telLog, 0x20),
    (.telTrace, 0x28), (.telRing, 0x30), (.telRingHead, 0x38), (.telRecov, 0x40), (.telBadslice, 0x48)]
  ++ [⟨.telHang, 0xD00_0100, 0, [⟨8, 64, 1, 0⟩]⟩, ⟨.telCoal, 0xD00_0400, 0, [⟨8, 352, 1, 0⟩]⟩]

/-- Table 18-3. -/
def regRows : List RegRow := keeperRows ++ lodgeRows ++ pavRows ++ portRows ++ memRows ++ streamRows ++ controlRows

/-- The register at an offset of register space, with its indexes and the byte in it. -/
def regAt (x : Nat) : Option (Reg × Nat × Nat × Nat) :=
  regRows.findSome? fun row =>
    if row.base ≤ x then (walkDims row.dims (x - row.base) row.i0 0).map fun (i, j, b) => (row.r, i, j, b) else none

/-- The writers of a block at an offset, if it lies in one. -/
def spanAt (x : Nat) : Option Writers := (spans.find? fun e => decide (e.1 ≤ x) && decide (x < e.2.1)).map (·.2.2)

/-- Registers of the Lodge blocks that take writes: the bed pages from every hart (R613), the core errors in machine mode
(R442). -/
def lodgeWriters : Reg → Option Writers
  | .coreErr => some .machine
  | .coreEcc => some .machine
  | .bedStatus => some .all
  | .bedProgress => some .all
  | .bedStall => some .all
  | .bedTrackWait => some .all
  | .bedVflags => some .all
  | .bedCtl => some .all
  | .cellEcc => some .all
  | .cellShape => some .all
  | .drnCtl => some .all
  | .drnPosLo => some .all
  | .drnPosHi => some .all
  | .drnZp => some .all
  | .drnLfsr => some .all
  | .drnSatunf => some .all
  | .drnPoison => some .all
  | .drnStatus => some .all
  | .drnScale => some .all
  | _ => none

/-! ### Reads -/

/-- Bits [hi:lo] of a word in their place. -/
def bitsOf (v hi lo : Nat) : Nat := natField v hi lo * 2 ^ lo

/-- A register by its access types: an active value, the shadow of an SC field, zero for a WO one and for reserved bits. -/
def State.plainRead (s : State) (r : Reg) (i j : Nat) : Nat :=
  (r.fields.map fun f => match f.acc with
    | .sc => bitsOf (s.shadow r i j).toNat f.hi f.lo
    | .wo => 0
    | _ => bitsOf (s.reg r i j).toNat f.hi f.lo).sum

/-- Slices that wait on a stile: those of running pavilions, which are the owner's. -/
def State.waitersOf (s : State) (st : Nat) : Nat :=
  (s.slices.filter fun e => s.pavState e.1.1 == 2 && e.2.waiting == some st).length

/-- Caravan slots of an engine in use: runs of any pavilion whose stop it is and that have reached it. -/
def State.caravansAt (s : State) (e : Nat) : Nat :=
  (s.str.runs.flatMap fun r => r.2.stops.zipIdx.filter fun (t, k) =>
    !t.remote && t.target == e && (tget r.2.at_ k .init).slot).length

/-- What a read of a register returns. -/
def State.regView (s : State) (r : Reg) (i j : Nat) : Nat :=
  let v := s.plainRead r i j
  match r with
  | .pavView => s.pavState i
  | .pavFence => v / 2 * 2 + boolNat (s.pavState i == 3 || s.pavState i == 4)
  | .pwrBrake => v - bitsOf v 11 8 + min (s.rd F.pwrBrake_LEVEL 0 0) (s.rd F.pwrBrake_HWLEVEL 0 0) * 2 ^ 8
  | .wsEntry3 => v % 2 ^ 16 + i * 2 ^ 16
  | .stlState => v % 2 ^ 35 + boolNat (!(s.boundTo i).isEmpty) * 2 ^ 35 + s.waitersOf i * 2 ^ 36
  | .cohStatus => v - bitsOf v 47 24 + s.unknownEntries i * 2 ^ 24
  | .snTaguse => v - v % 2 ^ 10 + s.tagsUsed j i
  | .seCfg => v % 2 ^ 8 + i % 4 * 2 ^ 8
  | .seStatus => s.caravansAt i * 2 ^ 32 + (s.bufUsed i + 255) / 256 * 2 ^ 16 + (s.engTags i true).length
  | .lpKmt => v % 2 ^ 16 + (s.lnk.kmt.filter fun e => e.2.port != 16).length * 2 ^ 32
  | .trlDigest => if i = 0 then v else fieldAt s.trl.cap (8 * i) 8
  | .trlAgd => if j = 0 then v else fieldAt (s.pav i).agdCap (8 * j) 8
  | _ => v

/-- What a read changes: the first word of a digest captures all six (R176). -/
def State.readEffect (s : State) (r : Reg) (i j : Nat) : State :=
  match r, i, j with
  | .trlDigest, 0, _ => { s with trl := { s.trl with cap := s.digestWords .trlDigest fun i => (i, 0) } }
  | .trlAgd, p, 0 => s.setPav p { s.pav p with agdCap := s.digestWords .trlAgd fun i => (p, i) }
  | _, _, _ => s

/-- An access's outcome: its value and the state after it, or a refusal with a status. -/
inductive RegRes where
  | done (v : Nat) (s : State)
  | refuse (code : Nat) (s : State)

/-- Whether an access is one that registers take (R4). -/
def regShape (a size : Nat) : Bool := (size == 4 || size == 8) && a % size == 0

/-- A read of `size` bytes at an address of register space outside the core interrupt block (R4 to R6). -/
def State.regRead (s : State) (a size : Nat) : RegRes :=
  let x := a - regBase
  if !regShape a size || (spanAt x).isNone then .refuse St.accessFault s
  else
    match regAt x with
    | none => .done 0 s
    | some (r, i, j, b) => .done (s.regView r i j / 2 ^ (8 * b) % 2 ^ (8 * size)) (s.readEffect r i j)

/-! ### Writes by access type (R7, R8, R11) -/

/-- Values of a field that its chapter does not list: a write of one leaves the field, or its shadow, as it is (R7). Sizes of
regions and words of Waystation entries are taken, since their pair checks test them (R325, R377). -/
def reservedValue (r : Reg) (hi lo v : Nat) : Bool :=
  match r, hi, lo with
  | .drnCtl, 47, 32 => v % 2 ^ 15 == 0 || decide (2 ^ 15 ≤ v)
  | .drnZp, _, _ => v == 0x80
  | .trlAgreeCtl, _, _ => v == 0
  | .orgRgnAttr, 15, 8 => !isOwner v
  | .orgRgnAttr, 3, 2 => v == 3
  | .gdrCfg, _, _ => decide (5 ≤ v)
  | .gdrRetireCtl, _, _ => v == 0
  | .pavEroute, 15, 12 => decide (8 ≤ v)
  | .lpQuar, _, _ => v == 0
  | .lpTopo, 31, 16 => v == 0
  | .lpKmt, _, _ => v == 0
  | .telCtl, 47, 40 => false
  | .telCtl, _, _ => v == 0
  | .pwrCap, _, _ => decide (v < 600) || decide (1800 < v)
  | .pwrDroop, 7, 0 => decide (v < 10) || decide (100 < v)
  | .pwrCal, 15, 0 => v == 0
  | .pavQpSq, 59, 56 => v == 0 || decide (12 < v)
  | .pavQpCq, 59, 56 => v == 0 || decide (12 < v)
  | .cohBiasSize, 5, 0 => decide (v < 16) || decide (40 < v)
  | .wsOut, 40, 33 => decide (64 ≤ v) && v != 0xFF
  | _, _, _ => false

/-- A word with the bits of a mask taken from another. -/
def maskPut (old v mask : Nat) : Nat := (old &&& (mask ^^^ (2 ^ 64 - 1))) ||| (v &&& mask)

/-- One field written by its access type; `mask` the bits that the access covers. -/
def State.fieldWrite (s : State) (r : Reg) (i j mask v : Nat) (f : FieldRow) : State :=
  let fm := bitsOf (2 ^ 64 - 1) f.hi f.lo &&& mask
  let active := (s.reg r i j).toNat
  if fm = 0 then s
  else
    match f.acc with
    | .rw =>
      let w := maskPut active v fm
      if reservedValue r f.hi f.lo (natField w f.hi f.lo) then s else s.setReg r i j (BitVec.ofNat 64 w)
    | .sc =>
      let w := maskPut (s.shadow r i j).toNat v fm
      if reservedValue r f.hi f.lo (natField w f.hi f.lo) then s else s.setShadow r i j (BitVec.ofNat 64 w)
    | .w1c => s.setReg r i j (BitVec.ofNat 64 (maskPut active 0 (v &&& fm)))
    | .w1s => s.setReg r i j (BitVec.ofNat 64 (active ||| (v &&& fm)))
    | _ => s

/-- Every field of a register written by its access type. -/
def State.plainWrite (s : State) (r : Reg) (i j mask v : Nat) : State :=
  r.fields.foldl (fun s f => s.fieldWrite r i j mask v f) s

/-- The commit registers. -/
def isCommit (r : Reg) : Bool :=
  [Reg.orgRgnCommit, .smmuCtxCommit, .wsCommit, .wsOutCommit, .cohBiasCommit, .pavProgCommit, .pavQpCommit].contains r

/-- A write of a commit register: ERROR, and REASON with it, cleared where 1 is written, and GO requests the commit (R10, R166,
R167). -/
def State.commitWrite (s : State) (r : Reg) (i v : Nat) : State :=
  let s := if v.testBit 2 then (s.wr (commitErrF r) i 0 0).wr (commitReasonF r) i 0 0 else s
  if v.testBit 0 then s.commitGo r i else s

/-- A write of PWR_THERM (R569). -/
def State.thermWrite (s : State) (v : Nat) : State :=
  let t := natField v 15 8
  let w := natField v 7 0
  let s := if 110 < t then s else s.wr F.pwrTherm_THROTTLE 0 0 t
  if w < 60 ∨ s.rd F.pwrTherm_THROTTLE 0 0 < w then s else s.wr F.pwrTherm_WARN 0 0 w

/-- A write of LP_WFILL: each code of a nibble that is not reserved is taken. -/
def State.wfillWrite (s : State) (i v : Nat) : State :=
  let old := (s.reg .lpWfill i 0).toNat
  let at_ := fun (w k : Nat) => natField w (4 * k + 3) (4 * k)
  s.setReg .lpWfill i 0 (BitVec.ofNat 64 (((List.range 16).map fun k =>
    (if 9 ≤ at_ v k ∧ at_ v k ≤ 14 then at_ old k else at_ v k) * 2 ^ (4 * k)).sum))

/-- The state of an outcome that is a next state. -/
def stateOf (o : Out) (s : State) : State :=
  match o with
  | .next t => t
  | _ => s

/-- The 64-bit value that a handler sees: the bits written, and the RW bits that the access does not cover. -/
def State.handled (s : State) (r : Reg) (i j mask v : Nat) : Nat :=
  maskPut ((r.fields.map fun f => match f.acc with
    | .rw => bitsOf (s.reg r i j).toNat f.hi f.lo
    | _ => 0).sum) v mask

/-- Registers of the Trellis control block that it takes no write of (R156). -/
def trellisReadOnly : List Reg := [.trlStatus, .trlKeys, .trlDigest, .trlAgd, .trlPavEpoch, .trlSpareLive]

/-- Whether an offset of register space lies in the Trellis control block, which refuses every write that it does not take. -/
def inTrellis (x : Nat) : Bool := decide (0xA00_0000 ≤ x) && decide (x < 0xA01_0000)

/-- A write of a register whose chapter gives it more than its access types. -/
def State.regEffect (s : State) (a : Actor) (size : Nat) (r : Reg) (i j mask v : Nat) : State :=
  let n := s.handled r i j mask v
  let w := BitVec.ofNat 64 n
  let low := mask % 2 ^ 16 != 0
  match r with
  | .bedCtl => if n.testBit 0 then stateOf (bedResetOp a i s) s else s
  | .stlState => stateOf (stlStateWriteOp a i w s) s
  | .stlGroup => stateOf (stlGroupWriteOp a i w s) s
  | .trlCtl => s.trlWrite a w
  | .trlAgree => s.agreeWrite i j w
  | .trlEpoch => if a = .keeper then s.epochFloor (n / 2 ^ 32) else s.refuse
  | .orgFlush => stateOf (orgFlushOp a i w s) s
  | .gdrPlot => stateOf (gdrPlotWriteOp a i j w s) s
  | .gdrCfg => if s.rd F.gdrStatus_STATE i 0 = 0 ∧ s.rd F.kprBoot_STEP 0 0 < 5 then s.plainWrite r i j mask v else s
  | .smmuInv => s.invWrite a size w
  | .cohCtl => s.ooForceWrite a i w
  | .cohBiasCtl => s.biasWrite a w
  | .coreErr => if n.testBit 63 then (s.wr F.coreErr_V i j 0).wr F.coreErr_MULTI i j 0 else s
  | .pavCtl => s.pavCtlWrite i w
  | .pavFence => stateOf (pavFenceWriteOp a i w s) s
  | .pavQpToken0 => stateOf (pavQpTokenWriteOp a i j 0 (BitVec.ofNat 64 (maskPut (s.reg r i j).toNat v mask)) s) s
  | .pavQpToken1 => stateOf (pavQpTokenWriteOp a i j 1 (BitVec.ofNat 64 (maskPut (s.reg r i j).toNat v mask)) s) s
  | .pavSqTail => if low then stateOf (sqDoorbellOp a i j w s) s else s
  | .pavCqHead => if low then stateOf (cqHeadWriteOp a i j w s) s else s
  | .pavEvec => stateOf (pavEvecWriteOp a i j w s) s
  | .lpCtl => s.lpCtlWrite a i w
  | .lpDevlost => stateOf (lpDevlostWriteOp a i w s) s
  | .lpDevclr => stateOf (lpDevclrWriteOp a i w s) s
  | .lpWfill => s.wfillWrite i n
  | .lpTopo => if (List.range 12).any s.lpUp then s.refuse else s.plainWrite r i j mask v
  | .pwrPaceReq => if low then stateOf (paceRequestWriteOp a w s) s else s
  | .pwrBrake => s.brakeWrite a w
  | .pwrTherm => if low then s.thermWrite n else s
  | .kprReset => s.kprResetWrite a w
  | .kprMbxSubmit => if size = 8 then (s.mbxWrite w).2 else s
  | _ =>
    if isCommit r then (if pageRegs.contains r then s.pageWrite fun s => s.commitWrite r i n else s.commitWrite r i n)
    else if trellisReadOnly.contains r then s.refuse
    else if pageRegs.contains r then s.pageWrite fun s => s.plainWrite r i j mask v
    else s.plainWrite r i j mask v

/-- A write of `size` bytes at an address of register space outside the core interrupt block (R4 to R8, R610). -/
def State.regWrite (s : State) (a : Actor) (addr size : Nat) (v : Nat) : RegRes :=
  let x := addr - regBase
  if !regShape addr size then .refuse St.accessFault s
  else
    match spanAt x with
    | none => .refuse St.accessFault s
    | some w =>
      let at_ := regAt x
      let w := (at_.bind fun e => lodgeWriters e.1).getD w
      if w = .machine && !machineActor a then .refuse St.accessFault s
      else if w = .nobody then .done 0 s
      else
        match at_ with
        | none => if inTrellis x then .refuse St.accessFault s else .done 0 s
        | some (r, i, j, b) =>
          let mask := (2 ^ (8 * size) - 1) * 2 ^ (8 * b)
          let t := s.regEffect a size r i j mask (v % 2 ^ (8 * size) * 2 ^ (8 * b))
          match (t.out.drop s.out.length).findSome? fun x => match x with
            | .status c => some c
            | _ => none with
          | some c => .refuse c { t with out := s.out }
          | none => .done 0 t

/-! ### The core interrupt block (Table 12-5, R611) -/

/-- Sources of the APLIC (Table 12-6). -/
def aplicSources : Nat := 6

/-- Whether a source is active in a domain: its mode is not inactive, and the domain has it. -/
def State.aplicActive (s : State) (d n : Nat) : Bool :=
  decide (1 ≤ n) && decide (n ≤ aplicSources) && s.aplicDomain n == d && s.aplic d (aplicSourcecfg n) % 8 != 0

/-- The bits of the active sources of a domain. -/
def State.aplicMask (s : State) (d : Nat) : Nat := ((List.range 7).map fun n => if s.aplicActive d n then 2 ^ n else 0).sum

/-- What a read of a word of the APLIC returns. -/
def State.aplicRead (s : State) (d off : Nat) : Nat :=
  if off = 0 then 0x80000004 + s.aplic d 0 % 512 / 256 * 256
  else if off < 4 * (aplicSources + 1) then s.aplic d off
  else if off = aplicIp ∨ off = aplicIe then s.aplic d off
  else if 0x3004 ≤ off ∧ off < 0x3004 + 4 * aplicSources then s.aplic d off
  else 0

/-- Pending sources forwarded where they are enabled. -/
def State.aplicPump (s : State) (d : Nat) : State := ((List.range 7).drop 1).foldl (fun s n => s.aplicForward d n) s

/-- A write of `sourcecfg`: delegation in the machine domain, or a source mode; a source that becomes inactive is neither
pending nor enabled. -/
def State.aplicConfig (s : State) (d n v : Nat) : State :=
  let sm := v % 8
  let clear := fun (s : State) (e : Nat) =>
    (s.setAplic e aplicIp (bitTo (s.aplic e aplicIp) n false)).setAplic e aplicIe (bitTo (s.aplic e aplicIe) n false)
  if d = 1 ∧ s.aplicDomain n = 0 then s
  else if d = 0 ∧ v.testBit 10 then (clear s 0).setAplic 0 (aplicSourcecfg n) 0x400
  else if sm = 2 ∨ sm = 3 then s
  else
    let s := if d = 0 ∧ s.aplicDomain n = 1 then (clear s 1).setAplic 1 (aplicSourcecfg n) 0 else s
    let s := if sm = 0 then clear s d else s
    s.setAplic d (aplicSourcecfg n) sm

/-- Bits of a word of the APLIC set or cleared, for active sources. -/
def State.aplicBits (s : State) (d off : Nat) (bits : Nat) (b : Bool) : State :=
  let m := bits &&& s.aplicMask d
  s.setAplic d off (if b then s.aplic d off ||| m else s.aplic d off &&& (m ^^^ (2 ^ 32 - 1)))

/-- A write of a word of the APLIC. -/
def State.aplicWrite (s : State) (d off v : Nat) : State :=
  if off = 0 then (s.setAplic d 0 (v % 512 / 256 * 256)).aplicPump d
  else if off % 4 = 0 ∧ off < 4 * (aplicSources + 1) then s.aplicConfig d (off / 4) v
  else if off = 0x1C00 then (s.aplicBits d aplicIp v true).aplicPump d
  else if off = 0x1CDC ∨ off = 0x2000 then (s.aplicBits d aplicIp (if v < 32 then 2 ^ v else 0) true).aplicPump d
  else if off = 0x1D00 then s.aplicBits d aplicIp v false
  else if off = 0x1DDC then s.aplicBits d aplicIp (if v < 32 then 2 ^ v else 0) false
  else if off = 0x1E00 then (s.aplicBits d aplicIe v true).aplicPump d
  else if off = 0x1EDC then (s.aplicBits d aplicIe (if v < 32 then 2 ^ v else 0) true).aplicPump d
  else if off = 0x1F00 then s.aplicBits d aplicIe v false
  else if off = 0x1FDC then s.aplicBits d aplicIe (if v < 32 then 2 ^ v else 0) false
  else if off = 0x3000 then s.msi 10 (natField v 31 18) (if d = 0 then 0 else 1) (natField v 10 0)
  else if 0x3004 ≤ off ∧ off < 0x3004 + 4 * aplicSources then
    s.setAplic d off (natField v 31 18 * 2 ^ 18 + (if d = 0 then 0 else bitsOf v 17 12) + natField v 10 0)
  else s

/-- The hart and file of an offset that lies in an interrupt file, and the byte in it. -/
def fileAt (x : Nat) : Option (Nat × Nat × Nat) :=
  if x < 0x1000 * 96 then some (x / 0x1000, 0, x % 0x1000)
  else if 0x10_0000 ≤ x ∧ x < 0x10_0000 + 0x8000 * 96 then
    let y := x - 0x10_0000
    some (y / 0x8000, 1 + y % 0x8000 / 0x1000, y % 0x1000)
  else none

/-- The APLIC word of an offset: its domain and offset. -/
def aplicAt (x : Nat) : Option (Nat × Nat) :=
  if 0x100_0000 ≤ x ∧ x < 0x100_4000 then some (0, x - 0x100_0000)
  else if 0x100_4000 ≤ x ∧ x < 0x100_8000 then some (1, x - 0x100_4000)
  else none

/-- A comparator written: its timer interrupt is pending no more where the time is below it. -/
def State.setCmp (s : State) (h : Nat) (v : BitVec 64) : State :=
  { s with hub := { s.hub with
    cmp := tset s.hub.cmp (h, .mtimecmp) v
    timer := if v.toNat ≤ s.mtime then s.hub.timer else s.hub.timer.filter fun e => e != (h, TimerSel.mtimecmp) } }

/-- The hart whose MTIMECMP lies at an offset, and the byte in it. -/
def cmpAt (x : Nat) : Option (Nat × Nat) :=
  if 0x80_0000 ≤ x ∧ x < 0x80_0000 + 8 * 96 then some ((x - 0x80_0000) / 8, x % 8) else none

/-- Offset of MTIME. -/
def mtimeAt : Nat := 0x80_7FF8

/-- A read in the core interrupt block: 4 or 8 bytes, aligned. -/
def State.intRead (s : State) (a size : Nat) : RegRes :=
  let x := a - regBase - intBase
  let piece := fun (v b : Nat) => RegRes.done (v / 2 ^ (8 * b) % 2 ^ (8 * size)) s
  if !regShape a size then .refuse St.accessFault s
  else
    match cmpAt x, aplicAt x with
    | some (h, b), _ => piece (s.timeCmp h .mtimecmp).toNat b
    | none, some (d, off) => if size = 4 then .done (s.aplicRead d off) s else .refuse St.accessFault s
    | none, none => if x / 8 = mtimeAt / 8 then piece s.mtime (x % 8) else .done 0 s

/-- A write in the core interrupt block. An interrupt file takes 4-byte writes of `seteipnum_le` (R433). -/
def State.intWrite (s : State) (a size v : Nat) : RegRes :=
  let x := a - regBase - intBase
  if !regShape a size then .refuse St.accessFault s
  else
    let put := fun (old b : Nat) => maskPut old (v % 2 ^ (8 * size) * 2 ^ (8 * b)) ((2 ^ (8 * size) - 1) * 2 ^ (8 * b))
    match fileAt x, cmpAt x, aplicAt x with
    | some (h, f, off), _, _ =>
      if size ≠ 4 then .refuse St.accessFault s else .done 0 (if off = 0 then s.msi 10 h f (v % 2 ^ 32) else s)
    | none, some (h, b), _ => .done 0 (s.setCmp h (BitVec.ofNat 64 (put (s.timeCmp h .mtimecmp).toNat b)))
    | none, none, some (d, off) => if size = 4 then .done 0 (s.aplicWrite d off (v % 2 ^ 32)) else .refuse St.accessFault s
    | none, none, none =>
      if x / 8 = mtimeAt / 8 then .done 0 { s with mtime := put s.mtime (x % 8) } else .done 0 s

/-! ### Accesses to register space -/

/-- Whether an address lies in the core interrupt block. -/
def inInt (a : Nat) : Bool := decide (regBase + intBase ≤ a) && decide (a < regBase + intBase + intSize)

/-- A read of register space. -/
def State.spaceRead (s : State) (a size : Nat) : RegRes := if inInt a then s.intRead a size else s.regRead a size

/-- A write of register space by a requester. -/
def State.spaceWrite (s : State) (who : Actor) (a size : Nat) (v : Nat) : RegRes :=
  if inInt a then s.intWrite a size v else s.regWrite who a size v

/-- REGISTER_WRITE (R8): a write of the Keeper or a hart at an address of register space, by the access types of its fields
and the rules of its block; a refused one answers with its status and changes no state (R4). -/
def execRegisterWrite (a : Actor) (addr size : Nat) (v : BitVec 64) (s : State) : Out :=
  if !inRegs addr then .next s.refuse
  else
    match s.spaceWrite a addr size v.toNat with
    | .done _ t => .next t
    | .refuse c t => .next (t.send (.status c))

end Sys2Proof.Machine
end

