-- ==== Sys2Proof/Machine/Cores.lean ====
section
/-! DEFINITION. The accesses of the harts (11.2, 12.3), MSIs (R433) and the SBI extension KXS (R437 to R440). -/

namespace Sys2Proof.Machine

/-! ### Loads and stores (Table 12-3, R385, R412, R425) -/

/-- Whether an access lies in the memory ranges of Table 12-3. -/
def inMemory (a n : Nat) : Bool :=
  let m := fun (x : Nat) => inGddr x || inScratch x || inCells x
  m a && m (a + n - 1)

/-- Whether an address lies in the remote window aperture. -/
def inAperture (a : Nat) : Bool := decide (apertureBase ≤ a) && decide (a < apertureBase + 2 ^ 40)

/-- The exception of a hart's store. -/
def State.storeFault (s : State) (h : Nat) : State := s.send (.trap h 7)

/-- Whether an access goes through the core caches: a mapping that is not IO, of lines that may be cached. -/
def State.throughCache (s : State) (io : Bool) (a n : Nat) : Bool := !io && (linePieces a n).all fun e => s.cacheable e.1

/-- The first piece of a hart's access that is refused or must wait. -/
def State.admitHart (s : State) (r : Requester) (write : Bool) (a n : Nat) : Adm :=
  ((linePieces a n).findSome? fun e => match s.admits r write e.1 e.2 with
    | .ok => none
    | x => some x).getD .ok

/-- A load of a hart from memory. -/
def State.memLoad (s : State) (h : Nat) (mode : Mode) (a n : Nat) (io fetch : Bool) : State :=
  if s.throughCache io a n then
    match s.admitHart (.hart h mode io) false a n with
    | .ok => s.loadTry false ⟨h, a, n, fetch⟩
    | .wait => s
    | .refuse _ => s.loadFault h fetch
  else
    match s.readAs (.hart h mode io) false false a n with
    | .done bs t => t.answerLoad h a fetch 4 bs
    | .wait => s
    | .refuse _ t => t.loadFault h fetch

/-- CORE_LOAD (R385, R425): a load or fetch of a hart, at the home of its address, in register space or through the remote
window aperture. -/
def execCoreLoad (hart : Nat) (mode : Mode) (pa size : Nat) (io fetch : Bool) (s : State) : Out :=
  if inAperture pa then apertureAccessOp hart pa size .load 0 s
  else if inRegs pa then
    match s.spaceRead pa size with
    | .done v t => .next (t.send (.hart hart (BitVec.ofNat 64 v)))
    | .refuse _ t => .next (t.loadFault hart fetch)
  else if !inMemory pa size || (inCells pa && pa % size != 0) then .next (s.loadFault hart fetch)
  else .next (s.memLoad hart mode pa size io fetch)

/-- A store of a hart to memory: one entry of the store buffer for each line, or at the memory. -/
def State.memStore (s : State) (h : Nat) (mode : Mode) (a : Nat) (io : Bool) (bs : List Byte) : State :=
  if s.throughCache io a bs.length then
    match s.admitHart (.hart h mode io) true a bs.length with
    | .ok => s.pushStores h ((linePieces a bs.length).map fun e => ⟨e.1, (bs.drop (e.1 - a)).take e.2⟩)
    | .wait => s
    | .refuse _ => s.storeFault h
  else
    match s.writeAs (.hart h mode io) false false a bs with
    | .done _ t => t
    | .wait => s
    | .refuse _ t => t.storeFault h

/-- CORE_STORE (R385, R425). -/
def execCoreStore (hart : Nat) (mode : Mode) (pa size : Nat) (io : Bool) (v : BitVec 64) (s : State) : Out :=
  if inAperture pa then apertureAccessOp hart pa size .store v s
  else if inRegs pa then
    match s.spaceWrite (.hart hart mode) pa size v.toNat with
    | .done _ t => .next t
    | .refuse _ t => .next (t.storeFault hart)
  else if !inMemory pa size || (inCells pa && pa % size != 0) then .next (s.storeFault hart)
  else .next (s.memStore hart mode pa io (leBytes size v.toNat))

/-! ### MSIs (R433, R435) -/

/-- MSI_WRITE (R433): an identity of 1 to 511 set pending in a file of a hart (0 machine, 1 supervisor, 2 to 8 guest). -/
def execMsiWrite (hart file ident : Nat) (s : State) : Out :=
  .next (if hart < 96 ∧ file < 9 then s.msi 10 hart file ident else s)

/-! ### KXS (Table 12-7) -/

/-- Registers that the allowlist covers by default, beside the blocks of the stream MMU, the Waystation and the stiles. -/
def defaultRegs : List Reg :=
  [.trlCtl, .trlStageBase, .trlStageLen, .gdrPlot, .orgRgnBase, .orgRgnSize, .orgRgnAttr, .orgRgnCommit, .orgFlush, .cohCtl,
    .cohStatus, .cohCnt, .cohLost, .cohBiasBase, .cohBiasSize, .cohBiasCtl, .cohBiasCommit]

/-- Blocks that the allowlist covers by default. -/
def defaultBlocks : List (Nat × Nat) := [(0x800_0000, 0x801_0000), (0x900_0000, 0x910_0000), (0xB00_0000, 0xB10_0000)]

/-- Whether the allowlist covers an address (R438): TRL_EPOCH never, else what the firmware configuration lists, or the default. -/
def State.kxsAllows (s : State) (pa : Nat) : Bool :=
  let x := pa - regBase
  let r := (regAt x).map (·.1)
  let base := defaultBlocks.any (fun e => decide (e.1 ≤ x) && decide (x < e.2)) || r.any defaultRegs.contains
  inRegs pa && r != some .trlEpoch
    && if s.kpr.cfg.allow.isEmpty then base else s.kpr.cfg.allow.any fun e => decide (e.1 ≤ pa) && decide (pa + 8 ≤ e.1 + e.2)

/-- SBI_ERR_DENIED. -/
def sbiDenied : Int := -4
/-- SBI_ERR_INVALID_ADDRESS. -/
def sbiAddress : Int := -5
/-- SBI_ERR_ALREADY_STARTED. -/
def sbiStarted : Int := -7

/-- KXS_REG_WRITE (R437, R438): an 8-byte store in machine mode, which returns once it is performed or refused; a write that
waits for a place in the invalidation queue does not return yet. -/
def execKxsRegWrite (hart pa : Nat) (v : BitVec 64) (s : State) : Out :=
  if pa % 8 ≠ 0 then .next (s.send (.sbi hart sbiAddress 0))
  else if !s.kxsAllows pa then .next (s.send (.sbi hart sbiDenied 0))
  else
    match s.spaceWrite (.hart hart .m) pa 8 v.toNat with
    | .done _ t => .next (if s.smmu.waiting.length < t.smmu.waiting.length then s else t.send (.sbi hart 0 0))
    | .refuse _ t => .next (t.send (.sbi hart sbiDenied 0))

/-- KXS_REG_READ (R437). -/
def execKxsRegRead (hart pa : Nat) (s : State) : Out :=
  if pa % 8 ≠ 0 then .next (s.send (.sbi hart sbiAddress 0))
  else if !s.kxsAllows pa then .next (s.send (.sbi hart sbiDenied 0))
  else
    match s.spaceRead pa 8 with
    | .done v t => .next (t.send (.sbi hart 0 (BitVec.ofNat 64 v)))
    | .refuse _ t => .next (t.send (.sbi hart sbiDenied 0))

/-- KXS_KEEPER (R437, R440): the request submitted to the mailbox; its number is SUBMITTED after it. -/
def execKxsKeeper (hart pa len : Nat) (s : State) : Out :=
  if pa % 8 ≠ 0 then .next (s.send (.sbi hart sbiAddress 0))
  else if kPlaces ≤ s.kpr.queue.length then .next (s.send (.sbi hart sbiStarted 0))
  else if pa % 16 ≠ 0 ∨ 2 ^ 52 ≤ pa ∨ len % 16 ≠ 0 ∨ 4096 < len then .next (s.send (.sbi hart sbiDenied 0))
  else
    let (ok, t) := s.mbxWrite (BitVec.ofNat 64 (len / 16 * 2 ^ 52 + pa))
    if ok then .next (t.send (.sbi hart 0 (BitVec.ofNat 64 (t.rd F.kprMbxStatus_SUBMITTED 0 0))))
    else .next (t.send (.sbi hart sbiDenied 0))

end Sys2Proof.Machine
end

