-- ==== Sys2Proof/Machine/Dispatch.lean ====
section
/-! DEFINITION. One arm for each command: a direct call of its meaning. -/

namespace Sys2Proof.Machine

/-- The effect of a command on everything but the queue. -/
def exec (i : Instr) (s : State) : Host.Outcome State Fault Refusal :=
  match i with
  | .registerWrite a addr size v => Sys2Proof.Machine.execRegisterWrite a addr size v s
  | .d2dFlitReceive die port f crc => Sys2Proof.Machine.execD2dFlitReceive die port f crc s
  | .d2dFlitTransmit die port => Sys2Proof.Machine.execD2dFlitTransmit die port s
  | .d2dFlitRetransmit die port seq => Sys2Proof.Machine.execD2dFlitRetransmit die port seq s
  | .d2dLaneFailover die port lane => Sys2Proof.Machine.execD2dLaneFailover die port lane s
  | .d2dLaneDegrade die port lane => Sys2Proof.Machine.execD2dLaneDegrade die port lane s
  | .d2dPortDown die port => Sys2Proof.Machine.execD2dPortDown die port s
  | .d2dReroute src dst => Sys2Proof.Machine.execD2dReroute src dst s
  | .lodgeBusFail die => Sys2Proof.Machine.execLodgeBusFail die s
  | .referenceLost ref => Sys2Proof.Machine.execReferenceLost ref s
  | .containedFault f => Sys2Proof.Machine.execContainedFault f s
  | .sharedFaultEvent f => Sys2Proof.Machine.execSharedFaultEvent f s
  | .laneStep cell row col => Sys2Proof.Machine.execLaneStep cell row col s
  | .cellStoreBankAccess cell bank => Sys2Proof.Machine.execCellStoreBankAccess cell bank s
  | .feederDeliver cell west => Sys2Proof.Machine.execFeederDeliver cell west s
  | .drainRowAccept cell => Sys2Proof.Machine.execDrainRowAccept cell s
  | .bedBusTransfer bed track parityOk => Sys2Proof.Machine.execBedBusTransfer bed track parityOk s
  | .bedReset a bed => Sys2Proof.Machine.execBedReset a bed s
  | .trlStage a v => Sys2Proof.Machine.execTrlStage a v s
  | .trlStageCopyEnd => Sys2Proof.Machine.execTrlStageCopyEnd s
  | .trlVerify a v => Sys2Proof.Machine.execTrlVerify a v s
  | .trlVerifyDone => Sys2Proof.Machine.execTrlVerifyDone s
  | .trlCommit a v => Sys2Proof.Machine.execTrlCommit a v s
  | .trlPavCommitDone => Sys2Proof.Machine.execTrlPavCommitDone s
  | .trlAbort a v => Sys2Proof.Machine.execTrlAbort a v s
  | .digestRecomputeDone => Sys2Proof.Machine.execDigestRecomputeDone s
  | .trlDigestCapture a => Sys2Proof.Machine.execTrlDigestCapture a s
  | .trlAgdCapture a p => Sys2Proof.Machine.execTrlAgdCapture a p s
  | .trlAgreeClear a n ix => Sys2Proof.Machine.execTrlAgreeClear a n ix s
  | .beaconSend n ix => Sys2Proof.Machine.execBeaconSend n ix s
  | .graceTimerExpire n ix => Sys2Proof.Machine.execGraceTimerExpire n ix s
  | .orgRgnCommitGo a => Sys2Proof.Machine.execOrgRgnCommitGo a s
  | .orgRgnCommitApply die => Sys2Proof.Machine.execOrgRgnCommitApply die s
  | .smmuCtxCommitGo a p => Sys2Proof.Machine.execSmmuCtxCommitGo a p s
  | .smmuCtxCommitApply p => Sys2Proof.Machine.execSmmuCtxCommitApply p s
  | .wsCommitGo a => Sys2Proof.Machine.execWsCommitGo a s
  | .wsCommitApply => Sys2Proof.Machine.execWsCommitApply s
  | .wsOutCommitGo a => Sys2Proof.Machine.execWsOutCommitGo a s
  | .wsOutCommitApply => Sys2Proof.Machine.execWsOutCommitApply s
  | .cohBiasCommitGo a => Sys2Proof.Machine.execCohBiasCommitGo a s
  | .cohBiasCommitApply => Sys2Proof.Machine.execCohBiasCommitApply s
  | .pavProgCommitGo a p => Sys2Proof.Machine.execPavProgCommitGo a p s
  | .pavProgCommitApply p => Sys2Proof.Machine.execPavProgCommitApply p s
  | .programRegistrationDone p => Sys2Proof.Machine.execProgramRegistrationDone p s
  | .pavQpCommitGo a p => Sys2Proof.Machine.execPavQpCommitGo a p s
  | .pavQpCommitApply p => Sys2Proof.Machine.execPavQpCommitApply p s
  | .wordIssue p die => Sys2Proof.Machine.execWordIssue p die s
  | .prefetchWord p die => Sys2Proof.Machine.execPrefetchWord p die s
  | .ctlRepeat p die n => Sys2Proof.Machine.execCtlRepeat p die n s
  | .ctlLoop p die n last => Sys2Proof.Machine.execCtlLoop p die n last s
  | .ctlBrp p die bed pred cond target => Sys2Proof.Machine.execCtlBrp p die bed pred cond target s
  | .branchOutcome p die taken target => Sys2Proof.Machine.execBranchOutcome p die taken target s
  | .ctlWait p die stile t sc level => Sys2Proof.Machine.execCtlWait p die stile t sc level s
  | .ctlHalt p die => Sys2Proof.Machine.execCtlHalt p die s
  | .pavilionHalted p => Sys2Proof.Machine.execPavilionHalted p s
  | .ctlMark p die writeOk => Sys2Proof.Machine.execCtlMark p die writeOk s
  | .markComplete p => Sys2Proof.Machine.execMarkComplete p s
  | .ctlQuiet p die classes len => Sys2Proof.Machine.execCtlQuiet p die classes len s
  | .quietClose p => Sys2Proof.Machine.execQuietClose p s
  | .ctlPfh p die target count => Sys2Proof.Machine.execCtlPfh p die target count s
  | .signalPart p die sig => Sys2Proof.Machine.execSignalPart p die sig s
  | .replayRestore p => Sys2Proof.Machine.execReplayRestore p s
  | .stlStateWrite a st v => Sys2Proof.Machine.execStlStateWrite a st v s
  | .stlGroupWrite a g v => Sys2Proof.Machine.execStlGroupWrite a g v s
  | .mmul ag x => Sys2Proof.Machine.execMmul ag x s
  | .cvta x => Sys2Proof.Machine.execCvta x s
  | .cvtm x => Sys2Proof.Machine.execCvtm x s
  | .cvtSeed x => Sys2Proof.Machine.execCvtSeed x s
  | .scld x => Sys2Proof.Machine.execScld x s
  | .rsld x => Sys2Proof.Machine.execRsld x s
  | .rsadd x => Sys2Proof.Machine.execRsadd x s
  | .rsclr x => Sys2Proof.Machine.execRsclr x s
  | .stex x => Sys2Proof.Machine.execStex x s
  | .dld o => Sys2Proof.Machine.execDld o s
  | .run o => Sys2Proof.Machine.execRun o s
  | .streamRequestIssue eng ctx => Sys2Proof.Machine.execStreamRequestIssue eng ctx s
  | .streamResponse eng ctx tag => Sys2Proof.Machine.execStreamResponse eng ctx tag s
  | .burstDeliver eng ctx => Sys2Proof.Machine.execBurstDeliver eng ctx s
  | .caravanBurstForward eng ctx stop => Sys2Proof.Machine.execCaravanBurstForward eng ctx stop s
  | .caravanStopConfirm eng ctx stop => Sys2Proof.Machine.execCaravanStopConfirm eng ctx stop s
  | .runComplete eng ctx => Sys2Proof.Machine.execRunComplete eng ctx s
  | .contextStopped eng ctx => Sys2Proof.Machine.execContextStopped eng ctx s
  | .moveRelease p => Sys2Proof.Machine.execMoveRelease p s
  | .vadd bed o => Sys2Proof.Machine.execVadd bed o s
  | .vsub bed o => Sys2Proof.Machine.execVsub bed o s
  | .vmul bed o => Sys2Proof.Machine.execVmul bed o s
  | .vfma bed o => Sys2Proof.Machine.execVfma bed o s
  | .vmin bed o => Sys2Proof.Machine.execVmin bed o s
  | .vmax bed o => Sys2Proof.Machine.execVmax bed o s
  | .vdiv bed o => Sys2Proof.Machine.execVdiv bed o s
  | .vsqrt bed o => Sys2Proof.Machine.execVsqrt bed o s
  | .vexp2 bed o => Sys2Proof.Machine.execVexp2 bed o s
  | .vlog2 bed o => Sys2Proof.Machine.execVlog2 bed o s
  | .vcmp bed o => Sys2Proof.Machine.execVcmp bed o s
  | .vsel bed o => Sys2Proof.Machine.execVsel bed o s
  | .vred bed o => Sys2Proof.Machine.execVred bed o s
  | .vbcs bed o => Sys2Proof.Machine.execVbcs bed o s
  | .vcvt bed o => Sys2Proof.Machine.execVcvt bed o s
  | .vld bed o => Sys2Proof.Machine.execVld bed o s
  | .vst bed o => Sys2Proof.Machine.execVst bed o s
  | .vrcv bed o => Sys2Proof.Machine.execVrcv bed o s
  | .vbsnd bed o => Sys2Proof.Machine.execVbsnd bed o s
  | .vbrcv bed o => Sys2Proof.Machine.execVbrcv bed o s
  | .plog bed o => Sys2Proof.Machine.execPlog bed o s
  | .flclr bed o => Sys2Proof.Machine.execFlclr bed o s
  | .sli bed o => Sys2Proof.Machine.execSli bed o s
  | .sget bed o => Sys2Proof.Machine.execSget bed o s
  | .ordf o => Sys2Proof.Machine.execOrdf o s
  | .endf o => Sys2Proof.Machine.execEndf o s
  | .xchSignal o => Sys2Proof.Machine.execXchSignal o s
  | .xchSet o => Sys2Proof.Machine.execXchSet o s
  | .xchToken o => Sys2Proof.Machine.execXchToken o s
  | .xchBind o => Sys2Proof.Machine.execXchBind o s
  | .xchUnbind o => Sys2Proof.Machine.execXchUnbind o s
  | .xchSend o => Sys2Proof.Machine.execXchSend o s
  | .allred o => Sys2Proof.Machine.execAllred o s
  | .rscat o => Sys2Proof.Machine.execRscat o s
  | .agath o => Sys2Proof.Machine.execAgath o s
  | .collectiveDone p eng plan => Sys2Proof.Machine.execCollectiveDone p eng plan s
  | .fpol o => Sys2Proof.Machine.execFpol o s
  | .homeAgentAccess die => Sys2Proof.Machine.execHomeAgentAccess die s
  | .nextLinePrefetch die => Sys2Proof.Machine.execNextLinePrefetch die s
  | .orgFlush a die v => Sys2Proof.Machine.execOrgFlush a die v s
  | .orgFlushDone die => Sys2Proof.Machine.execOrgFlushDone die s
  | .atomic r addr size op v cmp => Sys2Proof.Machine.execAtomic r addr size op v cmp s
  | .blkadd r addr fmt data => Sys2Proof.Machine.execBlkadd r addr fmt data s
  | .gddrAccess die => Sys2Proof.Machine.execGddrAccess die s
  | .gddrTrackingRead die temps margins => Sys2Proof.Machine.execGddrTrackingRead die temps margins s
  | .gddrRetrainDone die failed temps => Sys2Proof.Machine.execGddrRetrainDone die failed temps s
  | .scrubGroup die comp => Sys2Proof.Machine.execScrubGroup die comp s
  | .gdrPlotWrite a die plot v => Sys2Proof.Machine.execGdrPlotWrite a die plot v s
  | .plotZeroFillDone die plot => Sys2Proof.Machine.execPlotZeroFillDone die plot s
  | .translationWalk p va need u => Sys2Proof.Machine.execTranslationWalk p va need u s
  | .smmuInvRange a size v => Sys2Proof.Machine.execSmmuInvRange a size v s
  | .smmuInvTag a size v => Sys2Proof.Machine.execSmmuInvTag a size v s
  | .smmuInvAll a size v => Sys2Proof.Machine.execSmmuInvAll a size v s
  | .smmuInvTakeEffect => Sys2Proof.Machine.execSmmuInvTakeEffect s
  | .smmuInvComplete => Sys2Proof.Machine.execSmmuInvComplete s
  | .apertureAccess hart addr size kind v => Sys2Proof.Machine.execApertureAccess hart addr size kind v s
  | .retryResend port tag => Sys2Proof.Machine.execRetryResend port tag s
  | .commitStileApply k => Sys2Proof.Machine.execCommitStileApply k s
  | .coreLoad hart mode pa size io fetch => Sys2Proof.Machine.execCoreLoad hart mode pa size io fetch s
  | .coreStore hart mode pa size io v => Sys2Proof.Machine.execCoreStore hart mode pa size io v s
  | .coreEviction cd la => Sys2Proof.Machine.execCoreEviction cd la s
  | .readShared cd la => Sys2Proof.Machine.execReadShared cd la s
  | .readOwn cd la => Sys2Proof.Machine.execReadOwn cd la s
  | .upgrade cd la => Sys2Proof.Machine.execUpgrade cd la s
  | .cleanEvict cd la => Sys2Proof.Machine.execCleanEvict cd la s
  | .writeBack cd la => Sys2Proof.Machine.execWriteBack cd la s
  | .snpShared cd la => Sys2Proof.Machine.execSnpShared cd la s
  | .snpClean cd la => Sys2Proof.Machine.execSnpClean cd la s
  | .snpOwn cd la => Sys2Proof.Machine.execSnpOwn cd la s
  | .snpInv cd la => Sys2Proof.Machine.execSnpInv cd la s
  | .backInvalidation cd la => Sys2Proof.Machine.execBackInvalidation cd la s
  | .promote cd la => Sys2Proof.Machine.execPromote cd la s
  | .snpQuery die cd => Sys2Proof.Machine.execSnpQuery die cd s
  | .presenceRecord die cd la st => Sys2Proof.Machine.execPresenceRecord die cd la st s
  | .endRecord die cd => Sys2Proof.Machine.execEndRecord die cd s
  | .cohAck cd la => Sys2Proof.Machine.execCohAck cd la s
  | .ackWb cd la => Sys2Proof.Machine.execAckWb cd la s
  | .cohComplete cd la => Sys2Proof.Machine.execCohComplete cd la s
  | .coherenceData dst la data => Sys2Proof.Machine.execCoherenceData dst la data s
  | .cohOoForce a die v => Sys2Proof.Machine.execCohOoForce a die v s
  | .ownerOrderDrained die => Sys2Proof.Machine.execOwnerOrderDrained die s
  | .biasRelease a v => Sys2Proof.Machine.execBiasRelease a v s
  | .biasRecall a v => Sys2Proof.Machine.execBiasRecall a v s
  | .biasDone => Sys2Proof.Machine.execBiasDone s
  | .kxEfence x => Sys2Proof.Machine.execKxEfence x s
  | .kxLclean x pa gate perm => Sys2Proof.Machine.execKxLclean x pa gate perm s
  | .kxLflush x pa gate perm => Sys2Proof.Machine.execKxLflush x pa gate perm s
  | .kxLzero x pa gate perm => Sys2Proof.Machine.execKxLzero x pa gate perm s
  | .cboClean hart pa gate perm => Sys2Proof.Machine.execCboClean hart pa gate perm s
  | .cboFlush hart pa gate perm => Sys2Proof.Machine.execCboFlush hart pa gate perm s
  | .cboInval hart pa gate perm => Sys2Proof.Machine.execCboInval hart pa gate perm s
  | .cboZero hart pa gate perm => Sys2Proof.Machine.execCboZero hart pa gate perm s
  | .msiWrite hart file ident => Sys2Proof.Machine.execMsiWrite hart file ident s
  | .kxsRegWrite hart pa v => Sys2Proof.Machine.execKxsRegWrite hart pa v s
  | .kxsRegRead hart pa => Sys2Proof.Machine.execKxsRegRead hart pa s
  | .kxsKeeper hart pa len => Sys2Proof.Machine.execKxsKeeper hart pa len s
  | .srstWarmReboot hart => Sys2Proof.Machine.execSrstWarmReboot hart s
  | .srstColdReboot hart => Sys2Proof.Machine.execSrstColdReboot hart s
  | .pavReset a p v => Sys2Proof.Machine.execPavReset a p v s
  | .pavResetDone p => Sys2Proof.Machine.execPavResetDone p s
  | .pavRelease a p v => Sys2Proof.Machine.execPavRelease a p v s
  | .pavFenceWrite a p v => Sys2Proof.Machine.execPavFenceWrite a p v s
  | .sqEntryTake p => Sys2Proof.Machine.execSqEntryTake p s
  | .sqDoorbell a p q v => Sys2Proof.Machine.execSqDoorbell a p q v s
  | .cqHeadWrite a p q v => Sys2Proof.Machine.execCqHeadWrite a p q v s
  | .pavQpTokenWrite a p q word v => Sys2Proof.Machine.execPavQpTokenWrite a p q word v s
  | .pavEvecWrite a p vec v => Sys2Proof.Machine.execPavEvecWrite a p vec v s
  | .pmdUp port => Sys2Proof.Machine.execPmdUp port s
  | .pmdTrainingFail port => Sys2Proof.Machine.execPmdTrainingFail port s
  | .hello port h => Sys2Proof.Machine.execHello port h s
  | .finish port session sig => Sys2Proof.Machine.execFinish port session sig s
  | .handshakeTimeout port => Sys2Proof.Machine.execHandshakeTimeout port s
  | .handshakeRetry port => Sys2Proof.Machine.execHandshakeRetry port s
  | .slpWrite port f => Sys2Proof.Machine.execSlpWrite port f s
  | .slpRead port f => Sys2Proof.Machine.execSlpRead port f s
  | .slpAtomic port f => Sys2Proof.Machine.execSlpAtomic port f s
  | .slpToken port f => Sys2Proof.Machine.execSlpToken port f s
  | .slpColl port f => Sys2Proof.Machine.execSlpColl port f s
  | .slpAck port f => Sys2Proof.Machine.execSlpAck port f s
  | .slpRdata port f => Sys2Proof.Machine.execSlpRdata port f s
  | .slpRefuse port f => Sys2Proof.Machine.execSlpRefuse port f s
  | .slpRetry port f => Sys2Proof.Machine.execSlpRetry port f s
  | .slpBeacon port f => Sys2Proof.Machine.execSlpBeacon port f s
  | .slpCredit port f => Sys2Proof.Machine.execSlpCredit port f s
  | .lack port f => Sys2Proof.Machine.execLack port f s
  | .lnak port f => Sys2Proof.Machine.execLnak port f s
  | .linkIdle port f => Sys2Proof.Machine.execLinkIdle port f s
  | .degrade port f => Sys2Proof.Machine.execDegrade port f s
  | .failover port f => Sys2Proof.Machine.execFailover port f s
  | .portFrameSend port => Sys2Proof.Machine.execPortFrameSend port s
  | .lackTimer port => Sys2Proof.Machine.execLackTimer port s
  | .creditReturnTimer port => Sys2Proof.Machine.execCreditReturnTimer port s
  | .replayTimeout port => Sys2Proof.Machine.execReplayTimeout port s
  | .idleTimer port => Sys2Proof.Machine.execIdleTimer port s
  | .partnerAbsenceTimeout port => Sys2Proof.Machine.execPartnerAbsenceTimeout port s
  | .creditTimeout port vc => Sys2Proof.Machine.execCreditTimeout port vc s
  | .slowTimeout port => Sys2Proof.Machine.execSlowTimeout port s
  | .lostHoldExpire port => Sys2Proof.Machine.execLostHoldExpire port s
  | .fecDegrade port lane counts codewordFailed => Sys2Proof.Machine.execFecDegrade port lane counts codewordFailed s
  | .unquar a port v => Sys2Proof.Machine.execUnquar a port v s
  | .lpRetrain a port v => Sys2Proof.Machine.execLpRetrain a port v s
  | .preset a port v => Sys2Proof.Machine.execPreset a port v s
  | .portRetrainDone port => Sys2Proof.Machine.execPortRetrainDone port s
  | .retrainTimeout port => Sys2Proof.Machine.execRetrainTimeout port s
  | .endToEndTimeout k => Sys2Proof.Machine.execEndToEndTimeout k s
  | .lpDevlostWrite a ix v => Sys2Proof.Machine.execLpDevlostWrite a ix v s
  | .lpDevclrWrite a ix v => Sys2Proof.Machine.execLpDevclrWrite a ix v s
  | .kmtAttach port m => Sys2Proof.Machine.execKmtAttach port m s
  | .kmtSubmit port m => Sys2Proof.Machine.execKmtSubmit port m s
  | .kmtCqAck port m => Sys2Proof.Machine.execKmtCqAck port m s
  | .kmtWrite port m => Sys2Proof.Machine.execKmtWrite port m s
  | .kmtRead port m => Sys2Proof.Machine.execKmtRead port m s
  | .kmtRdata port m => Sys2Proof.Machine.execKmtRdata port m s
  | .kmtToken port m => Sys2Proof.Machine.execKmtToken port m s
  | .kmtAck port m => Sys2Proof.Machine.execKmtAck port m s
  | .kmtRefuse port m => Sys2Proof.Machine.execKmtRefuse port m s
  | .kmtKeepalive port m => Sys2Proof.Machine.execKmtKeepalive port m s
  | .kmtClose port m => Sys2Proof.Machine.execKmtClose port m s
  | .kmtRetransmitTimeout session => Sys2Proof.Machine.execKmtRetransmitTimeout session s
  | .kmtAckTimer session => Sys2Proof.Machine.execKmtAckTimer session s
  | .kmtKeepaliveTimer session => Sys2Proof.Machine.execKmtKeepaliveTimer session s
  | .kmtSessionTimeout session => Sys2Proof.Machine.execKmtSessionTimeout session s
  | .ibufParityError p die word again => Sys2Proof.Machine.execIbufParityError p die word again s
  | .controlStateFault p die bed => Sys2Proof.Machine.execControlStateFault p die bed s
  | .bedReplacement bed => Sys2Proof.Machine.execBedReplacement bed s
  | .hangWindowExpire p => Sys2Proof.Machine.execHangWindowExpire p s
  | .stallTimeout p => Sys2Proof.Machine.execStallTimeout p s
  | .deviceLossDeclare cause die => Sys2Proof.Machine.execDeviceLossDeclare cause die s
  | .keeperMismatch => Sys2Proof.Machine.execKeeperMismatch s
  | .keeperSelftestDone ok => Sys2Proof.Machine.execKeeperSelftestDone ok s
  | .keeperPeriodicSelftest ok => Sys2Proof.Machine.execKeeperPeriodicSelftest ok s
  | .keeperWatchdogExpire => Sys2Proof.Machine.execKeeperWatchdogExpire s
  | .keeperResume digestMatches reloadOk => Sys2Proof.Machine.execKeeperResume digestMatches reloadOk s
  | .lodgeAlarm die r => Sys2Proof.Machine.execLodgeAlarm die r s
  | .lodgeSummarySend die => Sys2Proof.Machine.execLodgeSummarySend die s
  | .keeperAlarmEnqueue die r => Sys2Proof.Machine.execKeeperAlarmEnqueue die r s
  | .alarmSummaryEnqueue => Sys2Proof.Machine.execAlarmSummaryEnqueue s
  | .alarmSend => Sys2Proof.Machine.execAlarmSend s
  | .alarmAck => Sys2Proof.Machine.execAlarmAck s
  | .logRecord die unit r => Sys2Proof.Machine.execLogRecord die unit r s
  | .traceRecord src data credit => Sys2Proof.Machine.execTraceRecord src data credit s
  | .telemetryRead rs => Sys2Proof.Machine.execTelemetryRead rs s
  | .governorTick paces => Sys2Proof.Machine.execGovernorTick paces s
  | .paceRequestWrite a v => Sys2Proof.Machine.execPaceRequestWrite a v s
  | .brakeLevelWrite a v => Sys2Proof.Machine.execBrakeLevelWrite a v s
  | .regulatorAlert reg => Sys2Proof.Machine.execRegulatorAlert reg s
  | .aclr a v => Sys2Proof.Machine.execAclr a v s
  | .droopDetect die det => Sys2Proof.Machine.execDroopDetect die det s
  | .droopEnd die => Sys2Proof.Machine.execDroopEnd die s
  | .droopHoldEnd rail => Sys2Proof.Machine.execDroopHoldEnd rail s
  | .sensorRead die ts => Sys2Proof.Machine.execSensorRead die ts s
  | .thermalPaceStep => Sys2Proof.Machine.execThermalPaceStep s
  | .upkeepGrant r => Sys2Proof.Machine.execUpkeepGrant r s
  | .upkeepDeadline r => Sys2Proof.Machine.execUpkeepDeadline r s
  | .spareSelftest die ok => Sys2Proof.Machine.execSpareSelftest die ok s
  | .rotationRequest die => Sys2Proof.Machine.execRotationRequest die s
  | .sysResetN level => Sys2Proof.Machine.execSysResetN level s
  | .pwrGoodFall => Sys2Proof.Machine.execPwrGoodFall s
  | .vauxOutOfRange => Sys2Proof.Machine.execVauxOutOfRange s
  | .warmResetNFall => Sys2Proof.Machine.execWarmResetNFall s
  | .warmResetNRise => Sys2Proof.Machine.execWarmResetNRise s
  | .kprResetCold a v => Sys2Proof.Machine.execKprResetCold a v s
  | .kprResetWarm a v => Sys2Proof.Machine.execKprResetWarm a v s
  | .kprResetDie a v => Sys2Proof.Machine.execKprResetDie a v s
  | .kprResetKeeper a v => Sys2Proof.Machine.execKprResetKeeper a v s
  | .warmResetSequence => Sys2Proof.Machine.execWarmResetSequence s
  | .dieReset die answers => Sys2Proof.Machine.execDieReset die answers s
  | .coldBoot b => Sys2Proof.Machine.execColdBoot b s
  | .uartRecovery bundle => Sys2Proof.Machine.execUartRecovery bundle s
  | .kprMbxSubmit a v => Sys2Proof.Machine.execKprMbxSubmit a v s
  | .reqInfo k => Sys2Proof.Machine.execReqInfo k s
  | .reqWarmReset k => Sys2Proof.Machine.execReqWarmReset k s
  | .reqColdReset k => Sys2Proof.Machine.execReqColdReset k s
  | .reqDieReset k => Sys2Proof.Machine.execReqDieReset k s
  | .reqKeeperReset k => Sys2Proof.Machine.execReqKeeperReset k s
  | .reqAssignId k => Sys2Proof.Machine.execReqAssignId k s
  | .reqEpochFloor k => Sys2Proof.Machine.execReqEpochFloor k s
  | .reqFlashWrite k => Sys2Proof.Machine.execReqFlashWrite k s
  | .reqFlashActivate k => Sys2Proof.Machine.execReqFlashActivate k s
  | .reqSvnCommit k => Sys2Proof.Machine.execReqSvnCommit k s
  | .reqDeviceLoss k => Sys2Proof.Machine.execReqDeviceLoss k s
  | .reqSubscribe k => Sys2Proof.Machine.execReqSubscribe k s
  | .reqDebugUnlock k => Sys2Proof.Machine.execReqDebugUnlock k s
  | .spdmGetVersion via msg => Sys2Proof.Machine.execSpdmGetVersion via msg s
  | .spdmGetCapabilities via msg => Sys2Proof.Machine.execSpdmGetCapabilities via msg s
  | .spdmNegotiateAlgorithms via msg => Sys2Proof.Machine.execSpdmNegotiateAlgorithms via msg s
  | .spdmGetDigests via msg => Sys2Proof.Machine.execSpdmGetDigests via msg s
  | .spdmGetCertificate via msg => Sys2Proof.Machine.execSpdmGetCertificate via msg s
  | .spdmChallenge via msg => Sys2Proof.Machine.execSpdmChallenge via msg s
  | .spdmGetMeasurements via msg => Sys2Proof.Machine.execSpdmGetMeasurements via msg s
  | .spdmKeyExchange via msg => Sys2Proof.Machine.execSpdmKeyExchange via msg s
  | .spdmFinish via msg => Sys2Proof.Machine.execSpdmFinish via msg s
  | .spdmHeartbeat via msg => Sys2Proof.Machine.execSpdmHeartbeat via msg s
  | .spdmKeyUpdate via msg => Sys2Proof.Machine.execSpdmKeyUpdate via msg s
  | .spdmEndSession via msg => Sys2Proof.Machine.execSpdmEndSession via msg s
  | .jtagBypass => Sys2Proof.Machine.execJtagBypass s
  | .jtagIdcode => Sys2Proof.Machine.execJtagIdcode s
  | .jtagSamplePreload cells => Sys2Proof.Machine.execJtagSamplePreload cells s
  | .jtagExtest => Sys2Proof.Machine.execJtagExtest s
  | .jtagClamp => Sys2Proof.Machine.execJtagClamp s
  | .jtagHighz => Sys2Proof.Machine.execJtagHighz s
  | .jtagDtmcs v => Sys2Proof.Machine.execJtagDtmcs v s
  | .jtagDmi v => Sys2Proof.Machine.execJtagDmi v s
  | .smbAlertN level => Sys2Proof.Machine.execSmbAlertN level s
  | .mtimecmpExpire hart which => Sys2Proof.Machine.execMtimecmpExpire hart which s
  | .arpRequest port ip mac => Sys2Proof.Machine.execArpRequest port ip mac s
  | .neighbourSolicitation port ip mac => Sys2Proof.Machine.execNeighbourSolicitation port ip mac s

end Sys2Proof.Machine
end

