-- ==== Sys2Proof/Machine/Tick.lean ====
section
/-! DEFINITION. The passing of time on an idle step (R2, R218). -/

namespace Sys2Proof.Machine

/-- The sundials of pavilions that are IDLE or RUNNING go on by one beat (R218). -/
def State.sundials (s : State) : State :=
  (List.range 64).foldl (fun s p =>
    if s.pavState p = 1 ∨ s.pavState p = 2 then s.beat p else s) s

/-- MTIME goes on by one count of 10 ns while its reference is there (R26, R27, R432). -/
def State.clock (s : State) : State := if s.sys.r100 then { s with mtime := (s.mtime + 1) % 2 ^ 64 } else s

/-- One tick of the device: the clocks, what they do to a cold reset, and logs and traces on their way (R537, R541). -/
def State.tick (s : State) : State := s.sundials.clock.coldTick.logSend.traceSend

end Sys2Proof.Machine
end

