-- ==== Sys2Proof/Safety.lean ====
section
/-! DEFINITION. What a safe state is, in the terms that statements use. -/

namespace Sys2Proof.Machine

/-- The memory of a state and its flash have the canonical form (`Mem.wf`). -/
def State.MemOk (s : State) : Prop := s.mem.wf = true ∧ Mem.wf s.kpr.flash = true

/-- An accumulator whose value its format can hold (R54, R55). -/
def AccOk (f : AccFmt) (a : Acc) : Prop :=
  -((2 ^ (accWidth f - 1) : Nat) : Int) ≤ a.val ∧ a.val < ((2 ^ (accWidth f - 1) : Nat) : Int)

/-- A command answers a next state. -/
def Completes (i : Instr) (s : State) : Prop := ∃ t, exec i s = .next t

/-- A vector operation heads the queue of its bed, may begin, and reads no register that R214 forbids. -/
def VecGo (bed opc : Nat) (o : UnitOp) (s : State) (r : Reads) : Prop :=
  s.ready (.vec bed) opc o = true ∧ (s.vec bed).unwritten r = false

/-- What a lane-by-lane operation of the vector unit of `bed` that writes register `d` under predicate `p` leaves as it was:
memory and its marks, every register but BED_VFLAGS and BED_PROGRESS of the bed, the other vector units, and in its own
unit every other vector register, every inactive lane of `d`, every scalar and every predicate; every slice, pavilion, cell,
drain, lane and stile binding; what has been sent. -/
def VecFrame (bed d : Nat) (p : BitVec 128) (s t : State) : Prop :=
  (∀ a, memGet t.mem a = memGet s.mem a) ∧ t.marks = s.marks ∧
  (∀ r i j, ¬ (r = .bedVflags ∧ i = bed) → ¬ (r = .bedProgress ∧ i = bed) → t.reg r i j = s.reg r i j) ∧
  t.reg .bedVflags bed 0 &&& s.reg .bedVflags bed 0 = s.reg .bedVflags bed 0 ∧
  (∀ b, b ≠ bed → t.vec b = s.vec b) ∧
  (∀ n, n ≠ d → (t.vec bed).vreg n = (s.vec bed).vreg n) ∧
  (∀ i, i < 128 → p.getLsbD i = false → ((t.vec bed).vreg d).getD i 0 = ((s.vec bed).vreg d).getD i 0) ∧
  (∀ n, (t.vec bed).sreg n = (s.vec bed).sreg n ∧ (t.vec bed).preg n = (s.vec bed).preg n) ∧
  t.slices = s.slices ∧ t.pavs = s.pavs ∧ t.arr.cells = s.arr.cells ∧ t.arr.lanes = s.arr.lanes ∧ t.arr.drains = s.arr.drains ∧
  t.binds = s.binds ∧ t.out = s.out

end Sys2Proof.Machine
end

