-- ==== Sys2Proof/Certificates/Slice0/Obligations.lean ====
section
/-! DEFINITION. Statements about the device, for the provers. -/

open Sys2Proof Sys2Proof.Machine

/-- For every state and operands: MMUL that heads the queue of its bed and array group, meets no pass of another mode there, has read its entries and meets no fault begins its pass on every cell of the group; a lane whose step has its inputs and room performs it, then its swap and its drain step; a feeder delivers and refills; a drain that is open takes the next row that stands at its edge; a bank serves its next request that no ordering fence holds; a track delivers its next transfer with good parity to every destination with room; bed reset acts on a fenced or unassigned bed. Each answers the next state given, which is all that changes. -/
def Obligations.ArrayCommandsComplete : Prop :=
  (∀ bed ag o s es t, s.ready (.ag bed ag) 1 o = true → (s.agCells bed ag).any (s.otherMode o) = false →
    s.mmulEntries bed ag o = (some es, t) → s.mmulCodes o es = [] →
    exec (.mmul ag ⟨bed, o⟩) s = .next ((s.mmulPasses o es).foldl (fun s e => beginPass s e.1 e.2) (t.dequeue (.ag bed ag)))) ∧
  (∀ cell row col s p t, ((laneReady s cell row col).cell cell).passAt ((laneReady s cell row col).lane cell row col).pass = some p →
    (p.fmt = .l16 → col % 4 = 0) →
    (if p.mode = .os then stepOS (laneReady s cell row col) cell row col p ((laneReady s cell row col).lane cell row col)
      else stepWS (laneReady s cell row col) cell row col p ((laneReady s cell row col).lane cell row col)) = some t →
    exec (.laneStep cell row col) s = .next (laneAfter t cell row col)) ∧
  (∀ cell s, s.pwr.shut = false →
    exec (.feederDeliver cell true) s = .next (refillWest ((List.range (s.shapeR cell)).foldl (deliverWest (s.shapeR cell) cell) s) cell) ∧
    exec (.feederDeliver cell false) s = .next (refillSums (refillStat (refillCols
      ((List.range (128 * (128 / s.shapeR cell))).foldl (deliverNorth (s.shapeR cell) cell) s) cell) cell) cell)) ∧
  (∀ cell s p js, (s.cell cell).passes.find? (fun p => decide (p.rows < p.drainRows)) = some p → s.drainOpen cell p = true →
    js = ((List.range (perRow p.fmt)).map (physCol p.fmt)).flatMap (valueCols p.fmt) →
    (∀ j ∈ js, tget (s.cell cell).drainIn j [] ≠ []) →
    exec (.drainRowAccept cell) s = .next (takeRow
      (s.setCell cell { s.cell cell with drainIn := js.foldl (fun t j => tset t j (tget t j []).tail) (s.cell cell).drainIn })
      cell p (s.rowPos cell p) (((List.range (perRow p.fmt)).map (physCol p.fmt)).map fun k =>
        ofHalves ((valueCols p.fmt k).map fun j => (tget (s.cell cell).drainIn j []).headD .zero)))) ∧
  (∀ cell bank s r, nextReq ((tget s.arr.banks (cell, bank) []).filter fun r => !s.bankHeld (cell / 8) r) = some r →
    (∀ off bs, r.write = some (off, bs) → exec (.cellStoreBankAccess cell bank) s = .next
      (({ s with arr := { s.arr with banks := tset s.arr.banks (cell, bank) ((tget s.arr.banks (cell, bank) []).erase r) } } : State).cellStore cell off bs)) ∧
    (∀ bs t, r.write = none → ({ s with arr := { s.arr with banks := tset s.arr.banks (cell, bank) ((tget s.arr.banks (cell, bank) []).erase r) } } : State).eccRead cell r.line 128 = (bs, t) →
      exec (.cellStoreBankAccess cell bank) s = .next (t.setCell cell { t.cell cell with lines := tset (t.cell cell).lines (r.tag, r.line) bs }))) ∧
  (∀ bed track s x rest, tget s.arr.tracks (bed, track) [] = x :: rest → (∀ d ∈ x.dsts, s.roomAt bed track x d = true) →
    exec (.bedBusTransfer bed track true) s = .next (x.dsts.foldl (deliverTo bed track x)
      { s with arr := { s.arr with tracks := tset s.arr.tracks (bed, track) rest } }) ∧
    exec (.bedBusTransfer bed track false) s = .next ((s.bedFault bed (s.bedReport St.bedFault 0x06 bed)).alarm (dieOfBed bed) 0x05
      (s.bedReport St.bedFault 0x06 bed))) ∧
  (∀ a bed s, s.sys.warmOn = false → (s.rd F.bedStatus_STATE bed 0 = 3 ∨ s.rd F.bedStatus_STATE bed 0 = 0) →
    exec (.bedReset a bed) s = .next (s.bedReset bed))

/-- For every state, bed and operation: an operation of the converter slot that heads the converter queue of the bed, whose entries and bytes have been read and are good and whose combination is listed, acts on every drain of the array group on that bed, leaves its queue, and the bed counts it. The next state given is all that changes. -/
def Obligations.ConverterCommandsComplete : Prop :=
  (∀ bed o s es t, s.cvtReady bed 1 o = true → s.outsFull bed o = true → s.readEntries bed o = (some es, t) → entriesGood es = true →
    (∀ e ∈ s.cvtaPlan o es, e.2.isSome = true) → (∀ e ∈ s.cvtaPlan o es, ∀ v ∈ e.2, s.convHeld e.1 v.1 o = false) →
    exec (.cvta ⟨bed, o⟩) s = .next (((s.cvtaPlan o es).foldl (convertOut o) t).cvtDone bed)) ∧
  (∀ bed o s es t ds u fs w, s.cvtReady bed 2 o = true → (∀ c ∈ s.cvtCells bed o, s.drainWrites c = false) →
    s.readEntries bed o = (some es, t) → entriesGood es = true →
    (∀ e ∈ s.cvtmPlan o es, e.2.isSome = true) → (∀ e ∈ s.cvtmPlan o es, ∀ v ∈ e.2, s.convHeld e.1 v o = false) →
    bankReads s 2 5 (cvtmPlaces (s.cvtmPlan o es)) = (some ds, u) → u.readEntries bed o = (fs, w) →
    (o.poison = false → ∀ e ∈ ds, allSome e.2 = true) →
    exec (.cvtm ⟨bed, o⟩) s = .next ((((s.cvtmPlan o es).zip (ds.map (·.2))).foldl (convertMat o) w).cvtDone bed)) ∧
  (∀ bed o s, s.cvtReady bed 3 o = true → exec (.cvtSeed ⟨bed, o⟩) s = .next (((s.cvtCells bed o).foldl
      (fun s c => s.wr F.drnLfsr_STATE c 0 (seedOf (opField o 31 0) c)) s).cvtDone bed)) ∧
  (∀ bed o s ds t, s.cvtReady bed 4 o = true → (∀ c ∈ s.cvtCells bed o, s.drainWrites c = false) →
    s.loadBytes bed o 256 = (some ds, t) → (∀ e ∈ ds, allSome e.2 = true) → (∀ e ∈ ds, scalesOk (plain e.2) = true) →
    exec (.scld ⟨bed, o⟩) s = .next ((ds.foldl (fun s e => State.loadScales s e.1 (plain e.2)) t).cvtDone bed)) ∧
  (∀ bed o s ds t, s.cvtReady bed 5 o = true → (∀ c ∈ s.cvtCells bed o, s.drainWrites c = false) →
    s.loadBytes bed o 1024 = (some ds, t) → (∀ e ∈ ds, allSome e.2 = true) →
    exec (.rsld ⟨bed, o⟩) s = .next ((ds.foldl (fun s e => State.loadRowsum s e.1 (plain e.2)) t).cvtDone bed)) ∧
  (∀ bed o s ds t, s.cvtReady bed 6 o = true → (∀ c ∈ s.cvtCells bed o, s.drainWrites c = false) →
    s.loadBytes bed o (if opBit o 0 then 4096 else 1024) = (some ds, t) → (∀ e ∈ ds, allSome e.2 = true) →
    exec (.rsadd ⟨bed, o⟩) s = .next ((ds.foldl (fun s e => State.addRowsum (opBit o 0) s e.1 (plain e.2)) t).cvtDone bed)) ∧
  (∀ bed o s, s.cvtReady bed 7 o = true → exec (.rsclr ⟨bed, o⟩) s = .next (((s.cvtCells bed o).foldl
      (fun s c => s.setDrain c { s.drain c with rowsum := [] }) s).cvtDone bed)) ∧
  (∀ bed o s, s.cvtReady bed 8 o = true → exec (.stex ⟨bed, o⟩) s = .next (((s.cvtCells bed o).foldl (fun s c =>
      postWrite s c 2 0 (o.seq, cvtBits o) (lineOff (opField o 44 30) (toSigned 11 (opField o 25 15)) o.index)
        ((List.range 128).flatMap fun q => (tget (s.drain c).stats q .init).bytes)) s).cvtDone bed))

/-- For every state and operands: an arithmetic operation of the vector unit that heads the queue of its bed and reads no unwritten register gives each active lane the result of Table 7-15 in its format and rounding, raises the flags of the active lanes, leaves its queue and counts; the next state given is all that changes. -/
def Obligations.VectorArithmeticCompletes : Prop :=
  (∀ bed o s, VecGo bed 0x01 o s ⟨[vA o, vB o], [], [vPred o]⟩ → exec (.vadd bed o) s = .next (laneEffect bed o
    (fun u i => ieeeAdd (vfmt o) (vtz o) (elemAt (vfmt o) (u.vreg (vA o)) i) (elemAt (vfmt o) (u.vreg (vB o)) i)) s)) ∧
  (∀ bed o s, VecGo bed 0x02 o s ⟨[vA o, vB o], [], [vPred o]⟩ → exec (.vsub bed o) s = .next (laneEffect bed o
    (fun u i => ieeeAdd (vfmt o) (vtz o) (elemAt (vfmt o) (u.vreg (vA o)) i) (IVal.negate (elemAt (vfmt o) (u.vreg (vB o)) i))) s)) ∧
  (∀ bed o s, VecGo bed 0x03 o s ⟨[vA o, vB o], [], [vPred o]⟩ → exec (.vmul bed o) s = .next (laneEffect bed o
    (fun u i => ieeeMul (vfmt o) (vtz o) (elemAt (vfmt o) (u.vreg (vA o)) i) (elemAt (vfmt o) (u.vreg (vB o)) i)) s)) ∧
  (∀ bed o s, VecGo bed 0x04 o s ⟨[vA o, vB o, vC o], [], [vPred o]⟩ → exec (.vfma bed o) s = .next (laneEffect bed o
    (fun u i => ieeeFma (vfmt o) (vtz o) (elemAt (vfmt o) (u.vreg (vA o)) i) (elemAt (vfmt o) (u.vreg (vB o)) i) (elemAt (vfmt o) (u.vreg (vC o)) i)) s)) ∧
  (∀ bed o s, VecGo bed 0x05 o s ⟨[vA o, vB o], [], [vPred o]⟩ → exec (.vmin bed o) s = .next (laneEffect bed o
    (minMaxLane false o) s)) ∧
  (∀ bed o s, VecGo bed 0x06 o s ⟨[vA o, vB o], [], [vPred o]⟩ → exec (.vmax bed o) s = .next (laneEffect bed o
    (minMaxLane true o) s)) ∧
  (∀ bed o s, VecGo bed 0x07 o s ⟨[vA o, vB o], [], [vPred o]⟩ → exec (.vdiv bed o) s = .next (laneEffect bed o
    (fun u i => ieeeDiv (vfmt o) (vtz o) (elemAt (vfmt o) (u.vreg (vA o)) i) (elemAt (vfmt o) (u.vreg (vB o)) i)) s)) ∧
  (∀ bed o s, VecGo bed 0x08 o s ⟨[vA o], [], [vPred o]⟩ → exec (.vsqrt bed o) s = .next (laneEffect bed o
    (fun u i => ieeeSqrt (vfmt o) (vtz o) (elemAt (vfmt o) (u.vreg (vA o)) i)) s)) ∧
  (∀ bed o s, VecGo bed 0x09 o s ⟨[vA o], [], [vPred o]⟩ → exec (.vexp2 bed o) s = .next (laneEffect bed o
    (fun u i => ieeeExp2 (vfmt o) (vtz o) (elemAt (vfmt o) (u.vreg (vA o)) i)) s)) ∧
  (∀ bed o s, VecGo bed 0x0A o s ⟨[vA o], [], [vPred o]⟩ → exec (.vlog2 bed o) s = .next (laneEffect bed o
    (fun u i => ieeeLog2 (vfmt o) (vtz o) (elemAt (vfmt o) (u.vreg (vA o)) i)) s)) ∧
  (∀ bed o s, VecGo bed 0x0F o s ⟨[vA o], [], [vPred o]⟩ → exec (.vcvt bed o) s = .next (laneEffect bed o
    (fun u i => if opField o 0 0 = 0 then ieeeCvt b32 b16 (vtz o) ((u.vreg (vA o)).getD i 0 % 2 ^ 32) else ieeeCvt b16 b32 (vtz o) ((u.vreg (vA o)).getD i 0 % 2 ^ 16)) s))

/-- For every state and operands: a compare, selection, reduction, broadcast, predicate, flag or scalar operation that heads the vector queue of its bed writes its destination as Table 7-15 states, leaves its queue and counts; the next state given is all that changes. -/
def Obligations.VectorMovesComplete : Prop :=
  (∀ bed o s, VecGo bed 0x0B o s ⟨[vA o, vB o], [], [vPred o]⟩ → exec (.vcmp bed o) s = .next
    (((s.setVec bed ((s.vec bed).setP (vD o % 8) ((((s.vec bed).preg (vD o % 8)) &&& ~~~((s.vec bed).preg (vPred o))) |||
      (BitVec.ofNat 128 (bitmap (((List.range 128).map fun i => if ((s.vec bed).preg (vPred o)).getLsbD i then
        ieeeCmp (opField o 2 0) (elemAt (vfmt o) ((s.vec bed).vreg (vA o)) i) (elemAt (vfmt o) ((s.vec bed).vreg (vB o)) i)
        else (false, IFlags.none)).map (·.1))) &&& (s.vec bed).preg (vPred o))))).orFlags bed
      ((((List.range 128).map fun i => if ((s.vec bed).preg (vPred o)).getLsbD i then
        ieeeCmp (opField o 2 0) (elemAt (vfmt o) ((s.vec bed).vreg (vA o)) i) (elemAt (vfmt o) ((s.vec bed).vreg (vB o)) i)
        else (false, IFlags.none)).map (·.2)).foldl IFlags.or .none)).vecDone bed)) ∧
  (∀ bed o s, VecGo bed 0x0C o s ⟨[vA o, vB o], [], [vPred o]⟩ → exec (.vsel bed o) s = .next
    ((s.setVec bed ((s.vec bed).setV (vD o) (merge ((s.vec bed).preg (vPred o)) ((s.vec bed).vreg (vB o)) ((s.vec bed).vreg (vA o))))).vecDone bed)) ∧
  (∀ bed o s, VecGo bed 0x0D o s ⟨[vA o], [], [vPred o]⟩ → ∃ r fl, exec (.vred bed o) s = .next
      (((s.setVec bed ((s.vec bed).setV (vD o) (r :: List.replicate 127 0))).orFlags bed fl).vecDone bed) ∧
    (r, fl) = (fun (e : List Nat × IFlags) => (e.1.getD 0 0, e.2)) ([64, 32, 16, 8, 4, 2, 1].foldl (fun a n => treeStep
      (match opField o 1 0 with
        | 0 => fun a b => ieeeAdd (vfmt o) (vtz o) (unpack (vfmt o) a) (unpack (vfmt o) b)
        | 1 => ieeeMinMax (vfmt o) true
        | _ => ieeeMinMax (vfmt o) false) n a)
      ((List.range 128).map (fun i => if ((s.vec bed).preg (vPred o)).getLsbD i then
        ((s.vec bed).vreg (vA o)).getD i 0 % (2 * (vfmt o).signW) else 0), IFlags.none))) ∧
  (∀ bed o s, VecGo bed 0x0E o s ⟨[], [vA o % 32], [vPred o]⟩ → exec (.vbcs bed o) s = .next
    ((s.setVec bed ((s.vec bed).setV (vD o) (merge ((s.vec bed).preg (vPred o)) ((s.vec bed).vreg (vD o))
      (List.replicate 128 (((s.vec bed).sreg (vA o % 32)).toNat % (if opBit o 1 then 2 ^ 16 else 2 ^ 32)))))).vecDone bed)) ∧
  (∀ bed o s, VecGo bed 0x15 o s ⟨[], [], [vA o % 8, vB o % 8]⟩ → exec (.plog bed o) s = .next
    ((s.setVec bed ((s.vec bed).setP (vD o % 8) (match opField o 1 0 with
      | 0 => (s.vec bed).preg (vA o % 8) &&& (s.vec bed).preg (vB o % 8)
      | 1 => (s.vec bed).preg (vA o % 8) ||| (s.vec bed).preg (vB o % 8)
      | 2 => (s.vec bed).preg (vA o % 8) ^^^ (s.vec bed).preg (vB o % 8)
      | _ => (s.vec bed).preg (vA o % 8) &&& ~~~(s.vec bed).preg (vB o % 8)))).vecDone bed)) ∧
  (∀ bed o s, VecGo bed 0x16 o s ⟨[], [], []⟩ → exec (.flclr bed o) s = .next
    ((s.setReg .bedVflags bed 0 (s.reg .bedVflags bed 0 &&& ~~~BitVec.ofNat 64 (opField o 4 0))).vecDone bed)) ∧
  (∀ bed o s, VecGo bed 0x17 o s ⟨[], [], []⟩ → exec (.sli bed o) s = .next
    ((s.setVec bed ((s.vec bed).setS (vD o % 32) (BitVec.ofNat 64 (ofSigned 64 (toSigned 32 (opField o 31 0)))))).vecDone bed)) ∧
  (∀ bed o s, VecGo bed 0x18 o s ⟨[vA o], [], []⟩ → exec (.sget bed o) s = .next
    ((s.setVec bed ((s.vec bed).setS (vD o % 32) (BitVec.ofNat 64 (((s.vec bed).vreg (vA o)).getD (opField o 6 0) 0)))).vecDone bed))

/-- For every state and operands: a load reads 512 bytes of its cell store, a store puts its active lanes to the banks, VRCV and VBRCV take what waits for them, VBSND puts its register on a track, when the operation heads its queue and what it needs is there; the next state given is all that changes. -/
def Obligations.VectorTransfersComplete : Prop :=
  (∀ bed o s bs t, VecGo bed 0x10 o s ⟨[], [], [vPred o]⟩ → s.vecStores (vecAddr bed o).1 = false →
    bankRead s (vecAddr bed o).1 4 6 (vecAddr bed o).2 512 = (some bs, t) → (o.poison = false → allSome bs = true) →
    exec (.vld bed o) s = .next ((t.setVec bed ((t.vec bed).setV (vD o) (merge ((t.vec bed).preg (vPred o)) ((t.vec bed).vreg (vD o))
      (loadElems (vfmt o) bs)))).vecDone bed)) ∧
  (∀ bed o s, VecGo bed 0x11 o s ⟨[vD o], [], [vPred o]⟩ → exec (.vst bed o) s = .next
    ((storeLanes s (vecAddr bed o).1 o.seq (vecAddr bed o).2 ((s.vec bed).preg (vPred o)) ((s.vec bed).vreg (vD o))).vecDone bed)) ∧
  (∀ bed o s r, VecGo bed 0x12 o s ⟨[], [], [vPred o]⟩ → (s.vec bed).rows.find? (fun r => r.1 == opField o 32 30) = some r →
    exec (.vrcv bed o) s = .next ((s.setVec bed ({ s.vec bed with rows := (s.vec bed).rows.erase r }.setV (vD o)
      (merge ((s.vec bed).preg (vPred o)) ((s.vec bed).vreg (vD o)) r.2))).vecDone bed)) ∧
  (∀ bed o s ds, VecGo bed 0x13 o s ⟨[vD o], [], []⟩ → s.trackHeld bed (opField o 32 31) o = false →
    s.group bed (opField o 30 27) = some ds → exec (.vbsnd bed o) s = .next ((postXfer s bed (opField o 32 31) o.seq (2 ^ 10)
      (((s.vec bed).vreg (vD o)).flatMap (leBytes 4)) ds none).vecDone bed)) ∧
  (∀ bed o s x ts, VecGo bed 0x14 o s ⟨[], [], [vPred o]⟩ → tget s.arr.rx (bed, opField o 32 31, BusDst.vec) [] = x :: ts →
    exec (.vbrcv bed o) s = .next (({ s with arr := { s.arr with rx := tset s.arr.rx (bed, opField o 32 31, BusDst.vec) ts } }.setVec bed
      ((s.vec bed).setV (vD o) (merge ((s.vec bed).preg (vPred o)) ((s.vec bed).vreg (vD o))
        ((List.range 128).map fun i => fieldLe x (4 * i) 4)))).vecDone bed))

/-- For every state and operands: a slice whose word is buffered, free of faults, permitted and has room issues it in one event; REPEAT, LOOP, BRP, WAIT and HALT act where their word stands or is due; MARK writes its part and its completion replaces the snapshot. The next state given is all that changes. -/
def Obligations.IssueCommandsComplete : Prop :=
  (∀ p die s b bs, s.sliceWord p die = some (b :: bs) → s.wordFault p (s.slice p die) (b :: bs) = none →
    (s.slice p die).permits (wordSlot (b :: bs) 0) = true → s.placesFor (s.deliveries p die (s.slice p die) (b :: bs)) = true →
    exec (.wordIssue p die) s = .next ((((((s.deliveries p die (s.slice p die) (b :: bs)).foldl State.enqueue s).enterXch p (s.slice p die)
      (wordSlot (b :: bs) 15)).setSlice p die ((s.slice p die).issue (wordSlot (b :: bs) 0) (wordSlot (b :: bs) 15))).wr
      F.pavStatus_CLEAN p 0 0).sliceBeat p die)) ∧
  (∀ p die n s, s.atCtl p die 1 (fun w => slotField w 31 0 == n) = true → (s.slice p die).rep = none →
    exec (.ctlRepeat p die n) s = .next (s.setSlice p die { s.slice p die with rep := some (n, 0) })) ∧
  (∀ p die n last s, s.dueCtl p die 2 (fun w => slotField w 47 24 == n && slotField w 23 0 == last) = true →
    (s.slice p die).loops.length < 8 → (s.slice p die).pc < last → (∀ e ∈ (s.slice p die).loops.getLast?, last ≤ e.last) →
    last < s.progLen p → exec (.ctlLoop p die n last) s = .next (s.setSlice p die { s.slice p die with
      loops := (s.slice p die).loops ++ [⟨(s.slice p die).pc + 1, last, n, 0⟩], pc := (s.slice p die).pc + 1, post := none })) ∧
  (∀ p die bed pred cond target s, s.dueCtl p die 3 (fun w => slotField w 47 42 == bed && slotField w 41 39 == pred &&
      slotField w 38 37 == cond && slotField w 23 0 == target) = true → dieOfBed bed = die →
    (∀ q ∈ s.queue (.vec bed), writesPred pred q = false) → (s.vec bed).unwritten ⟨[], [], [pred]⟩ = false → target < s.progLen p →
    exec (.ctlBrp p die bed pred cond target) s = .next (((s.dies p).filter (· != die)).foldl
      (sendOutcome p die (brpTaken cond ((s.vec bed).preg pred)) target)
      (s.setSlice p die ((s.slice p die).branch (brpTaken cond ((s.vec bed).preg pred)) target)))) ∧
  (∀ p die bed pred cond target s k a rest, s.dueCtl p die 3 (fun w => slotField w 47 42 == bed && slotField w 41 39 == pred &&
      slotField w 38 37 == cond && slotField w 23 0 == target) = true → dieOfBed bed ≠ die → (s.slice p die).outcomes = (k, a) :: rest →
    exec (.ctlBrp p die bed pred cond target) s = .next (s.setSlice p die ({ s.slice p die with outcomes := rest }.branch k a))) ∧
  (∀ p die taken target s rest, (s.slice p die).coming = (taken, target) :: rest →
    exec (.branchOutcome p die taken target) s = .next (s.setSlice p die ({ s.slice p die with
      coming := rest, outcomes := (s.slice p die).outcomes ++ [(taken, target)] }.takeOutcome
      (s.dueCtl p die 3 fun w => dieOfBed (slotField w 47 42) != die)))) ∧
  (∀ p die stile t sc level s, s.atCtl p die 4 (fun w => slotField w 47 32 == stile && slotField w 31 8 == t && slotField w 7 4 == sc
      && slotField w 3 1 == level) = true → (s.slice p die).permit = false → s.flag F.stlState_BROKEN stile 0 = false →
    waitTarget (s.slice p die) t sc level ≤ s.rd F.stlState_COUNT stile 0 →
    exec (.ctlWait p die stile t sc level) s = .next (s.setSlice p die { s.slice p die with permit := true, waiting := none })) ∧
  (∀ p die s, s.dueCtl p die 5 (fun _ => true) = true →
    exec (.ctlHalt p die) s = .next (s.setSlice p die { s.slice p die with halted := true, post := none })) ∧
  (∀ p die s k, s.atCtl p die 6 (fun _ => true) = true → (s.slice p die).marked = false → s.sliceBusy p die = false →
    k = s.snapPart p die ((s.pav p).snapNew.getD ((s.slice p die).snapshot (boolNat ((s.pav p).snap.any fun k => k.slot == 0)))) →
    exec (.ctlMark p die true) s = .next (((s.setPav p { s.pav p with parts := die :: (s.pav p).parts, snapNew := some k }).setSlice p die
      { s.slice p die with marked := true }).writeSnap p die k)) ∧
  (∀ p s t, s.pavState p = 2 → (s.pav p).moves = [] → s.dies p ≠ [] →
    (∀ d ∈ s.dies p, d ∈ (s.pav p).parts ∧ (s.slice p d).held = true) →
    t = (s.setPav p { s.pav p with snap := if (s.pav p).snapFail then none else (s.pav p).snapNew, snapNew := none, snapFail := false, parts := [], confirmed := 0, suppress := 0 }).armMark p →
    exec (.markComplete p) s = .next ((t.dies p).foldl (fun s' d => s'.setSlice p d { s'.slice p d with held := false, marked := false }) t))

/-- For every state and operands: a slice contributes its part when its earlier operations in scope are complete; SIGNAL with every part adds its increment; SET writes the count of a stile not in use; BIND binds a free stile; UNBIND frees it; ORDF, ENDF and FPOL act when they are ready. The next state given is all that changes. -/
def Obligations.ExchangeCommandsComplete : Prop :=
  (∀ p die sig s g, (s.pav p).sigs.find? (fun g => g.op.seq == sig) = some g → die ∈ g.need → die ∉ g.have_ →
    s.issuedPast p die sig = true → s.xchHeld p sig = false → s.busy p (opField g.op 11 0) sig (fun b => b / 8 == die) = false →
    exec (.signalPart p die sig) s = .next (s.setPav p { s.pav p with sigs := (s.pav p).sigs.map fun h =>
      if h.op.seq == sig then { h with have_ := h.have_ ++ [die] } else h })) ∧
  (∀ o s g, (s.pav o.pav).sigs.find? (fun g => g.op == o && g.dev.isNone) = some g → g.whole = true →
    exec (.xchSignal o) s = .next (((s.dropSig o.pav o.seq).confirm o.pav).addStile g.stile g.inc)) ∧
  (∀ o s, s.xchReady (s.lead o.pav) 4 o = true → s.stileEarlier o = false → s.stileInUse o.pav (opField o 47 32) = false →
    exec (.xchSet o) s = .next ((s.xchTake 4 o).wr F.stlState_COUNT (opField o 47 32) 0 (opField o 31 0))) ∧
  (∀ o s, s.xchReady (s.lead o.pav) 6 o = true → opBit o 0 = false → s.stileEarlier o = false →
    (∀ d ∈ s.boundTo (opField o 47 32), d = opField o 31 23) → exec (.xchBind o) s = .next (
      let t := { s.xchTake 6 o with binds := tset s.binds (opField o 47 32) (opField o 31 23) }.wr F.stlState_BOUND (opField o 47 32) 0 1
      if t.devLost (opField o 31 23) then t.wr F.stlState_BROKEN (opField o 47 32) 0 1 else t)) ∧
  (∀ o s, s.xchReady (s.lead o.pav) 6 o = true → opBit o 0 = true → s.stileEarlier o = false →
    exec (.xchUnbind o) s = .next ({ s.xchTake 6 o with binds := terase (s.xchTake 6 o).binds (opField o 47 32) }.wr
      F.stlState_BOUND (opField o 47 32) 0 0)) ∧
  (∀ o s, ⟨1, o⟩ ∈ (s.pav o.pav).xq → (∀ d ∈ s.scopeDies o.pav (opField o 11 0), s.issuedPast o.pav d o.seq = true) →
    exec (.ordf o) s = .next (s.xchTake 1 o)) ∧
  (∀ o s, ⟨2, o⟩ ∈ (s.pav o.pav).xq → (∀ d ∈ s.scopeDies o.pav (opField o 11 0), s.issuedPast o.pav d o.seq = true) →
    s.busy o.pav (opField o 11 0) o.seq (fun _ => true) = false → exec (.endf o) s = .next (s.xchTake 2 o)) ∧
  (∀ o s, s.xchReady (s.lead o.pav) 11 o = true → (∀ q ∈ (s.pav o.pav).xq, q.opc = 11 → o.seq ≤ q.op.seq) → exec (.fpol o) s = .next ((s.xchTake 11 o).setPav o.pav
      { (s.xchTake 11 o).pav o.pav with poison := opBit o 0 }))

/-- For every state: STL_STATE written by the Keeper or a hart in machine mode while the owner of the group is idle, fenced or unassigned, or there is none, sets COUNT and clears BROKEN where bit 34 is 1; STL_GROUP written while old and new owner are quiet and the quota holds sets the owner and clears the stiles of a group whose owner changes (R225). Every other write is refused with the access-fault status and changes nothing else. -/
def Obligations.StileRegistersComplete : Prop :=
  (∀ a st v s, machineActor a = true → (∀ p ∈ s.stileOwner st, s.pavQuiet p = true) →
    exec (.stlStateWrite a st v) s = .next (if v.toNat.testBit 34 then
      (s.wr F.stlState_COUNT st 0 (natField v.toNat 31 0)).wr F.stlState_BROKEN st 0 0 else s.wr F.stlState_COUNT st 0 (natField v.toNat 31 0))) ∧
  (∀ a g v s, machineActor a = true → (s.flag F.stlGroup_V g 0 = true → s.pavQuiet (s.rd F.stlGroup_PAV g 0) = true) →
    (v.toNat.testBit 6 = true → s.pavQuiet (natField v.toNat 5 0) = true ∧
      ((s.groupsOf (natField v.toNat 5 0)).filter (· != g)).length + 1 ≤ s.rd F.pavQuota_STILES (natField v.toNat 5 0) 0) →
    exec (.stlGroupWrite a g v) s = .next (
      if s.flag F.stlGroup_V g 0 != v.toNat.testBit 6 ||
        (v.toNat.testBit 6 && s.rd F.stlGroup_PAV g 0 != natField v.toNat 5 0) then
        ((s.wr F.stlGroup_V g 0 (boolNat (v.toNat.testBit 6))).wr F.stlGroup_PAV g 0 (natField v.toNat 5 0)).clearGroup g
      else (s.wr F.stlGroup_V g 0 (boolNat (v.toNat.testBit 6))).wr F.stlGroup_PAV g 0 (natField v.toNat 5 0))) ∧
  (∀ a x v s, machineActor a = false → exec (.stlStateWrite a x v) s = .next s.refuse ∧ exec (.stlGroupWrite a x v) s = .next s.refuse)

/-- For every state: GO written to a commit register by the Keeper or a hart in machine mode sets GO and PENDING of that commit (the region commit also begins anew at every die); the same write by anyone else is refused with the access-fault status and changes nothing else. -/
def Obligations.CommitRequestsComplete : Prop :=
  (∀ a s, machineActor a = true → exec (.orgRgnCommitGo a) s = .next ({ s with org := { s.org with rgnDone := [] } }.commitGo .orgRgnCommit 0)) ∧
  (∀ a p s, machineActor a = true → exec (.smmuCtxCommitGo a p) s = .next (s.commitGo .smmuCtxCommit p)) ∧
  (∀ a s, machineActor a = true → exec (.wsCommitGo a) s = .next (s.commitGo .wsCommit 0)) ∧
  (∀ a s, machineActor a = true → exec (.wsOutCommitGo a) s = .next (s.commitGo .wsOutCommit 0)) ∧
  (∀ a s, machineActor a = true → exec (.cohBiasCommitGo a) s = .next (s.commitGo .cohBiasCommit 0)) ∧
  (∀ a p s, machineActor a = false → exec (.orgRgnCommitGo a) s = .next s.refuse ∧ exec (.smmuCtxCommitGo a p) s = .next s.refuse ∧
    exec (.wsCommitGo a) s = .next s.refuse ∧ exec (.wsOutCommitGo a) s = .next s.refuse ∧ exec (.cohBiasCommitGo a) s = .next s.refuse)

/-- For every state in which the commit waits, its commit point is there and its checks pass: the shadows become the active values of the region table of a die, the translation context, the Waystation entries, the WS_OUT slots or the bias range, and the commit ends with ERROR 0 (the regions with the last die); caches of a changed context are dropped and a waiting bias command starts. Where the check of regions, context, entries or range fails, the commit ends with ERROR 1 and REASON 1 and no field changes. The next state given is all that changes. -/
def Obligations.CommitsApply : Prop :=
  (∀ die s, s.commitDue .orgRgnCommit 0 = true → die ∉ s.org.rgnDone → die < 8 →
    (s.regionsOk = true → exec (.orgRgnCommitApply die) s = .next (if (List.range 8).all (s.takeRegions die).org.rgnDone.contains then
      (s.takeRegions die).commitEnd .orgRgnCommit 0 0 else s.takeRegions die)) ∧
    (s.regionsOk = false → exec (.orgRgnCommitApply die) s = .next (s.commitEnd .orgRgnCommit 0 1))) ∧
  (∀ p s, s.commitDue .smmuCtxCommit p = true → s.pavQuiet p = true →
    (s.ctxOk p = true → exec (.smmuCtxCommitApply p) s = .next ((if (s.takeCtx p).reg .smmuCtxRoot p 0 = s.reg .smmuCtxRoot p 0 ∧
        (s.takeCtx p).reg .smmuCtxTag p 0 = s.reg .smmuCtxTag p 0 then s.takeCtx p
      else (s.takeCtx p).dropTag (some (s.ctxAst p))).commitEnd .smmuCtxCommit p 0)) ∧
    (s.ctxOk p = false → exec (.smmuCtxCommitApply p) s = .next (s.commitEnd .smmuCtxCommit p 1))) ∧
  (∀ s, s.commitDue .wsCommit 0 = true →
    (s.wsCommitOk = true → exec .wsCommitApply s = .next (((s.ws.trellis.filter fun e => s.wsChanged.contains e.1).foldl (fun t e => t.drift 8 e.2)
      (s.wsChanged.foldl (fun t w => t.wsInstall w (s.wsShadow w)) s)).commitEnd .wsCommit 0 0)) ∧
    (s.wsCommitOk = false → exec .wsCommitApply s = .next (s.commitEnd .wsCommit 0 1))) ∧
  (∀ s, s.commitDue .wsOutCommit 0 = true →
    exec .wsOutCommitApply s = .next ((s.wsOutSlots.foldl State.takeWsOut s).commitEnd .wsOutCommit 0 0)) ∧
  (∀ s t, s.commitDue .cohBiasCommit 0 = true → s.flag F.cohBiasCtl_BUSY 0 0 = false →
    t = (if s.biasRangeOk then ((s.commitField F.cohBiasBase_BASE 0 0 0 0).commitField F.cohBiasSize_LOG2 0 0 0 0).commitEnd
      .cohBiasCommit 0 0 else s.commitEnd .cohBiasCommit 0 1) →
    exec .cohBiasCommitApply s = .next (if t.coh.biasGo then { t with coh := { t.coh with biasGo := false } }.biasStart else t))

/-- For every state: a queued prefetch fills its line; ORG_FLUSH by the Keeper or a hart in machine mode starts a flush and its end leaves every line of the partition clean; a tracking read far from the last training or below the margin requests retraining; a retraining in progress ends in READY with its count and temperature, or with the GDDR7 absent; a scrub goes over the next group; a plot changes owner with a zero fill, and the fill clears the whole plot. The next state given is all that changes. -/
def Obligations.OrangeryCommandsComplete : Prop :=
  (∀ die s owner la rest d t u, tget s.org.pfq die [] = (owner, la) :: rest → s.partFind die owner la = none →
    (s.ways die owner la).isEmpty = false → s.gddrServes (la * 256) 256 = .ok → (owner = 0xFE → s.lineBusy la = false) →
    s.gddrOpen la = true → s.gddrFetch la = (d, t) → t.fill die owner la 2 false d .none = some u →
    exec (.nextLinePrefetch die) s = .next (u.popPrefetch die)) ∧
  (∀ a die v s, machineActor a = true → isOwner (natField v.toNat 15 8) = true → v.toNat % 2 = 1 →
    exec (.orgFlush a die v) s = .next ((s.wr F.orgFlush_OWNER die 0 (natField v.toNat 15 8)).wr F.orgFlush_GO die 0 1)) ∧
  (∀ die s, s.flag F.orgFlush_GO die 0 = true →
    (∀ e ∈ s.flushLines die, s.gddrOpen e.2.la = true) →
    exec (.orgFlushDone die) s = .next ((((s.visitTags die (s.rd F.orgFlush_OWNER die 0) fun _ => true).flushLines die).foldl
      (cleanLineOf die) (s.visitTags die (s.rd F.orgFlush_OWNER die 0) fun _ => true)).wr F.orgFlush_GO die 0 0)) ∧
  (∀ die temps margins s, s.rd F.gdrStatus_STATE die 0 = 3 → ((∃ m ∈ margins, m < s.rd F.gdrTrain_MARGIN die 0) ∨
      (∃ e ∈ temps.zipIdx, tget s.org.trained (die, e.2) 0 + 20 < e.1 ∨ e.1 + 20 < tget s.org.trained (die, e.2) 0)) →
    exec (.gddrTrackingRead die temps margins) s = .next (s.wr F.gdrTrain_PENDING die 0 1)) ∧
  (∀ die temps comp s, s.rd F.gdrStatus_STATE die 0 = 4 →
    exec (.gddrRetrainDone die none temps) s = .next ((s.upkeepEnded (.gddr die)).retrained die temps) ∧
    exec (.gddrRetrainDone die (some comp) temps) s = .next ((s.upkeepEnded (.gddr die)).retrainFailed die comp)) ∧
  (∀ die comp s, s.rd F.gdrStatus_STATE die 0 = 3 → s.rd F.gdrScrub_INTERVAL die 0 ≠ 0 → comp < 3 →
    exec (.scrubGroup die comp) s = .next (((List.range 16).foldl (fun t i => t.scrubLine (die * 2 ^ 26 +
      16 * (3 * tget s.org.scrub (die, comp) 0 + comp) + i)) s).scrubNext die comp (tget s.org.scrub (die, comp) 0))) ∧
  (∀ a die plot v s, machineActor a = true → (natField v.toNat 7 0 < 64 ∨ 0xFE ≤ natField v.toNat 7 0) →
    plot * 2 ^ 30 < s.rd F.gdrCap_USABLE die 0 → s.ownerQuiet (s.rd F.gdrPlot_OWNER die plot) = true →
    s.ownerQuiet (natField v.toNat 7 0) = true → s.flag F.gdrPlot_ZFILL die plot = false →
    (natField v.toNat 7 0 < 64 → ((s.plotsOf (natField v.toNat 7 0)).filter fun e => e != (die, plot)).length + 1 ≤
      s.rd F.pavQuota_GDDR (natField v.toNat 7 0) 0) → natField v.toNat 7 0 ≠ s.rd F.gdrPlot_OWNER die plot →
    exec (.gdrPlotWrite a die plot v) s = .next ((s.wr F.gdrPlot_OWNER die plot (natField v.toNat 7 0)).wr F.gdrPlot_ZFILL die plot 1)) ∧
  (∀ die plot s, s.flag F.gdrPlot_ZFILL die plot = true → exec (.plotZeroFillDone die plot) s = .next
      ((s.zeroRange (die * 2 ^ 34 + plot * 2 ^ 30) (die * 2 ^ 34 + plot * 2 ^ 30 + 2 ^ 30)).wr F.gdrPlot_ZFILL die plot 0))

/-- For every state and operands: an atomic of 4 or 8 bytes that the home agent admits writes the value of Table 9-5 and answers the old one, adding 1 to DONE; BLKADD combines its block and answers success; LR of readable bytes through a cacheable mapping of the GDDR aperture answers its value and sets the reservation of its 64-byte block; SC with the reservation stores and answers 0, without it answers 1 and stores nothing. Sizes other than 4 and 8 are refused. The next state given is all that changes (in the atomicAt case, beyond what the access itself changes). -/
def Obligations.AtomicsComplete : Prop :=
  (∀ r addr size op v cmp s old t, (size = 4 ∨ size = 8) → s.atomicAt r addr size size (fun old => leBytes size
      (atomicValue op size (leNat old) (v.toNat % 2 ^ (8 * size)) (cmp.toNat % 2 ^ (8 * size)))) = .done old t →
    exec (.atomic r addr size (.amo op) v cmp) s = .next ((t.bump F.orgAtomic_DONE (atomicDie addr) 0 1).send
      (gotBy r (BitVec.ofNat 64 (leNat old))))) ∧
  (∀ r addr fmt data s old t, s.atomicAt r addr 528 16 (fun old => blockCombine fmt old data) = .done old t →
    exec (.blkadd r addr fmt data) s = .next ((t.bump F.orgAtomic_DONE (atomicDie addr) 0 1).send (.status St.success))) ∧
  (∀ h m addr size v cmp s bs t, (size = 4 ∨ size = 8) → reservable (.hart h m false) addr size = true →
    s.buffered (.hart h m false) addr size = false → s.readAs (.hart h m false) true true addr size = .done bs t →
    allReadable bs = true → exec (.atomic (.hart h m false) addr size .lr v cmp) s = .next
      { t.answerLoad h addr false 4 bs with
        coh := { (t.answerLoad h addr false 4 bs).coh with resv := tset (t.answerLoad h addr false 4 bs).coh.resv h (addr / 64 * 64) } }) ∧
  (∀ h m addr size v cmp s, (size = 4 ∨ size = 8) → reservable (.hart h m false) addr size = true →
    (tfind s.coh.resv h ≠ some (addr / 64 * 64) → exec (.atomic (.hart h m false) addr size .sc v cmp) s = .next
      ({ s with coh := { s.coh with resv := terase s.coh.resv h } }.send (.hart h 1))) ∧
    (∀ old t, tfind s.coh.resv h = some (addr / 64 * 64) →
      s.atomicAt (.hart h m false) addr size size (fun _ => leBytes size (v.toNat % 2 ^ (8 * size))) = .done old t →
      exec (.atomic (.hart h m false) addr size .sc v cmp) s = .next
        ({ t with coh := { t.coh with resv := terase t.coh.resv h } }.send (.hart h 0)))) ∧
  (∀ r addr size op v cmp s, size ≠ 4 → size ≠ 8 → exec (.atomic r addr size op v cmp) s = .next (s.send (refusedTo r St.accessFault)))

/-- For every state: a walk of an address that reaches a leaf fills the die and unit caches and answers the physical address, or answers the cause of its fault; an 8-byte write of SMMU_INV by the Keeper or a hart in machine mode with no reserved bit and a free place enters its command; the oldest command takes effect everywhere, a tag-wide or all-tags command completing with it; a command in force with nothing left to drain completes. The next state given is all that changes. -/
def Obligations.TranslationCommandsComplete : Prop :=
  (∀ p va need u s e t pa b c t', s.xlatEarly p va = none → s.walk p va (xlatDie u) = .leaf e t →
    ((t.putDieTlb p (xlatDie u) e).putUnitTlb p u e).useLeaf e va need none = .ok pa b c t' →
    exec (.translationWalk p va need u) s = .next (t'.send (.value (BitVec.ofNat 64 pa)))) ∧
  (∀ a v s, machineActor a = true → (s.smmu.invq.filter fun c => !c.own).length < invPlaces → s.smmu.waiting = [] →
    (invReserved (putBits v 63 62 0) = false → exec (.smmuInvRange a 8 v) s = .next (s.invEnter (putBits v 63 62 0))) ∧
    (invReserved (putBits v 63 62 1) = false → exec (.smmuInvTag a 8 v) s = .next (s.invEnter (putBits v 63 62 1))) ∧
    (invReserved (putBits v 63 62 2) = false → exec (.smmuInvAll a 8 v) s = .next (s.invEnter (putBits v 63 62 2)))) ∧
  (∀ s c q, s.smmu.invq = c :: q → c.taken = false →
    (c.kind = 0 → exec .smmuInvTakeEffect s = .next { s.dropRange c.ast c.base c.len with smmu := { (s.dropRange c.ast c.base c.len).smmu with
      invq := { c with taken := true, drain := s.drainOf c.ast (s.pagesOf c.ast c.base c.len) } :: q } }) ∧
    (c.kind ≠ 0 → exec .smmuInvTakeEffect s = .next (s.dropTag (if c.kind = 1 then some c.ast else none)).invComplete)) ∧
  (∀ s c q, s.smmu.invq = c :: q → c.taken = true → c.drain = [] → exec .smmuInvComplete s = .next s.invComplete)

/-- For every state: a ReadShared, ReadOwn or Upgrade that is the first request of a line without a transaction begins its transaction; a CleanEvict clears the presence of its agent and promotes the other holder; a WriteBack hands its data to the home. The next state given is all that changes. -/
def Obligations.CoherenceRequestsComplete : Prop :=
  (∀ cd la s d, s.firstReq la = some (.readShared, cd, d) → s.txn la = none →
    exec (.readShared cd la) s = .next (s.begin .readShared cd la)) ∧
  (∀ cd la s d, s.firstReq la = some (.readOwn, cd, d) → s.txn la = none →
    exec (.readOwn cd la) s = .next (s.begin .readOwn cd la)) ∧
  (∀ cd la s d, s.firstReq la = some (.upgrade, cd, d) → s.txn la = none →
    exec (.upgrade cd la) s = .next (s.begin .upgrade cd la)) ∧
  (∀ cd la s d, s.firstReq la = some (.cleanEvict, cd, d) → s.txn la = none →
    exec (.cleanEvict cd la) s = .next (
      if (s.dir la).own == some cd && (s.dir la).has (1 - cd) then
        (((((s.take (.req .cleanEvict cd la none)).setDir la ((s.dir la).put cd false)).snoops (homeDie la) 1).post
          (.snp .promote (1 - cd) la)).setTxn ⟨la, .cleanEvict, cd, [1 - cd], [], false, none, false, false⟩)
      else (s.take (.req .cleanEvict cd la none)).setDir la ((s.dir la).put cd false))) ∧
  (∀ cd la s d t, s.firstReq la = some (.writeBack, cd, some d) → s.txn la = none →
    (s.take (.req .writeBack cd la (some d))).homePut la d = some t →
    exec (.writeBack cd la) s = .next (t.tookBack cd la))

/-- For every state in which a snoop of its kind is on its way to a core die, the command answers it from the state that the agent holds (Table 11-2); the next state given is all that changes. -/
def Obligations.SnoopsComplete : Prop :=
  (∀ cd la s, s.coh.msgs.contains (.snp .shared cd la) = true →
    exec (.snpShared cd la) s = .next (s.answerSnoop .shared cd la)) ∧
  (∀ cd la s, s.coh.msgs.contains (.snp .clean cd la) = true →
    exec (.snpClean cd la) s = .next (s.answerSnoop .clean cd la)) ∧
  (∀ cd la s, s.coh.msgs.contains (.snp .own cd la) = true →
    exec (.snpOwn cd la) s = .next (s.answerSnoop .own cd la)) ∧
  (∀ cd la s, s.coh.msgs.contains (.snp .inv cd la) = true →
    exec (.snpInv cd la) s = .next (s.answerSnoop .inv cd la)) ∧
  (∀ cd la s, s.coh.msgs.contains (.snp .back cd la) = true →
    exec (.backInvalidation cd la) s = .next (s.answerSnoop .back cd la)) ∧
  (∀ cd la s, s.coh.msgs.contains (.snp .promote cd la) = true →
    exec (.promote cd la) s = .next (s.answerSnoop .promote cd la))

/-- For every state: an Ack, an AckWB, a Complete and line data that are on their way reach the home or the requester; a core that evicts a line sends its WriteBack or CleanEvict. The next state given is all that changes. -/
def Obligations.CoherenceAnswersComplete : Prop :=
  (∀ cd la s was, s.coh.msgs.findSome? (CMsg.ackOf cd la) = some was →
    exec (.cohAck cd la) s = .next ((s.take (.ack cd la was)).answered cd la was false)) ∧
  (∀ cd la s, s.coh.msgs.contains (.ackWb cd la) = true →
    exec (.ackWb cd la) s = .next ((s.take (.ackWb cd la)).answered cd la .i true)) ∧
  (∀ cd la s st r, s.coh.msgs.findSome? (CMsg.completeOf cd la) = some st →
    (s.take (.complete cd la st)).creq cd la = some r →
    exec (.cohComplete cd la) s = .next (((s.take (.complete cd la st)).setCreq cd la { r with grant := some st }).agentDone cd la)) ∧
  (∀ cd la bs s d r, s.coh.msgs.findSome? (CMsg.dataOf (.cd cd) la) = some d →
    (s.take (.data (.cd cd) la d)).creq cd la = some r →
    exec (.coherenceData (.cd cd) la bs) s = .next (((s.take (.data (.cd cd) la d)).setCreq cd la { r with data := some d }).agentDone cd la)) ∧
  (∀ la bs s d t x, s.coh.msgs.findSome? (CMsg.dataOf .home la) = some d →
    (s.take (.data .home la d)).homePut la d = some t → t.txn la = some x →
    exec (.coherenceData .home la bs) s = .next ((t.setTxn { x with data := false }).finishTxn la)) ∧
  (∀ cd la s, (s.creq cd la).isSome = false → cd < 2 → (s.cline cd la).st = .d →
    exec (.coreEviction cd la) s = .next ((((s.givenErrs la (s.cline cd la)).setCline cd la .gone).setCreq cd la
      ⟨.writeBack, none, none, []⟩).post (.req .writeBack cd la (some (s.cline cd la).given)))) ∧
  (∀ cd la s, (s.creq cd la).isSome = false → cd < 2 → (s.cline cd la).st ≠ .d → (s.cline cd la).st ≠ .i →
    exec (.coreEviction cd la) s = .next ((s.setCline cd la .gone).post (.req .cleanEvict cd la none)))

/-- For every state: COH_OO_FORCE written by machine mode puts the home in owner order or lets it drain, a query is answered with a presence record for each line and an end record, records fill unknown entries, the end records settle what stays unknown, and a drained home returns to home order; bias commands clear their range. The next state given is all that changes. -/
def Obligations.DirectoryRepairCompletes : Prop :=
  (∀ a die v s, machineActor a = true →
    exec (.cohOoForce a die v) s = .next (
      if s.rd F.cohCtl_OO_FORCE die 0 = 0 ∧ v.toNat % 2 = 1 then
        (((s.wr F.cohCtl_OO_FORCE die 0 1).wr F.cohStatus_MODE die 0 1).wr F.cohStatus_DRAIN die 0 0).wr F.cohStatus_CAUSE die 0 3
      else if s.rd F.cohCtl_OO_FORCE die 0 = 1 ∧ v.toNat % 2 = 0 ∧ (tget s.coh.ends die []).isEmpty then
        (s.wr F.cohCtl_OO_FORCE die 0 0).wr F.cohStatus_DRAIN die 0 1
      else s.wr F.cohCtl_OO_FORCE die 0 (v.toNat % 2))) ∧
  (∀ die cd s set, s.coh.msgs.findSome? (CMsg.queryOf die cd) = some set →
    exec (.snpQuery die cd) s = .next (((s.linesOf die cd set).foldl
      (fun (s : State) (e : (Nat × Nat) × CLine) => s.post (.presence die cd e.1.2 e.2.st)) (s.take (.query die cd set))).post
      (.endRec die cd set))) ∧
  (∀ die cd la st s w x, s.coh.msgs.contains (.presence die cd la st) = true →
    (s.take (.presence die cd la st)).homeLine la = some (w, x) → x.dir.unknown = true →
    exec (.presenceRecord die cd la st) s = .next ((s.take (.presence die cd la st)).learn die cd la st x.dir)) ∧
  (∀ die cd la st s d t, s.coh.msgs.contains (.presence die cd la st) = true →
    (s.take (.presence die cd la st)).homeLine la = none → (s.take (.presence die cd la st)).homeFetch la = some (d, t) →
    exec (.presenceRecord die cd la st) s = .next (t.learn die cd la st .none)) ∧
  (∀ die cd set s, s.coh.msgs.findSome? (CMsg.endOf die cd) = some set → s.coh.msgs.any (CMsg.isPresence die cd) = false →
    exec (.endRecord die cd) s = .next ({ s.take (.endRec die cd set) with
      coh := { (s.take (.endRec die cd set)).coh with
        ends := tset s.coh.ends die ((tget s.coh.ends die []).erase (cd, set)) } }.allKnown die)) ∧
  (∀ die s, s.flag F.cohStatus_DRAIN die 0 = true → (∀ t ∈ s.coh.txns, homeDie t.la = die → t.owner = false) →
    exec (.ownerOrderDrained die) s = .next (((s.wr F.cohStatus_MODE die 0 0).wr F.cohStatus_DRAIN die 0 0).wr F.cohStatus_CAUSE die 0 0)) ∧
  (∀ a v s, machineActor a = true →
    exec (.biasRelease a v) s = .next (s.biasFields (v.toNat.testBit 2) 0 (natField v.toNat 15 8) true)) ∧
  (∀ a v s, machineActor a = true →
    exec (.biasRecall a v) s = .next (s.biasFields (v.toNat.testBit 2) 1 (natField v.toNat 15 8) true)) ∧
  (∀ s t, s.flag F.cohBiasCtl_BUSY 0 0 = true → s.biasWaits = false →
    t = (List.range 8).foldl (fun t die => t.visitTags die (if s.biasCalls then sharedOwner else s.rd F.cohBiasCtl_OWNER 0 0)
      (s.biasPasses die)) (s.biasHeld.foldl State.recallLine s) →
    exec .biasDone s = .next ((((t.clearLines t.biasVisit).wr F.cohBiasCtl_BUSY 0 0 0)).wr F.cohBiasCtl_GO 0 0 0))

/-- For every state, word, cacheable address of the GDDR aperture and hart whose instruction is enabled and permitted: clean writes dirty copies back, flush and inval also remove every copy, zero writes the block, KX_EFENCE performs the stores of its hart; a KX instruction does so for each word that Table 12-4 gives it, whatever its address register, and every other custom-0 word raises an illegal-instruction exception (cause 2). A cache-management instruction that is not enabled, or whose address is not permitted, raises the exception of R430 and changes nothing else. -/
def Obligations.LineManagementCompletes : Prop :=
  (∀ op r, kxOf (kxWord op r) = some op) ∧
  (∀ hart w s, (kxOf w = some .efence → exec (.kxEfence ⟨hart, w⟩) s = .next (s.drainStores hart 33)) ∧
    (kxOf w ≠ some .efence → exec (.kxEfence ⟨hart, w⟩) s = .next (s.trap hart 2))) ∧
  (∀ hart w pa s, inGddr pa = true → s.cacheable pa = true →
    (kxOf w = some .lclean → exec (.kxLclean ⟨hart, w⟩ pa .on .ok) s = .next (s.cleanLine hart (pa / 256))) ∧
    (kxOf w = some .lflush → exec (.kxLflush ⟨hart, w⟩ pa .on .ok) s = .next (s.flushLine hart (pa / 256)))) ∧
  (∀ hart w pa s, inGddr pa = true → kxOf w = some .lzero → exec (.kxLzero ⟨hart, w⟩ pa .on .ok) s = .next (s.zeroAs hart pa 256)) ∧
  (∀ hart w pa g m s, (kxOf w ≠ some .lclean → exec (.kxLclean ⟨hart, w⟩ pa g m) s = .next (s.trap hart 2)) ∧
    (kxOf w ≠ some .lflush → exec (.kxLflush ⟨hart, w⟩ pa g m) s = .next (s.trap hart 2)) ∧
    (kxOf w ≠ some .lzero → exec (.kxLzero ⟨hart, w⟩ pa g m) s = .next (s.trap hart 2))) ∧
  (∀ hart pa s, inGddr pa = true → s.cacheable pa = true →
    exec (.cboClean hart pa .on .ok) s = .next (s.cleanLine hart (pa / 256)) ∧
    exec (.cboFlush hart pa .on .ok) s = .next (s.flushLine hart (pa / 256)) ∧
    exec (.cboInval hart pa .on .ok) s = .next (s.flushLine hart (pa / 256))) ∧
  (∀ hart pa s, inGddr pa = true → exec (.cboZero hart pa .on .ok) s = .next (s.zeroAs hart pa 64)) ∧
  (∀ hart pa g m c s, (g = .illegal ∧ c = 2 ∨ g = .virt ∧ c = 22 ∨ g = .on ∧ m = .page ∧ c = 15 ∨ g = .on ∧ m = .access ∧ c = 7) →
    exec (.cboClean hart pa g m) s = .next (s.trap hart c) ∧ exec (.cboFlush hart pa g m) s = .next (s.trap hart c) ∧
    exec (.cboInval hart pa g m) s = .next (s.trap hart c) ∧ exec (.cboZero hart pa g m) s = .next (s.trap hart c))

/-- For every state: an uncached load or store of a hart that its endpoints serve answers or takes effect; a cacheable load is answered or asks for its line, a cacheable store enters the store buffer; an MSI sets its identity pending; a register access of the supervisor reads or writes register space; a keeper request is submitted; a hart reaches the remote window aperture. The next state given is all that changes. -/
def Obligations.HartAccessesComplete : Prop :=
  (∀ hart mode pa size io fetch s bs t, inAperture pa = false → inRegs pa = false → inMemory pa size = true →
    inCells pa = false → s.throughCache io pa size = false → s.readAs (.hart hart mode io) false false pa size = .done bs t →
    exec (.coreLoad hart mode pa size io fetch) s = .next (t.answerLoad hart pa fetch 4 bs)) ∧
  (∀ hart mode pa size io fetch s, inAperture pa = false → inRegs pa = false → inMemory pa size = true →
    inCells pa = false → s.throughCache io pa size = true → s.admitHart (.hart hart mode io) false pa size = .ok →
    exec (.coreLoad hart mode pa size io fetch) s = .next (s.loadTry false ⟨hart, pa, size, fetch⟩)) ∧
  (∀ hart mode pa size io v s bs t, inAperture pa = false → inRegs pa = false → inMemory pa size = true →
    inCells pa = false → s.throughCache io pa (leBytes size v.toNat).length = false →
    s.writeAs (.hart hart mode io) false false pa (leBytes size v.toNat) = .done bs t →
    exec (.coreStore hart mode pa size io v) s = .next t) ∧
  (∀ hart mode pa size io v s, inAperture pa = false → inRegs pa = false → inMemory pa size = true →
    inCells pa = false → s.throughCache io pa (leBytes size v.toNat).length = true →
    s.admitHart (.hart hart mode io) true pa (leBytes size v.toNat).length = .ok →
    exec (.coreStore hart mode pa size io v) s = .next (s.pushStores hart ((linePieces pa (leBytes size v.toNat).length).map
      fun e => ⟨e.1, ((leBytes size v.toNat).drop (e.1 - pa)).take e.2⟩))) ∧
  (∀ hart file ident s, hart < 96 → file < 9 → exec (.msiWrite hart file ident) s = .next (s.msi 10 hart file ident)) ∧
  (∀ hart pa v s d t, pa % 8 = 0 → s.kxsAllows pa = true → s.spaceWrite (.hart hart .m) pa 8 v.toNat = .done d t →
    t.smmu.waiting.length ≤ s.smmu.waiting.length →
    exec (.kxsRegWrite hart pa v) s = .next (t.send (.sbi hart 0 0))) ∧
  (∀ hart pa s d t, pa % 8 = 0 → s.kxsAllows pa = true → s.spaceRead pa 8 = .done d t →
    exec (.kxsRegRead hart pa) s = .next (t.send (.sbi hart 0 (BitVec.ofNat 64 d)))) ∧
  (∀ hart pa len s t, pa % 16 = 0 → s.kpr.queue.length < kPlaces → pa < 2 ^ 52 → len % 16 = 0 → len ≤ 4096 →
    s.mbxWrite (BitVec.ofNat 64 (len / 16 * 2 ^ 52 + pa)) = (true, t) →
    exec (.kxsKeeper hart pa len) s = .next (t.send (.sbi hart 0 (BitVec.ofNat 64 (t.rd F.kprMbxStatus_SUBMITTED 0 0)))))

/-- For every state: a DLD that heads its queue with the context free loads a descriptor that passes its checks; a RUN and a SEND begin the run of their loaded context where the buffer has room and the checks pass; the next request of a run is issued, and a confirmed answer is taken and its tag freed. The next state given is all that changes. -/
def Obligations.StreamStartsComplete : Prop :=
  (∀ o s bs t, s.ready (.eng (opField o 47 40)) 1 o = true → s.ctxFree (opField o 47 40) (opField o 39 36) = true →
    s.rd F.seCtxStatus_STATE (opField o 47 40) (opField o 39 36) ≠ 3 → s.descBytes o = (some bs, t) → allReadable bs = true →
    s.loadCheck o.pav (opField o 47 40) (descOf (plain bs)) = 0 →
    exec (.dld o) s = .next (((t.storeDesc (opField o 47 40) (opField o 39 36) (plain bs)).markCtx (opField o 47 40) (opField o 39 36)
      1 St.success 0).engDone (opField o 47 40))) ∧
  (∀ o s stops t, s.ready (.eng (opField o 47 40)) 2 o = true → s.ctxFree (opField o 47 40) (opField o 39 36) = true →
    (s.rd F.seCtxStatus_STATE (opField o 47 40) (opField o 39 36) = 1 ∨ s.rd F.seCtxStatus_STATE (opField o 47 40) (opField o 39 36) = 4) →
    (s.desc (opField o 47 40) (opField o 39 36)).src ≠ 3 → (s.desc (opField o 47 40) (opField o 39 36)).tgt ≠ 3 →
    s.bufUsed (opField o 47 40) + (s.desc (opField o 47 40) (opField o 39 36)).reserve ≤ 65536 →
    s.beginChecks (opField o 47 40) o (s.desc (opField o 47 40) (opField o 39 36))
      ((s.desc (opField o 47 40) (opField o 39 36)).start (toSigned 32 (opField o 31 0) * o.index)) (opBit o 0) = .go stops t →
    exec (.run o) s = .next ((t.beginRun (opField o 47 40) (opField o 39 36) 2 o
      ((s.desc (opField o 47 40) (opField o 39 36)).start (toSigned 32 (opField o 31 0) * o.index)) (opBit o 0) stops none).engDone
      (opField o 47 40))) ∧
  (∀ o s stops t, s.pavState o.pav = 2 → s.xchReady (opField o 47 40 / 32) 7 o = true →
    s.ctxFree (opField o 47 40) (opField o 39 36) = true → s.bedsClosed o = false →
    ((s.desc (opField o 47 40) (opField o 39 36)).car = true ∨
      s.portForeign o.pav (natField (s.desc (opField o 47 40) (opField o 39 36)).aux 60 52) = false) →
    (s.rd F.seCtxStatus_STATE (opField o 47 40) (opField o 39 36) = 1 ∨ s.rd F.seCtxStatus_STATE (opField o 47 40) (opField o 39 36) = 4) →
    (s.desc (opField o 47 40) (opField o 39 36)).tgt = 3 →
    s.bufUsed (opField o 47 40) + (s.desc (opField o 47 40) (opField o 39 36)).reserve ≤ 65536 →
    s.beginChecks (opField o 47 40) o (s.desc (opField o 47 40) (opField o 39 36))
      ((s.desc (opField o 47 40) (opField o 39 36)).start (toSigned 12 (opField o 11 0) * 4096 * o.index)) false = .go stops t →
    exec (.xchSend o) s = .next ((t.beginRun (opField o 47 40) (opField o 39 36) 7 o
      ((s.desc (opField o 47 40) (opField o 39 36)).start (toSigned 12 (opField o 11 0) * 4096 * o.index)) false stops none).xchTake 7 o)) ∧
  (∀ eng ctx s x t, tfind s.str.runs (eng, ctx) = some x → s.runHeld x = false → s.pwr.shut = false →
    (s.nextIssue eng ctx x (s.desc eng ctx) = .ok t ∨ s.nextIssue eng ctx x (s.desc eng ctx) = .ask t) →
    exec (.streamRequestIssue eng ctx) s = .next t) ∧
  (∀ eng ctx tag s x q bs, tfind s.str.runs (eng, ctx) = some x →
    x.reqs.find? (fun q => q.tag == tag && q.resp.isSome) = some q → q.resp = some (St.success, bs) → x.dead = false →
    s.pavState x.op.pav = 2 → q.write = false → allReadable bs = true →
    exec (.streamResponse eng ctx tag) s = .next ((s.dropReq eng ctx x q).setRun eng ctx
      (({ x with reqs := x.reqs.erase q } : RunSt).fill (s.desc eng ctx) q bs))) ∧
  (∀ eng ctx tag s x q bs, tfind s.str.runs (eng, ctx) = some x →
    x.reqs.find? (fun q => q.tag == tag && q.resp.isSome) = some q → q.resp = some (St.success, bs) → x.dead = false →
    s.pavState x.op.pav = 2 → q.write = true →
    exec (.streamResponse eng ctx tag) s = .next (s.dropReq eng ctx x q))

/-- For every state: the next complete burst of a run goes to its consumer and is counted; a caravan stop keeps its part of its oldest burst or passes the burst on, and confirms a whole slice; a whole run ends in DONE; a stopped context of a fenced pavilion ends. The next state given is all that changes. -/
def Obligations.StreamStepsComplete : Prop :=
  (∀ eng ctx s x t, tfind s.str.runs (eng, ctx) = some x → s.runHeld x = false → x.col = none →
    x.burstReady (s.desc eng ctx) = true →
    s.deliver eng ctx x (s.desc eng ctx) x.sent (x.nextLen (s.desc eng ctx)) = .ok t →
    exec (.burstDeliver eng ctx) s = .next ((t.bump F.sePoison_ELEMENTS eng 0
      (x.narCount (s.desc eng ctx) x.sent (x.nextLen (s.desc eng ctx)))).bump F.seCtxStatus_BURSTS eng ctx 1)) ∧
  (∀ eng ctx stop s x u i t, tfind s.str.runs (eng, ctx) = some x → s.runHeld x = false → stop < x.stops.length →
    (tget x.at_ stop .init).bursts.zipIdx.find? (fun u => !u.1.passed) = some (u, i) →
    s.stopStep eng ctx stop i x u = .ok t → exec (.caravanBurstForward eng ctx stop) s = .next (t.pruneStop eng ctx stop)) ∧
  (∀ eng ctx stop s x, tfind s.str.runs (eng, ctx) = some x → x.dead = false → stop < x.stops.length →
    (tget x.at_ stop .init).confirmed = false → s.stopDone eng ctx stop x = true →
    exec (.caravanStopConfirm eng ctx stop) s = .next (s.setRun eng ctx { x with
      at_ := tset x.at_ stop { tget x.at_ stop .init with confirmed := true, slot := false } })) ∧
  (∀ eng ctx s x, tfind s.str.runs (eng, ctx) = some x → x.dead = false → x.lost = false → x.col = none →
    s.pavState x.op.pav = 2 → s.runWhole eng x (s.desc eng ctx) = true →
    exec (.runComplete eng ctx) s = .next ((((s.wr F.seCtxStatus_STATE eng ctx 4).wr F.seCtxStatus_CODE eng ctx 0).endRun eng ctx).runEnded
      x.op.pav (s.desc eng ctx) x)) ∧
  (∀ eng ctx s x u, tfind s.str.runs (eng, ctx) = some x → (s.pavState x.op.pav = 3 ∨ s.pavState x.op.pav = 4) → x.reqs = [] →
    u = (if x.dead then s else s.wr F.seCtxStatus_STATE eng ctx 3) →
    (s.runApplied eng ctx x (s.desc eng ctx) = false → exec (.contextStopped eng ctx) s = .next (u.endRun eng ctx)) ∧
    (s.runApplied eng ctx x (s.desc eng ctx) = true → x.col = none →
      exec (.contextStopped eng ctx) s = .next ((u.confirm x.op.pav).endRun eng ctx)) ∧
    (∀ k, s.runApplied eng ctx x (s.desc eng ctx) = true → x.col = some k →
      exec (.contextStopped eng ctx) s = .next (((u.confirm x.op.pav).addStile k.dstile 1).endRun eng ctx)))

/-- For every state: ALLRED, RSCAT and AGATH begin on a stop of their plan with a loaded context that suits them; a collective with its result complete and all its sends made adds 1 to its stile, is confirmed and ends with success. The next state given is all that changes. -/
def Obligations.CollectivesComplete : Prop :=
  (∀ o s x stops t, s.pavState o.pav = 2 → s.xchReady (opField o 47 40 / 32) 8 o = true → s.bedsClosed o = false →
    s.ctxFree (opField o 47 40) (opField o 39 36) = true → s.planStop o.pav (opField o 35 28) (opField o 47 40) = some x →
    (s.rd F.seCtxStatus_STATE (opField o 47 40) (opField o 39 36) = 1 ∨ s.rd F.seCtxStatus_STATE (opField o 47 40) (opField o 39 36) = 4) →
    colFits 8 (opField o 27 26) (s.desc (opField o 47 40) (opField o 39 36)) x = true →
    s.bufUsed (opField o 47 40) + (s.desc (opField o 47 40) (opField o 39 36)).reserve ≤ 65536 →
    s.beginChecks (opField o 47 40) o (s.desc (opField o 47 40) (opField o 39 36))
      ((s.desc (opField o 47 40) (opField o 39 36)).start 0) false = .go stops t →
    exec (.allred o) s = .next (t.beginCollective (opField o 47 40) (opField o 39 36) 8 o
      ((s.desc (opField o 47 40) (opField o 39 36)).start 0) x)) ∧
  (∀ o s x stops t, s.pavState o.pav = 2 → s.xchReady (opField o 47 40 / 32) 9 o = true → s.bedsClosed o = false →
    s.ctxFree (opField o 47 40) (opField o 39 36) = true → s.planStop o.pav (opField o 35 28) (opField o 47 40) = some x →
    (s.rd F.seCtxStatus_STATE (opField o 47 40) (opField o 39 36) = 1 ∨ s.rd F.seCtxStatus_STATE (opField o 47 40) (opField o 39 36) = 4) →
    colFits 9 (opField o 27 26) (s.desc (opField o 47 40) (opField o 39 36)) x = true →
    s.bufUsed (opField o 47 40) + (s.desc (opField o 47 40) (opField o 39 36)).reserve ≤ 65536 →
    s.beginChecks (opField o 47 40) o (s.desc (opField o 47 40) (opField o 39 36))
      ((s.desc (opField o 47 40) (opField o 39 36)).start 0) false = .go stops t →
    exec (.rscat o) s = .next (t.beginCollective (opField o 47 40) (opField o 39 36) 9 o
      ((s.desc (opField o 47 40) (opField o 39 36)).start 0) x)) ∧
  (∀ o s x stops t, s.pavState o.pav = 2 → s.xchReady (opField o 47 40 / 32) 10 o = true → s.bedsClosed o = false →
    s.ctxFree (opField o 47 40) (opField o 39 36) = true → s.planStop o.pav (opField o 35 28) (opField o 47 40) = some x →
    (s.rd F.seCtxStatus_STATE (opField o 47 40) (opField o 39 36) = 1 ∨ s.rd F.seCtxStatus_STATE (opField o 47 40) (opField o 39 36) = 4) →
    colFits 10 (opField o 27 26) (s.desc (opField o 47 40) (opField o 39 36)) x = true →
    s.bufUsed (opField o 47 40) + (s.desc (opField o 47 40) (opField o 39 36)).reserve ≤ 65536 →
    s.beginChecks (opField o 47 40) o (s.desc (opField o 47 40) (opField o 39 36))
      ((s.desc (opField o 47 40) (opField o 39 36)).start 0) false = .go stops t →
    exec (.agath o) s = .next (t.beginCollective (opField o 47 40) (opField o 39 36) 10 o
      ((s.desc (opField o 47 40) (opField o 39 36)).start 0) x)) ∧
  (∀ p eng plan s e c x t, s.colRun p eng plan = some ((e, c), x) → x.col = some t → x.dead = false → x.lost = false →
    s.pavState p = 2 → x.reqs = [] → t.result (s.desc eng c) ≤ t.wr → t.sentAll (s.desc eng c) = true →
    exec (.collectiveDone p eng plan) s = .next ((((s.addStile t.dstile 1).confirm p).endCollective eng c St.success).colClear t (s.desc eng c)))

/-- For every state: a commit of a program of a quiet pavilion takes its fields and starts the digest; a registration of a readable program stores its SHA-384 digest; a commit of queue pairs that pass their check installs them. The next state given is all that changes. -/
def Obligations.ProgramsRegister : Prop :=
  (∀ a p s, s.sys.warmOn = false → exec (.pavProgCommitGo a p) s = .next (s.commitGo .pavProgCommit p)) ∧
  (∀ p s, s.commitDue .pavProgCommit p = true → s.pavQuiet p = true → s.rdShadow F.pavProgLen_LEN p 0 ≤ 2 ^ 24 →
    exec (.pavProgCommitApply p) s = .next ((((((s.commitField F.pavProgBase_BASE p 0 p 0).commitField F.pavProgLen_LEN p 0 p 0).commitEnd
      .pavProgCommit p 0).wr F.pavStatus_PROG_BUSY p 0 1)).clearBuffers p)) ∧
  (∀ p s bs t, s.flag F.pavStatus_PROG_BUSY p 0 = true → s.progLen p ≠ 0 → s.programBytes p = .ok bs t → allReadable bs = true →
    exec (.programRegistrationDone p) s = .next ((t.setPav p { t.pav p with digest := Config.sha384 (plain bs) }).registered p)) ∧
  (∀ a p s, s.sys.warmOn = false → exec (.pavQpCommitGo a p) s = .next (s.commitGo .pavQpCommit p)) ∧
  (∀ p s, s.commitDue .pavQpCommit p = true → (∀ q < 16, s.qpChanged p q = true → s.qpOk p q = true) →
    exec (.pavQpCommitApply p) s = .next ((((List.range 16).filter (s.qpChanged p)).foldl (fun s q => s.qpInstall p q) s).commitEnd
      .pavQpCommit p 0))

/-- For every state: an idle pavilion takes the next entry of a qualifying pair and starts its RUN; a doorbell and a CQ head in range are taken; a token word is stored; an event vector takes its fields; a write of 1 fences an idle or running pavilion with the aborted status. The next state given is all that changes. -/
def Obligations.QueuePairsAct : Prop :=
  (∀ p s q bs t, s.nextQp p = some q → s.pavState p = 1 → s.progLen p ≠ 0 → s.flag F.pavStatus_PROG_BUSY p 0 = false →
    s.sqRead p q = .ok bs t → allReadable bs = true → fieldLe (plain bs) 0 1 = 1 → fieldLe (plain bs) 1 1 < 2 →
    fieldLe (plain bs) 4 4 < s.progLen p →
    exec (.sqEntryTake p) s = .next ((t.sqTaken p q ((s.rd F.pavQpState_SQ_HEAD p q + 1) % 65536)).startRun p
      (requestOf q ((s.rd F.pavQpState_SQ_HEAD p q + 1) % 65536) (plain bs)) (fieldLe (plain bs) 4 4)
      ((List.range 6).map fun i => fieldLe (plain bs) (8 + 8 * i) 8))) ∧
  (∀ a p q v s, s.sys.warmOn = false → s.flag F.pavQpSq_REMOTE p q = false → s.tailOk p q (natField v.toNat 15 0) = true →
    exec (.sqDoorbell a p q v) s = .next (s.wr F.pavSqTail_TAIL p q (natField v.toNat 15 0))) ∧
  (∀ a p q v s, s.sys.warmOn = false → s.flag F.pavQpSq_REMOTE p q = false → s.headOk p q (natField v.toNat 15 0) = true →
    exec (.cqHeadWrite a p q v) s = .next (s.wr F.pavCqHead_HEAD p q (natField v.toNat 15 0))) ∧
  (∀ a p q v s, s.sys.warmOn = false → (s.setReg .pavQpToken0 p q v).qpState p q ≠ 4 →
    exec (.pavQpTokenWrite a p q 0 v) s = .next (s.setReg .pavQpToken0 p q v)) ∧
  (∀ a p q v s, s.sys.warmOn = false → (s.setReg .pavQpToken1 p q v).qpState p q = 4 →
    tget ((s.setReg .pavQpToken1 p q v).pav p).lastTok q 0 = 1 →
    exec (.pavQpTokenWrite a p q 1 v) s = .next ((((s.setReg .pavQpToken1 p q v).setPav p { (s.setReg .pavQpToken1 p q v).pav p with
      lastTok := terase ((s.setReg .pavQpToken1 p q v).pav p).lastTok q }).wr F.pavQpState_FAILS p q 0).setQp p q 2)) ∧
  (∀ a p vec v s, s.sys.warmOn = false → s.flag F.pavEvec_MASK p vec = false → natField v.toNat 24 18 < 96 →
    natField v.toNat 17 14 < 9 → 1 ≤ natField v.toNat F.pavEvec_ID.hi F.pavEvec_ID.lo →
    natField v.toNat F.pavEvec_ID.hi F.pavEvec_ID.lo ≤ 511 → v.toNat.testBit 61 = false →
    exec (.pavEvecWrite a p vec v) s = .next (((([F.pavEvec_V, F.pavEvec_MASK, F.pavEvec_KIND, F.pavEvec_QP].foldl
      (fun t f => t.wr f p vec (natField v.toNat f.hi f.lo)) s).wr F.pavEvec_ID p vec
      (natField v.toNat F.pavEvec_ID.hi F.pavEvec_ID.lo)).wr F.pavEvec_HART p vec (natField v.toNat 24 18)).wr
      F.pavEvec_FILE p vec (natField v.toNat 17 14))) ∧
  (∀ a p v s, s.sys.warmOn = false → v.toNat.testBit 0 = true → (s.pavState p = 1 ∨ s.pavState p = 2) →
    exec (.pavFenceWrite a p v) s = .next (s.fence p St.aborted))

/-- For every state: a halted running pavilion with nothing incomplete writes its record and is idle; RESET of a fenced pavilion starts its reset, whose end cleans it; RELEASE of a clean fenced pavilion that may be released releases it; a MOVE due is released; a replay restores its snapshot once every exchange operation is settled. The next state given is all that changes. -/
def Obligations.PavilionsEndAndRestart : Prop :=
  (∀ p s r t, s.pavState p = 2 → s.allHalted p = true → s.anyBusy p = false → (s.pav p).moves = [] → s.moveInv p = false →
    (s.pav p).req = some r → s.writeRecord p r St.success (s.lastWord p) = some t →
    exec (.pavilionHalted p) s = .next ((t.setPav p { t.pav p with req := none }).setPavState p 1)) ∧
  (∀ p s m rest t, (s.pav p).moves = m :: rest → s.releaseDue p = true →
    State.releasePages p (m.size / 65536) m.srcVa m.va m.size (s.setPav p { s.pav p with moves := rest }) = some t →
    exec (.moveRelease p) s = .next ((t.invOwn 0 (s.ctxAst p) m.srcVa m.size).invOwn 0 (s.ctxAst p) m.va m.size)) ∧
  (∀ a p v s t, s.sys.warmOn = false → v.toNat.testBit 1 = false →
    t = (s.wr F.pavCtl_SCRUB p 0 (natField v.toNat 10 8)).wr F.pavCtl_AUTOREL p 0 (natField v.toNat 2 2) → t.pavState p = 3 →
    exec (.pavReset a p v) s = .next ((t.setPav p { t.pav p with soiled := false }).setPavState p 4)) ∧
  (∀ a p v s t, s.sys.warmOn = false → v.toNat.testBit 0 = false →
    t = (s.wr F.pavCtl_SCRUB p 0 (natField v.toNat 10 8)).wr F.pavCtl_AUTOREL p 0 (natField v.toNat 2 2) →
    t.pavState p = 3 → t.flag F.pavStatus_CLEAN p 0 = true → t.releasable p = true →
    exec (.pavRelease a p v) s = .next (t.release p)) ∧
  (∀ p s r t u, s.pavState p = 4 → s.drainedPav p = true → (∀ d ∈ s.dies p, d ∉ s.sys.dieReq) → s.drainRecord p = some r →
    r.discardMoves p = some t →
    u = (((t.clearPav p).scrubPav p).wr F.pavStatus_CLEAN p 0 (boolNat !(s.pav p).soiled)).setPavState p 3 →
    exec (.pavResetDone p) s = .next (if u.flag F.pavCtl_AUTOREL p 0 && !(s.pav p).soiled && u.releasable p then u.release p else u)) ∧
  (∀ p s k, (s.pav p).snap = some k → s.pavState p = 3 → (s.pav p).replay = true → s.xchSettled p = true → s.committing p = false →
    exec (.replayRestore p) s = .next (((((((s.flushPav p).resetBeds p).reloadContexts p).restoreSnap p k).armMark p).wr
      F.pavFence_CAUSE p 0 0).setPavState p 2))

/-- For every state: the next missing word is fetched into the buffer of a running slice; PFH loads its words and goes on; a QUIET that every slice has reached opens its window and grants what can start; a window closes; a whole token goes to its link port. The next state given is all that changes. -/
def Obligations.SliceHelpersComplete : Prop :=
  (∀ p die s w bs t, s.nextMissing p (s.slice p die) = some w → s.pavState p = 2 → (s.slice p die).run = true →
    (s.slice p die).halted = false → s.fetchWord p die w = some (bs, t) →
    exec (.prefetchWord p die) s = .next (t.setSlice p die ((s.slice p die).bufPut w bs))) ∧
  (∀ p die target count s t, s.dueCtl p die 8 (fun w => slotField w 23 0 == target && slotField w 29 24 == count) = true →
    t = s.setSlice p die (s.slice p die).advance →
    exec (.ctlPfh p die target count) s = .next ((((List.range (count + 1)).map (target + ·)).filter fun w =>
      decide (w < t.progLen p) && (tfind (t.slice p die).buf w).isNone).foldl (State.hintWord p die) t)) ∧
  (∀ p die classes len s t, s.quietDue p die classes len = true → t = s.openQuiet p classes len (s.slice p die).issued →
    (t.quietUse p classes = true ∨ t.quietGranted p ≠ []) →
    exec (.ctlQuiet p die classes len) s = .next (allUpkeep.foldl (quietGrant p classes) t)) ∧
  (∀ p s q, (s.pav p).quiet = some q → q.granted = [] → exec (.quietClose p) s = .next (s.closeQuiet p q)) ∧
  (∀ p s q, (s.pav p).quiet = some q → q.granted ≠ [] → exec (.quietClose p) s = .next (s.setPav p { s.pav p with
      quiet := some { q with ended := true } })) ∧
  (∀ o s g d n k es t, (s.pav o.pav).sigs.find? (fun g => g.op == o) = some g → g.dev = some d → g.whole = true → g.sent = false →
    s.route d o.pav (some o.pav) = .port n → s.closedTo o.pav (.link n) = false → s.freeSlot = some k → s.nextEseq 1001 o.pav = (es, t) →
    exec (.xchToken o) s = .next ((t.sigSent o).sendReq n (t.tokenFrame o g d (128 + k) es) (.token o.pav o.seq)))

/-- For every state: a DOWN port whose PMD trains starts its handshake, and tries again after a failure; a HELLO is answered with the signature where an admission rule matches its partner, and fails the handshake where none does; a FINISH that verifies brings the port UP, another fails; a handshake that is late fails. The next state given is all that changes. -/
def Obligations.LinkUpCompletes : Prop :=
  (∀ port s, s.lpState port = 1 → port < 16 → s.sys.r156 = true → exec (.pmdUp port) s = .next (s.startAuth port)) ∧
  (∀ port s, exec (.pmdTrainingFail port) s = .next s) ∧
  (∀ port h s k, s.lpMode port = 2 → s.lpState port = 2 → (s.port port).hs = some k → k.hello = none →
    exec (.hello port h) s = .next (match s.rulesFor port h with
      | [] => s.hsFail port true
      | g :: rest => ((s.multiRule port rest).onPort port fun x => { x with hs := some { k with hello := some (h, g) } }).putLink
          port ⟨0x26, true, ((s.multiRule port rest).onPort port fun x => { x with hs := some { k with hello := some (h, g) } }).finishBytes k h⟩)) ∧
  (∀ port h s, s.lpMode port = 1 → (s.lpState port = 2 ∨ s.lpState port = 3) → s.sessionRoom port = true →
    exec (.hello port h) s = .next (match s.rulesFor port h with
      | [] => s.hsFail port true
      | g :: rest =>
        let k := (s.multiRule port rest).beginHs.1
        let n := (s.multiRule port rest).beginHs.2.newSession.1
        let u := (s.multiRule port rest).beginHs.2.newSession.2
        let w := u.setSession n ⟨port, none, some { k with hello := some (h, g) }, 0, 0, [], [], 0, u.rd F.lpKmt_RTO 0 0, false, h.mac, [],
          u.reg .lpEth port 0, u.ownIp port⟩
        (w.send (.kmt n 0 0 (hsMsg 0x01 k.own))).send (.kmt n 0 0 (hsMsg 0x02 (w.finishBytes k h))))) ∧
  (∀ port session sig s k h g, s.lpMode port = 2 → s.lpState port = 2 → (s.port port).hs = some k → k.hello = some (h, g) →
    exec (.finish port session sig) s = .next (if Config.ecdsaVerify h.pubKey (s.transcript k h) sig then
      s.enterUp port (s.partnerOf k h g "KX-SLP-1") else s.hsFail port true)) ∧
  (∀ port session sig s k hs h g t, s.lpMode port ≠ 2 → s.session session = some k → k.port = port → k.hs = some hs →
    hs.hello = some (h, g) → t = s.setSession session { k with partner := some (s.partnerOf hs h g "KX-KMT-1"), hs := none } →
    exec (.finish port session sig) s = .next (if Config.ecdsaVerify h.pubKey (s.transcript hs h) sig then
      (if t.lpState port = 2 then
        (t.showPartner port (s.partnerOf hs h g "KX-KMT-1")).onPort port fun x => { x with partner := some (s.partnerOf hs h g "KX-KMT-1") }
        else t)
      else (s.loseSession session).hsFail port true)) ∧
  (∀ port s, s.lpState port = 2 → exec (.handshakeTimeout port) s = .next
    (((s.lnk.kmt.filter fun e => e.2.port == port && e.2.partner.isNone).foldl (fun s e => s.loseSession e.1) s).hsFail port true)) ∧
  (∀ port s, s.lpState port = 1 → (s.port port).waiting = true → exec (.handshakeRetry port) s = .next (s.startAuth port))

/-- For every state and link frame that passes its checks: a beacon moves its agreement entry, credits are taken, LACK and LNAK acknowledge, IDLE changes nothing more, DEGRADE joins the lane maps and FAILOVER moves frames. The next state given is all that changes. -/
def Obligations.LinkFramesComplete : Prop :=
  (∀ port f s t, s.linkGate port 0x21 f = (t, true) → exec (.slpBeacon port f) s = .next (t.beaconIn port f.payload)) ∧
  (∀ port f s t, s.linkGate port 0x22 f = (t, true) → exec (.slpCredit port f) s = .next (t.creditIn port f.payload)) ∧
  (∀ port f s t, s.linkGate port 0x23 f = (t, true) → exec (.lack port f) s = .next (t.linkAcked port (beNat (f.payload.take 4)))) ∧
  (∀ port f s t, s.linkGate port 0x23 f = (t, true) → exec (.lnak port f) s = .next ((t.linkAcked port (beNat (f.payload.take 4))).resendAll port)) ∧
  (∀ port f s t, s.linkGate port 0x24 f = (t, true) → exec (.linkIdle port f) s = .next (t)) ∧
  (∀ port f s t, s.linkGate port 0x25 f = (t, true) → exec (.degrade port f) s = .next (t.degradeIn port f.payload)) ∧
  (∀ port f s t, s.linkGate port 0x27 f = (t, true) → exec (.failover port f) s = .next (t.failoverIn port f.payload))

/-- For every state: an open scheduled port sends its next frame; its timers acknowledge, return credits, replay and send IDLE; the timeouts of Table 14-11 move the port. The next state given is all that changes. -/
def Obligations.PortTimersComplete : Prop :=
  (∀ port s, s.sys.lost = false → s.lpMode port = 2 → s.lpOpen port = true → exec (.portFrameSend port) s = .next (s.slpSend port)) ∧
  (∀ port s, s.sys.lost = false → s.lpMode port = 1 → s.lpState port = 3 → exec (.portFrameSend port) s = .next (s.ethSend port)) ∧
  (∀ port s, s.listens port = true → (s.port port).lackDue = true → exec (.lackTimer port) s = .next ((s.putLack port false).putCredit port)) ∧
  (∀ port s, s.listens port = true → exec (.creditReturnTimer port) s = .next (s.putCredit port)) ∧
  (∀ port s, s.listens port = true → exec (.replayTimeout port) s = .next (s.resendAll port)) ∧
  (∀ port s, s.listens port = true → exec (.idleTimer port) s = .next (s.putLink port ⟨0x24, false, []⟩)) ∧
  (∀ port s, s.lpOpen port = true → exec (.partnerAbsenceTimeout port) s = .next (s.leavePort port 6)) ∧
  (∀ port vc s, s.lpState port = 3 → s.lpMode port = 2 → s.creditStuck port vc = true →
    exec (.creditTimeout port vc) s = .next (((s.wr F.lpStatus_STATE port 0 4).onPort port fun x => { x with slowVc := vc }).portAlarm port 0x13 1)) ∧
  (∀ port s, s.lpState port = 4 → exec (.slowTimeout port) s = .next (s.leavePort port 6)) ∧
  (∀ port s, s.lpState port = 6 → exec (.lostHoldExpire port) s = .next (s.wr F.lpStatus_STATE port 0 1))

/-- For every state: a failing lane of a port on more than 4 lanes is removed with the next in order of count; the requests of LP_CTL act for machine mode; a retraining ends; LP_DEVLOST is written; ARP and neighbour solicitations for the port are answered. The next state given is all that changes. -/
def Obligations.PortControlCompletes : Prop :=
  (∀ port lane counts bad s t, s.fecCount port counts bad = t → t.fecFails port lane counts bad = true → t.lpMode port = 2 →
    4 < t.rd F.lpStatus_LANES port 0 →
    exec (.fecDegrade port lane counts bad) s = .next (t.removeLanes port
      ((lane :: (nextLane lane counts (t.goodLanes port)).toList).foldl (fun b i => b ||| 2 ^ i) (t.rd F.lpFec_BADLANES port 0)))) ∧
  (∀ a port v s, machineActor a = true → exec (.unquar a port v) s = .next (s.lpCtlFields port (natField v.toNat 11 8) true (v.toNat.testBit 2) (v.toNat.testBit 1))) ∧
  (∀ a port v s, machineActor a = true → exec (.lpRetrain a port v) s = .next (s.lpCtlFields port (natField v.toNat 11 8) (v.toNat.testBit 3) true (v.toNat.testBit 1))) ∧
  (∀ a port v s, machineActor a = true → exec (.preset a port v) s = .next (s.lpCtlFields port (natField v.toNat 11 8) (v.toNat.testBit 3) (v.toNat.testBit 2) true)) ∧
  (∀ port s, s.lpState port = 5 → exec (.portRetrainDone port) s = .next
    ((((s.retrainOver port).wr F.lpStatus_STATE port 0 3).setBadLanes port 0).onPort port fun x => { x with moving := false })) ∧
  (∀ port s, s.lpState port = 5 → exec (.retrainTimeout port) s = .next ((s.retrainOver port).leavePort port 6)) ∧
  (∀ a ix v s, machineActor a = true → ix < 8 → exec (.lpDevlostWrite a ix v) s = .next
    ((List.range 64).foldl (fun s j => if v.toNat.testBit j then s.loseDevice (64 * ix + j) else s) s)) ∧
  (∀ a ix v s, machineActor a = true → ix < 8 → exec (.lpDevclrWrite a ix v) s = .next
    (s.setReg .lpDevlost ix 0 (s.reg .lpDevlost ix 0 &&& ~~~v))) ∧
  (∀ port ip mac s, s.answersFor port false = true → s.rd F.lpIpv4_ADDR port 0 = ip →
    exec (.arpRequest port ip mac) s = .next (s.send (.neighbour port ip mac false))) ∧
  (∀ port ip mac s, s.answersFor port true = true → s.rd F.lpIpv6Hi_ADDR port 0 * 2 ^ 64 + s.rd F.lpIpv6Lo_ADDR port 0 = ip →
    exec (.neighbourSolicitation port ip mac) s = .next (s.send (.neighbour port ip mac true)))

/-- For every state and request frame that the Gatehouse takes for this device and an agreeing pavilion, with no earlier request of its port waiting, the request is performed at its window, stile or collective when memory serves it; waiting accesses and increments of final frames follow. The next state given is all that changes. -/
def Obligations.InboundRequestsComplete : Prop :=
  (∀ port f s g u t, s.gate port 0x01 f = .take g u → g.dst = u.devId → u.agrees port (u.destPav g) = true →
    u.lnk.inb.any (fun w => w.port == port) = false → u.perform port none g = some t → exec (.slpWrite port f) s = .next t) ∧
  (∀ port f s g u t, s.gate port 0x02 f = .take g u → g.dst = u.devId → u.agrees port (u.destPav g) = true →
    u.lnk.inb.any (fun w => w.port == port) = false → u.perform port none g = some t → exec (.slpRead port f) s = .next t) ∧
  (∀ port f s g u t, s.gate port 0x03 f = .take g u → g.dst = u.devId → u.agrees port (u.destPav g) = true →
    u.lnk.inb.any (fun w => w.port == port) = false → u.perform port none g = some t → exec (.slpAtomic port f) s = .next t) ∧
  (∀ port f s g u t, s.gate port 0x04 f = .take g u → g.dst = u.devId → u.agrees port (u.destPav g) = true →
    u.lnk.inb.any (fun w => w.port == port) = false → u.perform port none g = some t → exec (.slpToken port f) s = .next t) ∧
  (∀ port f s g u t, s.gate port 0x05 f = .take g u → g.dst = u.devId → u.agrees port (u.destPav g) = true →
    u.lnk.inb.any (fun w => w.port == port) = false → u.perform port none g = some t → exec (.slpColl port f) s = .next t) ∧
  (∀ die s t, s.homeTurn die = some t → exec (.homeAgentAccess die) s = .next t) ∧
  (∀ die s t, s.homeTurn die = none → s.serveIn = some t → exec (.homeAgentAccess die) s = .next t) ∧
  (∀ die s t, s.gddrTurn die = some t → exec (.gddrAccess die) s = .next t) ∧
  (∀ k s st inc, s.lnk.commits[k]? = some (st, inc) → exec (.commitStileApply k) s = .next
    ({ s with lnk := { s.lnk with commits := s.lnk.commits.eraseIdx k } }.addStile st inc))

/-- For every state and response that the Gatehouse takes for a request of this device: ACK and RDATA answer it, REFUSE ends it with its status, RETRY keeps it to be sent again; a resend goes out on its port, a request without answer loses its device, and a hart reaches the remote aperture. The next state given is all that changes. -/
def Obligations.ResponsesComplete : Prop :=
  (∀ port f s g u r, s.gate port 0x11 f = .take g u → g.dst = u.devId → u.reqOf g = some r → u.agrees port r.frame.srcpav = true →
    exec (.slpAck port f) s = .next (u.okReq r [])) ∧
  (∀ port f s g u r, s.gate port 0x12 f = .take g u → g.dst = u.devId → u.reqOf g = some r → u.agrees port r.frame.srcpav = true →
    exec (.slpRdata port f) s = .next (u.okReq r g.payload)) ∧
  (∀ port f s g u r, s.gate port 0x13 f = .take g u → g.dst = u.devId → u.reqOf g = some r → u.agrees port r.frame.srcpav = true →
    exec (.slpRefuse port f) s = .next (u.badReq r (if g.offset % 256 = 0x20 then St.peerLost else St.remoteRefused))) ∧
  (∀ port f s g u r, s.gate port 0x14 f = .take g u → g.dst = u.devId → u.reqOf g = some r → u.agrees port r.frame.srcpav = true →
    exec (.slpRetry port f) s = .next (u.mapOut fun q => if q == r then { q with retry := true } else q)) ∧
  (∀ port tag s r n, s.retryReq port tag = some r → s.route r.frame.dst r.frame.srcpav (askerPav r) = .port n →
    exec (.retryResend port tag) s = .next ((s.mapOut fun q => if q == r then { q with retry := false, port := n } else q).putFrame n r.frame)) ∧
  (∀ k s r, s.lnk.outst[k]? = some r → exec (.endToEndTimeout k) s = .next (s.loseDevice r.frame.dst)) ∧
  (∀ hart addr size kind v s m k es t, s.flag F.wsOut_V (apertureSlot addr) 0 = true → apertureOk addr size kind = true →
    s.lnk.outst.any (askedBy hart) = false → s.route (s.rd F.wsOut_DEV (apertureSlot addr) 0) (s.rd F.wsOut_SRCPAV (apertureSlot addr) 0) none = .port m →
    s.freeSlot = some k → s.nextEseq 1000 0 = (es, t) →
    exec (.apertureAccess hart addr size kind v) s = .next (t.sendReq m (t.apertureFrame addr size kind v (128 + k) es) (.hart hart size)))

/-- For every state and KMT message that passes its checks, the message acts as its kind says (attach, submit, CQ acknowledge, window traffic, data, refusal, keepalive, close), and the acknowledgment that it carries is taken; the session timers act on their session. The next state given is all that changes. -/
def Obligations.KmtMessagesComplete : Prop :=
  (∀ port m s p t u, s.kmtGate port 0x03 m = .take p t → t.attachIn m = some u →
    exec (.kmtAttach port m) s = .next ((u.kmtAcked m.session m.ack).kmtEarly port m.session kmtWindow)) ∧
  (∀ port m s p t u, s.kmtGate port 0x05 m = .take p t → t.submitIn m = some u →
    exec (.kmtSubmit port m) s = .next ((u.kmtAcked m.session m.ack).kmtEarly port m.session kmtWindow)) ∧
  (∀ port m s p t, s.kmtGate port 0x06 m = .take p t →
    exec (.kmtCqAck port m) s = .next (((t.cqAckIn m).kmtAcked m.session m.ack).kmtEarly port m.session kmtWindow)) ∧
  (∀ port m s p t, s.kmtGate port 0x09 m = .take p t →
    exec (.kmtWrite port m) s = .next (((t.kmtRequest port m (t.kmtFrame 0x01 m p)).kmtAcked m.session m.ack).kmtEarly port m.session kmtWindow)) ∧
  (∀ port m s p t, s.kmtGate port 0x0A m = .take p t →
    exec (.kmtRead port m) s = .next (((t.kmtRequest port m (t.kmtFrame 0x02 m p)).kmtAcked m.session m.ack).kmtEarly port m.session kmtWindow)) ∧
  (∀ port m s p t, s.kmtGate port 0x0B m = .take p t →
    exec (.kmtRdata port m) s = .next (((t.rdataIn m).kmtAcked m.session m.ack).kmtEarly port m.session kmtWindow)) ∧
  (∀ port m s p t, s.kmtGate port 0x0C m = .take p t →
    exec (.kmtToken port m) s = .next (((t.kmtRequest port m (t.kmtTokenFrame m p)).kmtAcked m.session m.ack).kmtEarly port m.session kmtWindow)) ∧
  (∀ port m s p t, s.kmtGate port 0x0E m = .take p t →
    exec (.kmtRefuse port m) s = .next (((t.refusedIn m).kmtAcked m.session m.ack).kmtEarly port m.session kmtWindow)) ∧
  (∀ port m s p t, s.kmtGate port kmtAckKind m = .take p t →
    exec (.kmtAck port m) s = .next ((t.kmtAcked m.session m.ack).kmtEarly port m.session kmtWindow)) ∧
  (∀ port m s p t, s.kmtGate port 0x0F m = .take p t →
    exec (.kmtKeepalive port m) s = .next ((t.kmtAcked m.session m.ack).kmtEarly port m.session kmtWindow)) ∧
  (∀ port m s p t, s.kmtGate port 0x10 m = .take p t →
    exec (.kmtClose port m) s = .next (((t.loseSession m.session).kmtAcked m.session m.ack).kmtEarly port m.session kmtWindow)) ∧
  (∀ n s k q m rest, s.session n = some k → k.unacked = (q, m) :: rest → k.tries < 16 → s.mute k = false →
    exec (.kmtRetransmitTimeout n) s = .next ((s.setSession n { k with tries := k.tries + 1, rto := min maxRto (2 * k.rto), ackDue := false }).send
      (.kmt n q k.rxSeq m))) ∧
  (∀ n s k, s.session n = some k → k.ackDue = true → s.mute k = false →
    exec (.kmtAckTimer n) s = .next ((s.setSession n { k with ackDue := false }).send (.kmt n k.txSeq k.rxSeq (hsMsg kmtAckKind [])))) ∧
  (∀ n s, exec (.kmtKeepaliveTimer n) s = .next (s.kmtPost n (hsMsg 0x0F []))) ∧
  (∀ n s k, s.session n = some k → exec (.kmtSessionTimeout n) s = .next (s.loseSession n))

/-- For every state: STAGE, VERIFY, COMMIT and ABORT of machine mode act from the states of Table 5-6; a copy that can be read is staged, a verified image is recorded as verified, one that fails is recorded with its reason, and a pavilion image that fits replaces the sections of its pavilion. The next state given is all that changes. -/
def Obligations.TrellisCommandsComplete : Prop :=
  (∀ a v s, machineActor a = true → (v ||| 1).toNat % 16 = 1 → (s.trlState = 0 ∨ s.trlState = 2 ∨ s.trlState = 4 ∨ s.trlState = 5) →
    exec (.trlStage a v) s = .next s.trlStage) ∧
  (∀ a v s, machineActor a = true → (v ||| 2).toNat % 16 = 2 → s.trlState = 2 → exec (.trlVerify a v) s = .next (s.setTrl 3)) ∧
  (∀ a v s b, machineActor a = true → (v ||| 4).toNat % 16 = 4 → s.trlState = 4 → s.trl.image = some b →
    exec (.trlCommit a v) s = .next (s.trlCommit b)) ∧
  (∀ a v s, machineActor a = true → (v ||| 8).toNat % 16 = 8 → (s.trlState = 2 ∨ s.trlState = 4 ∨ s.trlState = 5 ∨ s.trlState = 6) →
    exec (.trlAbort a v) s = .next (s.dropImage.setTrl 0)) ∧
  (∀ s bs t, s.trlState = 1 → s.readAs .keeper true true s.trl.stage.1 s.trl.stage.2 = .done bs t → allReadable bs = true →
    exec .trlStageCopyEnd s = .next ({ t with trl := { t.trl with image := some (plain bs) } }.setTrl 2)) ∧
  (∀ s, s.trlState = 3 → s.keeperUp = true →
    exec .trlVerifyDone s = .next (if (s.verifyImage (s.trl.image.getD [])).1 = 0 then (s.trlReason 0).setTrl 4
      else s.trlFail (s.verifyImage (s.trl.image.getD [])))) ∧
  (∀ s b, s.trl.image = some b → s.trlState = 7 → s.keeperUp = true → (s.fitCheck (imageSecs b) (s.afterImage b) false).1 = 0 →
    exec .trlPavCommitDone s = .next (((s.commitPav b).dropImage.setTrl 0).lateFaults))

/-- For every state: the digests that are due take their words at once, captures answer the first word, CLEAR and the grace timer move agreement entries, and a beacon is sent. The next state given is all that changes. -/
def Obligations.AgreementCommandsComplete : Prop :=
  (∀ s, s.flag F.trlStatus_DIGEST_BUSY 0 0 = true → exec .digestRecomputeDone s = .next (s.putDigests.wr F.trlStatus_DIGEST_BUSY 0 0 0)) ∧
  (∀ a s, exec (.trlDigestCapture a) s = .next ({ s with trl := { s.trl with cap := s.digestWords .trlDigest fun i => (i, 0) } }.send
    (.value (s.reg .trlDigest 0 0)))) ∧
  (∀ a p s, exec (.trlAgdCapture a p) s = .next ((s.setPav p { s.pav p with agdCap := s.digestWords .trlAgd fun i => (p, i) }).send
    (.value (s.reg .trlAgd p 0)))) ∧
  (∀ a n ix s, machineActor a = true → s.rd F.trlAgree_STATE n ix = 3 →
    exec (.trlAgreeClear a n ix) s = .next ((s.wr F.trlAgree_STATE n ix 0).putBeacon n ix)) ∧
  (∀ n ix s, (n, ix) ∈ s.lnk.beacons → exec (.beaconSend n ix) s = .next
    ({ s with lnk := { s.lnk with beacons := s.lnk.beacons.erase (n, ix) } }.putBeacon n ix)) ∧
  (∀ n ix s, s.rd F.trlAgree_STATE n ix = 1 → exec (.graceTimerExpire n ix) s = .next (s.agreeFence n ix))

/-- For every state: a contained fault fences its pavilion, a shared one tells its users; an instruction word with a parity error is fetched again; a control-state fault leads to context recovery, the second within a second to replacement or a bad slice; a bed is replaced; a hang and a stall are recorded. The next state given is all that changes. -/
def Obligations.FaultCommandsComplete : Prop :=
  (∀ f s, f.pav < 64 → exec (.containedFault f) s = .next (((s.spareFault { f with cls := 1 }).faultPav f.pav { f with cls := 1 }).alarm
     f.die (faultAlarm { f with cls := 1 }) { f with cls := 1 })) ∧
  (∀ f s, 64 ≤ f.pav → exec (.containedFault f) s = .next (((s.spareFault { f with cls := 1 }).record { f with cls := 1 }).alarm f.die
     (faultAlarm { f with cls := 1 }) { f with cls := 1 })) ∧
  (∀ f s, exec (.sharedFaultEvent f) s = .next ((s.sharedFault { f with cls := 1, pav := 0xFE }
     (s.usersOf { f with cls := 1, pav := 0xFE })).alarm f.die (faultAlarm { f with cls := 1, pav := 0xFE }) { f with cls := 1, pav := 0xFE })) ∧
  (∀ p die word s t bs u, t = (s.setSlice p die { s.slice p die with buf := terase (s.slice p die).buf word }).record
      { FaultReport.blank St.success 0 0x0A die p with info := word } → t.fetchWord p die word = some (bs, u) →
     exec (.ibufParityError p die word false) s = .next (u.setSlice p die ((u.slice p die).bufPut word bs))) ∧
  (∀ p die word s, exec (.ibufParityError p die word true) s = .next (s.sliceFault p die St.fetchFault)) ∧
  (∀ p die b s, s.withinS (tfind s.tel.slotHit (die * 9 + s.slotOf b)) = false →
     exec (.controlStateFault p die (some b)) s = .next ({ s with tel := { s.tel with slotHit := tset s.tel.slotHit (die * 9 + s.slotOf b) s.mtime } }.contextRecovery p
       (({ s with tel := { s.tel with slotHit := tset s.tel.slotHit (die * 9 + s.slotOf b) s.mtime } } : State).bedReport St.controlFault 0x08 b))) ∧
  (∀ p die s, s.withinS (tfind s.tel.sliceHit (die * 8 + s.sliceNo p die)) = true →
     exec (.controlStateFault p die none) s = .next ({ s with tel := { s.tel with sliceHit := tset s.tel.sliceHit (die * 8 + s.sliceNo p die) s.mtime } }.sliceLost p die)) ∧
  (∀ bed s, s.slotOf bed ≠ 0xF → exec (.bedReplacement bed) s = .next (s.bedFails bed)) ∧
  (∀ p s d kind obj edges, s.pavState p = 2 → s.hung p = some (d, kind, obj, edges) →
     exec (.hangWindowExpire p) s = .next ((((s.putHang p d kind obj edges).bump F.telRecov_HANGS 0 0 1).faultPav p (s.hangReport p d)).hangAlarms d
       (s.hangReport p d) (s.boundDevs p))) ∧
  (∀ p s d, s.pavState p = 2 → s.hung p = none → (s.pav p).stalled = false → (s.waitingSlices p).head? = some d →
     ∃ obj t, obj = (((s.setPav p { s.pav p with stalled := true, lastProg := s.progressNow p }).sliceEdges p d).headD .memory).obj ∧
       t = (s.setPav p { s.pav p with stalled := true, lastProg := s.progressNow p }).putHang p d 5 obj 1 ∧
       exec (.stallTimeout p) s = .next (t.alarm d 0x09 { FaultReport.blank St.success 3 0x0A d p with info := obj })) ∧
  (∀ cause die s, 1 ≤ cause → cause ≤ 7 → cause ≠ 6 → exec (.deviceLossDeclare cause die) s = .next (s.deviceLoss cause die))

/-- For every state: a mismatch of a running Keeper holds it for its self-test; a passing self-test resets it, the third in 10 s halts it, a failing one leaves it unchecked; the watchdog resets it; it resumes with good firmware. The next state given is all that changes. -/
def Obligations.KeeperStatesMove : Prop :=
  (∀ s, s.keeper = 0 → exec .keeperMismatch s = .next (s.setKeeper 1)) ∧
  (∀ s, s.keeper = 1 → s.noteMismatch.tel.mism.length < 3 → exec (.keeperSelftestDone true) s = .next
     (((s.noteMismatch.bump F.telKeeper_MISMATCH 0 0 1).keeperAlarm 0x15).setKeeper 2)) ∧
  (∀ s, s.keeper = 1 → 3 ≤ s.noteMismatch.tel.mism.length → exec (.keeperSelftestDone true) s = .next s.noteMismatch.keeperHalt) ∧
  (∀ s, s.keeper = 1 → exec (.keeperSelftestDone false) s = .next s.checkerFault) ∧
  (∀ s, s.keeper = 0 → exec (.keeperPeriodicSelftest false) s = .next s.checkerFault) ∧
  (∀ s, exec (.keeperPeriodicSelftest true) s = .next s) ∧
  (∀ s, exec .keeperWatchdogExpire s = .next s.keeperReset) ∧
  (∀ d r s, s.keeper = 2 → (d || r) = true → exec (.keeperResume d r) s = .next
     (s.markBuffered.setKeeper (if s.markBuffered.flag F.telKeeper_DEGRADED 0 0 then 3 else 0)))

/-- For every state: an alarm takes a place in its Lodge or is counted there, enters the Keeper queue or is coalesced, goes to the subscriber, and leaves when it is acknowledged; summaries follow where places are free; logs keep their rate, and traces pass with credit. The next state given is all that changes. -/
def Obligations.AlarmsTravel : Prop :=
  (∀ die r s t, t = { s with raised := s.raised.erase (die, r) } → (t.lodgeHeld die).length < lodgePlaces → t.keeper ≠ 2 →
     exec (.lodgeAlarm die r) s = .next (t.setLodge die (t.lodgeHeld die ++ [r]))) ∧
  (∀ die r s t, t = { s with raised := s.raised.erase (die, r) } → lodgePlaces ≤ (t.lodgeHeld die).length →
     exec (.lodgeAlarm die r) s = .next (t.countAt die r)) ∧
  (∀ die s, (s.lodgeHeld die).length ≤ lodgePlaces - 8 → s.keeper ≠ 2 →
     exec (.lodgeSummarySend die) s = .next ((s.lodgeCodes die).foldl (lodgeSummary die) s)) ∧
  (∀ die r s t, s.keeperUp = true → t = (s.setLodge die ((s.lodgeHeld die).erase r)).manage die true (s.alarmBytes r) → t.tel.queue.length < alarmPlaces →
     exec (.keeperAlarmEnqueue die r) s = .next { t with tel := { t.tel with queue := t.tel.queue ++ [(die, none, r)] } }.alqSync) ∧
  (∀ die r s t, s.keeperUp = true → t = (s.setLodge die ((s.lodgeHeld die).erase r)).manage die true (s.alarmBytes r) → alarmPlaces ≤ t.tel.queue.length →
     exec (.keeperAlarmEnqueue die r) s = .next (t.coalesce die r)) ∧
  (∀ s, s.tel.queue.length ≤ alarmPlaces - 16 → s.keeperUp = true →
     exec .alarmSummaryEnqueue s = .next (((List.range 352).foldl queueSummary s).alqSync)) ∧
  (∀ s n i e k, s.subscriber = some n → s.unsent = some i → s.tel.queue[i]? = some e → s.session n = some k → s.keeperUp = true →
     exec .alarmSend s = .next (s.sentAlarm n i e k)) ∧
  (∀ s i, s.ackedAlarm = some i → exec .alarmAck s = .next { s with tel := { s.tel with queue := s.tel.queue.eraseIdx i } }.alqSync) ∧
  (∀ die unit r s, 100000 ≤ s.logTokens die unit → exec (.logRecord die unit r) s = .next
     (((s.setLogTokens die unit (s.logTokens die unit - 100000)).manage die true (faultBytes r 0xFFFFFFFF s.mtime)).putLog r)) ∧
  (∀ die unit r s, s.logTokens die unit < 100000 → exec (.logRecord die unit r) s = .next
     ((s.setLogTokens die unit (s.logTokens die unit)).bump F.telLog_LIMITED 0 0 1)) ∧
  (∀ r data s t, s.subscriber.isSome = true → t = s.carry .debug r.die hubDie (s.traceBytes r data) →
     exec (.traceRecord r data true) s = .next { t with tel := { t.tel with
       traces := t.tel.traces ++ [s.traceBytes r data] } }) ∧
  (∀ r data c s, c = false ∨ s.subscriber = none →
     exec (.traceRecord r data c) s = .next (s.bump F.telTrace_DROPPED 0 0 1))

/-- For every state: the rails are read and the cap steps, the governor steps its loops, PACE and the brake fields are written by machine mode, an alert brakes, droops are noted and counted, temperatures warn, brake and shut down. The next state given is all that changes. -/
def Obligations.PowerCommandsComplete : Prop :=
  (∀ rs s, s.keeperUp = true → exec (.telemetryRead rs) s = .next ((s.readRails rs).showPower.capStep ((s.readRails rs).powerOf (List.range 14)))) ∧
  (∀ paces s, (s.showPaces paces).keeperUp = true → exec (.governorTick paces) s = .next
     (((s.showPaces paces).loopSteps paces).1.shortNow ((s.showPaces paces).loopSteps paces).2)) ∧
  (∀ a v s t, machineActor a = true → 400 ≤ natField v.toNat 10 0 → natField v.toNat 10 0 ≤ 1450 →
     t = s.wr F.pwrPaceReq_REQ 0 0 (natField v.toNat 10 0) →
     exec (.paceRequestWrite a v) s = .next (if t.trl.force.isEmpty then t else t.drift 0xB 0xFFFF).retarget) ∧
  (∀ a v s, machineActor a = true → exec (.brakeLevelWrite a v) s = .next (s.brakeFields (natField v.toNat 3 0) (v.toNat.testBit 12))) ∧
  (∀ a v s, machineActor a = true → exec (.aclr a v) s = .next (s.brakeFields (natField v.toNat 3 0) true)) ∧
  (∀ reg s, exec (.regulatorAlert reg) s = .next (((s.alertAt reg).wr F.pwrStatus_ALERT 0 0 1).hwBrakes.aplicSource 2)) ∧
  (∀ die det s, exec (.droopDetect die det) s = .next (s.droopAt die det)) ∧
  (∀ die s t, s.pwr.inDroop.contains die = true → t = (s.droopOver die (s.droopsNow die)).bump F.pwrDie_DROOPS die 0 1 →
     exec (.droopEnd die) s = .next (if s.droopsNow die = t.rd F.pwrDroop_LIMIT 0 0 + 1 then
       t.alarm die 0x0D (FaultReport.blank St.success 3 0x15 die 0xFF) else t)) ∧
  (∀ rail s, exec (.droopHoldEnd rail) s = .next ({ s with pwr := { s.pwr with hold := s.pwr.hold.filter (· != rail) } }.loopTarget rail)) ∧
  (∀ die ts s, (∀ x ∈ ts, x < 115) → exec (.sensorRead die ts) s = .next
     (((s.takeTemp die (ts.foldl max 0)).warnTemp die (ts.foldl max 0)).thermBrake)) ∧
  (∀ die ts s x, x ∈ ts → 115 ≤ x → exec (.sensorRead die ts) s = .next
     (((s.takeTemp die (ts.foldl max 0)).warnTemp die (ts.foldl max 0)).thermBrake).shutdown) ∧
  (∀ s, exec .thermalPaceStep s = .next ({ s with pwr := { s.pwr with thermHz := s.nextTherm } }.retarget))

/-- For every state: a request that can be granted now starts, one past its deadline is deferred once, the self-test of a spare is noted or marks it bad, and a die that may rotates. The next state given is all that changes. -/
def Obligations.UpkeepCompletes : Prop :=
  (∀ r s, s.grantNow r = true → exec (.upkeepGrant r) s = .next (s.grant r)) ∧
  (∀ r s t, s.upkeepPending r = true → s.pwr.deferred.contains r = false → t = { s with pwr := { s.pwr with deferred := s.pwr.deferred ++ [r] } } →
     exec (.upkeepDeadline r) s = .next ((t.countDeferral r).alarm (deferReport r).die 0x16 (deferReport r))) ∧
  (∀ die s, s.goodSpare die ≠ 0xF → s.rd F.pwrCal_BT_PERIOD 0 0 ≠ 0 →
     exec (.spareSelftest die true) s = .next { s with pwr := { s.pwr with
       tested := if s.pwr.tested.contains die then s.pwr.tested else s.pwr.tested ++ [die] } }) ∧
  (∀ die s t, s.goodSpare die ≠ 0xF → s.rd F.pwrCal_BT_PERIOD 0 0 ≠ 0 →
     t = (s.markBad die (s.goodSpare die)).setSlots die (s.slotsOf die) →
     exec (.spareSelftest die false) s = .next { t with pwr := { t.pwr with tested := t.pwr.tested.filter (· != die), rotate := terase t.pwr.rotate die } }) ∧
  (∀ die s b, s.mayRotate die = true → s.rotationBed die = some b → exec (.rotationRequest die) s = .next
     { s with pwr := { s.pwr with rotate := tset s.pwr.rotate die b } })

/-- For every state: a port that is up sends its next flit, delivers a good one in order, asks again for a bad one and sends again; failing lanes and ports are covered or go down; a pair is routed again; the Lodge bus and the references fail. The next state given is all that changes. -/
def Obligations.DieLinksComplete : Prop :=
  (∀ die port s x f g, x = s.d2dPort die port → s.d2dUp die port = true → x.replay.length < replayFlits →
     (x.nextClass.bind fun c => x.txq.find? fun f => f.cls == c) = some f → g = { f with seq := x.txSeq } →
     exec (.d2dFlitTransmit die port) s = .next ((s.setD2d die port { x.count f.cls with
       txq := (x.count f.cls).txq.erase f, replay := (x.count f.cls).replay ++ [g],
       txSeq := ((x.count f.cls).txSeq + 1) % 2 ^ 32 }).send (.flit die port g (flitSum g)))) ∧
  (∀ die port f crc s, s.d2dUp die port = true → flitGood f crc = true → f.seq = (s.d2dPort die port).rxSeq →
     exec (.d2dFlitReceive die port f crc) s = .next (((s.setD2d die port { s.d2dPort die port with
       rxSeq := ((s.d2dPort die port).rxSeq + 1) % 2 ^ 32 }).arrive die port f).flitDelivered die port f)) ∧
  (∀ die port f crc s, s.d2dUp die port = true → (flitGood f crc = false ∨ seqBefore (s.d2dPort die port).rxSeq f.seq = true) →
     exec (.d2dFlitReceive die port f crc) s = .next (s.send (.flitNak die port (s.d2dPort die port).rxSeq))) ∧
  (∀ die port f crc s, s.d2dUp die port = true → flitGood f crc = true → seqBefore (s.d2dPort die port).rxSeq f.seq = false →
     f.seq ≠ (s.d2dPort die port).rxSeq → exec (.d2dFlitReceive die port f crc) s = .next s) ∧
  (∀ die port q s, s.d2dUp die port = true → exec (.d2dFlitRetransmit die port q) s = .next (s.resendFlits die port q)) ∧
  (∀ die port lane s, exec (.d2dLaneFailover die port lane) s = .next (s.laneFails die port lane)) ∧
  (∀ die port lane s, exec (.d2dLaneDegrade die port lane) s = .next (s.laneFails die port lane)) ∧
  (∀ die port s, (peerOf die port).isSome = true → s.d2dState die port ≠ 3 → exec (.d2dPortDown die port) s = .next (s.d2dDown die port)) ∧
  (∀ src dst s n path m, portTo src dst = some n → s.d2dUp src n = false → s.keeperUp = true → s.bestPath src dst = some path →
     portTo src (path.getD 1 0) = some m →
     exec (.d2dReroute src dst) s = .next ({ s with d2d := { s.d2d with routes := tset s.d2d.routes (src, dst) path } }.moveFlits src n m path)) ∧
  (∀ die s, die < 10 → s.flag F.ldgStatus_LBUS die 0 = true → exec (.lodgeBusFail die) s = .next
     ((((s.wr F.ldgStatus_LBUS die 0 0).wr F.ldgStatus_FALLBACK die 0 1).alarm hubDie 0x02 (FaultReport.blank St.success 1 0x0F die 0xFE)).dieReach die)) ∧
  (∀ s, s.sys.r156 = true → exec (.referenceLost .r156) s = .next s.lose156) ∧
  (∀ s, s.sys.r100 = true → exec (.referenceLost .r100) s = .next (s.lose100.deviceLoss 2 hubDie))

/-- For every state: SYS_RESET_N and the supplies hold cold reset, registers and calls request resets, a boot runs once the supplies are up in order, and a recovery bundle is written where it verifies and refused where it does not. The next state given is all that changes. -/
def Obligations.ColdResetCommandsComplete : Prop :=
  (∀ s, exec (.sysResetN false) s = .next { s.coldState 1 s.sys.coldHold with sys := { (s.coldState 1 s.sys.coldHold).sys with resetN := false } }) ∧
  (∀ s, exec (.sysResetN true) s = .next { s with sys := { s.sys with resetN := true } }.coldEnd) ∧
  (∀ s t, s.sys.phase ≠ .inReset → t = { s with sys := { s.sys with pwrGood := false } }.deviceLoss 5 0 →
     exec .pwrGoodFall s = .next { t with sys := { t.sys with coldAt := some (s.mtime + pwrTicks) } }) ∧
  (∀ s t, t = (s.deviceLoss 5 0).coldState 1 s.sys.coldHold → exec .vauxOutOfRange s = .next { t with sys := { t.sys with vauxOk := false } }) ∧
  (∀ a v s, machineActor a = true → (v ||| 1).toNat % 16 = 1 → exec (.kprResetCold a v) s = .next (s.coldRequest 2)) ∧
  (∀ a v s, machineActor a = true → (v ||| 2).toNat % 16 = 2 → exec (.kprResetWarm a v) s = .next (s.warmRequest 4)) ∧
  (∀ a v s, machineActor a = true → (v ||| 4).toNat % 16 = 4 → natField (v ||| 4).toNat 11 8 ≤ 9 →
     exec (.kprResetDie a v) s = .next (s.dieRequest (natField (v ||| 4).toNat 11 8))) ∧
  (∀ a v s, machineActor a = true → (v ||| 8).toNat % 16 = 8 → exec (.kprResetKeeper a v) s = .next s.keeperReset) ∧
  (∀ hart s, exec (.srstWarmReboot hart) s = .next (s.warmRequest 5)) ∧
  (∀ hart s, s.keeperUp = true → exec (.srstColdReboot hart) s = .next (s.coldRequest 5)) ∧
  (∀ b s, s.sys.coldAt = none → s.sys.phase = .booting → s.sys.resetN = true → b.ordered = true → s.hotShut = false →
     exec (.coldBoot b) s = .next (s.powered.boot b)) ∧
  (∀ bundle s, s.awaitsBundle = true → exec (.uartRecovery bundle) s = .next
      (if bundleOk s.sys.fuses bundle then (s.recoverBundle bundle).send (.uart [1]) else s.send (.uart [0])))

/-- For every state: the pin requests a warm reset after the boot; a requested warm reset with its pavilions drained runs its steps and ends, or is held at the pin; a requested die reset that cuts no transaction resets its die. The next state given is all that changes. -/
def Obligations.WarmAndDieResetsComplete : Prop :=
  (∀ s, s.rd F.kprBoot_STEP 0 0 = 9 → s.sys.warmN = true → exec .warmResetNFall s = .next ({ s with sys := { s.sys with warmN := false } }.warmRequest 3)) ∧
  (∀ s, s.sys.warmHeld = true → exec .warmResetNRise s = .next { s with sys := { s.sys with warmN := true } }.warmEnd) ∧
  (∀ s f, s.sys.warmReq.isSome = true → s.sys.warmHeld = false → s.keeperUp = true → s.sys.phase = .running → s.sys.lost = false →
     f = { s.warmFence with sys := { s.warmFence.sys with warmOn := true } } →
     ((∀ p ∈ f.assigned, f.drainedPav p = true) → ∀ t, f.warmRecords = some t →
       exec .warmResetSequence s = .next (if t.warmSteps.sys.warmN then t.warmSteps.warmEnd
         else { t.warmSteps with sys := { t.warmSteps.sys with warmHeld := true } })) ∧
     ((∃ p ∈ f.assigned, f.drainedPav p = false) → exec .warmResetSequence s = .next f)) ∧
  (∀ die answers s f, s.sys.dieReq.contains die = true → s.keeperUp = true → die < 8 → s.sys.warmReq = none → s.dieCut die = false →
     f = (s.diePavilions die).foldl (fun s p => (s.fence p St.dieReset).needReset p) s →
     exec (.dieReset die answers) s = .next ({ f with sys := { f.sys with dieReq := f.sys.dieReq.erase die } }.resetTensorDie die)) ∧
  (∀ die answers s, s.sys.dieReq.contains die = true → s.keeperUp = true → (die = 8 ∨ die = 9) → s.sys.warmReq = none → s.dieCut die = false →
     exec (.dieReset die answers) s = .next ({ s with sys := { s.sys with dieReq := s.sys.dieReq.erase die } }.resetCoreDie (die - 8) answers))

/-- For every state in which a request is at the head of the queue, the Keeper runs, and the request is read whole with a good form and source: its answer is complete and then its effect takes place. The next state given is all that changes. -/
def Obligations.KeeperRequestsComplete : Prop :=
  (∀ s r rest via m t u, s.kpr.queue = r :: rest → s.keeperUp = true → s.kFetch r = some (via, m, true, t) → kOp m = 1 → kForm m = true →
     t.kFinish rest r m (⟨St.success, t.infoBytes, id⟩) = some u → exec (.reqInfo .head) s = .next u) ∧
  (∀ s r rest via m t u, s.kpr.queue = r :: rest → s.keeperUp = true → s.kFetch r = some (via, m, true, t) → kOp m = 2 → kForm m = true →
     t.kFinish rest r m (kDo fun s => s.warmRequest 4) = some u → exec (.reqWarmReset .head) s = .next u) ∧
  (∀ s r rest via m t u, s.kpr.queue = r :: rest → s.keeperUp = true → s.kFetch r = some (via, m, true, t) → kOp m = 3 → kForm m = true →
     t.kFinish rest r m (kDo fun s => s.coldRequest 2) = some u → exec (.reqColdReset .head) s = .next u) ∧
  (∀ s r rest via m t u, s.kpr.queue = r :: rest → s.keeperUp = true → s.kFetch r = some (via, m, true, t) → kOp m = 4 → kForm m = true → resetsDie (kArg m) = true →
     t.kFinish rest r m (kDo fun s => s.dieRequest (kArg m)) = some u → exec (.reqDieReset .head) s = .next u) ∧
  (∀ s r rest via m t u, s.kpr.queue = r :: rest → s.keeperUp = true → s.kFetch r = some (via, m, true, t) → kOp m = 5 → kForm m = true →
     t.kFinish rest r m (kDo State.keeperReset) = some u → exec (.reqKeeperReset .head) s = .next u) ∧
  (∀ s r rest via m t u, s.kpr.queue = r :: rest → s.keeperUp = true → s.kFetch r = some (via, m, true, t) → kOp m = 6 → kForm m = true → via.isSome = true →
     t.kFinish rest r m (t.assignId (kArg m)) = some u → exec (.reqAssignId .head) s = .next u) ∧
  (∀ s r rest via m t u, s.kpr.queue = r :: rest → s.keeperUp = true → s.kFetch r = some (via, m, true, t) → kOp m = 7 → kForm m = true → via.isSome = true →
     t.kFinish rest r m (kDo fun s => s.epochFloor (kArg m)) = some u → exec (.reqEpochFloor .head) s = .next u) ∧
  (∀ s r rest via m t u, s.kpr.queue = r :: rest → s.keeperUp = true → s.kFetch r = some (via, m, true, t) → kOp m = 8 → kForm m = true → t.mayFlash (kArg m) (kPay m).length = true →
     t.kFinish rest r m (kDo fun s => s.flashWrite (kArg m) (kPay m)) = some u → exec (.reqFlashWrite .head) s = .next u) ∧
  (∀ s r rest via m t u, s.kpr.queue = r :: rest → s.keeperUp = true → s.kFetch r = some (via, m, true, t) → kOp m = 9 → kForm m = true →
     t.kFinish rest r m (t.flashActivate (kArg m)) = some u → exec (.reqFlashActivate .head) s = .next u) ∧
  (∀ s r rest via m t u, s.kpr.queue = r :: rest → s.keeperUp = true → s.kFetch r = some (via, m, true, t) → kOp m = 10 → kForm m = true → via.isSome = true →
     t.kFinish rest r m (kDo State.svnCommit) = some u → exec (.reqSvnCommit .head) s = .next u) ∧
  (∀ s r rest via m t u, s.kpr.queue = r :: rest → s.keeperUp = true → s.kFetch r = some (via, m, true, t) → kOp m = 11 → kForm m = true → via.isSome = true →
     t.kFinish rest r m (kDo fun s => s.deviceLoss 7 0) = some u → exec (.reqDeviceLoss .head) s = .next u) ∧
  (∀ s r rest via m t u, s.kpr.queue = r :: rest → s.keeperUp = true → s.kFetch r = some (via, m, true, t) → kOp m = 12 → kForm m = true → via.isSome = true →
     t.kFinish rest r m (kDo fun s => s.subscribe via) = some u → exec (.reqSubscribe .head) s = .next u) ∧
  (∀ s r rest via m t u, s.kpr.queue = r :: rest → s.keeperUp = true → s.kFetch r = some (via, m, true, t) → kOp m = 13 → kForm m = true → via.isSome = true →
     t.kFinish rest r m (t.debugUnlock (kPay m)) = some u → exec (.reqDebugUnlock .head) s = .next u) ∧
  (∀ a v s, machineActor a = true → exec (.kprMbxSubmit a v) s = .next (s.mbxWrite v).2)

/-- For every state in which the responder answers and has come far enough in the negotiation, a request of SPDM 1.2 with the right code and form is answered with its response, sent the way the request came; a FINISH with other verify data gets the decryption error and opens no session. The next state given is all that changes. -/
def Obligations.SpdmRequestsComplete : Prop :=
  (∀ via msg s t r u, s.spdmOn = true → byteAt msg 1 = 0x84 → 4 ≤ msg.length → s.spdmTake via = some t → byteAt msg 0 = 0x10 →
     0 ≤ t.kpr.spdm.stage → t.versionReply msg = (r, u) → exec (.spdmGetVersion via msg) s = .next (u.spdmSend via r)) ∧
  (∀ via msg s t r u, s.spdmOn = true → byteAt msg 1 = 0xE1 → 4 ≤ msg.length → s.spdmTake via = some t → byteAt msg 0 = 0x12 →
     1 ≤ t.kpr.spdm.stage → t.kpr.spdm.stage = 1 → t.capsReply msg = (r, u) → exec (.spdmGetCapabilities via msg) s = .next (u.spdmSend via r)) ∧
  (∀ via msg s t r u, s.spdmOn = true → byteAt msg 1 = 0xE3 → 4 ≤ msg.length → s.spdmTake via = some t → byteAt msg 0 = 0x12 →
     2 ≤ t.kpr.spdm.stage → t.kpr.spdm.stage = 2 → (fieldAt msg 8 4).testBit 7 = true → (fieldAt msg 12 4).testBit 1 = true → t.algsReply msg = (r, u) → exec (.spdmNegotiateAlgorithms via msg) s = .next (u.spdmSend via r)) ∧
  (∀ via msg s t r u, s.spdmOn = true → byteAt msg 1 = 0x81 → 4 ≤ msg.length → s.spdmTake via = some t → byteAt msg 0 = 0x12 →
     3 ≤ t.kpr.spdm.stage → t.digestsReply msg = (r, u) → exec (.spdmGetDigests via msg) s = .next (u.spdmSend via r)) ∧
  (∀ via msg s t r u, s.spdmOn = true → byteAt msg 1 = 0x82 → 4 ≤ msg.length → s.spdmTake via = some t → byteAt msg 0 = 0x12 →
     3 ≤ t.kpr.spdm.stage → byteAt msg 2 % 16 = 0 → 8 ≤ msg.length → fieldAt msg 4 2 ≤ t.slotChain.length → t.certReply msg = (r, u) → exec (.spdmGetCertificate via msg) s = .next (u.spdmSend via r)) ∧
  (∀ via msg s t r u, s.spdmOn = true → byteAt msg 1 = 0xE0 → 4 ≤ msg.length → s.spdmTake via = some t → byteAt msg 0 = 0x12 →
     3 ≤ t.kpr.spdm.stage → measOk msg = true → t.measReply msg = (r, u) → exec (.spdmGetMeasurements via msg) s = .next (u.spdmSend via r)) ∧
  (∀ via msg s t r u, s.spdmOn = true → byteAt msg 1 = 0x83 → 4 ≤ msg.length → s.spdmTake via = some t → byteAt msg 0 = 0x12 →
     3 ≤ t.kpr.spdm.stage → byteAt msg 2 % 16 = 0 → 36 ≤ msg.length → t.challengeReply msg = (r, u) → exec (.spdmChallenge via msg) s = .next (u.spdmSend via r)) ∧
  (∀ via msg s t r u, s.spdmOn = true → byteAt msg 1 = 0xE4 → 4 ≤ msg.length → s.spdmTake via = some t → byteAt msg 0 = 0x12 →
     3 ≤ t.kpr.spdm.stage → byteAt msg 3 % 16 = 0 → 138 ≤ msg.length → t.keyReply msg = (r, u) → exec (.spdmKeyExchange via msg) s = .next (u.spdmSend via r)) ∧
  (∀ via msg s t r u, s.spdmOn = true → byteAt msg 1 = 0xE5 → 4 ≤ msg.length → s.spdmTake via = some t → byteAt msg 0 = 0x12 →
     3 ≤ t.kpr.spdm.stage → t.kpr.spdm.ses.isSome = true → t.kpr.spdm.up = false → (if (msg.drop 4).take 48 = t.kpr.spdm.verifyData msg then (spdmHead 0x65 0 0, t.setSpdm { t.kpr.spdm with up := true, trans := t.kpr.spdm.trans ++ msg, key := t.kpr.spdm.master }) else (errDecrypt, t)) = (r, u) → exec (.spdmFinish via msg) s = .next (u.spdmSend via r)) ∧
  (∀ via msg s t r u, s.spdmOn = true → byteAt msg 1 = 0xE8 → 4 ≤ msg.length → s.spdmTake via = some t → byteAt msg 0 = 0x12 →
     3 ≤ t.kpr.spdm.stage → t.kpr.spdm.up = true → (spdmHead 0x68 0 0, t.setSpdm t.kpr.spdm) = (r, u) → exec (.spdmHeartbeat via msg) s = .next (u.spdmSend via r)) ∧
  (∀ via msg s t r u, s.spdmOn = true → byteAt msg 1 = 0xE9 → 4 ≤ msg.length → s.spdmTake via = some t → byteAt msg 0 = 0x12 →
     3 ≤ t.kpr.spdm.stage → t.kpr.spdm.up = true → 1 ≤ byteAt msg 2 → byteAt msg 2 ≤ 3 → (spdmHead 0x69 (byteAt msg 2) (byteAt msg 3), t.setSpdm (if byteAt msg 2 = 3 then t.kpr.spdm else { t.kpr.spdm with key := spdmExpand t.kpr.spdm.key "traffic upd" [] })) = (r, u) → exec (.spdmKeyUpdate via msg) s = .next (u.spdmSend via r)) ∧
  (∀ via msg s t r u, s.spdmOn = true → byteAt msg 1 = 0xEC → 4 ≤ msg.length → s.spdmTake via = some t → byteAt msg 0 = 0x12 →
     3 ≤ t.kpr.spdm.stage → t.kpr.spdm.up = true → (spdmHead 0x6C 0 0, t.setSpdm { t.kpr.spdm with ses := none, up := false, trans := [], key := [] }) = (r, u) → exec (.spdmEndSession via msg) s = .next (u.spdmSend via r))

/-- For every state: each TAP instruction shifts out what R605 says, the driving ones while cold reset holds; DTMCS and DMI are zero while locked and act when unlocked; the alert of the SMBus raises its source; a comparator that the time has reached makes its interrupt pending; a write of register space takes effect. The next state given is all that changes. -/
def Obligations.TestAccessCompletes : Prop :=
  (∀ s, exec .jtagBypass s = .next (s.jtagIr 0x1F).bypass) ∧
  (∀ s, exec .jtagIdcode s = .next ((s.jtagIr 0x01).send (.tdo 32 (1 * 2 ^ 28 + 0x21C0 * 2 ^ 12 + s.sys.fuses.jep106 % 2 ^ 11 * 2 + 1)))) ∧
  (∀ cells s, exec (.jtagSamplePreload cells) s = .next (((s.jtagIr 0x02).setJtag { (s.jtagIr 0x02).kpr.jtag with
     cells := cells.take Config.pinLevels.length }).send (.tdo Config.pinLevels.length (bitsNat Config.pinLevels)))) ∧
  (∀ s t, s.sys.phase = .inReset → t = (s.jtagIr 0x03).setJtag { (s.jtagIr 0x03).kpr.jtag with drive := 1 } →
     exec .jtagExtest s = .next (t.send (.tdo Config.pinLevels.length (bitsNat Config.pinLevels)))) ∧
  (∀ s, s.sys.phase = .inReset → exec .jtagClamp s = .next ((s.jtagIr 0x04).setJtag { (s.jtagIr 0x04).kpr.jtag with drive := 2 }).bypass) ∧
  (∀ s, s.sys.phase = .inReset → exec .jtagHighz s = .next ((s.jtagIr 0x05).setJtag { (s.jtagIr 0x05).kpr.jtag with drive := 3 }).bypass) ∧
  (∀ v s, s.unlocked = false → exec (.jtagDtmcs v) s = .next ((s.jtagIr 0x10).send (.tdo 32 0))) ∧
  (∀ v s w t, s.unlocked = true → (s.jtagIr 0x10).free = (w, t) → v.toNat.testBit 16 = false → v.toNat.testBit 17 = false →
     exec (.jtagDtmcs v) s = .next (t.send (.tdo 32 (w.toNat % 2 ^ 32 / 16 * 16 + 1)))) ∧
  (∀ v s, s.unlocked = false → exec (.jtagDmi v) s = .next ((s.jtagIr 0x11).send (.tdo 64 0))) ∧
  (∀ v s w t, s.unlocked = true → (s.jtagIr 0x11).free = (w, t) → v.toNat % 4 ≠ 0 →
     exec (.jtagDmi v) s = .next ((t.setJtag { t.kpr.jtag with dmi := w }).send (.tdo 64 s.kpr.jtag.dmi.toNat))) ∧
  (∀ s, s.sys.smbN = true → s.sys.smbOwn = false → exec (.smbAlertN false) s = .next ({ s with sys := { s.sys with smbN := false } }.aplicSource 3)) ∧
  (∀ hart which s, (s.timeCmp hart which).toNat ≤ s.mtime → s.hub.timer.contains (hart, which) = false →
     exec (.mtimecmpExpire hart which) s = .next { s with hub := { s.hub with timer := s.hub.timer ++ [(hart, which)] } }) ∧
  (∀ a addr size v s d t, inRegs addr = true → s.spaceWrite a addr size v.toNat = .done d t → exec (.registerWrite a addr size v) s = .next t)

/-- For every command c, queue q and state s, a step of s with c at the front of the queue and q behind it is exec of c on s with the queue q. -/
def Obligations.StepRunsTheFront : Prop :=
  ∀ c q (s : Machine.State), Machine.step { s with pending := c :: q } = Machine.exec c { s with pending := q }

/-- For every state with no command waiting, a step answers the tick of the state; the clock part of a tick adds one to MTIME, modulo 2^64, while the 100 MHz reference is there, and leaves it otherwise. That a step on an empty queue is a tick is the model's choice (log entry 1). -/
def Obligations.IdleStepTicks : Prop :=
  (∀ s, s.pending = [] → Machine.step s = .next s.tick) ∧
  (∀ s : Machine.State, (s.clock).mtime = if s.sys.r100 then (s.mtime + 1) % 2 ^ 64 else s.mtime)

/-- In the state after reset, every register that takes no field from fuses or straps holds the value of its Reset column in every field, zero where the column names a Trellis; no command waits, no memory byte is other than zero, and the phase is that before the boot. The fuse and strap fields are the model's (log entries name their values). -/
def Obligations.ResetLeavesRegistersAtTheirValues : Prop :=
  (∀ r i j, r ∉ [Machine.Reg.kprId, .pwrClass, .trlKeys, .kprFw, .kprStrap, .ldgStatus, .gdrCfg, .lpMac] → State.reset.reg r i j = resetValue r) ∧
  (State.reset.pending = [] ∧ (∀ a, memGet State.reset.mem a = 0) ∧ State.reset.sys.phase = .booting ∧ State.reset.mtime = 0)

/-- The memory and the flash of the state after reset have the canonical form. -/
def Obligations.ResetKeepsTheMemoryForm : Prop :=
  State.MemOk State.reset

/-- For every state whose memory and flash have the canonical form (addresses strictly rising, no byte listed that equals what an unlisted one reads as), if a step answers a next state, that state's memory and flash have it too, whatever command was at the front of the queue. -/
def Obligations.EveryStepKeepsTheMemoryForm : Prop :=
  ∀ s t, State.MemOk s → Machine.step s = .next t → State.MemOk t

/-- For every command, with every operand, and every state, exec answers a next state: no command of this device ends in a fault or a refusal of the model, since what the specification calls a fault is a state of the device. -/
def Obligations.EveryCommandAnswers : Prop :=
  ∀ c s, Machine.Completes c s

/-- For every command and state, if exec answers a next state, the queue of waiting commands is unchanged in it and the count of free values used has not gone back. -/
def Obligations.CommandsKeepTheQueue : Prop :=
  ∀ c s t, Machine.exec c s = .next t → t.pending = s.pending ∧ s.freeCtr ≤ t.freeCtr

/-- For every state, counter field and increment: the count becomes the sum, or the all-ones value of the field where the sum exceeds it, and never wraps; every other field of every register is unchanged. -/
def Obligations.CountersSaturate : Prop :=
  ∀ (s : Machine.State) (f g : Machine.Fld) i j n i' j', f.lo ≤ f.hi → f.hi < 64 → g.lo ≤ g.hi → g.hi < 64 →
     (s.bump f i j n).rd f i j = min (2 ^ (f.hi + 1 - f.lo) - 1) (s.rd f i j + n) ∧
     ((¬ (g.r = f.r ∧ i' = i ∧ j' = j) ∨ g.hi < f.lo ∨ f.hi < g.lo) → (s.bump f i j n).rd g i' j' = s.rd g i' j')

/-- For binary16 and binary32, both roundings and all operands: when the result of an addition, multiplication, fused multiply-add, division, square root, 2^x, log2 x or conversion of the vector unit is a NaN, it is 0x7FC0_0000 in binary32 and 0x7E00 in binary16. -/
def Obligations.OneNaN : Prop :=
  (b32.nan = 0x7FC00000 ∧ b16.nan = 0x7E00) ∧
  (∀ f ∈ [b32, b16], ∀ tz a b c w, ∀ r ∈ [ieeeAdd f tz a b, ieeeMul f tz a b, ieeeFma f tz a b c, ieeeDiv f tz a b, ieeeSqrt f tz a, ieeeExp2 f tz a,
     ieeeLog2 f tz a, ieeeCvt b32 f tz w, ieeeCvt b16 f tz w], f.infBits < r.1 % f.signW → r.1 = f.nan)

/-- For every state whose memory has the canonical form, cell, offset and at most 4 MiB of bytes: after a write into the cell store each byte reads as written, at offsets taken modulo 4 MiB, and every byte at any other address reads as before; a bank that serves a write request changes only the bytes of that request, and one that serves a read request changes no byte. -/
def Obligations.CellStoresChangeTheirBytes : Prop :=
  (∀ s c off bs k, State.MemOk s → bs.length ≤ cellSize → k < bs.length → memGet (s.cellStore c off bs).mem (cellAddr c (off + k)) = bs.getD k 0) ∧
  (∀ s c off bs x, State.MemOk s → (∀ k, k < bs.length → x ≠ cellAddr c (off + k)) → bs.length ≤ cellSize → memGet (s.cellStore c off bs).mem x = memGet s.mem x) ∧
  (∀ s cell bank r off bs x t, State.MemOk s → nextReq ((tget s.arr.banks (cell, bank) []).filter fun r => !s.bankHeld (cell / 8) r) = some r → r.write = some (off, bs) → bs.length ≤ cellSize →
     Machine.exec (.cellStoreBankAccess cell bank) s = .next t → (∀ k, k < bs.length → x ≠ cellAddr cell (off + k)) → memGet t.mem x = memGet s.mem x) ∧
  (∀ s cell bank r x t, nextReq ((tget s.arr.banks (cell, bank) []).filter fun r => !s.bankHeld (cell / 8) r) = some r → r.write = none →
     Machine.exec (.cellStoreBankAccess cell bank) s = .next t → memGet t.mem x = memGet s.mem x)

/-- For every state, stile and increment that would take the count above 0xFFFF_FFFF: the count becomes 0xFFFF_FFFF, and the owning pavilion, when it is idle or running, is FENCED with the stile-overflow status as its cause where it had none. The increment is that of a signal whose parts are all there, and of a final frame whose write is complete. -/
def Obligations.StileOverflowFences : Prop :=
  (∀ (s : Machine.State) st inc, 0xFFFFFFFF < s.rd F.stlState_COUNT st 0 + inc →
     (s.addStile st inc).rd F.stlState_COUNT st 0 = 0xFFFFFFFF ∧
     ∀ p, s.stileOwner st = some p → (s.pavState p = 1 ∨ s.pavState p = 2) → (s.addStile st inc).pavState p = 3 ∧
       (s.addStile st inc).rd F.pavFence_CAUSE p 0 = if s.rd F.pavFence_CAUSE p 0 = 0 then 0x08 else s.rd F.pavFence_CAUSE p 0) ∧
  (∀ o (s : Machine.State) g, (s.pav o.pav).sigs.find? (fun g => g.op == o && g.dev.isNone) = some g → g.whole = true →
     Machine.exec (.xchSignal o) s = .next (((s.dropSig o.pav o.seq).confirm o.pav).addStile g.stile g.inc)) ∧
  (∀ k (s : Machine.State) st inc, s.lnk.commits[k]? = some (st, inc) → Machine.exec (.commitStileApply k) s =
     .next (({ s with lnk := { s.lnk with commits := s.lnk.commits.eraseIdx k } } : Machine.State).addStile st inc))

/-- For every format, accumulator that its format can hold, and operands: when either operand is NaR the accumulator keeps its value and its overflow bit and its poison bit is set, including when the other operand is zero; when either operand is zero and neither is NaR, the product is exactly 0 and the accumulator keeps its value and its flags. -/
def Obligations.NaRContributesPoisonOnly : Prop :=
  (∀ f a x w, AccOk f.acc a → (x = f.nar ∨ w = f.nar) → a.mac f x w = { a with poison := true }) ∧
  (∀ f a x w, AccOk f.acc a → x ≠ f.nar → w ≠ f.nar → (x = 0 ∨ w = 0) → product f x w = 0 ∧ a.mac f x w = a)

/-- For every state and every requester other than the Keeper and the harts in machine mode: each command that writes a register which only those may write answers the state with nothing changed but the access-fault status sent. -/
def Obligations.RefusedWritesChangeNothing : Prop :=
  ∀ a n m v s, machineActor a = false →
    Machine.exec (.trlStage a v) s = .next (s.send (.status 0x02)) ∧
    Machine.exec (.trlVerify a v) s = .next (s.send (.status 0x02)) ∧
    Machine.exec (.trlCommit a v) s = .next (s.send (.status 0x02)) ∧
    Machine.exec (.trlAbort a v) s = .next (s.send (.status 0x02)) ∧
    Machine.exec (.trlAgreeClear a n m) s = .next (s.send (.status 0x02)) ∧
    Machine.exec (.orgRgnCommitGo a) s = .next (s.send (.status 0x02)) ∧
    Machine.exec (.smmuCtxCommitGo a n) s = .next (s.send (.status 0x02)) ∧
    Machine.exec (.wsCommitGo a) s = .next (s.send (.status 0x02)) ∧
    Machine.exec (.wsOutCommitGo a) s = .next (s.send (.status 0x02)) ∧
    Machine.exec (.cohBiasCommitGo a) s = .next (s.send (.status 0x02)) ∧
    Machine.exec (.stlStateWrite a n v) s = .next (s.send (.status 0x02)) ∧
    Machine.exec (.stlGroupWrite a n v) s = .next (s.send (.status 0x02)) ∧
    Machine.exec (.gdrPlotWrite a n m v) s = .next (s.send (.status 0x02)) ∧
    Machine.exec (.cohOoForce a n v) s = .next (s.send (.status 0x02)) ∧
    Machine.exec (.biasRelease a v) s = .next (s.send (.status 0x02)) ∧
    Machine.exec (.biasRecall a v) s = .next (s.send (.status 0x02)) ∧
    Machine.exec (.unquar a n v) s = .next (s.send (.status 0x02)) ∧
    Machine.exec (.lpRetrain a n v) s = .next (s.send (.status 0x02)) ∧
    Machine.exec (.preset a n v) s = .next (s.send (.status 0x02)) ∧
    Machine.exec (.lpDevlostWrite a n v) s = .next (s.send (.status 0x02)) ∧
    Machine.exec (.lpDevclrWrite a n v) s = .next (s.send (.status 0x02)) ∧
    Machine.exec (.paceRequestWrite a v) s = .next (s.send (.status 0x02)) ∧
    Machine.exec (.brakeLevelWrite a v) s = .next (s.send (.status 0x02)) ∧
    Machine.exec (.aclr a v) s = .next (s.send (.status 0x02)) ∧
    Machine.exec (.kprResetCold a v) s = .next (s.send (.status 0x02)) ∧
    Machine.exec (.kprResetWarm a v) s = .next (s.send (.status 0x02)) ∧
    Machine.exec (.kprResetDie a v) s = .next (s.send (.status 0x02)) ∧
    Machine.exec (.kprResetKeeper a v) s = .next (s.send (.status 0x02)) ∧
    Machine.exec (.kprMbxSubmit a v) s = .next (s.send (.status 0x02))

/-- For every state, operation and lane function, the effect of a lane-by-lane operation of the vector unit leaves as they were: all memory, every register but the flags and the progress count of its bed (whose flags it only adds to), every other vector unit, every other vector register, every inactive lane of the destination, and every scalar and predicate register; and every slice, pavilion, cell, lane, drain and binding. -/
def Obligations.LaneResultsStayInTheirLanes : Prop :=
  ∀ bed o g s, VecFrame bed (vD o) ((s.vec bed).preg (vPred o)) s (laneEffect bed o g s)
end

