-- ==== Sys2Proof/Laws/Tab.lean ====
section
/-! SUPPORT. Laws of tables by key. -/

namespace Sys2Proof.Machine

theorem tfind_terase_self {κ α : Type} [DecidableEq κ] (t : Tab κ α) (k : κ) : tfind (terase t k) k = none := by
  induction t with
  | nil => rfl
  | cons e t ih =>
    obtain ⟨k', a⟩ := e
    by_cases h : k' = k
    · simpa [terase, h] using ih
    · simpa [terase, tfind, h] using ih

theorem tfind_terase_ne {κ α : Type} [DecidableEq κ] (t : Tab κ α) {k q : κ} (h : q ≠ k) :
    tfind (terase t k) q = tfind t q := by
  induction t with
  | nil => rfl
  | cons e t ih =>
    obtain ⟨k', a⟩ := e
    by_cases hk : k' = k
    · subst hk
      have : ¬ k' = q := fun e => h e.symm
      simpa [terase, tfind, this] using ih
    · by_cases hq : k' = q
      · simp [terase, tfind, hq, h]
      · simpa [terase, tfind, hk, hq] using ih

@[simp] theorem tfind_tset_self {κ α : Type} [DecidableEq κ] (t : Tab κ α) (k : κ) (a : α) : tfind (tset t k a) k = some a := by
  simp [tset, tfind]

theorem tfind_tset_ne {κ α : Type} [DecidableEq κ] (t : Tab κ α) {k q : κ} (a : α) (h : q ≠ k) :
    tfind (tset t k a) q = tfind t q := by
  have : ¬ k = q := fun e => h e.symm
  simp [tset, tfind, this, tfind_terase_ne t h]

@[simp] theorem tget_tset_self {κ α : Type} [DecidableEq κ] (t : Tab κ α) (k : κ) (a d : α) : tget (tset t k a) k d = a := by
  simp [tget]

theorem tget_tset_ne {κ α : Type} [DecidableEq κ] (t : Tab κ α) {k q : κ} (a d : α) (h : q ≠ k) :
    tget (tset t k a) q d = tget t q d := by
  simp [tget, tfind_tset_ne t a h]

theorem tget_terase_self {κ α : Type} [DecidableEq κ] (t : Tab κ α) (k : κ) (d : α) : tget (terase t k) k d = d := by
  simp [tget, tfind_terase_self]

theorem tget_terase_ne {κ α : Type} [DecidableEq κ] (t : Tab κ α) {k q : κ} (d : α) (h : q ≠ k) :
    tget (terase t k) q d = tget t q d := by
  simp [tget, tfind_terase_ne t h]

end Sys2Proof.Machine
end

