-- ==== Sys2Proof/Laws/Field.lean ====
section
/-! SUPPORT. Laws of registers and bit fields: a register stored reads back, a field put reads back cut to its width, and
every other register, index and bit reads as before. -/

namespace Sys2Proof.Machine

@[simp] theorem reg_setReg_self (s : State) (r : Reg) (i j : Nat) (v : BitVec 64) : (s.setReg r i j v).reg r i j = v := by
  simp [State.reg, State.setReg]

theorem reg_setReg_ne (s : State) {r q : Reg} {i j m n : Nat} (v : BitVec 64) (h : ¬ (q = r ∧ m = i ∧ n = j)) :
    (s.setReg r i j v).reg q m n = s.reg q m n := by
  unfold State.reg State.setReg
  exact tget_tset_ne _ _ _ (by simpa using h)

theorem testBit_putNat {n hi lo v : Nat} (h1 : lo ≤ hi) (k : Nat) :
    (n - n / 2 ^ lo % 2 ^ (hi + 1 - lo) * 2 ^ lo + v % 2 ^ (hi + 1 - lo) * 2 ^ lo).testBit k
      = if lo ≤ k ∧ k ≤ hi then v.testBit (k - lo) else n.testBit k := by
  obtain ⟨w, hw⟩ : ∃ w, hi + 1 - lo = w := ⟨_, rfl⟩
  rw [hw]
  have e1 := Nat.div_add_mod n (2 ^ lo)
  have e2 := Nat.div_add_mod (n / 2 ^ lo) (2 ^ w)
  have hl : n % 2 ^ lo < 2 ^ lo := Nat.mod_lt _ (by positivity)
  have hf : n / 2 ^ lo % 2 ^ w < 2 ^ w := Nat.mod_lt _ (by positivity)
  have hv : v % 2 ^ w < 2 ^ w := Nat.mod_lt _ (by positivity)
  generalize n / 2 ^ lo % 2 ^ w = f at *
  generalize n / 2 ^ lo / 2 ^ w = a at *
  generalize hL : n % 2 ^ lo = l at *
  have en : n = 2 ^ lo * (2 ^ w * a + f) + l := by rw [e2]; exact e1.symm
  have e : n - f * 2 ^ lo + v % 2 ^ w * 2 ^ lo = 2 ^ lo * (2 ^ w * a + v % 2 ^ w) + l := by
    have : n - f * 2 ^ lo = 2 ^ lo * (2 ^ w * a) + l := by
      rw [en, Nat.mul_add, Nat.mul_comm f]; omega
    rw [this]; ring
  rw [e, en, Nat.testBit_two_pow_mul_add _ hl, Nat.testBit_two_pow_mul_add _ hl, Nat.testBit_two_pow_mul_add _ hv,
    Nat.testBit_two_pow_mul_add _ hf]
  by_cases c1 : k < lo
  · have : ¬ (lo ≤ k ∧ k ≤ hi) := by omega
    simp [c1, this]
  · by_cases c2 : k - lo < w
    · have : lo ≤ k ∧ k ≤ hi := by omega
      simp [c1, c2, this, Nat.testBit_mod_two_pow]
    · have : ¬ (lo ≤ k ∧ k ≤ hi) := by omega
      simp [c1, c2, this]

theorem testBit_putBits (w : BitVec 64) {hi lo : Nat} (h1 : lo ≤ hi) (h2 : hi < 64) (v k : Nat) :
    (putBits w hi lo v).toNat.testBit k = if lo ≤ k ∧ k ≤ hi then v.testBit (k - lo) else w.toNat.testBit k := by
  simp only [putBits, BitVec.toNat_ofNat, Nat.testBit_mod_two_pow, testBit_putNat h1]
  by_cases h : k < 64
  · simp [h]
  · have h3 : ¬ (lo ≤ k ∧ k ≤ hi) := by omega
    have : w.toNat.testBit k = false := Nat.testBit_lt_two_pow (Nat.lt_of_lt_of_le w.isLt (Nat.pow_le_pow_right (by omega) (by omega)))
    simp [h, h3, this]

theorem natField_testBit (v hi lo k : Nat) : (natField v hi lo).testBit k = (decide (k < hi + 1 - lo) && v.testBit (lo + k)) := by
  simp [natField, Nat.testBit_mod_two_pow, Nat.testBit_div_two_pow, Nat.add_comm]

theorem natField_putBits_self (w : BitVec 64) {hi lo : Nat} (h1 : lo ≤ hi) (h2 : hi < 64) (v : Nat) :
    natField (putBits w hi lo v).toNat hi lo = v % 2 ^ (hi + 1 - lo) := by
  apply Nat.eq_of_testBit_eq; intro k
  rw [natField_testBit, testBit_putBits w h1 h2, Nat.testBit_mod_two_pow]
  by_cases h : k < hi + 1 - lo
  · have : lo ≤ lo + k ∧ lo + k ≤ hi := by omega
    simp [this]
  · simp [h]

theorem natField_putBits_ne (w : BitVec 64) {hi lo hi' lo' : Nat} (h1 : lo ≤ hi) (h2 : hi < 64) (v : Nat)
    (h : hi' < lo ∨ hi < lo') : natField (putBits w hi lo v).toNat hi' lo' = natField w.toNat hi' lo' := by
  apply Nat.eq_of_testBit_eq; intro k
  rw [natField_testBit, natField_testBit, testBit_putBits w h1 h2]
  by_cases hk : k < hi' + 1 - lo'
  · have : ¬ (lo ≤ lo' + k ∧ lo' + k ≤ hi) := by omega
    simp [this]
  · simp [hk]

/-- A field set reads the value cut to its width. -/
theorem rd_wr_self (s : State) (f : Fld) (h1 : f.lo ≤ f.hi) (h2 : f.hi < 64) (i j v : Nat) :
    (s.wr f i j v).rd f i j = v % 2 ^ (f.hi + 1 - f.lo) := by
  simp only [State.rd, State.wr, reg_setReg_self]
  exact natField_putBits_self _ h1 h2 v

/-- Every field of another register, index or bits reads as before. -/
theorem rd_wr_ne (s : State) (f g : Fld) (h1 : f.lo ≤ f.hi) (h2 : f.hi < 64) (i j i' j' v : Nat)
    (h : ¬ (g.r = f.r ∧ i' = i ∧ j' = j) ∨ g.hi < f.lo ∨ f.hi < g.lo) : (s.wr f i j v).rd g i' j' = s.rd g i' j' := by
  by_cases e : g.r = f.r ∧ i' = i ∧ j' = j
  · obtain ⟨e1, rfl, rfl⟩ := e
    have h' : g.hi < f.lo ∨ f.hi < g.lo := h.resolve_left (fun n => n ⟨e1, rfl, rfl⟩)
    simp only [State.rd, State.wr, e1, reg_setReg_self]
    exact natField_putBits_ne _ h1 h2 v h'
  · simp only [State.rd, State.wr, reg_setReg_ne s _ e]

end Sys2Proof.Machine
end

