-- ==== Sys2Proof/Laws/Mem.lean ====
section
/-! SUPPORT. Laws of byte memory: every operation keeps the canonical form, a byte written reads back, and every other
byte reads as before. -/

namespace Sys2Proof.Machine

theorem above_mono {lo hi : Nat} (h : lo ≤ hi) : ∀ m : Mem, Mem.above hi m = true → Mem.above lo m = true
  | [], _ => rfl
  | (a, b) :: m, h' => by
    simp only [Mem.above, Bool.and_eq_true, decide_eq_true_eq] at h' ⊢
    exact ⟨⟨by omega, h'.1.2⟩, h'.2⟩

theorem memGet_above {lo : Nat} : ∀ {m : Mem} {q : Nat}, Mem.above lo m = true → q < lo → memGet m q = 0
  | [], _, _, _ => rfl
  | (a, b) :: m, q, h, hq => by
    simp only [Mem.above, Bool.and_eq_true, decide_eq_true_eq] at h
    have : ¬ a = q := by omega
    simp only [memGet, this, if_false]
    exact memGet_above h.2 (by omega)

theorem above_memSet {lo : Nat} : ∀ {m : Mem} {q : Nat} (v : Byte), Mem.above lo m = true → lo ≤ q →
    Mem.above lo (memSet m q v) = true
  | [], q, v, _, hq => by
    by_cases hv : v = 0#8 <;> simp [memSet, Mem.above, hv, hq]
  | (a, b) :: m, q, v, h, hq => by
    have h' := h
    simp only [Mem.above, Bool.and_eq_true, decide_eq_true_eq] at h'
    obtain ⟨⟨h1, h2⟩, h3⟩ := h'
    simp only [memSet]
    split
    · split
      · exact h
      · have ha : Mem.above (q + 1) ((a, b) :: m) = true := by
          simp only [Mem.above, Bool.and_eq_true, decide_eq_true_eq]; exact ⟨⟨by omega, h2⟩, h3⟩
        have hv : ¬ v = 0#8 := ‹¬ v = 0›
        simp [Mem.above, hq, hv] at ha ⊢
        exact ha
    · split
      · split
        · exact above_mono (by omega) m h3
        · have hv : ¬ v = 0#8 := ‹¬ v = 0›
          simp [Mem.above, hq, hv]
          exact (by omega : q = a) ▸ h3
      · simp only [Mem.above, Bool.and_eq_true, decide_eq_true_eq]
        exact ⟨⟨h1, h2⟩, above_memSet v h3 (by omega)⟩

theorem wf_memSet {m : Mem} (q : Nat) (v : Byte) (h : m.wf = true) : Mem.wf (memSet m q v) = true :=
  above_memSet v h (Nat.zero_le q)

theorem wf_memWrite : ∀ {m : Mem} (a : Nat) (bs : List Byte), m.wf = true → Mem.wf (memWrite m a bs) = true
  | _, _, [], h => h
  | _, a, b :: bs, h => wf_memWrite (a + 1) bs (wf_memSet a b h)

theorem above_filter (p : Host.Cell → Bool) : ∀ {lo : Nat} {m : Mem}, Mem.above lo m = true → Mem.above lo (m.filter p) = true
  | _, [], _ => rfl
  | lo, (a, b) :: m, h => by
    simp only [Mem.above, Bool.and_eq_true, decide_eq_true_eq] at h
    by_cases hp : p (a, b) = true
    · simp only [List.filter, hp, Mem.above, Bool.and_eq_true, decide_eq_true_eq]
      exact ⟨h.1, above_filter p h.2⟩
    · simp only [List.filter, hp]
      exact above_mono (by omega) _ (above_filter p h.2)

theorem wf_filter (p : Host.Cell → Bool) {m : Mem} (h : m.wf = true) : Mem.wf (m.filter p) = true := above_filter p h

theorem memGet_memSet_of_above {lo : Nat} : ∀ {m : Mem} {q : Nat} (v : Byte) (x : Nat), Mem.above lo m = true →
    memGet (memSet m q v) x = if x = q then v else memGet m x
  | [], q, v, x, _ => by
    by_cases hv : v = 0#8
    · simp [memSet, hv, memGet]
    · by_cases hx : x = q
      · simp [memSet, hv, memGet, hx]
      · have : ¬ q = x := fun e => hx e.symm
        simp [memSet, hv, memGet, hx, this]
  | (a, b) :: m, q, v, x, h => by
    have h' := h
    simp only [Mem.above, Bool.and_eq_true, decide_eq_true_eq] at h'
    obtain ⟨⟨h1, h2⟩, h3⟩ := h'
    simp only [memSet]
    by_cases hq : q < a
    · simp only [hq, if_true]
      by_cases hx : x = q
      · subst hx
        have hz : memGet ((a, b) :: m) x = 0 := by
          apply memGet_above (lo := x + 1) _ (by omega)
          simp only [Mem.above, Bool.and_eq_true, decide_eq_true_eq]; exact ⟨⟨by omega, h2⟩, h3⟩
        by_cases hv : v = 0
        · simp only [hv, if_true, hz]
        · simp only [hv, if_false, memGet, if_true]
      · have : ¬ q = x := fun e => hx e.symm
        by_cases hv : v = 0
        · simp only [hv, if_true, hx, if_false]
        · simp only [hv, if_false, hx, memGet, this]
    · simp only [hq, if_false]
      by_cases hqa : q = a
      · subst hqa
        by_cases hv : v = 0
        · by_cases hx : x = q
          · subst hx
            simp only [hv, if_true]
            exact memGet_above h3 (by omega)
          · have : ¬ q = x := fun e => hx e.symm
            simp only [hv, if_true, hx, if_false, memGet, this]
        · by_cases hx : x = q
          · subst hx; simp only [if_true, hv, if_false, memGet]
          · have : ¬ q = x := fun e => hx e.symm
            simp only [if_true, hv, if_false, memGet, this, hx]
      · simp only [hqa, if_false, memGet]
        by_cases hx : a = x
        · have : ¬ x = q := by omega
          simp only [hx, if_true, this, if_false]
        · simp only [hx, if_false]
          exact memGet_memSet_of_above v x h3

theorem memGet_memSet {m : Mem} (h : m.wf = true) (q : Nat) (v : Byte) (x : Nat) :
    memGet (memSet m q v) x = if x = q then v else memGet m x := memGet_memSet_of_above v x h

theorem memGet_memWrite : ∀ {m : Mem} (a : Nat) (bs : List Byte) (x : Nat), m.wf = true →
    memGet (memWrite m a bs) x = if a ≤ x ∧ x < a + bs.length then bs.getD (x - a) 0 else memGet m x
  | m, a, [], x, _ => by
    have : ¬ (a ≤ x ∧ x < a + ([] : List Byte).length) := by simp only [List.length_nil]; omega
    simp only [memWrite, if_neg this]
  | m, a, b :: bs, x, h => by
    simp only [memWrite, List.length_cons]
    rw [memGet_memWrite (a + 1) bs x (wf_memSet a b h), memGet_memSet h]
    by_cases h1 : a + 1 ≤ x ∧ x < a + 1 + bs.length
    · have h2 : a ≤ x ∧ x < a + (bs.length + 1) := by omega
      rw [if_pos h1, if_pos h2]
      have e : x - a = (x - (a + 1)) + 1 := by omega
      rw [e]; simp
    · rw [if_neg h1]
      by_cases hx : x = a
      · subst hx
        have h2 : x ≤ x ∧ x < x + (bs.length + 1) := by omega
        rw [if_pos rfl, if_pos h2]; simp
      · have h2 : ¬ (a ≤ x ∧ x < a + (bs.length + 1)) := by omega
        rw [if_neg hx, if_neg h2]

end Sys2Proof.Machine
end

