-- ==== Sys2Proof/Laws/Keeps.lean ====
section
/-! SUPPORT. What no operation changes: the queue of waiting commands, the order of the free values, and the canonical form
of memory and flash (`Keeps`), for states and for the results that carry one; the operations that touch those fields; and
the rules by which the other files of these laws put the operations together. -/

namespace Sys2Proof.Machine

/-- From `s` to `t` no command left the queue or entered it, no free value came back, and memory and flash kept their form. -/
structure Keeps (s t : State) : Prop where
  pending : t.pending = s.pending
  freeCtr : s.freeCtr ≤ t.freeCtr
  memOk : s.MemOk → t.MemOk

/-- An outcome whose next state, if it has one, keeps. -/
def OutKeeps (s : State) : Out → Prop
  | .next t => Keeps s t
  | _ => True

/-- What holds of the value of an option, if it has one. -/
def OptP {α : Type} (P : α → Prop) : Option α → Prop
  | some a => P a
  | none => True

/-- What holds of the second part of a pair. -/
def SndP {α β : Type} (P : β → Prop) (x : α × β) : Prop := P x.2

/-- What holds of the first part of a pair. -/
def FstP {α β : Type} (P : α → Prop) (x : α × β) : Prop := P x.1

/-- What holds of either side of a sum. -/
def SumP {α β : Type} (P : α → Prop) (Q : β → Prop) : α ⊕ β → Prop
  | .inl a => P a
  | .inr b => Q b

/-- A translation whose state keeps. -/
def XlatKeeps (s : State) : Xlat → Prop
  | .ok _ _ _ t => Keeps s t
  | .fault _ _ t => Keeps s t
  | .wait => True

/-- A walk whose state keeps. -/
def WalkKeeps (s : State) : Walk → Prop
  | .leaf _ t => Keeps s t
  | .fault _ _ t => Keeps s t
  | .wait => True

/-- A read by virtual address whose state keeps. -/
def VResKeeps (s : State) : VRes → Prop
  | .ok _ t => Keeps s t
  | .fault _ _ t => Keeps s t
  | .wait => True

/-- A read of memory whose state keeps. -/
def MemResKeeps (s : State) : MemRes → Prop
  | .done _ t => Keeps s t
  | .wait => True
  | .refuse _ t => Keeps s t

/-- An atomic whose state keeps. -/
def AtomResKeeps (s : State) : AtomRes → Prop
  | .done _ t => Keeps s t
  | .wait => True
  | .refuse _ _ t => Keeps s t

/-- A search for a leaf whose state keeps. -/
def PteKeeps (s : State) : Pte → Prop
  | .leaf _ _ _ t => Keeps s t
  | .gone t => Keeps s t
  | .wait => True

/-- A register access whose state keeps. -/
def RegResKeeps (s : State) : RegRes → Prop
  | .done _ t => Keeps s t
  | .refuse _ t => Keeps s t

/-- A message taken or dropped, whose state keeps. -/
def KmtResKeeps (s : State) : KmtRes → Prop
  | .drop t => Keeps s t
  | .take _ t => Keeps s t

/-- A frame taken or dropped, whose state keeps. -/
def GateResKeeps (s : State) : GateRes → Prop
  | .drop t => Keeps s t
  | .take _ t => Keeps s t

/-- The beginning of a run, whose state keeps. -/
def BeginKeeps (s : State) : Begin → Prop
  | .go _ t => Keeps s t
  | .fault _ t => Keeps s t
  | .abort _ _ t => Keeps s t
  | .wait => True

/-- A step of a run, whose state keeps. -/
def IssueKeeps (s : State) : Issue → Prop
  | .ok t => Keeps s t
  | .ask t => Keeps s t
  | .fault _ _ t => Keeps s t
  | .wait => True

/-- An answer of the Keeper whose operation keeps. -/
def KResKeeps (s : State) (k : KRes) : Prop := ∀ t, Keeps s t → Keeps s (k.after t)

/-! ### The rules -/

theorem Keeps.refl (s : State) : Keeps s s := ⟨rfl, Nat.le_refl _, id⟩

theorem Keeps.trans {a b c : State} (h : Keeps a b) (h' : Keeps b c) : Keeps a c :=
  ⟨h'.pending.trans h.pending, Nat.le_trans h.freeCtr h'.freeCtr, fun w => h'.memOk (h.memOk w)⟩

theorem pIte {α : Type} (P : α → Prop) {c : Prop} [Decidable c] {a b : α} (ha : P a) (hb : P b) : P (if c then a else b) := by
  split <;> assumption

theorem foldlP {α β : Type} (P : β → Prop) {f : β → α → β} {l : List α} {b : β} (h : P b) (hf : ∀ b a, P b → P (f b a)) :
    P (l.foldl f b) := by
  induction l generalizing b with
  | nil => exact h
  | cons a l ih => exact ih (hf b a h)

theorem foldrP {α β : Type} (P : β → Prop) {f : α → β → β} {l : List α} {b : β} (h : P b) (hf : ∀ a b, P b → P (f a b)) :
    P (l.foldr f b) := by
  induction l with
  | nil => exact h
  | cons a l ih => exact hf a _ ih

theorem getDP {α : Type} (P : α → Prop) {x : Option α} {d : α} (hx : OptP P x) (h : P d) : P (x.getD d) := by
  cases x with
  | none => exact h
  | some a => exact hx

theorem mapP {α β : Type} (P : β → Prop) {f : α → β} {x : Option α} (h : ∀ a, P (f a)) : OptP P (x.map f) := by
  cases x with
  | none => trivial
  | some a => exact h a

theorem mapOptP {α β : Type} (Q : α → Prop) (P : β → Prop) {f : α → β} {x : Option α} (hx : OptP Q x) (h : ∀ a, Q a → P (f a)) :
    OptP P (x.map f) := by
  cases x with
  | none => trivial
  | some a => exact h a hx

theorem bindP {α β : Type} (P : β → Prop) {f : α → Option β} {x : Option α} (h : ∀ a, OptP P (f a)) : OptP P (x.bind f) := by
  cases x with
  | none => trivial
  | some a => exact h a

theorem bindOptP {α β : Type} (Q : α → Prop) (P : β → Prop) {f : α → Option β} {x : Option α} (hx : OptP Q x)
    (h : ∀ a, Q a → OptP P (f a)) : OptP P (x.bind f) := by
  cases x with
  | none => trivial
  | some a => exact h a hx

theorem sndMk {α β : Type} {P : β → Prop} {a : α} {b : β} (h : P b) : SndP P (a, b) := h

theorem fstMk {α β : Type} {P : α → Prop} {a : α} {b : β} (h : P a) : FstP P (a, b) := h

theorem findSomeP {α β : Type} (P : β → Prop) {f : α → Option β} {l : List α} (h : ∀ a, OptP P (f a)) : OptP P (l.findSome? f) := by
  induction l with
  | nil => trivial
  | cons a l ih =>
    rw [List.findSome?_cons]
    have := h a
    cases he : f a with
    | none => exact ih
    | some b => rw [he] at this; exact this

theorem someP {α : Type} {P : α → Prop} {a : α} (h : P a) : OptP P (some a) := h

theorem inlP {α β : Type} {P : α → Prop} {Q : β → Prop} {a : α} (h : P a) : SumP P Q (.inl a) := h

theorem inrP {α β : Type} {P : α → Prop} {Q : β → Prop} {b : β} (h : Q b) : SumP P Q (.inr b) := h

theorem kresMk {s0 : State} {n p} {f : State → State} (h : ∀ s, Keeps s0 s → Keeps s0 (f s)) : KResKeeps s0 ⟨n, p, f⟩ := h

theorem kresAfter {s0 s : State} {k : KRes} (hk : KResKeeps s0 k) (h : Keeps s0 s) : Keeps s0 (k.after s) := hk s h

theorem issueNil {s0 : State} : IssueKeeps s0 (firstIssue []) := trivial

theorem issueCons {s0 : State} {x : Unit → Issue} {xs : List (Unit → Issue)} (h : IssueKeeps s0 (x ()))
    (h' : IssueKeeps s0 (firstIssue xs)) : IssueKeeps s0 (firstIssue (x :: xs)) := by
  unfold firstIssue
  split
  · exact h'
  · exact h

theorem outOf {α : Type} (P : α → Prop) {x y : α} (e : x = y) (h : P x) : P y := e ▸ h

/-- A state that differs from `u` in no field that `Keeps` speaks of. -/
theorem keepsMk {s0 u : State} (h : Keeps s0 u) {x1 x2 x3 x4 x5 x6 x7 x8 x9 x10 x11 x12 x13 x14 x15 x16 x17 x18 x19 x20 x21
    x22 x23 x24 x26} {k : KprSt} (hk : k.flash = u.kpr.flash) :
    Keeps s0 ⟨u.pending, u.freeCtr, x1, x2, x3, u.mem, x4, x5, x6, x7, x8, x9, x10, x11, x12, x13, x14, x15, x16, x17, x18, x19,
      x20, x21, x22, x23, k, x24, x26⟩ :=
  ⟨h.pending, h.freeCtr, fun w => ⟨(h.memOk w).1, hk ▸ (h.memOk w).2⟩⟩

/-! ### The operations that touch those fields -/

theorem State.free_keeps {s0 s : State} (h : Keeps s0 s) : SndP (Keeps s0) s.free :=
  ⟨h.pending, Nat.le_succ_of_le h.freeCtr, h.memOk⟩

theorem State.store_keeps {s0 s : State} (h : Keeps s0 s) {a bs} : Keeps s0 (s.store a bs) :=
  ⟨h.pending, h.freeCtr, fun w => ⟨wf_memWrite a bs (h.memOk w).1, (h.memOk w).2⟩⟩

theorem State.lineStore_keeps {s0 s : State} (h : Keeps s0 s) {a bs} : Keeps s0 (s.lineStore a bs) :=
  ⟨h.pending, h.freeCtr, fun w => ⟨wf_memWrite _ bs (h.memOk w).1, (h.memOk w).2⟩⟩

theorem State.linePoison_keeps {s0 s : State} (h : Keeps s0 s) {a bs} : Keeps s0 (s.linePoison a bs) :=
  ⟨h.pending, h.freeCtr, fun w => ⟨wf_memWrite _ bs (h.memOk w).1, (h.memOk w).2⟩⟩

theorem State.zeroRange_keeps {s0 s : State} (h : Keeps s0 s) {lo hi} : Keeps s0 (s.zeroRange lo hi) :=
  ⟨h.pending, h.freeCtr, fun w => ⟨wf_filter _ (h.memOk w).1, (h.memOk w).2⟩⟩

theorem State.flashWrite_keeps {s0 s : State} (h : Keeps s0 s) {off bs} : Keeps s0 (s.flashWrite off bs) :=
  ⟨h.pending, h.freeCtr, fun w => ⟨(h.memOk w).1, wf_memWrite off _ (wf_filter _ (h.memOk w).2)⟩⟩

theorem State.keepShut_keeps {s0 s old : State} (h : Keeps s0 s) : Keeps s0 (s.keepShut old) := by
  unfold State.keepShut
  exact pIte (Keeps s0) (keepsMk h rfl) h

theorem State.coldState_keeps {s0 s : State} (h : Keeps s0 s) {c k} : Keeps s0 (s.coldState c k) :=
  State.keepShut_keeps ⟨h.pending, h.freeCtr, fun w => ⟨rfl, (h.memOk w).2⟩⟩

end Sys2Proof.Machine
end

