-- ==== Sys2Proof/Laws/KeepsArray.lean ====
section
/-! SUPPORT. `Keeps` for every operation and every meaning of the tensor cells, converters, vector units and control words. -/

namespace Sys2Proof.Machine

/-! ### Machine/Ops.lean -/

theorem State.setReg_keeps {s0 : State} {s x1 x2 x3 x4 : _} (h : Keeps s0 s) : Keeps s0 (State.setReg s x1 x2 x3 x4)
    := by
  unfold State.setReg
  exact keepsMk h rfl

theorem State.wr_keeps {s0 : State} {s x1 x2 x3 x4 : _} (h : Keeps s0 s) : Keeps s0 (State.wr s x1 x2 x3 x4) := by
  unfold State.wr
  exact State.setReg_keeps h

theorem State.bump_keeps {s0 : State} {s x1 x2 x3 x4 : _} (h : Keeps s0 s) : Keeps s0 (State.bump s x1 x2 x3 x4) := by
  unfold State.bump
  exact State.wr_keeps h

theorem State.setShadow_keeps {s0 : State} {s x1 x2 x3 x4 : _} (h : Keeps s0 s) : Keeps s0 (State.setShadow s x1 x2 x3
    x4) := by
  unfold State.setShadow
  exact keepsMk h rfl

theorem State.send_keeps {s0 : State} {s x1 : _} (h : Keeps s0 s) : Keeps s0 (State.send s x1) := by
  unfold State.send
  exact keepsMk h rfl

theorem State.cellStore_keeps {s0 : State} {s x1 x2 x3 : _} (h : Keeps s0 s) : Keeps s0 (State.cellStore s x1 x2 x3)
    := by
  unfold State.cellStore
  extract_lets +onlyGivenNames y0 y1 y2
  have h3 : (Keeps s0) y2 := by unfold y2; exact State.store_keeps h
  clear_value y0 y1 y2
  exact pIte (Keeps s0) (State.store_keeps h3) h3

theorem State.setCell_keeps {s0 : State} {s x1 x2 : _} (h : Keeps s0 s) : Keeps s0 (State.setCell s x1 x2) := by
  unfold State.setCell
  exact keepsMk h rfl

theorem State.setLane_keeps {s0 : State} {s x1 x2 x3 x4 : _} (h : Keeps s0 s) : Keeps s0 (State.setLane s x1 x2 x3 x4)
    := by
  unfold State.setLane
  exact keepsMk h rfl

theorem State.setDrain_keeps {s0 : State} {s x1 x2 : _} (h : Keeps s0 s) : Keeps s0 (State.setDrain s x1 x2) := by
  unfold State.setDrain
  exact keepsMk h rfl

theorem State.setVec_keeps {s0 : State} {s x1 x2 : _} (h : Keeps s0 s) : Keeps s0 (State.setVec s x1 x2) := by
  unfold State.setVec
  exact keepsMk h rfl

theorem State.setQueue_keeps {s0 : State} {s x1 x2 : _} (h : Keeps s0 s) : Keeps s0 (State.setQueue s x1 x2) := by
  unfold State.setQueue
  exact keepsMk h rfl

theorem State.setSlice_keeps {s0 : State} {s x1 x2 x3 : _} (h : Keeps s0 s) : Keeps s0 (State.setSlice s x1 x2 x3) :=
    by
  unfold State.setSlice
  exact keepsMk h rfl

theorem State.setPav_keeps {s0 : State} {s x1 x2 : _} (h : Keeps s0 s) : Keeps s0 (State.setPav s x1 x2) := by
  unfold State.setPav
  exact keepsMk h rfl

/-! ### Machine/Flits.lean -/

theorem State.setD2d_keeps {s0 : State} {s x1 x2 x3 : _} (h : Keeps s0 s) : Keeps s0 (State.setD2d s x1 x2 x3) := by
  unfold State.setD2d
  exact keepsMk h rfl

theorem State.putFlits_keeps {s0 : State} {s x1 x2 x3 x4 : _} (h : Keeps s0 s) : Keeps s0 (State.putFlits s x1 x2 x3
    x4) := by
  unfold State.putFlits
  split
  · rename_i e0 e1
    exact h
  · rename_i e2 e3 e4
    extract_lets +onlyGivenNames y5
    clear_value y5
    exact State.setD2d_keeps h

theorem State.carry_keeps {s0 : State} {s x1 x2 x3 x4 : _} (h : Keeps s0 s) : Keeps s0 (State.carry s x1 x2 x3 x4) :=
    by
  unfold State.carry
  exact pIte (Keeps s0) h (State.putFlits_keeps h)

theorem State.manage_keeps {s0 : State} {s x1 x2 x3 : _} (h : Keeps s0 s) : Keeps s0 (State.manage s x1 x2 x3) := by
  unfold State.manage
  exact pIte (Keeps s0) h (pIte (Keeps s0) (foldlP (Keeps s0) h (fun a0 a1 a2 => State.send_keeps a2)) (pIte (Keeps
      s0) (pIte (Keeps s0) (State.carry_keeps h) (State.carry_keeps h)) h))

/-! ### Machine/Fence.lean -/

theorem State.setPavState_keeps {s0 : State} {s x1 x2 : _} (h : Keeps s0 s) : Keeps s0 (State.setPavState s x1 x2) :=
    by
  unfold State.setPavState
  exact foldlP (Keeps s0) (State.wr_keeps h) (fun a0 a1 a2 => pIte (Keeps s0) a2 (State.wr_keeps a2))

theorem State.record_keeps {s0 : State} {s x1 : _} (h : Keeps s0 s) : Keeps s0 (State.record s x1) := by
  unfold State.record
  extract_lets +onlyGivenNames y0 y1
  have h2 : (Keeps s0) y1 := by unfold y1; exact State.manage_keeps h
  clear_value y0 y1
  exact keepsMk h2 rfl

theorem State.alarm_keeps {s0 : State} {s x1 x2 x3 : _} (h : Keeps s0 s) : Keeps s0 (State.alarm s x1 x2 x3) := by
  unfold State.alarm
  exact keepsMk h rfl

theorem State.msi_keeps {s0 : State} {s x1 x2 x3 x4 : _} (h : Keeps s0 s) : Keeps s0 (State.msi s x1 x2 x3 x4) := by
  unfold State.msi
  refine pIte (Keeps s0) h ?_
  extract_lets +onlyGivenNames y0
  have h1 : (Keeps s0) y0 := by unfold y0; exact State.carry_keeps h
  clear_value y0
  exact keepsMk h1 rfl

theorem State.setSession_keeps {s0 : State} {s x1 x2 : _} (h : Keeps s0 s) : Keeps s0 (State.setSession s x1 x2) := by
  unfold State.setSession
  exact keepsMk h rfl

theorem State.kmtPump_keeps {s0 : State} {s x1 x2 : _} (h : Keeps s0 s) : Keeps s0 (State.kmtPump s x1 x2) := by
  induction x2 generalizing s x1
  · unfold State.kmtPump
    exact h
  · rename_i e0 e1
    unfold State.kmtPump
    split
    · rename_i e2 e3
      exact h
    · rename_i e4 e5 e6
      split
      · rename_i e7 e8
        exact h
      · rename_i e9 e10 e11 e12
        refine pIte (Keeps s0) h ?_
        extract_lets +onlyGivenNames y13
        have h14 : (Keeps s0) y13 := by unfold y13; exact State.setSession_keeps h
        clear_value y13
        exact e1 (State.send_keeps h14)

theorem State.kmtPost_keeps {s0 : State} {s x1 x2 : _} (h : Keeps s0 s) : Keeps s0 (State.kmtPost s x1 x2) := by
  unfold State.kmtPost
  split
  · rename_i e0 e1
    exact h
  · rename_i e2 e3 e4
    exact State.kmtPump_keeps (State.setSession_keeps h)

theorem State.deliverVec_keeps {s0 : State} {s x1 x2 : _} (h : Keeps s0 s) : Keeps s0 (State.deliverVec s x1 x2) := by
  unfold State.deliverVec
  extract_lets +onlyGivenNames y0 y1
  clear_value y0 y1
  exact pIte (Keeps s0) h (pIte (Keeps s0) (State.wr_keeps h) (pIte (Keeps s0) (State.kmtPost_keeps h)
      (State.msi_keeps h)))

theorem State.event_keeps {s0 : State} {s x1 x2 x3 : _} (h : Keeps s0 s) : Keeps s0 (State.event s x1 x2 x3) := by
  unfold State.event
  split
  · rename_i e0 e1
    exact State.bump_keeps h
  · rename_i e2 e3 e4 e5
    extract_lets +onlyGivenNames y6
    have h7 : (Keeps s0) y6 := by unfold y6; exact pIte (Keeps s0) h (State.bump_keeps h)
    clear_value y6
    exact State.deliverVec_keeps h7

theorem State.quotaAlarm_keeps {s0 : State} {s x1 x2 x3 : _} (h : Keeps s0 s) : Keeps s0 (State.quotaAlarm s x1 x2 x3)
    := by
  unfold State.quotaAlarm
  exact State.event_keeps (State.alarm_keeps h)

theorem State.fenceSignal_keeps {s0 : State} {s x1 x2 : _} (h : Keeps s0 s) : Keeps s0 (State.fenceSignal s x1 x2) :=
    by
  unfold State.fenceSignal
  exact foldlP (Keeps s0) h (fun a0 a1 a2 => State.carry_keeps a2)

theorem State.fence_keeps {s0 : State} {s x1 x2 : _} (h : Keeps s0 s) : Keeps s0 (State.fence s x1 x2) := by
  unfold State.fence
  refine pIte (Keeps s0) ?_ (pIte (Keeps s0) h (State.bump_keeps h))
  extract_lets +onlyGivenNames y0
  have h1 : (Keeps s0) y0 := by unfold y0; exact State.wr_keeps (State.setPavState_keeps h)
  clear_value y0
  extract_lets +onlyGivenNames y2
  have h3 : (Keeps s0) y2 := by unfold y2; exact pIte (Keeps s0) (State.wr_keeps h1) (State.bump_keeps h1)
  clear_value y2
  extract_lets +onlyGivenNames y4
  have h5 : (Keeps s0) y4 := by unfold y4; exact foldlP (Keeps s0) h3 (fun a6 a7 a8 => State.setSlice_keeps a8)
  clear_value y4
  exact State.event_keeps (State.fenceSignal_keeps h5)

theorem State.faultPav_keeps {s0 : State} {s x1 x2 : _} (h : Keeps s0 s) : Keeps s0 (State.faultPav s x1 x2) := by
  unfold State.faultPav
  refine pIte (Keeps s0) (keepsMk h rfl) ?_
  extract_lets +onlyGivenNames y0
  have h1 : (Keeps s0) y0 := by unfold y0; exact State.record_keeps h
  clear_value y0
  extract_lets +onlyGivenNames y2 y3
  have h4 : (Keeps s0) y3 := by unfold y3; exact State.fence_keeps h1
  clear_value y2 y3
  refine pIte (Keeps s0) (pIte (Keeps s0) h4 (State.bump_keeps h4)) ?_
  extract_lets +onlyGivenNames y5
  have h6 : (Keeps s0) y5 := by unfold y5; exact State.wr_keeps h4
  clear_value y5
  extract_lets +onlyGivenNames y7
  have h8 : (Keeps s0) y7 := by unfold y7; exact State.wr_keeps h6
  clear_value y7
  extract_lets +onlyGivenNames y9
  have h10 : (Keeps s0) y9 := by unfold y9; exact State.wr_keeps h8
  clear_value y9
  extract_lets +onlyGivenNames y11
  have h12 : (Keeps s0) y11 := by unfold y11; exact State.wr_keeps h10
  clear_value y11
  exact State.wr_keeps h12

theorem State.opFault_keeps {s0 : State} {s x1 x2 x3 x4 : _} (h : Keeps s0 s) : Keeps s0 (State.opFault s x1 x2 x3 x4)
    := by
  unfold State.opFault
  exact State.faultPav_keeps h

theorem State.bedFault_keeps {s0 : State} {s x1 x2 : _} (h : Keeps s0 s) : Keeps s0 (State.bedFault s x1 x2) := by
  unfold State.bedFault
  split
  · rename_i e0 e1 e2
    exact State.faultPav_keeps h
  · rename_i e3 e4
    exact State.record_keeps h

theorem State.progress_keeps {s0 : State} {s x1 : _} (h : Keeps s0 s) : Keeps s0 (State.progress s x1) := by
  unfold State.progress
  exact State.bump_keeps h

/-! ### Machine/Route.lean -/

theorem State.setPort_keeps {s0 : State} {s x1 x2 : _} (h : Keeps s0 s) : Keeps s0 (State.setPort s x1 x2) := by
  unfold State.setPort
  exact keepsMk h rfl

theorem State.putFrame_keeps {s0 : State} {s x1 x2 : _} (h : Keeps s0 s) : Keeps s0 (State.putFrame s x1 x2) := by
  unfold State.putFrame
  extract_lets +onlyGivenNames y0
  clear_value y0
  exact State.setPort_keeps h

theorem State.nextEseq_keeps {s0 : State} {s x1 x2 : _} (h : Keeps s0 s) : (SndP (Keeps s0)) (State.nextEseq s x1 x2)
    := by
  unfold State.nextEseq
  extract_lets +onlyGivenNames y0
  clear_value y0
  exact sndMk (keepsMk h rfl)

theorem State.sendReq_keeps {s0 : State} {s x1 x2 x3 : _} (h : Keeps s0 s) : Keeps s0 (State.sendReq s x1 x2 x3) := by
  unfold State.sendReq
  extract_lets +onlyGivenNames y0
  have h1 : (Keeps s0) y0 := by unfold y0; exact State.putFrame_keeps h
  clear_value y0
  exact keepsMk h1 rfl

theorem State.beat_keeps {s0 : State} {s x1 : _} (h : Keeps s0 s) : Keeps s0 (State.beat s x1) := by
  unfold State.beat
  extract_lets +onlyGivenNames y0 y1
  have h2 : (Keeps s0) y1 := by unfold y1; exact State.wr_keeps h
  clear_value y0 y1
  refine pIte (Keeps s0) ?_ h2
  extract_lets +onlyGivenNames y3
  clear_value y3
  exact keepsMk h2 rfl

/-! ### Machine/Operands.lean -/

theorem State.slotOverLimit_keeps {s0 : State} {s x1 x2 x3 x4 : _} (h : Keeps s0 s) : Keeps s0 (State.slotOverLimit s
    x1 x2 x3 x4) := by
  unfold State.slotOverLimit
  extract_lets +onlyGivenNames y0 y1
  have h2 : ∀ b0, (Keeps s0) b0 → (Keeps s0) (y1 b0) := by
    unfold y1
    intro a3
    intro a4
    exact State.alarm_keeps a4
  clear_value y0 y1
  exact pIte (Keeps s0) (State.quotaAlarm_keeps h) (pIte (Keeps s0) (h2 _ h) (pIte (Keeps s0) (h2 _ h) (pIte (Keeps
      s0) (h2 _ h) h)))

theorem State.wordOverLimit_keeps {s0 : State} {s x1 x2 x3 x4 : _} (h : Keeps s0 s) : Keeps s0 (State.wordOverLimit s
    x1 x2 x3 x4) := by
  unfold State.wordOverLimit
  exact pIte (Keeps s0) (foldlP (Keeps s0) h (fun a0 a1 a2 => State.slotOverLimit_keeps a2)) h

/-! ### Machine/Scope.lean -/

theorem State.dequeue_keeps {s0 : State} {s x1 : _} (h : Keeps s0 s) : Keeps s0 (State.dequeue s x1) := by
  unfold State.dequeue
  exact State.setQueue_keeps h

/-! ### Machine/Array.lean -/

theorem eccWord_keeps {s0 : State} {x0 x1 s : _} (h : Keeps s0 s) : Keeps s0 (eccWord x0 x1 s) := by
  unfold eccWord
  split
  · rename_i e0 e1
    exact State.bump_keeps (keepsMk h rfl)
  · rename_i e2 e3 e4 e5
    exact State.alarm_keeps (State.bump_keeps h)
  · rename_i e6 e7
    exact h

theorem State.eccRead_keeps {s0 : State} {s x1 x2 x3 : _} (h : Keeps s0 s) : (SndP (Keeps s0)) (State.eccRead s x1 x2
    x3) := by
  unfold State.eccRead
  extract_lets +onlyGivenNames y0 y1
  clear_value y0 y1
  exact sndMk (foldlP (Keeps s0) h (fun a2 a3 a4 => eccWord_keeps a4))

theorem askLines_keeps {s0 : State} {s x1 x2 x3 x4 x5 : _} (h : Keeps s0 s) : Keeps s0 (askLines s x1 x2 x3 x4 x5) :=
    by
  unfold askLines
  refine foldlP (Keeps s0) h (fun a0 a1 a2 => ?_)
  extract_lets +onlyGivenNames y3
  clear_value y3
  refine pIte (Keeps s0) a2 ?_
  extract_lets +onlyGivenNames y4 y5
  have h6 : (Keeps s0) y5 := by unfold y5; exact State.setCell_keeps a2
  clear_value y4 y5
  exact keepsMk h6 rfl

theorem bankRead_keeps {s0 : State} {s x1 x2 x3 x4 x5 : _} (h : Keeps s0 s) : (SndP (Keeps s0)) (bankRead s x1 x2 x3
    x4 x5) := by
  unfold bankRead
  split
  · rename_i e0 e1 e2
    exact sndMk (State.setCell_keeps h)
  · rename_i e3 e4
    exact sndMk (askLines_keeps h)

theorem bankReads_keeps {s0 : State} {s x1 x2 x3 : _} (h : Keeps s0 s) : (SndP (Keeps s0)) (bankReads s x1 x2 x3) :=
    by
  unfold bankReads
  exact pIte (SndP (Keeps s0)) (sndMk (foldlP (Keeps s0) h (fun a0 a1 a2 => State.setCell_keeps a2))) (sndMk (foldlP
      (Keeps s0) h (fun a3 a4 a5 => askLines_keeps a5)))

theorem beginPass_keeps {s0 : State} {s x1 x2 : _} (h : Keeps s0 s) : Keeps s0 (beginPass s x1 x2) := by
  unfold beginPass
  extract_lets +onlyGivenNames y0
  clear_value y0
  exact State.setCell_keeps h

theorem State.mmulEntries_keeps {s0 : State} {s x1 x2 x3 : _} (h : Keeps s0 s) : (SndP (Keeps s0)) (State.mmulEntries
    s x1 x2 x3) := by
  unfold State.mmulEntries
  exact bankReads_keeps h

theorem execMmul_keeps {s0 : State} {x0 x1 s : _} (h : Keeps s0 s) : OutKeeps s0 (execMmul x0 x1 s) := by
  unfold execMmul
  refine pIte (OutKeeps s0) h ?_
  split
  · rename_i e0 e1 e2
    exact outOf (SndP (Keeps s0)) e2 (State.mmulEntries_keeps h)
  · rename_i e3 e4 e5 e6
    extract_lets +onlyGivenNames y7
    have h8 : (Keeps s0) y7 := by
      unfold y7
      exact State.dequeue_keeps (outOf (SndP (Keeps s0)) e6 (State.mmulEntries_keeps h))
    clear_value y7
    split
    · rename_i e9 e10 e11
      exact State.opFault_keeps h8
    · rename_i e12 e13
      exact foldlP (Keeps s0) h8 (fun a14 a15 a16 => beginPass_keeps a16)

theorem finishPass_keeps {s0 : State} {s x1 x2 : _} (h : Keeps s0 s) : Keeps s0 (finishPass s x1 x2) := by
  unfold finishPass
  extract_lets +onlyGivenNames y0
  clear_value y0
  split
  · rename_i e1 e2
    exact h
  · rename_i e3 e4 e5
    refine pIte (Keeps s0) h ?_
    extract_lets +onlyGivenNames y6 y7
    have h8 : (Keeps s0) y7 := by unfold y7; exact pIte (Keeps s0) (State.setDrain_keeps h) h
    clear_value y6 y7
    extract_lets +onlyGivenNames y9
    have h10 : (Keeps s0) y9 := by unfold y9; exact State.setCell_keeps h8
    clear_value y9
    extract_lets +onlyGivenNames y11
    clear_value y11
    exact pIte (Keeps s0) h10 (State.progress_keeps h10)

theorem swapAt_keeps {s0 : State} {s x1 x2 x3 : _} (h : Keeps s0 s) : Keeps s0 (swapAt s x1 x2 x3) := by
  unfold swapAt
  extract_lets +onlyGivenNames y0
  clear_value y0
  split
  · rename_i e1 e2
    exact h
  · rename_i e3 e4 e5
    refine pIte (Keeps s0) h (pIte (Keeps s0) (State.setLane_keeps h) (pIte (Keeps s0) h ?_))
    extract_lets +onlyGivenNames y6 y7
    have h8 : (Keeps s0) y7 := by unfold y7; exact State.setLane_keeps h
    clear_value y6 y7
    exact pIte (Keeps s0) (State.setLane_keeps h8) h8

theorem State.freeAcc_keeps {s0 : State} {s : _} (h : Keeps s0 s) : (SndP (Keeps s0)) (State.freeAcc s) := by
  unfold State.freeAcc
  split
  rename_i e0 e1 e2 e3
  split
  rename_i e4 e5 e6 e7
  exact sndMk (outOf (SndP (Keeps s0)) e7 (State.free_keeps (outOf (SndP (Keeps s0)) e3 (State.free_keeps h))))

theorem State.gangLeave_keeps {s0 : State} {s x1 x2 x3 x4 : _} (h : Keeps s0 s) : Keeps s0 (State.gangLeave s x1 x2 x3
    x4) := by
  unfold State.gangLeave
  refine foldlP (Keeps s0) h (fun a0 a1 a2 => pIte (Keeps s0) (State.setLane_keeps a2) ?_)
  split
  rename_i e3 e4 e5 e6
  exact State.setLane_keeps (outOf (SndP (Keeps s0)) e6 (State.freeAcc_keeps a2))

theorem State.pushSum_keeps {s0 : State} {s x1 x2 x3 x4 : _} (h : Keeps s0 s) : Keeps s0 (State.pushSum s x1 x2 x3 x4)
    := by
  unfold State.pushSum
  refine pIte (Keeps s0) ?_ ?_
  · extract_lets +onlyGivenNames y0
    clear_value y0
    exact State.setLane_keeps h
  · extract_lets +onlyGivenNames y1
    clear_value y1
    exact State.setCell_keeps h

theorem State.passEast_keeps {s0 : State} {s x1 x2 x3 x4 : _} (h : Keeps s0 s) : Keeps s0 (State.passEast s x1 x2 x3
    x4) := by
  unfold State.passEast
  refine pIte (Keeps s0) ?_ h
  extract_lets +onlyGivenNames y0
  clear_value y0
  exact State.setLane_keeps h

theorem State.laneLast_keeps {s0 : State} {s x1 x2 x3 : _} (h : Keeps s0 s) : Keeps s0 (State.laneLast s x1 x2 x3) :=
    by
  unfold State.laneLast
  exact pIte (Keeps s0) (finishPass_keeps (State.setCell_keeps h)) h

theorem State.putAccs_keeps {s0 : State} {s x1 x2 x3 x4 x5 : _} (h : Keeps s0 s) : Keeps s0 (State.putAccs s x1 x2 x3
    x4 x5) := by
  unfold State.putAccs
  exact foldlP (Keeps s0) h (fun a0 a1 a2 => State.setLane_keeps a2)

theorem stepWS_keeps {s0 : State} {s x1 x2 x3 x4 x5 : _} (h : Keeps s0 s) : (OptP (Keeps s0)) (stepWS s x1 x2 x3 x4
    x5) := by
  unfold stepWS
  extract_lets +onlyGivenNames y0 y1 y2 y3 y4 y5
  clear_value y0 y1 y2 y3 y4 y5
  split
  · rename_i e6 e7
    exact True.intro
  · rename_i e8 e9 e10 e11
    refine pIte (OptP (Keeps s0)) True.intro ?_
    extract_lets +onlyGivenNames y12 y13 y14
    have h15 : (Keeps s0) y14 := by unfold y14; exact State.setLane_keeps h
    clear_value y12 y13 y14
    extract_lets +onlyGivenNames y16
    have h17 : (Keeps s0) y16 := by unfold y16; exact State.putAccs_keeps h15
    clear_value y16
    extract_lets +onlyGivenNames y18
    have h19 : (Keeps s0) y18 := by unfold y18; exact pIte (Keeps s0) (State.gangLeave_keeps h17) h17
    clear_value y18
    extract_lets +onlyGivenNames y20
    have h21 : (Keeps s0) y20 := by
      unfold y20
      exact foldlP (Keeps s0) (State.passEast_keeps h19) (fun a22 a23 a24 => State.pushSum_keeps a24)
    clear_value y20
    exact someP (State.laneLast_keeps h21)

theorem stepOS_keeps {s0 : State} {s x1 x2 x3 x4 x5 : _} (h : Keeps s0 s) : (OptP (Keeps s0)) (stepOS s x1 x2 x3 x4
    x5) := by
  unfold stepOS
  extract_lets +onlyGivenNames y0 y1 y2 y3 y4
  clear_value y0 y1 y2 y3 y4
  split
  · rename_i e5 e6 e7 e8 e9 e10 e11 e12
    refine pIte (OptP (Keeps s0)) True.intro ?_
    extract_lets +onlyGivenNames y13 y14 y15
    have h16 : (Keeps s0) y15 := by unfold y15; exact State.setLane_keeps h
    clear_value y13 y14 y15
    extract_lets +onlyGivenNames y17
    have h18 : (Keeps s0) y17 := by unfold y17; exact State.putAccs_keeps h16
    clear_value y17
    extract_lets +onlyGivenNames y19
    have h20 : (Keeps s0) y19 := by unfold y19; exact pIte (Keeps s0) (State.gangLeave_keeps h18) h18
    clear_value y19
    extract_lets +onlyGivenNames y21
    have h22 : (Keeps s0) y21 := by unfold y21; exact State.passEast_keeps h20
    clear_value y21
    extract_lets +onlyGivenNames y23 y24
    have h25 : (Keeps s0) y24 := by unfold y24; exact pIte (Keeps s0) (State.setLane_keeps h22) h22
    clear_value y23 y24
    exact someP (State.laneLast_keeps h25)
  · rename_i e26 e27 e28
    exact True.intro

theorem takeNext_keeps {s0 : State} {s x1 x2 x3 : _} (h : Keeps s0 s) : Keeps s0 (takeNext s x1 x2 x3) := by
  unfold takeNext
  extract_lets +onlyGivenNames y0 y1
  clear_value y0 y1
  split
  · rename_i e2 e3 e4 e5
    refine pIte (Keeps s0) h (pIte (Keeps s0) ?_ (pIte (Keeps s0) ?_ h))
    · extract_lets +onlyGivenNames y6
      clear_value y6
      refine pIte (Keeps s0) h ?_
      extract_lets +onlyGivenNames y7
      have h8 : (Keeps s0) y7 := by unfold y7; exact State.setLane_keeps h
      clear_value y7
      exact pIte (Keeps s0) (State.setLane_keeps h8) h8
    · extract_lets +onlyGivenNames y9
      have h10 : (Keeps s0) y9 := by unfold y9; exact State.setLane_keeps h
      clear_value y9
      extract_lets +onlyGivenNames y11
      clear_value y11
      exact State.setLane_keeps h10
  · rename_i e12 e13
    exact h

theorem drainStep_keeps {s0 : State} {s x1 x2 x3 : _} (h : Keeps s0 s) : Keeps s0 (drainStep s x1 x2 x3) := by
  unfold drainStep
  extract_lets +onlyGivenNames y0 y1
  clear_value y0 y1
  split
  · rename_i e2
    exact h
  · rename_i e3 e4
    refine pIte (Keeps s0) (pIte (Keeps s0) (State.bump_keeps h) h) ?_
    extract_lets +onlyGivenNames y5
    clear_value y5
    exact State.pushSum_keeps (State.setLane_keeps h)

theorem countStall_keeps {s0 : State} {s x1 x2 x3 x4 x5 : _} (h : Keeps s0 s) : Keeps s0 (countStall s x1 x2 x3 x4 x5)
    := by
  unfold countStall
  extract_lets +onlyGivenNames y0 y1
  clear_value y0 y1
  exact pIte (Keeps s0) (State.bump_keeps h) (pIte (Keeps s0) (State.bump_keeps h) h)

theorem laneReady_keeps {s0 : State} {s x1 x2 x3 : _} (h : Keeps s0 s) : Keeps s0 (laneReady s x1 x2 x3) := by
  unfold laneReady
  exact swapAt_keeps (State.setLane_keeps h)

theorem laneAfter_keeps {s0 : State} {s x1 x2 x3 : _} (h : Keeps s0 s) : Keeps s0 (laneAfter s x1 x2 x3) := by
  unfold laneAfter
  exact drainStep_keeps (swapAt_keeps (takeNext_keeps (swapAt_keeps h)))

theorem execLaneStep_keeps {s0 : State} {x0 x1 x2 s : _} (h : Keeps s0 s) : OutKeeps s0 (execLaneStep x0 x1 x2 s) :=
    by
  unfold execLaneStep
  extract_lets +onlyGivenNames y0
  have h1 : (Keeps s0) y0 := by unfold y0; exact laneReady_keeps h
  clear_value y0
  extract_lets +onlyGivenNames y2 y3
  have h4 : (Keeps s0) y3 := by
    unfold y3
    split
    · rename_i e5 e6
      exact h1
    · rename_i e7 e8 e9
      exact pIte (Keeps s0) h1 (getDP (Keeps s0) (pIte (OptP (Keeps s0)) (stepOS_keeps h1) (stepWS_keeps h1))
          (countStall_keeps h1))
  clear_value y2 y3
  exact laneAfter_keeps h4

theorem streamBytes_keeps {s0 : State} {s x1 x2 x3 x4 x5 x6 : _} (h : Keeps s0 s) : (SndP (Keeps s0)) (streamBytes s
    x1 x2 x3 x4 x5 x6) := by
  unfold streamBytes
  extract_lets +onlyGivenNames y0
  clear_value y0
  refine pIte (SndP (Keeps s0)) ?_ ?_
  · split
    · rename_i e1 e2 e3
      exact sndMk h
    · rename_i e4 e5
      exact sndMk (askLines_keeps h)
  · extract_lets +onlyGivenNames y6 y7
    clear_value y6 y7
    refine pIte (SndP (Keeps s0)) (sndMk (State.setCell_keeps h)) ?_
    split
    · rename_i e8 e9 e10 e11
      extract_lets +onlyGivenNames y12 y13
      have h14 : (Keeps s0) y13 := by unfold y13; exact keepsMk h rfl
      clear_value y12 y13
      exact sndMk (State.setCell_keeps h14)
    · rename_i e15 e16
      exact sndMk h

theorem dropPass_keeps {s0 : State} {s x1 x2 : _} (h : Keeps s0 s) : Keeps s0 (dropPass s x1 x2) := by
  unfold dropPass
  refine foldlP (Keeps s0) h (fun a0 a1 a2 => ?_)
  extract_lets +onlyGivenNames y3
  clear_value y3
  exact pIte (Keeps s0) (State.setCell_keeps a2) a2

theorem dataPath_keeps {s0 : State} {s x1 x2 x3 x4 : _} (h : Keeps s0 s) : (OptP (Keeps s0)) (dataPath s x1 x2 x3 x4)
    := by
  unfold dataPath
  exact pIte (OptP (Keeps s0)) (someP (State.opFault_keeps (dropPass_keeps h))) True.intro

theorem refillWest_keeps {s0 : State} {s x1 : _} (h : Keeps s0 s) : Keeps s0 (refillWest s x1) := by
  unfold refillWest
  extract_lets +onlyGivenNames y0
  clear_value y0
  split
  · rename_i e1 e2
    exact h
  · rename_i e3 e4 e5
    extract_lets +onlyGivenNames y6 y7
    clear_value y6 y7
    refine pIte (Keeps s0) h ?_
    extract_lets +onlyGivenNames y8
    clear_value y8
    split
    · rename_i e9 e10 e11
      exact outOf (SndP (Keeps s0)) e11 (streamBytes_keeps h)
    · rename_i e12 e13 e14 e15
      split
      · rename_i e16 e17 e18
        exact outOf (OptP (Keeps s0)) e18 (dataPath_keeps (outOf (SndP (Keeps s0)) e15 (streamBytes_keeps h)))
      · rename_i e19 e20
        extract_lets +onlyGivenNames y21 y22 y23
        clear_value y21 y22 y23
        exact State.setCell_keeps (outOf (SndP (Keeps s0)) e15 (streamBytes_keeps h))

theorem sumWeights_keeps {s0 : State} {s x1 x2 x3 : _} (h : Keeps s0 s) : Keeps s0 (sumWeights s x1 x2 x3) := by
  unfold sumWeights
  exact pIte (Keeps s0) h (State.setCell_keeps h)

theorem refillCols_keeps {s0 : State} {s x1 : _} (h : Keeps s0 s) : Keeps s0 (refillCols s x1) := by
  unfold refillCols
  extract_lets +onlyGivenNames y0
  clear_value y0
  split
  · rename_i e1 e2
    exact h
  · rename_i e3 e4 e5
    extract_lets +onlyGivenNames y6 y7
    clear_value y6 y7
    refine pIte (Keeps s0) h ?_
    extract_lets +onlyGivenNames y8
    clear_value y8
    split
    · rename_i e9 e10 e11
      exact outOf (SndP (Keeps s0)) e11 (streamBytes_keeps h)
    · rename_i e12 e13 e14 e15
      split
      · rename_i e16 e17 e18
        exact outOf (OptP (Keeps s0)) e18 (dataPath_keeps (outOf (SndP (Keeps s0)) e15 (streamBytes_keeps h)))
      · rename_i e19 e20
        extract_lets +onlyGivenNames y21 y22 y23 y24 y25 y26
        have h27 : (Keeps s0) y26 := by
          unfold y26
          exact State.setCell_keeps (outOf (SndP (Keeps s0)) e15 (streamBytes_keeps h))
        clear_value y21 y22 y23 y24 y25 y26
        exact sumWeights_keeps h27

theorem refillStat_keeps {s0 : State} {s x1 : _} (h : Keeps s0 s) : Keeps s0 (refillStat s x1) := by
  unfold refillStat
  extract_lets +onlyGivenNames y0
  clear_value y0
  split
  · rename_i e1 e2
    exact h
  · rename_i e3 e4 e5
    extract_lets +onlyGivenNames y6 y7
    clear_value y6 y7
    refine pIte (Keeps s0) h ?_
    extract_lets +onlyGivenNames y8
    clear_value y8
    split
    · rename_i e9 e10 e11
      exact outOf (SndP (Keeps s0)) e11 (streamBytes_keeps h)
    · rename_i e12 e13 e14 e15
      split
      · rename_i e16 e17 e18
        exact outOf (OptP (Keeps s0)) e18 (dataPath_keeps (outOf (SndP (Keeps s0)) e15 (streamBytes_keeps h)))
      · rename_i e19 e20
        extract_lets +onlyGivenNames y21 y22 y23 y24 y25 y26
        have h27 : (Keeps s0) y26 := by
          unfold y26
          exact State.setCell_keeps (outOf (SndP (Keeps s0)) e15 (streamBytes_keeps h))
        clear_value y21 y22 y23 y24 y25 y26
        exact sumWeights_keeps h27

theorem refillSums_keeps {s0 : State} {s x1 : _} (h : Keeps s0 s) : Keeps s0 (refillSums s x1) := by
  unfold refillSums
  extract_lets +onlyGivenNames y0
  clear_value y0
  split
  · rename_i e1 e2
    exact h
  · rename_i e3 e4 e5
    extract_lets +onlyGivenNames y6 y7
    clear_value y6 y7
    refine pIte (Keeps s0) h ?_
    extract_lets +onlyGivenNames y8
    clear_value y8
    split
    · rename_i e9 e10 e11
      exact outOf (SndP (Keeps s0)) e11 (streamBytes_keeps h)
    · rename_i e12 e13 e14 e15
      split
      · rename_i e16 e17 e18
        exact outOf (OptP (Keeps s0)) e18 (dataPath_keeps (outOf (SndP (Keeps s0)) e15 (streamBytes_keeps h)))
      · rename_i e19 e20
        extract_lets +onlyGivenNames y21 y22 y23
        clear_value y21 y22 y23
        exact State.setCell_keeps (outOf (SndP (Keeps s0)) e15 (streamBytes_keeps h))

theorem deliverWest_keeps {s0 : State} {x0 x1 s x3 : _} (h : Keeps s0 s) : Keeps s0 (deliverWest x0 x1 s x3) := by
  unfold deliverWest
  extract_lets +onlyGivenNames y0 y1
  clear_value y0 y1
  split
  · rename_i e2 e3 e4 e5
    refine pIte (Keeps s0) (foldlP (Keeps s0) (State.setCell_keeps h) (fun a6 a7 a8 => ?_)) h
    extract_lets +onlyGivenNames y9
    clear_value y9
    exact State.setLane_keeps a8
  · rename_i e10 e11
    exact h

theorem deliverNorth_keeps {s0 : State} {x0 x1 s x3 : _} (h : Keeps s0 s) : Keeps s0 (deliverNorth x0 x1 s x3) := by
  unfold deliverNorth
  extract_lets +onlyGivenNames y0 y1 y2 y3 y4
  have h5 : (Keeps s0) y4 := by
    unfold y4
    split
    · rename_i e6 e7 e8 e9
      exact pIte (Keeps s0) (State.setLane_keeps (State.setCell_keeps h)) h
    · rename_i e10 e11
      exact h
  clear_value y0 y1 y2 y3 y4
  extract_lets +onlyGivenNames y12
  clear_value y12
  split
  · rename_i e13 e14 e15 e16
    extract_lets +onlyGivenNames y17
    exact pIte (Keeps s0) (State.setLane_keeps (State.setCell_keeps h5)) h5
  · rename_i e18 e19
    exact h5

theorem execFeederDeliver_keeps {s0 : State} {x0 x1 s : _} (h : Keeps s0 s) : OutKeeps s0 (execFeederDeliver x0 x1 s)
    := by
  unfold execFeederDeliver
  extract_lets +onlyGivenNames y0
  clear_value y0
  exact pIte (OutKeeps s0) h (pIte (OutKeeps s0) (refillWest_keeps (foldlP (Keeps s0) h (fun a1 a2 a3 =>
      deliverWest_keeps a3))) (refillSums_keeps (refillStat_keeps (refillCols_keeps (foldlP (Keeps s0) h (fun a4 a5 a6
      => deliverNorth_keeps a6))))))

theorem postWrite_keeps {s0 : State} {s x1 x2 x3 x4 x5 x6 : _} (h : Keeps s0 s) : Keeps s0 (postWrite s x1 x2 x3 x4 x5
    x6) := by
  unfold postWrite
  refine foldlP (Keeps s0) h (fun a0 a1 a2 => ?_)
  split
  rename_i e3 e4 e5
  extract_lets +onlyGivenNames y6 y7 y8 y9
  clear_value y6 y7 y8 y9
  exact keepsMk a2 rfl

theorem postCell_keeps {s0 : State} {s x1 x2 x3 x4 : _} (h : Keeps s0 s) : Keeps s0 (postCell s x1 x2 x3 x4) := by
  unfold postCell
  extract_lets +onlyGivenNames y0
  have h1 : (Keeps s0) y0 := by unfold y0; exact postWrite_keeps h
  clear_value y0
  exact keepsMk h1 rfl

theorem execCellStoreBankAccess_keeps {s0 : State} {x0 x1 s : _} (h : Keeps s0 s) : OutKeeps s0
    (execCellStoreBankAccess x0 x1 s) := by
  unfold execCellStoreBankAccess
  extract_lets +onlyGivenNames y0
  clear_value y0
  split
  · rename_i e1 e2
    exact h
  · rename_i e3 e4 e5
    extract_lets +onlyGivenNames y6 y7
    have h8 : (Keeps s0) y7 := by unfold y7; exact keepsMk h rfl
    clear_value y6 y7
    split
    · rename_i e9 e10 e11 e12
      exact State.cellStore_keeps h8
    · rename_i e13 e14
      split
      rename_i e15 e16 e17 e18
      extract_lets +onlyGivenNames y19
      clear_value y19
      exact State.setCell_keeps (outOf (SndP (Keeps s0)) e18 (State.eccRead_keeps h8))

theorem takeRow_keeps {s0 : State} {s x1 x2 x3 x4 : _} (h : Keeps s0 s) : Keeps s0 (takeRow s x1 x2 x3 x4) := by
  unfold takeRow
  extract_lets +onlyGivenNames y0 y1
  clear_value y0 y1
  refine pIte (Keeps s0) ?_ ?_
  · extract_lets +onlyGivenNames y2
    clear_value y2
    exact finishPass_keeps (postWrite_keeps (State.setCell_keeps h))
  · extract_lets +onlyGivenNames y3 y4
    clear_value y3 y4
    exact finishPass_keeps (State.setCell_keeps h)

theorem execDrainRowAccept_keeps {s0 : State} {x0 s : _} (h : Keeps s0 s) : OutKeeps s0 (execDrainRowAccept x0 s) :=
    by
  unfold execDrainRowAccept
  extract_lets +onlyGivenNames y0
  clear_value y0
  split
  · rename_i e1 e2
    exact h
  · rename_i e3 e4 e5
    extract_lets +onlyGivenNames y6 y7
    clear_value y6 y7
    refine pIte (OutKeeps s0) h ?_
    extract_lets +onlyGivenNames y8 y9
    clear_value y8 y9
    exact takeRow_keeps (State.setCell_keeps h)

theorem postSegs_keeps {s0 : State} {s x1 x2 x3 x4 x5 x6 x7 x8 : _} (h : Keeps s0 s) : Keeps s0 (postSegs s x1 x2 x3
    x4 x5 x6 x7 x8) := by
  unfold postSegs
  extract_lets +onlyGivenNames y0 y1 y2
  clear_value y0 y1 y2
  exact keepsMk h rfl

theorem postXfer_keeps {s0 : State} {s x1 x2 x3 x4 x5 x6 x7 : _} (h : Keeps s0 s) : Keeps s0 (postXfer s x1 x2 x3 x4
    x5 x6 x7) := by
  unfold postXfer
  exact postSegs_keeps h

theorem deliverTo_keeps {s0 : State} {x0 x1 x2 s x4 : _} (h : Keeps s0 s) : Keeps s0 (deliverTo x0 x1 x2 s x4) := by
  unfold deliverTo
  split
  · rename_i e0 e1
    refine foldlP (Keeps s0) h (fun a2 a3 a4 => ?_)
    split
    rename_i e5 e6 e7 e8
    exact postWrite_keeps a4
  · rename_i e9 e10
    exact keepsMk h rfl

theorem State.trackWait_keeps {s0 : State} {s x1 x2 x3 x4 : _} (h : Keeps s0 s) : Keeps s0 (State.trackWait s x1 x2 x3
    x4) := by
  unfold State.trackWait
  exact pIte (Keeps s0) h (State.bump_keeps (keepsMk h rfl))

theorem execBedBusTransfer_keeps {s0 : State} {x0 x1 x2 s : _} (h : Keeps s0 s) : OutKeeps s0 (execBedBusTransfer x0
    x1 x2 s) := by
  unfold execBedBusTransfer
  split
  · rename_i e0 e1
    exact h
  · rename_i e2 e3 e4 e5
    refine pIte (OutKeeps s0) (State.trackWait_keeps h) (pIte (OutKeeps s0) ?_ ?_)
    · extract_lets +onlyGivenNames y6
      clear_value y6
      exact State.alarm_keeps (State.bedFault_keeps h)
    · extract_lets +onlyGivenNames y7 y8
      have h9 : (Keeps s0) y8 := by unfold y8; exact keepsMk h rfl
      clear_value y7 y8
      exact foldlP (Keeps s0) h9 (fun a10 a11 a12 => deliverTo_keeps a12)

theorem State.bedReset_keeps {s0 : State} {s x1 : _} (h : Keeps s0 s) : Keeps s0 (State.bedReset s x1) := by
  unfold State.bedReset
  extract_lets +onlyGivenNames y0
  clear_value y0
  exact keepsMk h rfl

theorem bedResetOp_keeps {s0 : State} {x0 x1 s : _} (h : Keeps s0 s) : OutKeeps s0 (bedResetOp x0 x1 s) := by
  unfold bedResetOp
  exact pIte (OutKeeps s0) (State.bedReset_keeps h) h

theorem execBedReset_keeps {s0 : State} {x0 x1 s : _} (h : Keeps s0 s) : OutKeeps s0 (execBedReset x0 x1 s) := by
  unfold execBedReset
  exact bedResetOp_keeps h

/-! ### Machine/Converter.lean -/

theorem State.setScale_keeps {s0 : State} {s x1 x2 x3 : _} (h : Keeps s0 s) : Keeps s0 (State.setScale s x1 x2 x3) :=
    by
  unfold State.setScale
  exact State.setReg_keeps h

theorem autoScale_keeps {s0 : State} {s x1 : _} (h : Keeps s0 s) : Keeps s0 (autoScale s x1) := by
  unfold autoScale
  extract_lets +onlyGivenNames y0 y1 y2
  clear_value y0 y1 y2
  refine foldlP (Keeps s0) h (fun a3 a4 a5 => ?_)
  split
  · rename_i e6 e7
    exact a5
  · rename_i e8 e9 e10
    extract_lets +onlyGivenNames y11 y12 y13
    have h14 : (Keeps s0) y13 := by unfold y13; exact State.setScale_keeps a5
    clear_value y11 y12 y13
    exact pIte (Keeps s0) h14 (State.wr_keeps h14)

theorem endWide_keeps {s0 : State} {s x1 x2 x3 : _} (h : Keeps s0 s) : Keeps s0 (endWide s x1 x2 x3) := by
  unfold endWide
  extract_lets +onlyGivenNames y0 y1 y2 y3
  have h4 : (Keeps s0) y3 := by unfold y3; exact State.setDrain_keeps h
  clear_value y0 y1 y2 y3
  extract_lets +onlyGivenNames y5 y6 y7
  clear_value y5 y6 y7
  refine pIte (Keeps s0) ?_ h4
  extract_lets +onlyGivenNames y8
  have h9 : (Keeps s0) y8 := by unfold y8; exact State.alarm_keeps (State.wr_keeps h4)
  clear_value y8
  split
  · rename_i e10 e11 e12
    exact State.event_keeps h9
  · rename_i e13 e14
    exact h9

theorem deliverRow_keeps {s0 : State} {x0 x1 x2 s x4 : _} (h : Keeps s0 s) : Keeps s0 (deliverRow x0 x1 x2 s x4) := by
  unfold deliverRow
  split
  rename_i e0 e1 e2
  extract_lets +onlyGivenNames y3
  clear_value y3
  refine pIte (Keeps s0) (postWrite_keeps h) (pIte (Keeps s0) ?_ (postXfer_keeps h))
  extract_lets +onlyGivenNames y4
  clear_value y4
  exact State.setVec_keeps h

theorem convert_keeps {s0 : State} {s x1 x2 x3 x4 : _} (h : Keeps s0 s) : Keeps s0 (convert s x1 x2 x3 x4) := by
  unfold convert
  extract_lets +onlyGivenNames y0
  have h1 : (Keeps s0) y0 := by unfold y0; exact pIte (Keeps s0) (autoScale_keeps h) h
  clear_value y0
  extract_lets +onlyGivenNames y2 y3 y4 y5 y6 y7 y8
  have h9 : (Keeps s0) y8 := by unfold y8; exact pIte (Keeps s0) (State.wr_keeps h1) h1
  clear_value y2 y3 y4 y5 y6 y7 y8
  extract_lets +onlyGivenNames y10
  have h11 : (Keeps s0) y10 := by unfold y10; exact State.bump_keeps (State.bump_keeps (State.bump_keeps h9))
  clear_value y10
  extract_lets +onlyGivenNames y12
  have h13 : (Keeps s0) y12 := by unfold y12; exact pIte (Keeps s0) (endWide_keeps h11) h11
  clear_value y12
  exact foldlP (Keeps s0) h13 (fun a14 a15 a16 => deliverRow_keeps a16)

theorem State.cvtDone_keeps {s0 : State} {s x1 : _} (h : Keeps s0 s) : Keeps s0 (State.cvtDone s x1) := by
  unfold State.cvtDone
  exact State.progress_keeps (State.dequeue_keeps h)

theorem State.cvtFault_keeps {s0 : State} {s x1 x2 x3 : _} (h : Keeps s0 s) : Keeps s0 (State.cvtFault s x1 x2 x3) :=
    by
  unfold State.cvtFault
  exact State.opFault_keeps (State.dequeue_keeps h)

theorem State.readEntries_keeps {s0 : State} {s x1 x2 : _} (h : Keeps s0 s) : (SndP (Keeps s0)) (State.readEntries s
    x1 x2) := by
  unfold State.readEntries
  exact bankReads_keeps h

theorem convertOut_keeps {s0 : State} {x0 s x2 : _} (h : Keeps s0 s) : Keeps s0 (convertOut x0 s x2) := by
  unfold convertOut
  split
  · rename_i e0 e1 e2 e3
    exact convert_keeps (State.setCell_keeps h)
  · rename_i e4 e5
    exact h

theorem execCvta_keeps {s0 : State} {x0 s : _} (h : Keeps s0 s) : OutKeeps s0 (execCvta x0 s) := by
  unfold execCvta
  refine pIte (OutKeeps s0) h ?_
  split
  · rename_i e0 e1 e2
    exact outOf (SndP (Keeps s0)) e2 (State.readEntries_keeps h)
  · rename_i e3 e4 e5 e6
    exact pIte (OutKeeps s0) (State.cvtFault_keeps (outOf (SndP (Keeps s0)) e6 (State.readEntries_keeps h))) (pIte
        (OutKeeps s0) (State.cvtFault_keeps (outOf (SndP (Keeps s0)) e6 (State.readEntries_keeps h))) (pIte (OutKeeps
        s0) h (State.cvtDone_keeps (foldlP (Keeps s0) (outOf (SndP (Keeps s0)) e6 (State.readEntries_keeps h)) (fun a7
        a8 a9 => convertOut_keeps a9)))))

theorem convertMat_keeps {s0 : State} {x0 s x2 : _} (h : Keeps s0 s) : Keeps s0 (convertMat x0 s x2) := by
  unfold convertMat
  split
  · rename_i e0 e1 e2
    exact convert_keeps h
  · rename_i e3 e4
    exact h

theorem cvtmWith_keeps {s0 : State} {x0 x1 x2 s s1 : _} (h : Keeps s0 s) (h1 : Keeps s0 s1) : OutKeeps s0 (cvtmWith x0
    x1 x2 s s1) := by
  unfold cvtmWith
  refine pIte (OutKeeps s0) (State.cvtFault_keeps h1) (pIte (OutKeeps s0) (State.cvtFault_keeps h1) (pIte (OutKeeps
      s0) h ?_))
  split
  · rename_i e0 e1 e2
    exact outOf (SndP (Keeps s0)) e2 (bankReads_keeps h)
  · rename_i e3 e4 e5 e6
    split
    rename_i e7 e8 e9 e10
    exact pIte (OutKeeps s0) (State.cvtFault_keeps (outOf (SndP (Keeps s0)) e10 (State.readEntries_keeps (outOf (SndP
        (Keeps s0)) e6 (bankReads_keeps h))))) (State.cvtDone_keeps (foldlP (Keeps s0) (outOf (SndP (Keeps s0)) e10
        (State.readEntries_keeps (outOf (SndP (Keeps s0)) e6 (bankReads_keeps h)))) (fun a11 a12 a13 =>
        convertMat_keeps a13)))

theorem execCvtm_keeps {s0 : State} {x0 s : _} (h : Keeps s0 s) : OutKeeps s0 (execCvtm x0 s) := by
  unfold execCvtm
  refine pIte (OutKeeps s0) h ?_
  split
  · rename_i e0 e1 e2
    exact outOf (SndP (Keeps s0)) e2 (State.readEntries_keeps h)
  · rename_i e3 e4 e5 e6
    exact cvtmWith_keeps h (outOf (SndP (Keeps s0)) e6 (State.readEntries_keeps h))

theorem execCvtSeed_keeps {s0 : State} {x0 s : _} (h : Keeps s0 s) : OutKeeps s0 (execCvtSeed x0 s) := by
  unfold execCvtSeed
  exact pIte (OutKeeps s0) h (State.cvtDone_keeps (foldlP (Keeps s0) h (fun a0 a1 a2 => State.wr_keeps a2)))

theorem State.loadBytes_keeps {s0 : State} {s x1 x2 x3 : _} (h : Keeps s0 s) : (SndP (Keeps s0)) (State.loadBytes s x1
    x2 x3) := by
  unfold State.loadBytes
  exact bankReads_keeps h

theorem loadOp_keeps {s0 : State} {x0 x1 x2 x3 s x5 x6 : _} (h : Keeps s0 s) (hf : ∀ b0 b1 b2, Keeps s0 b0 → Keeps s0
    (x6 b0 b1 b2)) : OutKeeps s0 (loadOp x0 x1 x2 x3 s x5 x6) := by
  unfold loadOp
  refine pIte (OutKeeps s0) h ?_
  split
  · rename_i e0 e1 e2
    exact outOf (SndP (Keeps s0)) e2 (State.loadBytes_keeps h)
  · rename_i e3 e4 e5 e6
    exact pIte (OutKeeps s0) (State.cvtFault_keeps (outOf (SndP (Keeps s0)) e6 (State.loadBytes_keeps h))) (pIte
        (OutKeeps s0) (State.cvtFault_keeps (outOf (SndP (Keeps s0)) e6 (State.loadBytes_keeps h)))
        (State.cvtDone_keeps (foldlP (Keeps s0) (outOf (SndP (Keeps s0)) e6 (State.loadBytes_keeps h)) (fun a7 a8 a9
        => hf _ _ _ a9))))

theorem State.loadScales_keeps {s0 : State} {s x1 x2 : _} (h : Keeps s0 s) : Keeps s0 (State.loadScales s x1 x2) := by
  unfold State.loadScales
  exact foldlP (Keeps s0) h (fun a0 a1 a2 => State.setScale_keeps a2)

theorem execScld_keeps {s0 : State} {x0 s : _} (h : Keeps s0 s) : OutKeeps s0 (execScld x0 s) := by
  unfold execScld
  exact loadOp_keeps h (fun a0 a1 a2 a3 => State.loadScales_keeps a3)

theorem State.mapRowsum_keeps {s0 : State} {s x1 x2 : _} (h : Keeps s0 s) : Keeps s0 (State.mapRowsum s x1 x2) := by
  unfold State.mapRowsum
  extract_lets +onlyGivenNames y0
  clear_value y0
  exact State.setDrain_keeps h

theorem State.loadRowsum_keeps {s0 : State} {s x1 x2 : _} (h : Keeps s0 s) : Keeps s0 (State.loadRowsum s x1 x2) := by
  unfold State.loadRowsum
  exact State.mapRowsum_keeps h

theorem State.addRowsum_keeps {s0 : State} {x0 s x2 x3 : _} (h : Keeps s0 s) : Keeps s0 (State.addRowsum x0 s x2 x3)
    := by
  unfold State.addRowsum
  exact State.mapRowsum_keeps h

theorem execRsld_keeps {s0 : State} {x0 s : _} (h : Keeps s0 s) : OutKeeps s0 (execRsld x0 s) := by
  unfold execRsld
  exact loadOp_keeps h (fun a0 a1 a2 a3 => State.loadRowsum_keeps a3)

theorem execRsadd_keeps {s0 : State} {x0 s : _} (h : Keeps s0 s) : OutKeeps s0 (execRsadd x0 s) := by
  unfold execRsadd
  exact loadOp_keeps h (fun a0 a1 a2 a3 => State.addRowsum_keeps a3)

theorem execRsclr_keeps {s0 : State} {x0 s : _} (h : Keeps s0 s) : OutKeeps s0 (execRsclr x0 s) := by
  unfold execRsclr
  exact pIte (OutKeeps s0) h (State.cvtDone_keeps (foldlP (Keeps s0) h (fun a0 a1 a2 => State.setDrain_keeps a2)))

theorem execStex_keeps {s0 : State} {x0 s : _} (h : Keeps s0 s) : OutKeeps s0 (execStex x0 s) := by
  unfold execStex
  refine pIte (OutKeeps s0) h ?_
  extract_lets +onlyGivenNames y0
  clear_value y0
  exact State.cvtDone_keeps (foldlP (Keeps s0) h (fun a1 a2 a3 => postWrite_keeps a3))

/-! ### Machine/Vector.lean -/

theorem State.orFlags_keeps {s0 : State} {s x1 x2 : _} (h : Keeps s0 s) : Keeps s0 (State.orFlags s x1 x2) := by
  unfold State.orFlags
  exact State.setReg_keeps h

theorem State.vecFault_keeps {s0 : State} {s x1 x2 x3 : _} (h : Keeps s0 s) : Keeps s0 (State.vecFault s x1 x2 x3) :=
    by
  unfold State.vecFault
  exact State.opFault_keeps (State.dequeue_keeps h)

theorem State.vecDone_keeps {s0 : State} {s x1 : _} (h : Keeps s0 s) : Keeps s0 (State.vecDone s x1) := by
  unfold State.vecDone
  exact State.progress_keeps (State.dequeue_keeps h)

theorem vecOp_keeps {s0 : State} {x0 x1 x2 s x4 x5 : _} (h : Keeps s0 s) (hf : ∀ b0, Keeps s0 b0 → Keeps s0 (x5 b0)) :
    OutKeeps s0 (vecOp x0 x1 x2 s x4 x5) := by
  unfold vecOp
  exact pIte (OutKeeps s0) h (pIte (OutKeeps s0) (State.vecFault_keeps h) (hf _ h))

theorem laneEffect_keeps {s0 : State} {x0 x1 x2 s : _} (h : Keeps s0 s) : Keeps s0 (laneEffect x0 x1 x2 s) := by
  unfold laneEffect
  extract_lets +onlyGivenNames y0 y1 y2
  clear_value y0 y1 y2
  exact State.vecDone_keeps (State.orFlags_keeps (State.setVec_keeps h))

theorem lanewise_keeps {s0 : State} {x0 x1 x2 s x4 x5 : _} (h : Keeps s0 s) : OutKeeps s0 (lanewise x0 x1 x2 s x4 x5)
    := by
  unfold lanewise
  exact vecOp_keeps h (fun a0 a1 => laneEffect_keeps a1)

theorem lanewise2_keeps {s0 : State} {x0 x1 x2 s x4 : _} (h : Keeps s0 s) : OutKeeps s0 (lanewise2 x0 x1 x2 s x4) :=
    by
  unfold lanewise2
  exact lanewise_keeps h

theorem lanewise1_keeps {s0 : State} {x0 x1 x2 s x4 : _} (h : Keeps s0 s) : OutKeeps s0 (lanewise1 x0 x1 x2 s x4) :=
    by
  unfold lanewise1
  exact lanewise_keeps h

theorem execVadd_keeps {s0 : State} {x0 x1 s : _} (h : Keeps s0 s) : OutKeeps s0 (execVadd x0 x1 s) := by
  unfold execVadd
  exact lanewise2_keeps h

theorem execVsub_keeps {s0 : State} {x0 x1 s : _} (h : Keeps s0 s) : OutKeeps s0 (execVsub x0 x1 s) := by
  unfold execVsub
  exact lanewise2_keeps h

theorem execVmul_keeps {s0 : State} {x0 x1 s : _} (h : Keeps s0 s) : OutKeeps s0 (execVmul x0 x1 s) := by
  unfold execVmul
  exact lanewise2_keeps h

theorem execVfma_keeps {s0 : State} {x0 x1 s : _} (h : Keeps s0 s) : OutKeeps s0 (execVfma x0 x1 s) := by
  unfold execVfma
  exact lanewise_keeps h

theorem execVmin_keeps {s0 : State} {x0 x1 s : _} (h : Keeps s0 s) : OutKeeps s0 (execVmin x0 x1 s) := by
  unfold execVmin
  exact lanewise_keeps h

theorem execVmax_keeps {s0 : State} {x0 x1 s : _} (h : Keeps s0 s) : OutKeeps s0 (execVmax x0 x1 s) := by
  unfold execVmax
  exact lanewise_keeps h

theorem execVdiv_keeps {s0 : State} {x0 x1 s : _} (h : Keeps s0 s) : OutKeeps s0 (execVdiv x0 x1 s) := by
  unfold execVdiv
  exact lanewise2_keeps h

theorem execVsqrt_keeps {s0 : State} {x0 x1 s : _} (h : Keeps s0 s) : OutKeeps s0 (execVsqrt x0 x1 s) := by
  unfold execVsqrt
  exact lanewise1_keeps h

theorem execVexp2_keeps {s0 : State} {x0 x1 s : _} (h : Keeps s0 s) : OutKeeps s0 (execVexp2 x0 x1 s) := by
  unfold execVexp2
  exact lanewise1_keeps h

theorem execVlog2_keeps {s0 : State} {x0 x1 s : _} (h : Keeps s0 s) : OutKeeps s0 (execVlog2 x0 x1 s) := by
  unfold execVlog2
  exact lanewise1_keeps h

theorem execVcvt_keeps {s0 : State} {x0 x1 s : _} (h : Keeps s0 s) : OutKeeps s0 (execVcvt x0 x1 s) := by
  unfold execVcvt
  exact lanewise_keeps h

theorem execVcmp_keeps {s0 : State} {x0 x1 s : _} (h : Keeps s0 s) : OutKeeps s0 (execVcmp x0 x1 s) := by
  unfold execVcmp
  refine vecOp_keeps h (fun a0 a1 => ?_)
  extract_lets +onlyGivenNames y2 y3 y4 y5 y6 y7 y8
  clear_value y2 y3 y4 y5 y6 y7 y8
  exact State.vecDone_keeps (State.orFlags_keeps (State.setVec_keeps a1))

theorem execVsel_keeps {s0 : State} {x0 x1 s : _} (h : Keeps s0 s) : OutKeeps s0 (execVsel x0 x1 s) := by
  unfold execVsel
  refine vecOp_keeps h (fun a0 a1 => ?_)
  extract_lets +onlyGivenNames y2
  clear_value y2
  exact State.vecDone_keeps (State.setVec_keeps a1)

theorem execVred_keeps {s0 : State} {x0 x1 s : _} (h : Keeps s0 s) : OutKeeps s0 (execVred x0 x1 s) := by
  unfold execVred
  refine vecOp_keeps h (fun a0 a1 => ?_)
  extract_lets +onlyGivenNames y2 y3 y4 y5 y6
  clear_value y2 y3 y4 y5 y6
  split
  rename_i e7 e8 e9 e10
  exact State.vecDone_keeps (State.orFlags_keeps (State.setVec_keeps a1))

theorem execVbcs_keeps {s0 : State} {x0 x1 s : _} (h : Keeps s0 s) : OutKeeps s0 (execVbcs x0 x1 s) := by
  unfold execVbcs
  refine vecOp_keeps h (fun a0 a1 => ?_)
  extract_lets +onlyGivenNames y2 y3
  clear_value y2 y3
  exact State.vecDone_keeps (State.setVec_keeps a1)

theorem execPlog_keeps {s0 : State} {x0 x1 s : _} (h : Keeps s0 s) : OutKeeps s0 (execPlog x0 x1 s) := by
  unfold execPlog
  refine vecOp_keeps h (fun a0 a1 => ?_)
  extract_lets +onlyGivenNames y2 y3 y4 y5
  clear_value y2 y3 y4 y5
  exact State.vecDone_keeps (State.setVec_keeps a1)

theorem execFlclr_keeps {s0 : State} {x0 x1 s : _} (h : Keeps s0 s) : OutKeeps s0 (execFlclr x0 x1 s) := by
  unfold execFlclr
  exact vecOp_keeps h (fun a0 a1 => State.vecDone_keeps (State.setReg_keeps a1))

theorem execSli_keeps {s0 : State} {x0 x1 s : _} (h : Keeps s0 s) : OutKeeps s0 (execSli x0 x1 s) := by
  unfold execSli
  exact vecOp_keeps h (fun a0 a1 => State.vecDone_keeps (State.setVec_keeps a1))

theorem execSget_keeps {s0 : State} {x0 x1 s : _} (h : Keeps s0 s) : OutKeeps s0 (execSget x0 x1 s) := by
  unfold execSget
  refine vecOp_keeps h (fun a0 a1 => ?_)
  extract_lets +onlyGivenNames y2
  clear_value y2
  exact State.vecDone_keeps (State.setVec_keeps a1)

theorem vldEffect_keeps {s0 : State} {x0 x1 s : _} (h : Keeps s0 s) : Keeps s0 (vldEffect x0 x1 s) := by
  unfold vldEffect
  split
  · rename_i e0 e1 e2
    exact outOf (SndP (Keeps s0)) e2 (bankRead_keeps h)
  · rename_i e3 e4 e5 e6
    refine pIte (Keeps s0) (State.vecFault_keeps (outOf (SndP (Keeps s0)) e6 (bankRead_keeps h))) ?_
    extract_lets +onlyGivenNames y7
    clear_value y7
    exact State.vecDone_keeps (State.setVec_keeps (outOf (SndP (Keeps s0)) e6 (bankRead_keeps h)))

theorem execVld_keeps {s0 : State} {x0 x1 s : _} (h : Keeps s0 s) : OutKeeps s0 (execVld x0 x1 s) := by
  unfold execVld
  exact pIte (OutKeeps s0) h (vecOp_keeps h (fun a0 a1 => vldEffect_keeps a1))

theorem storeLanes_keeps {s0 : State} {s x1 x2 x3 x4 x5 : _} (h : Keeps s0 s) : Keeps s0 (storeLanes s x1 x2 x3 x4 x5)
    := by
  unfold storeLanes
  exact foldlP (Keeps s0) h (fun a0 a1 a2 => postWrite_keeps a2)

theorem execVst_keeps {s0 : State} {x0 x1 s : _} (h : Keeps s0 s) : OutKeeps s0 (execVst x0 x1 s) := by
  unfold execVst
  exact vecOp_keeps h (fun a0 a1 => State.vecDone_keeps (storeLanes_keeps a1))

theorem execVrcv_keeps {s0 : State} {x0 x1 s : _} (h : Keeps s0 s) : OutKeeps s0 (execVrcv x0 x1 s) := by
  unfold execVrcv
  extract_lets +onlyGivenNames y0
  clear_value y0
  split
  · rename_i e1 e2
    exact h
  · rename_i e3 e4 e5
    refine vecOp_keeps h (fun a6 a7 => ?_)
    extract_lets +onlyGivenNames y8 y9
    clear_value y8 y9
    exact State.vecDone_keeps (State.setVec_keeps a7)

theorem execVbsnd_keeps {s0 : State} {x0 x1 s : _} (h : Keeps s0 s) : OutKeeps s0 (execVbsnd x0 x1 s) := by
  unfold execVbsnd
  refine pIte (OutKeeps s0) h (vecOp_keeps h (fun a0 a1 => ?_))
  split
  · rename_i e2 e3
    exact State.vecFault_keeps a1
  · rename_i e4 e5 e6
    exact State.vecDone_keeps (postXfer_keeps a1)

theorem execVbrcv_keeps {s0 : State} {x0 x1 s : _} (h : Keeps s0 s) : OutKeeps s0 (execVbrcv x0 x1 s) := by
  unfold execVbrcv
  extract_lets +onlyGivenNames y0
  clear_value y0
  split
  · rename_i e1 e2
    exact h
  · rename_i e3 e4 e5 e6
    refine vecOp_keeps h (fun a7 a8 => ?_)
    extract_lets +onlyGivenNames y9 y10
    have h11 : (Keeps s0) y10 := by unfold y10; exact keepsMk a8 rfl
    clear_value y9 y10
    extract_lets +onlyGivenNames y12
    clear_value y12
    exact State.vecDone_keeps (State.setVec_keeps h11)

/-! ### Machine/Issue.lean -/

theorem State.sliceFault_keeps {s0 : State} {s x1 x2 x3 : _} (h : Keeps s0 s) : Keeps s0 (State.sliceFault s x1 x2 x3)
    := by
  unfold State.sliceFault
  exact State.faultPav_keeps h

theorem State.enqueue_keeps {s0 : State} {s x1 : _} (h : Keeps s0 s) : Keeps s0 (State.enqueue s x1) := by
  unfold State.enqueue
  exact State.setQueue_keeps h

theorem State.enterXch_keeps {s0 : State} {s x1 x2 x3 : _} (h : Keeps s0 s) : Keeps s0 (State.enterXch s x1 x2 x3) :=
    by
  unfold State.enterXch
  extract_lets +onlyGivenNames y0 y1 y2
  clear_value y0 y1
  refine pIte (Keeps s0) h ?_
  extract_lets +onlyGivenNames y3 y4
  clear_value y3
  exact pIte (Keeps s0) (State.setPav_keeps h) (pIte (Keeps s0) (State.setPav_keeps h) (pIte (Keeps s0)
      (State.setPav_keeps h) (State.setPav_keeps h)))

theorem State.sliceBeat_keeps {s0 : State} {s x1 x2 : _} (h : Keeps s0 s) : Keeps s0 (State.sliceBeat s x1 x2) := by
  unfold State.sliceBeat
  exact pIte (Keeps s0) (State.beat_keeps h) h

theorem execWordIssue_keeps {s0 : State} {x0 x1 s : _} (h : Keeps s0 s) : OutKeeps s0 (execWordIssue x0 x1 s) := by
  unfold execWordIssue
  split
  · rename_i e0 e1
    exact h
  · rename_i e2 e3
    exact State.sliceFault_keeps h
  · rename_i e4 e5 e6 e7
    extract_lets +onlyGivenNames y8
    clear_value y8
    split
    · rename_i e9 e10 e11
      exact State.sliceFault_keeps (State.wordOverLimit_keeps h)
    · rename_i e12 e13
      extract_lets +onlyGivenNames y14
      clear_value y14
      exact pIte (OutKeeps s0) h (State.sliceBeat_keeps (State.wr_keeps (State.setSlice_keeps (State.enterXch_keeps
          (foldlP (Keeps s0) h (fun a15 a16 a17 => State.enqueue_keeps a17))))))

theorem execCtlRepeat_keeps {s0 : State} {x0 x1 x2 s : _} (h : Keeps s0 s) : OutKeeps s0 (execCtlRepeat x0 x1 x2 s) :=
    by
  unfold execCtlRepeat
  extract_lets +onlyGivenNames y0
  clear_value y0
  exact pIte (OutKeeps s0) (State.setSlice_keeps h) h

theorem execCtlLoop_keeps {s0 : State} {x0 x1 x2 x3 s : _} (h : Keeps s0 s) : OutKeeps s0 (execCtlLoop x0 x1 x2 x3 s)
    := by
  unfold execCtlLoop
  extract_lets +onlyGivenNames y0
  clear_value y0
  exact pIte (OutKeeps s0) (pIte (OutKeeps s0) (State.sliceFault_keeps h) (State.setSlice_keeps h)) h

theorem sendOutcome_keeps {s0 : State} {x0 x1 x2 x3 s x5 : _} (h : Keeps s0 s) : Keeps s0 (sendOutcome x0 x1 x2 x3 s
    x5) := by
  unfold sendOutcome
  extract_lets +onlyGivenNames y0
  clear_value y0
  exact State.carry_keeps (State.setSlice_keeps h)

theorem execCtlBrp_keeps {s0 : State} {x0 x1 x2 x3 x4 x5 s : _} (h : Keeps s0 s) : OutKeeps s0 (execCtlBrp x0 x1 x2 x3
    x4 x5 s) := by
  unfold execCtlBrp
  extract_lets +onlyGivenNames y0
  clear_value y0
  refine pIte (OutKeeps s0) h (pIte (OutKeeps s0) ?_ ?_)
  · extract_lets +onlyGivenNames y1
    clear_value y1
    refine pIte (OutKeeps s0) h (pIte (OutKeeps s0) (State.sliceFault_keeps h) (pIte (OutKeeps s0)
        (State.sliceFault_keeps h) ?_))
    extract_lets +onlyGivenNames y2 y3
    have h4 : (Keeps s0) y3 := by unfold y3; exact State.setSlice_keeps h
    clear_value y2 y3
    exact foldlP (Keeps s0) h4 (fun a5 a6 a7 => sendOutcome_keeps a7)
  · split
    · rename_i e8 e9
      exact h
    · rename_i e10 e11 e12 e13 e14
      exact State.setSlice_keeps h

theorem execBranchOutcome_keeps {s0 : State} {x0 x1 x2 x3 s : _} (h : Keeps s0 s) : OutKeeps s0 (execBranchOutcome x0
    x1 x2 x3 s) := by
  unfold execBranchOutcome
  extract_lets +onlyGivenNames y0
  clear_value y0
  split
  · rename_i e1 e2
    exact h
  · rename_i e3 e4 e5 e6
    exact pIte (OutKeeps s0) h (State.setSlice_keeps h)

theorem execCtlWait_keeps {s0 : State} {x0 x1 x2 x3 x4 x5 s : _} (h : Keeps s0 s) : OutKeeps s0 (execCtlWait x0 x1 x2
    x3 x4 x5 s) := by
  unfold execCtlWait
  extract_lets +onlyGivenNames y0
  clear_value y0
  exact pIte (OutKeeps s0) h (pIte (OutKeeps s0) (pIte (OutKeeps s0) (State.setSlice_keeps h) (State.sliceFault_keeps
      (State.setSlice_keeps h))) (pIte (OutKeeps s0) (State.setSlice_keeps h) (State.setSlice_keeps h)))

theorem execCtlHalt_keeps {s0 : State} {x0 x1 s : _} (h : Keeps s0 s) : OutKeeps s0 (execCtlHalt x0 x1 s) := by
  unfold execCtlHalt
  exact pIte (OutKeeps s0) (State.setSlice_keeps h) h

theorem State.restoreDrain_keeps {s0 : State} {s x1 x2 : _} (h : Keeps s0 s) : Keeps s0 (State.restoreDrain s x1 x2)
    := by
  unfold State.restoreDrain
  extract_lets +onlyGivenNames y0 y1
  have h2 : (Keeps s0) y1 := by unfold y1; exact State.setDrain_keeps h
  clear_value y0 y1
  extract_lets +onlyGivenNames y3
  have h4 : (Keeps s0) y3 := by
    unfold y3
    refine foldlP (Keeps s0) h2 (fun a5 a6 a7 => ?_)
    split
    rename_i e8 e9 e10
    exact State.setReg_keeps a7
  clear_value y3
  exact foldlP (Keeps s0) h4 (fun a11 a12 a13 => State.setReg_keeps a13)

theorem State.storeSlot_keeps {s0 : State} {s x1 x2 : _} (h : Keeps s0 s) : Keeps s0 (State.storeSlot s x1 x2) := by
  unfold State.storeSlot
  exact foldlP (Keeps s0) (State.zeroRange_keeps h) (fun a0 a1 a2 => State.store_keeps a2)

theorem State.writeSnap_keeps {s0 : State} {s x1 x2 x3 : _} (h : Keeps s0 s) : Keeps s0 (State.writeSnap s x1 x2 x3)
    := by
  unfold State.writeSnap
  extract_lets +onlyGivenNames y0
  clear_value y0
  exact foldlP (Keeps s0) h (fun a1 a2 a3 => State.storeSlot_keeps a3)

theorem execCtlMark_keeps {s0 : State} {x0 x1 x2 s : _} (h : Keeps s0 s) : OutKeeps s0 (execCtlMark x0 x1 x2 s) := by
  unfold execCtlMark
  extract_lets +onlyGivenNames y0
  clear_value y0
  refine pIte (OutKeeps s0) h ?_
  extract_lets +onlyGivenNames y1 y2 y3 y4 y5
  have h6 : (Keeps s0) y5 := by unfold y5; exact State.setSlice_keeps (State.setPav_keeps h)
  clear_value y1 y2 y3 y4 y5
  exact pIte (Keeps s0) (State.writeSnap_keeps h6) (State.alarm_keeps h6)

theorem State.armBed_keeps {s0 : State} {s x1 : _} (h : Keeps s0 s) : Keeps s0 (State.armBed s x1) := by
  unfold State.armBed
  extract_lets +onlyGivenNames y0 y1
  have h2 : (Keeps s0) y1 := by unfold y1; exact State.setVec_keeps h
  clear_value y0 y1
  exact foldlP (Keeps s0) h2 (fun a3 a4 a5 => State.setCell_keeps a5)

theorem State.armMark_keeps {s0 : State} {s x1 : _} (h : Keeps s0 s) : Keeps s0 (State.armMark s x1) := by
  unfold State.armMark
  exact foldlP (Keeps s0) h (fun a0 a1 a2 => State.armBed_keeps a2)

theorem execMarkComplete_keeps {s0 : State} {x0 s : _} (h : Keeps s0 s) : OutKeeps s0 (execMarkComplete x0 s) := by
  unfold execMarkComplete
  extract_lets +onlyGivenNames y0
  clear_value y0
  refine pIte (OutKeeps s0) h ?_
  extract_lets +onlyGivenNames y1
  have h2 : (Keeps s0) y1 := by unfold y1; exact State.setPav_keeps h
  clear_value y1
  extract_lets +onlyGivenNames y3
  have h4 : (Keeps s0) y3 := by unfold y3; exact State.armMark_keeps h2
  clear_value y3
  exact foldlP (Keeps s0) h4 (fun a5 a6 a7 => State.setSlice_keeps a7)

end Sys2Proof.Machine
end

