-- ==== Sys2Proof/Laws/KeepsMemory.lean ====
section
/-! SUPPORT. `Keeps` for every operation and every meaning of the exchange, the Orangery, GDDR7, translation and the waystation. -/

namespace Sys2Proof.Machine

/-! ### Machine/Exchange.lean -/

theorem State.refuse_keeps {s0 : State} {s : _} (h : Keeps s0 s) : Keeps s0 (State.refuse s) := by
  unfold State.refuse
  exact State.send_keeps h

theorem State.stileFault_keeps {s0 : State} {s x1 x2 x3 : _} (h : Keeps s0 s) : Keeps s0 (State.stileFault s x1 x2 x3)
    := by
  unfold State.stileFault
  exact State.faultPav_keeps h

theorem State.addStile_keeps {s0 : State} {s x1 x2 : _} (h : Keeps s0 s) : Keeps s0 (State.addStile s x1 x2) := by
  unfold State.addStile
  extract_lets +onlyGivenNames y0
  clear_value y0
  refine pIte (Keeps s0) (State.wr_keeps h) ?_
  extract_lets +onlyGivenNames y1
  have h2 : (Keeps s0) y1 := by unfold y1; exact State.wr_keeps h
  clear_value y1
  split
  · rename_i e3 e4 e5
    exact State.stileFault_keeps h2
  · rename_i e6 e7
    exact h2

theorem State.clearGroup_keeps {s0 : State} {s x1 : _} (h : Keeps s0 s) : Keeps s0 (State.clearGroup s x1) := by
  unfold State.clearGroup
  exact keepsMk h rfl

theorem State.xchTake_keeps {s0 : State} {s x1 x2 : _} (h : Keeps s0 s) : Keeps s0 (State.xchTake s x1 x2) := by
  unfold State.xchTake
  extract_lets +onlyGivenNames y0
  clear_value y0
  exact State.setPav_keeps h

theorem State.confirm_keeps {s0 : State} {s x1 : _} (h : Keeps s0 s) : Keeps s0 (State.confirm s x1) := by
  unfold State.confirm
  extract_lets +onlyGivenNames y0
  clear_value y0
  exact State.setPav_keeps h

theorem execSignalPart_keeps {s0 : State} {x0 x1 x2 s : _} (h : Keeps s0 s) : OutKeeps s0 (execSignalPart x0 x1 x2 s)
    := by
  unfold execSignalPart
  extract_lets +onlyGivenNames y0
  clear_value y0
  split
  · rename_i e1 e2
    exact h
  · rename_i e3 e4 e5
    exact pIte (OutKeeps s0) h (State.setPav_keeps h)

theorem State.dropSig_keeps {s0 : State} {s x1 x2 : _} (h : Keeps s0 s) : Keeps s0 (State.dropSig s x1 x2) := by
  unfold State.dropSig
  extract_lets +onlyGivenNames y0
  clear_value y0
  exact State.setPav_keeps h

theorem execXchSignal_keeps {s0 : State} {x0 s : _} (h : Keeps s0 s) : OutKeeps s0 (execXchSignal x0 s) := by
  unfold execXchSignal
  split
  · rename_i e0 e1
    exact h
  · rename_i e2 e3 e4
    exact pIte (OutKeeps s0) (State.addStile_keeps (State.confirm_keeps (State.dropSig_keeps h))) h

theorem execXchSet_keeps {s0 : State} {x0 s : _} (h : Keeps s0 s) : OutKeeps s0 (execXchSet x0 s) := by
  unfold execXchSet
  extract_lets +onlyGivenNames y0
  clear_value y0
  refine pIte (OutKeeps s0) h ?_
  extract_lets +onlyGivenNames y1
  have h2 : (Keeps s0) y1 := by unfold y1; exact State.xchTake_keeps h
  clear_value y1
  exact pIte (OutKeeps s0) (State.stileFault_keeps h2) (State.wr_keeps h2)

theorem execXchBind_keeps {s0 : State} {x0 s : _} (h : Keeps s0 s) : OutKeeps s0 (execXchBind x0 s) := by
  unfold execXchBind
  extract_lets +onlyGivenNames y0 y1
  clear_value y0 y1
  refine pIte (OutKeeps s0) h ?_
  extract_lets +onlyGivenNames y2
  have h3 : (Keeps s0) y2 := by unfold y2; exact State.xchTake_keeps h
  clear_value y2
  refine pIte (OutKeeps s0) (State.stileFault_keeps h3) ?_
  extract_lets +onlyGivenNames y4
  have h5 : (Keeps s0) y4 := by unfold y4; exact State.wr_keeps (keepsMk h3 rfl)
  clear_value y4
  exact pIte (Keeps s0) (State.wr_keeps h5) h5

theorem execXchUnbind_keeps {s0 : State} {x0 s : _} (h : Keeps s0 s) : OutKeeps s0 (execXchUnbind x0 s) := by
  unfold execXchUnbind
  extract_lets +onlyGivenNames y0
  clear_value y0
  refine pIte (OutKeeps s0) h ?_
  extract_lets +onlyGivenNames y1
  have h2 : (Keeps s0) y1 := by unfold y1; exact State.xchTake_keeps h
  clear_value y1
  exact State.wr_keeps (keepsMk h2 rfl)

theorem execOrdf_keeps {s0 : State} {x0 s : _} (h : Keeps s0 s) : OutKeeps s0 (execOrdf x0 s) := by
  unfold execOrdf
  exact pIte (OutKeeps s0) (State.xchTake_keeps h) h

theorem execEndf_keeps {s0 : State} {x0 s : _} (h : Keeps s0 s) : OutKeeps s0 (execEndf x0 s) := by
  unfold execEndf
  extract_lets +onlyGivenNames y0 y1
  clear_value y0 y1
  exact pIte (OutKeeps s0) (State.xchTake_keeps h) h

theorem execFpol_keeps {s0 : State} {x0 s : _} (h : Keeps s0 s) : OutKeeps s0 (execFpol x0 s) := by
  unfold execFpol
  refine pIte (OutKeeps s0) ?_ h
  extract_lets +onlyGivenNames y0
  have h1 : (Keeps s0) y0 := by unfold y0; exact State.xchTake_keeps h
  clear_value y0
  exact State.setPav_keeps h1

theorem stlStateWriteOp_keeps {s0 : State} {x0 x1 x2 s : _} (h : Keeps s0 s) : OutKeeps s0 (stlStateWriteOp x0 x1 x2
    s) := by
  unfold stlStateWriteOp
  extract_lets +onlyGivenNames y0
  clear_value y0
  refine pIte (OutKeeps s0) (State.refuse_keeps h) ?_
  extract_lets +onlyGivenNames y1
  have h2 : (Keeps s0) y1 := by unfold y1; exact State.wr_keeps h
  clear_value y1
  exact pIte (Keeps s0) (State.wr_keeps h2) h2

theorem execStlStateWrite_keeps {s0 : State} {x0 x1 x2 s : _} (h : Keeps s0 s) : OutKeeps s0 (execStlStateWrite x0 x1
    x2 s) := by
  unfold execStlStateWrite
  exact stlStateWriteOp_keeps h

theorem stlGroupWriteOp_keeps {s0 : State} {x0 x1 x2 s : _} (h : Keeps s0 s) : OutKeeps s0 (stlGroupWriteOp x0 x1 x2
    s) := by
  unfold stlGroupWriteOp
  extract_lets +onlyGivenNames y0 y1 y2 y3 y4
  clear_value y0 y1 y2 y3
  refine pIte (OutKeeps s0) (State.refuse_keeps h) ?_
  extract_lets +onlyGivenNames y5
  have h6 : (Keeps s0) y5 := by unfold y5; exact State.wr_keeps (State.wr_keeps h)
  clear_value y5
  exact pIte (Keeps s0) (State.clearGroup_keeps h6) h6

theorem execStlGroupWrite_keeps {s0 : State} {x0 x1 x2 s : _} (h : Keeps s0 s) : OutKeeps s0 (execStlGroupWrite x0 x1
    x2 s) := by
  unfold execStlGroupWrite
  exact stlGroupWriteOp_keeps h

/-! ### Machine/Memory.lean -/

theorem State.overLimit_keeps {s0 : State} {s x1 x2 x3 : _} (h : Keeps s0 s) : Keeps s0 (State.overLimit s x1 x2 x3)
    := by
  unfold State.overLimit
  split
  · rename_i e0 e1
    exact h
  · rename_i e2 e3 e4
    exact pIte (Keeps s0) (pIte (Keeps s0) (State.quotaAlarm_keeps h) h) (pIte (Keeps s0) (pIte (Keeps s0) h
        (State.quotaAlarm_keeps h)) (pIte (Keeps s0) (State.quotaAlarm_keeps h) h))

theorem State.touchCheck_keeps {s0 : State} {s x1 : _} (h : Keeps s0 s) : Keeps s0 (State.touchCheck s x1) := by
  unfold State.touchCheck
  extract_lets +onlyGivenNames y0 y1
  clear_value y0 y1
  exact keepsMk h rfl

theorem State.retire_keeps {s0 : State} {s x1 x2 x3 : _} (h : Keeps s0 s) : Keeps s0 (State.retire s x1 x2 x3) := by
  unfold State.retire
  extract_lets +onlyGivenNames y0
  clear_value y0
  refine pIte (Keeps s0) h ?_
  extract_lets +onlyGivenNames y1 y2
  have h3 : (Keeps s0) y2 := by
    unfold y2
    exact pIte (Keeps s0) (State.wr_keeps (State.wr_keeps (State.wr_keeps (State.wr_keeps h)))) (State.bump_keeps
        (keepsMk h rfl))
  clear_value y1 y2
  exact State.alarm_keeps h3

theorem State.gddrCorrected_keeps {s0 : State} {s x1 : _} (h : Keeps s0 s) : Keeps s0 (State.gddrCorrected s x1) := by
  unfold State.gddrCorrected
  extract_lets +onlyGivenNames y0 y1 y2 y3 y4
  have h5 : (Keeps s0) y4 := by unfold y4; exact State.bump_keeps (keepsMk h rfl)
  clear_value y0 y1 y2 y3 y4
  extract_lets +onlyGivenNames y6
  clear_value y6
  exact pIte (Keeps s0) (State.retire_keeps h5) h5

theorem State.gddrUncorrectable_keeps {s0 : State} {s x1 : _} (h : Keeps s0 s) : Keeps s0 (State.gddrUncorrectable s
    x1) := by
  unfold State.gddrUncorrectable
  extract_lets +onlyGivenNames y0 y1 y2 y3
  have h4 : (Keeps s0) y3 := by unfold y3; exact State.wr_keeps (State.wr_keeps (State.bump_keeps h))
  clear_value y0 y1 y2 y3
  exact State.retire_keeps h4

theorem State.gddrFetch_keeps {s0 : State} {s x1 : _} (h : Keeps s0 s) : (SndP (Keeps s0)) (State.gddrFetch s x1) :=
    by
  unfold State.gddrFetch
  extract_lets +onlyGivenNames y0
  have h1 : (Keeps s0) y0 := by unfold y0; exact State.touchCheck_keeps h
  clear_value y0
  refine pIte (SndP (Keeps s0)) (sndMk h) ?_
  split
  · rename_i e2 e3 e4
    exact sndMk h1
  · rename_i e5 e6 e7
    exact sndMk (State.gddrCorrected_keeps (State.lineStore_keeps h1))
  · rename_i e8 e9
    exact sndMk (State.gddrUncorrectable_keeps h1)
  · rename_i e10 e11
    exact sndMk (State.bump_keeps h1)

theorem State.gddrPut_keeps {s0 : State} {s x1 x2 : _} (h : Keeps s0 s) : Keeps s0 (State.gddrPut s x1 x2) := by
  unfold State.gddrPut
  extract_lets +onlyGivenNames y0
  have h1 : (Keeps s0) y0 := by unfold y0; exact State.touchCheck_keeps h
  clear_value y0
  exact pIte (Keeps s0) h (pIte (Keeps s0) (State.lineStore_keeps h1) (State.linePoison_keeps h1))

theorem State.gddrWrite_keeps {s0 : State} {s x1 x2 x3 : _} (h : Keeps s0 s) : Keeps s0 (State.gddrWrite s x1 x2 x3)
    := by
  unfold State.gddrWrite
  refine pIte (Keeps s0) (State.gddrPut_keeps h) ?_
  split
  rename_i e0 e1 e2 e3
  exact State.gddrPut_keeps (outOf (SndP (Keeps s0)) e3 (State.gddrFetch_keeps h))

theorem scratchWord_keeps {s0 : State} {x0 s x2 : _} (h : Keeps s0 s) : Keeps s0 (scratchWord x0 s x2) := by
  unfold scratchWord
  split
  · rename_i e0 e1
    exact State.bump_keeps (keepsMk h rfl)
  · rename_i e2 e3
    exact State.bump_keeps (keepsMk h rfl)
  · rename_i e4 e5 e6
    exact h

theorem State.scratchRead_keeps {s0 : State} {s x1 x2 : _} (h : Keeps s0 s) : (SndP (Keeps s0)) (State.scratchRead s
    x1 x2) := by
  unfold State.scratchRead
  extract_lets +onlyGivenNames y0
  clear_value y0
  exact sndMk (foldlP (Keeps s0) h (fun a1 a2 a3 => scratchWord_keeps a3))

theorem State.setCline_keeps {s0 : State} {s x1 x2 x3 : _} (h : Keeps s0 s) : Keeps s0 (State.setCline s x1 x2 x3) :=
    by
  unfold State.setCline
  exact keepsMk h rfl

theorem State.snoops_keeps {s0 : State} {s x1 x2 : _} (h : Keeps s0 s) : Keeps s0 (State.snoops s x1 x2) := by
  unfold State.snoops
  exact pIte (Keeps s0) h (State.bump_keeps h)

theorem State.coreErr_keeps {s0 : State} {s x1 x2 x3 x4 : _} (h : Keeps s0 s) : Keeps s0 (State.coreErr s x1 x2 x3 x4)
    := by
  unfold State.coreErr
  extract_lets +onlyGivenNames y0 y1
  clear_value y0 y1
  exact pIte (Keeps s0) (State.wr_keeps h) (State.wr_keeps (State.wr_keeps (State.wr_keeps (State.wr_keeps
      (State.wr_keeps h)))))

theorem State.countErr_keeps {s0 : State} {s x1 x2 x3 x4 : _} (h : Keeps s0 s) : Keeps s0 (State.countErr s x1 x2 x3
    x4) := by
  unfold State.countErr
  refine pIte (Keeps s0) (State.bump_keeps h) ?_
  extract_lets +onlyGivenNames y0
  have h1 : (Keeps s0) y0 := by unfold y0; exact State.bump_keeps h
  clear_value y0
  exact pIte (Keeps s0) (State.coreErr_keeps h1) h1

theorem State.givenErrs_keeps {s0 : State} {s x1 x2 : _} (h : Keeps s0 s) : Keeps s0 (State.givenErrs s x1 x2) := by
  unfold State.givenErrs
  exact foldlP (Keeps s0) h (fun a0 a1 a2 => State.countErr_keeps a2)

theorem State.snoopClean_keeps {s0 : State} {s x1 x2 : _} (h : Keeps s0 s) : (SndP (Keeps s0)) (State.snoopClean s x1
    x2) := by
  unfold State.snoopClean
  split
  · rename_i e0 e1 e2
    extract_lets +onlyGivenNames y3
    clear_value y3
    exact sndMk (State.snoops_keeps (State.setCline_keeps (State.givenErrs_keeps h)))
  · rename_i e4 e5
    exact sndMk h

theorem State.snoopInv_keeps {s0 : State} {s x1 x2 : _} (h : Keeps s0 s) : (SndP (Keeps s0)) (State.snoopInv s x1 x2)
    := by
  unfold State.snoopInv
  extract_lets +onlyGivenNames y0 y1 y2
  have h3 : (Keeps s0) y2 := by
    unfold y2
    exact getDP (Keeps s0) (mapP (Keeps s0) (fun a4 => State.givenErrs_keeps h)) h
  clear_value y0 y1 y2
  exact sndMk (State.snoops_keeps (foldlP (Keeps s0) h3 (fun a5 a6 a7 => State.setCline_keeps a7)))

theorem State.setPline_keeps {s0 : State} {s x1 x2 x3 x4 : _} (h : Keeps s0 s) : Keeps s0 (State.setPline s x1 x2 x3
    x4) := by
  unfold State.setPline
  exact keepsMk h rfl

theorem State.dropPline_keeps {s0 : State} {s x1 x2 x3 : _} (h : Keeps s0 s) : Keeps s0 (State.dropPline s x1 x2 x3)
    := by
  unfold State.dropPline
  exact keepsMk h rfl

theorem State.lineErrors_keeps {s0 : State} {s x1 x2 : _} (h : Keeps s0 s) : (SndP (Keeps s0)) (State.lineErrors s x1
    x2) := by
  unfold State.lineErrors
  extract_lets +onlyGivenNames y0 y1
  have h2 : (Keeps s0) y1 := by unfold y1; exact pIte (Keeps s0) h (State.bump_keeps h)
  clear_value y0 y1
  refine pIte (SndP (Keeps s0)) (sndMk h2) (pIte (SndP (Keeps s0)) (sndMk (State.bump_keeps h2)) ?_)
  split
  rename_i e3 e4 e5 e6
  exact sndMk (State.bump_keeps (outOf (SndP (Keeps s0)) e6 (State.gddrFetch_keeps h2)))

theorem State.lineLost_keeps {s0 : State} {s x1 : _} (h : Keeps s0 s) : Keeps s0 (State.lineLost s x1) := by
  unfold State.lineLost
  exact State.alarm_keeps (State.bump_keeps h)

theorem State.writeBackLine_keeps {s0 : State} {s x1 x2 : _} (h : Keeps s0 s) : Keeps s0 (State.writeBackLine s x1 x2)
    := by
  unfold State.writeBackLine
  refine pIte (Keeps s0) h (pIte (Keeps s0) (State.lineLost_keeps h) ?_)
  split
  rename_i e0 e1 e2 e3
  exact State.gddrPut_keeps (outOf (SndP (Keeps s0)) e3 (State.lineErrors_keeps h))

theorem State.queryDies_keeps {s0 : State} {s x1 x2 x3 : _} (h : Keeps s0 s) : Keeps s0 (State.queryDies s x1 x2 x3)
    := by
  unfold State.queryDies
  extract_lets +onlyGivenNames y0
  have h1 : (Keeps s0) y0 := by unfold y0; exact State.wr_keeps (State.wr_keeps (State.wr_keeps h))
  clear_value y0
  extract_lets +onlyGivenNames y2 y3
  have h4 : (Keeps s0) y3 := by unfold y3; exact State.carry_keeps (State.carry_keeps h1)
  clear_value y2 y3
  exact keepsMk h4 rfl

theorem State.tagCheck_keeps {s0 : State} {s x1 x2 x3 : _} (h : Keeps s0 s) : Keeps s0 (State.tagCheck s x1 x2 x3) :=
    by
  unfold State.tagCheck
  extract_lets +onlyGivenNames y0 y1 y2
  have h3 : (Keeps s0) y2 := by
    unfold y2
    refine foldlP (Keeps s0) h (fun a4 a5 a6 => ?_)
    split
    · rename_i e7 e8 e9
      exact pIte (Keeps s0) (State.bump_keeps (State.setPline_keeps a6)) a6
    · rename_i e10 e11
      exact a6
  clear_value y0 y1 y2
  refine pIte (Keeps s0) h3 ?_
  extract_lets +onlyGivenNames y12
  have h13 : (Keeps s0) y12 := by
    unfold y12
    refine foldlP (Keeps s0) h3 (fun a14 a15 a16 => ?_)
    split
    · rename_i e17 e18
      exact a16
    · rename_i e19 e20 e21
      exact State.writeBackLine_keeps (State.dropPline_keeps a16)
  clear_value y12
  exact pIte (Keeps s0) (State.queryDies_keeps h13) h13

theorem State.region_keeps {s0 : State} {s x1 x2 x3 : _} (h : Keeps s0 s) : (SndP (Keeps s0)) (State.region s x1 x2
    x3) := by
  unfold State.region
  extract_lets +onlyGivenNames y0
  clear_value y0
  exact sndMk (pIte (Keeps s0) (State.bump_keeps h) h)

theorem State.victim_keeps {s0 : State} {s x1 x2 x3 : _} (h : Keeps s0 s) : (OptP (SndP (Keeps s0))) (State.victim s
    x1 x2 x3) := by
  unfold State.victim
  extract_lets +onlyGivenNames y0
  clear_value y0
  split
  · rename_i e1 e2 e3
    exact someP (sndMk h)
  · rename_i e4 e5
    extract_lets +onlyGivenNames y6 y7
    clear_value y6 y7
    split
    · rename_i e8 e9
      exact True.intro
    · rename_i e10 e11 e12 e13
      exact someP (sndMk (foldlP (Keeps s0) h (fun a14 a15 a16 => pIte (Keeps s0) a16 (State.setPline_keeps a16))))

theorem State.evictLine_keeps {s0 : State} {s x1 x2 x3 x4 : _} (h : Keeps s0 s) : Keeps s0 (State.evictLine s x1 x2 x3
    x4) := by
  unfold State.evictLine
  split
  · rename_i e0 e1
    exact h
  · rename_i e2 e3 e4
    split
    rename_i e5 e6 e7 e8
    extract_lets +onlyGivenNames y9
    clear_value y9
    exact State.writeBackLine_keeps (State.dropPline_keeps (outOf (SndP (Keeps s0)) e8 (pIte (SndP (Keeps s0))
        (State.snoopInv_keeps h) (sndMk h))))

theorem State.fill_keeps {s0 : State} {s x1 x2 x3 x4 x5 x6 x7 : _} (h : Keeps s0 s) : (OptP (Keeps s0)) (State.fill s
    x1 x2 x3 x4 x5 x6 x7) := by
  unfold State.fill
  split
  · rename_i e0 e1
    exact True.intro
  · rename_i e2 e3 e4 e5
    extract_lets +onlyGivenNames y6
    clear_value y6
    exact pIte (OptP (Keeps s0)) True.intro (someP (State.setPline_keeps (State.evictLine_keeps (outOf (OptP (SndP
        (Keeps s0))) e5 (State.victim_keeps h)))))

theorem State.queuePrefetch_keeps {s0 : State} {s x1 x2 x3 x4 : _} (h : Keeps s0 s) : Keeps s0 (State.queuePrefetch s
    x1 x2 x3 x4) := by
  unfold State.queuePrefetch
  refine pIte (Keeps s0) h ?_
  extract_lets +onlyGivenNames y0
  clear_value y0
  exact pIte (Keeps s0) (keepsMk h rfl) (State.bump_keeps h)

theorem State.lineSource_keeps {s0 : State} {s x1 x2 x3 : _} (h : Keeps s0 s) : (SndP (Keeps s0)) (State.lineSource s
    x1 x2 x3) := by
  unfold State.lineSource
  split
  · rename_i e0 e1
    exact sndMk h
  · rename_i e2
    exact pIte (SndP (Keeps s0)) (sndMk h) (State.gddrFetch_keeps h)

theorem State.partAccess_keeps {s0 : State} {s x1 x2 x3 x4 x5 x6 x7 : _} (h : Keeps s0 s) : (OptP (SndP (Keeps s0)))
    (State.partAccess s x1 x2 x3 x4 x5 x6 x7) := by
  unfold State.partAccess
  refine pIte (OptP (SndP (Keeps s0))) True.intro ?_
  extract_lets +onlyGivenNames y0
  have h1 : (Keeps s0) y0 := by unfold y0; exact State.tagCheck_keeps h
  clear_value y0
  split
  rename_i e2 e3 e4 e5
  split
  rename_i e6 e7 e8 e9
  extract_lets +onlyGivenNames y10 y11
  clear_value y10 y11
  split
  · rename_i e12 e13 e14 e15 e16 e17
    refine pIte (OptP (SndP (Keeps s0))) True.intro ?_
    split
    rename_i e18 e19 e20 e21
    extract_lets +onlyGivenNames y22 y23 y24
    clear_value y22 y23 y24
    refine someP (sndMk (State.setPline_keeps (outOf (SndP (Keeps s0)) e21 (pIte (SndP (Keeps s0)) (sndMk (outOf (SndP
        (Keeps s0)) e9 ?_)) (State.lineErrors_keeps (outOf (SndP (Keeps s0)) e9 ?_))))))
    · split
      · rename_i e25 e26 e27
        exact State.snoopInv_keeps (outOf (SndP (Keeps s0)) e5 (State.region_keeps h1))
      · rename_i e28 e29 e30
        exact State.snoopClean_keeps (outOf (SndP (Keeps s0)) e5 (State.region_keeps h1))
      · rename_i e31 e32 e33 e34 e35
        exact sndMk (outOf (SndP (Keeps s0)) e5 (State.region_keeps h1))
    · split
      · rename_i e36 e37 e38
        exact State.snoopInv_keeps (outOf (SndP (Keeps s0)) e5 (State.region_keeps h1))
      · rename_i e39 e40 e41
        exact State.snoopClean_keeps (outOf (SndP (Keeps s0)) e5 (State.region_keeps h1))
      · rename_i e42 e43 e44 e45 e46
        exact sndMk (outOf (SndP (Keeps s0)) e5 (State.region_keeps h1))
  · rename_i e47 e48 e49 e50
    refine pIte (OptP (SndP (Keeps s0))) True.intro ?_
    split
    rename_i e51 e52 e53 e54
    refine pIte (OptP (SndP (Keeps s0))) (someP (sndMk (pIte (Keeps s0) (State.gddrPut_keeps (outOf (SndP (Keeps s0))
        e54 (State.lineSource_keeps (outOf (SndP (Keeps s0)) e9 ?_)))) (outOf (SndP (Keeps s0)) e54
        (State.lineSource_keeps (outOf (SndP (Keeps s0)) e9 ?_)))))) (mapOptP (Keeps s0) (SndP (Keeps s0))
        (State.fill_keeps (State.queuePrefetch_keeps (outOf (SndP (Keeps s0)) e54 (State.lineSource_keeps (outOf (SndP
        (Keeps s0)) e9 ?_))))) (fun a55 a56 => sndMk a56))
    · split
      · rename_i e57 e58 e59
        exact State.snoopInv_keeps (outOf (SndP (Keeps s0)) e5 (State.region_keeps h1))
      · rename_i e60 e61 e62
        exact State.snoopClean_keeps (outOf (SndP (Keeps s0)) e5 (State.region_keeps h1))
      · rename_i e63 e64 e65 e66 e67
        exact sndMk (outOf (SndP (Keeps s0)) e5 (State.region_keeps h1))
    · split
      · rename_i e68 e69 e70
        exact State.snoopInv_keeps (outOf (SndP (Keeps s0)) e5 (State.region_keeps h1))
      · rename_i e71 e72 e73
        exact State.snoopClean_keeps (outOf (SndP (Keeps s0)) e5 (State.region_keeps h1))
      · rename_i e74 e75 e76 e77 e78
        exact sndMk (outOf (SndP (Keeps s0)) e5 (State.region_keeps h1))
    · split
      · rename_i e79 e80 e81
        exact State.snoopInv_keeps (outOf (SndP (Keeps s0)) e5 (State.region_keeps h1))
      · rename_i e82 e83 e84
        exact State.snoopClean_keeps (outOf (SndP (Keeps s0)) e5 (State.region_keeps h1))
      · rename_i e85 e86 e87 e88 e89
        exact sndMk (outOf (SndP (Keeps s0)) e5 (State.region_keeps h1))
  · rename_i e90 e91 e92
    refine pIte (OptP (SndP (Keeps s0))) True.intro ?_
    split
    rename_i e93 e94 e95 e96
    refine someP (sndMk (pIte (Keeps s0) (State.gddrPut_keeps (outOf (SndP (Keeps s0)) e96 (State.lineSource_keeps
        (outOf (SndP (Keeps s0)) e9 ?_)))) (outOf (SndP (Keeps s0)) e96 (State.lineSource_keeps (outOf (SndP (Keeps
        s0)) e9 ?_)))))
    · split
      · rename_i e97 e98 e99
        exact State.snoopInv_keeps (outOf (SndP (Keeps s0)) e5 (State.region_keeps h1))
      · rename_i e100 e101 e102
        exact State.snoopClean_keeps (outOf (SndP (Keeps s0)) e5 (State.region_keeps h1))
      · rename_i e103 e104 e105 e106 e107
        exact sndMk (outOf (SndP (Keeps s0)) e5 (State.region_keeps h1))
    · split
      · rename_i e108 e109 e110
        exact State.snoopInv_keeps (outOf (SndP (Keeps s0)) e5 (State.region_keeps h1))
      · rename_i e111 e112 e113
        exact State.snoopClean_keeps (outOf (SndP (Keeps s0)) e5 (State.region_keeps h1))
      · rename_i e114 e115 e116 e117 e118
        exact sndMk (outOf (SndP (Keeps s0)) e5 (State.region_keeps h1))

theorem State.partRead_keeps {s0 : State} {s x1 x2 x3 x4 : _} (h : Keeps s0 s) : (OptP (SndP (Keeps s0)))
    (State.partRead s x1 x2 x3 x4) := by
  unfold State.partRead
  exact State.partAccess_keeps h

theorem State.partWrite_keeps {s0 : State} {s x1 x2 x3 x4 x5 x6 : _} (h : Keeps s0 s) : (OptP (Keeps s0))
    (State.partWrite s x1 x2 x3 x4 x5 x6) := by
  unfold State.partWrite
  exact mapOptP (SndP (Keeps s0)) (Keeps s0) (State.partAccess_keeps h) (fun a0 a1 => a1)

theorem State.pathRead_keeps {s0 : State} {s x1 x2 x3 x4 : _} (h : Keeps s0 s) : (OptP (SndP (Keeps s0)))
    (State.pathRead s x1 x2 x3 x4) := by
  unfold State.pathRead
  split
  · rename_i e0 e1
    exact someP (State.scratchRead_keeps h)
  · rename_i e2 e3
    refine pIte (OptP (SndP (Keeps s0))) True.intro ?_
    split
    rename_i e4 e5 e6 e7
    exact someP (sndMk (outOf (SndP (Keeps s0)) e7 (State.gddrFetch_keeps h)))
  · rename_i e8 e9 e10
    refine mapOptP (SndP (Keeps s0)) (SndP (Keeps s0)) (State.partRead_keeps h) (fun a11 a12 => ?_)
    split
    rename_i e13 e14 e15
    exact a12

theorem State.unreserve_keeps {s0 : State} {s x1 x2 : _} (h : Keeps s0 s) : Keeps s0 (State.unreserve s x1 x2) := by
  unfold State.unreserve
  exact keepsMk h rfl

theorem State.pathWrite_keeps {s0 : State} {s x1 x2 x3 x4 x5 : _} (h : Keeps s0 s) : (OptP (Keeps s0))
    (State.pathWrite s x1 x2 x3 x4 x5) := by
  unfold State.pathWrite
  extract_lets +onlyGivenNames y0
  have h1 : (Keeps s0) y0 := by unfold y0; exact State.unreserve_keeps h
  clear_value y0
  split
  · rename_i e2 e3
    exact someP (State.store_keeps h1)
  · rename_i e4 e5
    exact pIte (OptP (Keeps s0)) (someP (State.gddrWrite_keeps h1)) True.intro
  · rename_i e6 e7 e8
    exact State.partWrite_keeps h1

theorem State.readAs_keeps {s0 : State} {s x1 x2 x3 x4 x5 : _} (h : Keeps s0 s) : (MemResKeeps s0) (State.readAs s x1
    x2 x3 x4 x5) := by
  unfold State.readAs
  refine foldlP (MemResKeeps s0) h (fun a0 a1 a2 => ?_)
  split
  rename_i e3 e4 e5
  split
  · rename_i e6 e7 e8
    split
    · rename_i e9 e10 e11
      exact State.overLimit_keeps h
    · rename_i e12 e13
      exact True.intro
    · rename_i e14 e15
      refine pIte (MemResKeeps s0) ?_ ?_
      · split
        rename_i e16 e17 e18 e19
        exact outOf (SndP (Keeps s0)) e19 (State.eccRead_keeps a2)
      · split
        · rename_i e20 e21 e22 e23
          exact outOf (OptP (SndP (Keeps s0))) e23 (State.pathRead_keeps a2)
        · rename_i e24 e25
          exact True.intro
  · rename_i e26 e27
    exact a2

theorem State.writeAs_keeps {s0 : State} {s x1 x2 x3 x4 x5 : _} (h : Keeps s0 s) : (MemResKeeps s0) (State.writeAs s
    x1 x2 x3 x4 x5) := by
  unfold State.writeAs
  extract_lets +onlyGivenNames y0
  clear_value y0
  split
  · rename_i e1 e2 e3
    refine outOf (OptP (MemResKeeps s0)) e3 (findSomeP (MemResKeeps s0) (fun a4 => ?_))
    split
    rename_i e5 e6 e7
    split
    · rename_i e8 e9 e10
      exact someP (State.overLimit_keeps h)
    · rename_i e11 e12
      exact someP True.intro
    · rename_i e13 e14
      exact True.intro
  · rename_i e15 e16
    refine foldlP (MemResKeeps s0) h (fun a17 a18 a19 => ?_)
    split
    rename_i e20 e21 e22
    split
    · rename_i e23 e24 e25
      extract_lets +onlyGivenNames y26
      clear_value y26
      refine pIte (MemResKeeps s0) (State.store_keeps a19) ?_
      split
      · rename_i e27 e28 e29
        exact outOf (OptP (Keeps s0)) e29 (State.pathWrite_keeps a19)
      · rename_i e30 e31
        exact True.intro
    · rename_i e32 e33
      exact a19

theorem State.loadFault_keeps {s0 : State} {s x1 x2 : _} (h : Keeps s0 s) : Keeps s0 (State.loadFault s x1 x2) := by
  unfold State.loadFault
  exact State.send_keeps h

theorem State.answerLoad_keeps {s0 : State} {s x1 x2 x3 x4 x5 : _} (h : Keeps s0 s) : Keeps s0 (State.answerLoad s x1
    x2 x3 x4 x5) := by
  unfold State.answerLoad
  exact pIte (Keeps s0) (State.send_keeps h) (State.coreErr_keeps (State.loadFault_keeps h))

/-! ### Machine/Commit.lean -/

theorem State.commitGo_keeps {s0 : State} {s x1 x2 : _} (h : Keeps s0 s) : Keeps s0 (State.commitGo s x1 x2) := by
  unfold State.commitGo
  exact State.wr_keeps (State.wr_keeps h)

theorem State.commitEnd_keeps {s0 : State} {s x1 x2 x3 : _} (h : Keeps s0 s) : Keeps s0 (State.commitEnd s x1 x2 x3)
    := by
  unfold State.commitEnd
  exact State.wr_keeps (State.wr_keeps (State.wr_keeps (State.wr_keeps h)))

theorem State.commitCancel_keeps {s0 : State} {s x1 x2 : _} (h : Keeps s0 s) : Keeps s0 (State.commitCancel s x1 x2)
    := by
  unfold State.commitCancel
  exact pIte (Keeps s0) (State.commitEnd_keeps h) h

theorem State.commitField_keeps {s0 : State} {s x1 x2 x3 x4 x5 : _} (h : Keeps s0 s) : Keeps s0 (State.commitField s
    x1 x2 x3 x4 x5) := by
  unfold State.commitField
  exact State.wr_keeps h

theorem State.wrBoth_keeps {s0 : State} {s x1 x2 x3 x4 : _} (h : Keeps s0 s) : Keeps s0 (State.wrBoth s x1 x2 x3 x4)
    := by
  unfold State.wrBoth
  extract_lets +onlyGivenNames y0
  clear_value y0
  exact State.setShadow_keeps (State.wr_keeps h)

theorem State.drift_keeps {s0 : State} {s x1 x2 : _} (h : Keeps s0 s) : Keeps s0 (State.drift s x1 x2) := by
  unfold State.drift
  exact State.wr_keeps (keepsMk h rfl)

theorem State.undrift_keeps {s0 : State} {s x1 x2 : _} (h : Keeps s0 s) : Keeps s0 (State.undrift s x1 x2) := by
  unfold State.undrift
  extract_lets +onlyGivenNames y0
  clear_value y0
  exact State.wr_keeps (keepsMk h rfl)

/-! ### Machine/Orangery.lean -/

theorem execOrgRgnCommitGo_keeps {s0 : State} {x0 s : _} (h : Keeps s0 s) : OutKeeps s0 (execOrgRgnCommitGo x0 s) :=
    by
  unfold execOrgRgnCommitGo
  exact pIte (OutKeeps s0) (State.refuse_keeps h) (State.commitGo_keeps (keepsMk h rfl))

theorem State.takeRegions_keeps {s0 : State} {s x1 : _} (h : Keeps s0 s) : Keeps s0 (State.takeRegions s x1) := by
  unfold State.takeRegions
  extract_lets +onlyGivenNames y0
  have h1 : (Keeps s0) y0 := by
    unfold y0
    exact foldlP (Keeps s0) h (fun a2 a3 a4 => State.commitField_keeps (State.commitField_keeps a4))
  clear_value y0
  exact keepsMk h1 rfl

theorem execOrgRgnCommitApply_keeps {s0 : State} {x0 s : _} (h : Keeps s0 s) : OutKeeps s0 (execOrgRgnCommitApply x0
    s) := by
  unfold execOrgRgnCommitApply
  refine pIte (OutKeeps s0) h (pIte (OutKeeps s0) (State.commitEnd_keeps h) ?_)
  extract_lets +onlyGivenNames y0
  have h1 : (Keeps s0) y0 := by unfold y0; exact State.takeRegions_keeps h
  clear_value y0
  exact pIte (Keeps s0) (State.commitEnd_keeps h1) h1

theorem State.respond_keeps {s0 : State} {s x1 x2 x3 : _} (h : Keeps s0 s) : Keeps s0 (State.respond s x1 x2 x3) := by
  unfold State.respond
  split
  · rename_i e0 e1
    exact h
  · rename_i e2 e3 e4
    extract_lets +onlyGivenNames y5 y6
    have h7 : (Keeps s0) y6 := by unfold y6; exact State.carry_keeps h
    clear_value y5 y6
    exact keepsMk h7 rfl

theorem State.serve_keeps {s0 : State} {s x1 : _} (h : Keeps s0 s) : (OptP (Keeps s0)) (State.serve s x1) := by
  unfold State.serve
  split
  · rename_i e0 e1
    exact True.intro
  · rename_i e2 e3 e4
    exact someP (State.respond_keeps (State.overLimit_keeps h))
  · rename_i e5 e6
    refine pIte (OptP (Keeps s0)) (mapOptP (Keeps s0) (Keeps s0) (State.pathWrite_keeps h) (fun a7 a8 =>
        State.respond_keeps a8)) (mapOptP (SndP (Keeps s0)) (Keeps s0) (State.pathRead_keeps h) (fun a9 a10 => ?_))
    split
    rename_i e11 e12 e13
    exact State.respond_keeps a10

theorem State.serveTurn_keeps {s0 : State} {s x1 x2 : _} (h : Keeps s0 s) : (OptP (SndP (Keeps s0))) (State.serveTurn
    s x1 x2) := by
  unfold State.serveTurn
  refine findSomeP (SndP (Keeps s0)) (fun a0 => ?_)
  split
  · rename_i e1 e2
    exact True.intro
  · rename_i e3 e4 e5
    exact mapOptP (Keeps s0) (SndP (Keeps s0)) (State.serve_keeps h) (fun a6 a7 => sndMk a7)

theorem State.homeTurn_keeps {s0 : State} {s x1 : _} (h : Keeps s0 s) : (OptP (Keeps s0)) (State.homeTurn s x1) := by
  unfold State.homeTurn
  extract_lets +onlyGivenNames y0
  clear_value y0
  refine mapOptP (SndP (Keeps s0)) (Keeps s0) (State.serveTurn_keeps h) (fun a1 a2 => ?_)
  split
  rename_i e3 e4 e5
  exact keepsMk a2 rfl

theorem State.gddrTurn_keeps {s0 : State} {s x1 : _} (h : Keeps s0 s) : (OptP (Keeps s0)) (State.gddrTurn s x1) := by
  unfold State.gddrTurn
  extract_lets +onlyGivenNames y0
  clear_value y0
  refine mapOptP (SndP (Keeps s0)) (Keeps s0) (State.serveTurn_keeps h) (fun a1 a2 => ?_)
  split
  rename_i e3 e4 e5
  exact keepsMk a2 rfl

theorem State.popPrefetch_keeps {s0 : State} {s x1 : _} (h : Keeps s0 s) : Keeps s0 (State.popPrefetch s x1) := by
  unfold State.popPrefetch
  exact keepsMk h rfl

theorem execNextLinePrefetch_keeps {s0 : State} {x0 s : _} (h : Keeps s0 s) : OutKeeps s0 (execNextLinePrefetch x0 s)
    := by
  unfold execNextLinePrefetch
  split
  · rename_i e0 e1
    exact h
  · rename_i e2 e3 e4 e5 e6
    refine pIte (OutKeeps s0) (State.popPrefetch_keeps h) (pIte (OutKeeps s0) (State.popPrefetch_keeps h) (pIte
        (OutKeeps s0) h ?_))
    split
    rename_i e7 e8 e9 e10
    split
    · rename_i e11 e12 e13
      exact State.popPrefetch_keeps (outOf (OptP (Keeps s0)) e13 (State.fill_keeps (outOf (SndP (Keeps s0)) e10
          (State.gddrFetch_keeps h))))
    · rename_i e14 e15
      exact h

theorem orgFlushOp_keeps {s0 : State} {x0 x1 x2 s : _} (h : Keeps s0 s) : OutKeeps s0 (orgFlushOp x0 x1 x2 s) := by
  unfold orgFlushOp
  refine pIte (OutKeeps s0) (State.refuse_keeps h) ?_
  extract_lets +onlyGivenNames y0 y1
  have h2 : (Keeps s0) y1 := by unfold y1; exact pIte (Keeps s0) (State.wr_keeps h) h
  clear_value y0 y1
  exact pIte (Keeps s0) (State.wr_keeps h2) h2

theorem execOrgFlush_keeps {s0 : State} {x0 x1 x2 s : _} (h : Keeps s0 s) : OutKeeps s0 (execOrgFlush x0 x1 x2 s) :=
    by
  unfold execOrgFlush
  exact orgFlushOp_keeps h

theorem cleanLineOf_keeps {s0 : State} {x0 s x2 : _} (h : Keeps s0 s) : Keeps s0 (cleanLineOf x0 s x2) := by
  unfold cleanLineOf
  split
  rename_i e0 e1 e2 e3
  exact State.setPline_keeps (State.gddrPut_keeps (outOf (SndP (Keeps s0)) e3 (State.lineErrors_keeps h)))

theorem State.visitTags_keeps {s0 : State} {s x1 x2 x3 : _} (h : Keeps s0 s) : Keeps s0 (State.visitTags s x1 x2 x3)
    := by
  unfold State.visitTags
  exact foldlP (Keeps s0) h (fun a0 a1 a2 => State.tagCheck_keeps a2)

theorem execOrgFlushDone_keeps {s0 : State} {x0 s : _} (h : Keeps s0 s) : OutKeeps s0 (execOrgFlushDone x0 s) := by
  unfold execOrgFlushDone
  refine pIte (OutKeeps s0) h ?_
  extract_lets +onlyGivenNames y0
  have h1 : (Keeps s0) y0 := by unfold y0; exact State.visitTags_keeps h
  clear_value y0
  exact State.wr_keeps (foldlP (Keeps s0) h1 (fun a2 a3 a4 => cleanLineOf_keeps a4))

theorem State.atomRead_keeps {s0 : State} {s x1 x2 x3 : _} (h : Keeps s0 s) : (OptP (SndP (Keeps s0))) (State.atomRead
    s x1 x2 x3) := by
  unfold State.atomRead
  split
  · rename_i e0 e1 e2
    refine mapOptP (SndP (Keeps s0)) (SndP (Keeps s0)) (State.partAccess_keeps h) (fun a3 a4 => ?_)
    split
    rename_i e5 e6 e7
    exact a4
  · rename_i e8 e9
    exact State.pathRead_keeps h

theorem State.atomWrite_keeps {s0 : State} {s x1 x2 x3 x4 : _} (h : Keeps s0 s) : Keeps s0 (State.atomWrite s x1 x2 x3
    x4) := by
  unfold State.atomWrite
  extract_lets +onlyGivenNames y0 y1
  have h2 : (Keeps s0) y1 := by unfold y1; exact State.unreserve_keeps h
  clear_value y0 y1
  split
  · rename_i e3 e4 e5
    split
    · rename_i e6 e7 e8 e9
      exact State.setPline_keeps h2
    · rename_i e10 e11
      exact State.gddrWrite_keeps h2
  · rename_i e12 e13
    exact State.gddrWrite_keeps h2
  · rename_i e14 e15
    exact State.store_keeps h2

theorem State.piecesRead_keeps {s0 : State} {s x1 x2 : _} (h : Keeps s0 s) : (OptP (SndP (Keeps s0)))
    (State.piecesRead s x1 x2) := by
  unfold State.piecesRead
  refine foldlP (OptP (SndP (Keeps s0))) (someP (sndMk h)) (fun a0 a1 a2 => ?_)
  split
  · rename_i e3
    exact a2
  · rename_i e4 e5 e6
    refine mapOptP (SndP (Keeps s0)) (SndP (Keeps s0)) (State.atomRead_keeps a2) (fun a7 a8 => ?_)
    split
    rename_i e9 e10 e11
    exact a8

theorem State.piecesWrite_keeps {s0 : State} {s x1 x2 x3 x4 : _} (h : Keeps s0 s) : Keeps s0 (State.piecesWrite s x1
    x2 x3 x4) := by
  unfold State.piecesWrite
  exact foldlP (Keeps s0) h (fun a0 a1 a2 => State.atomWrite_keeps a2)

theorem State.atomicAt_keeps {s0 : State} {s x1 x2 x3 x4 x5 : _} (h : Keeps s0 s) : (AtomResKeeps s0) (State.atomicAt
    s x1 x2 x3 x4 x5) := by
  unfold State.atomicAt
  refine pIte (AtomResKeeps s0) True.intro ?_
  extract_lets +onlyGivenNames y0 y1 y2 y3 y4
  clear_value y0 y1 y2 y3 y4
  refine pIte (AtomResKeeps s0) h (pIte (AtomResKeeps s0) h ?_)
  split
  · rename_i e5 e6 e7
    exact State.overLimit_keeps h
  · rename_i e8 e9 e10
    exact True.intro
  · rename_i e11
    split
    · rename_i e12 e13
      exact True.intro
    · rename_i e14 e15 e16 e17
      refine pIte (AtomResKeeps s0) h ?_
      extract_lets +onlyGivenNames y18
      clear_value y18
      exact State.piecesWrite_keeps (outOf (OptP (SndP (Keeps s0))) e17 (State.piecesRead_keeps h))

theorem State.atomicRun_keeps {s0 : State} {s x1 x2 x3 x4 x5 x6 : _} (h : Keeps s0 s) : Keeps s0 (State.atomicRun s x1
    x2 x3 x4 x5 x6) := by
  unfold State.atomicRun
  split
  · rename_i e0 e1
    exact h
  · rename_i e2 e3 e4 e5 e6
    exact State.send_keeps (pIte (Keeps s0) (State.bump_keeps (outOf (AtomResKeeps s0) e6 (State.atomicAt_keeps h)))
        (outOf (AtomResKeeps s0) e6 (State.atomicAt_keeps h)))
  · rename_i e7 e8 e9 e10
    exact State.send_keeps (State.bump_keeps (outOf (AtomResKeeps s0) e10 (State.atomicAt_keeps h)))

theorem State.loadReserved_keeps {s0 : State} {s x1 x2 x3 x4 : _} (h : Keeps s0 s) : Keeps s0 (State.loadReserved s x1
    x2 x3 x4) := by
  unfold State.loadReserved
  refine pIte (Keeps s0) h ?_
  split
  · rename_i e0 e1
    exact h
  · rename_i e2 e3 e4 e5
    exact State.send_keeps (outOf (MemResKeeps s0) e5 (State.readAs_keeps h))
  · rename_i e6 e7 e8 e9
    extract_lets +onlyGivenNames y10
    have h11 : (Keeps s0) y10 := by
      unfold y10
      exact State.answerLoad_keeps (outOf (MemResKeeps s0) e9 (State.readAs_keeps h))
    clear_value y10
    exact pIte (Keeps s0) (keepsMk h11 rfl) h11

theorem State.storeConditional_keeps {s0 : State} {s x1 x2 x3 x4 x5 : _} (h : Keeps s0 s) : Keeps s0
    (State.storeConditional s x1 x2 x3 x4 x5) := by
  unfold State.storeConditional
  extract_lets +onlyGivenNames y0
  have h1 : ∀ b0, (Keeps s0) b0 → (Keeps s0) (y0 b0) := by
    unfold y0
    intro a2
    intro a3
    exact keepsMk a3 rfl
  clear_value y0
  refine pIte (Keeps s0) (State.send_keeps (h1 _ h)) ?_
  split
  · rename_i e4 e5
    exact h
  · rename_i e6 e7 e8 e9 e10
    exact State.send_keeps (h1 _ (outOf (AtomResKeeps s0) e10 (State.atomicAt_keeps h)))
  · rename_i e11 e12 e13 e14
    exact State.send_keeps (h1 _ (outOf (AtomResKeeps s0) e14 (State.atomicAt_keeps h)))

theorem execAtomic_keeps {s0 : State} {x0 x1 x2 x3 x4 x5 s : _} (h : Keeps s0 s) : OutKeeps s0 (execAtomic x0 x1 x2 x3
    x4 x5 s) := by
  unfold execAtomic
  extract_lets +onlyGivenNames y0
  clear_value y0
  refine pIte (OutKeeps s0) (State.send_keeps h) ?_
  split
  · rename_i e1 e2
    exact State.atomicRun_keeps h
  · rename_i e3
    exact pIte (Keeps s0) (State.loadReserved_keeps h) (State.send_keeps h)
  · rename_i e4
    exact pIte (Keeps s0) (State.storeConditional_keeps h) (State.send_keeps h)

theorem execBlkadd_keeps {s0 : State} {x0 x1 x2 x3 s : _} (h : Keeps s0 s) : OutKeeps s0 (execBlkadd x0 x1 x2 x3 s) :=
    by
  unfold execBlkadd
  exact State.atomicRun_keeps h

theorem execGddrTrackingRead_keeps {s0 : State} {x0 x1 x2 s : _} (h : Keeps s0 s) : OutKeeps s0 (execGddrTrackingRead
    x0 x1 x2 s) := by
  unfold execGddrTrackingRead
  refine pIte (OutKeeps s0) h ?_
  extract_lets +onlyGivenNames y0 y1
  clear_value y0 y1
  exact pIte (Keeps s0) (State.wr_keeps h) h

theorem State.sharedFault_keeps {s0 : State} {s x1 x2 : _} (h : Keeps s0 s) : Keeps s0 (State.sharedFault s x1 x2) :=
    by
  unfold State.sharedFault
  exact foldlP (Keeps s0) (State.record_keeps h) (fun a0 a1 a2 => State.event_keeps a2)

theorem State.closeQuiet_keeps {s0 : State} {s x1 x2 : _} (h : Keeps s0 s) : Keeps s0 (State.closeQuiet s x1 x2) := by
  unfold State.closeQuiet
  exact foldlP (Keeps s0) (State.setPav_keeps h) (fun a0 a1 a2 => State.armBed_keeps a2)

theorem State.upkeepEnded_keeps {s0 : State} {s x1 : _} (h : Keeps s0 s) : Keeps s0 (State.upkeepEnded s x1) := by
  unfold State.upkeepEnded
  refine foldlP (Keeps s0) h (fun a0 a1 a2 => ?_)
  split
  · rename_i e3 e4 e5
    refine pIte (Keeps s0) a2 ?_
    extract_lets +onlyGivenNames y6
    clear_value y6
    exact pIte (Keeps s0) (State.closeQuiet_keeps a2) (State.setPav_keeps a2)
  · rename_i e7 e8
    exact a2

theorem State.gddrAbsent_keeps {s0 : State} {s x1 x2 : _} (h : Keeps s0 s) : Keeps s0 (State.gddrAbsent s x1 x2) := by
  unfold State.gddrAbsent
  extract_lets +onlyGivenNames y0
  have h1 : (Keeps s0) y0 := by unfold y0; exact State.wr_keeps (State.wr_keeps (State.wr_keeps (State.wr_keeps h)))
  clear_value y0
  exact foldlP (Keeps s0) h1 (fun a2 a3 a4 => State.wr_keeps (State.wr_keeps a4))

theorem State.trainTemps_keeps {s0 : State} {s x1 x2 : _} (h : Keeps s0 s) : Keeps s0 (State.trainTemps s x1 x2) := by
  unfold State.trainTemps
  extract_lets +onlyGivenNames y0
  have h1 : (Keeps s0) y0 := by unfold y0; exact State.wr_keeps h
  clear_value y0
  exact keepsMk h1 rfl

theorem State.retrained_keeps {s0 : State} {s x1 x2 : _} (h : Keeps s0 s) : Keeps s0 (State.retrained s x1 x2) := by
  unfold State.retrained
  exact State.trainTemps_keeps (State.bump_keeps (State.wr_keeps h))

theorem State.absentAnswer_keeps {s0 : State} {s x1 : _} (h : Keeps s0 s) : Keeps s0 (State.absentAnswer s x1) := by
  unfold State.absentAnswer
  exact pIte (Keeps s0) (State.respond_keeps h) (State.respond_keeps h)

theorem State.retrainFailed_keeps {s0 : State} {s x1 x2 : _} (h : Keeps s0 s) : Keeps s0 (State.retrainFailed s x1 x2)
    := by
  unfold State.retrainFailed
  extract_lets +onlyGivenNames y0 y1 y2 y3 y4
  have h5 : (Keeps s0) y4 := by unfold y4; exact State.gddrAbsent_keeps h
  clear_value y0 y1 y2 y3 y4
  extract_lets +onlyGivenNames y6 y7
  have h8 : (Keeps s0) y7 := by unfold y7; exact keepsMk h5 rfl
  clear_value y6 y7
  extract_lets +onlyGivenNames y9
  have h10 : (Keeps s0) y9 := by
    unfold y9
    exact foldlP (Keeps s0) h8 (fun a11 a12 a13 => State.absentAnswer_keeps a13)
  clear_value y9
  extract_lets +onlyGivenNames y14
  clear_value y14
  exact State.alarm_keeps (State.sharedFault_keeps h10)

theorem execGddrRetrainDone_keeps {s0 : State} {x0 x1 x2 s : _} (h : Keeps s0 s) : OutKeeps s0 (execGddrRetrainDone x0
    x1 x2 s) := by
  unfold execGddrRetrainDone
  refine pIte (OutKeeps s0) h ?_
  extract_lets +onlyGivenNames y0
  have h1 : (Keeps s0) y0 := by unfold y0; exact State.upkeepEnded_keeps h
  clear_value y0
  split
  · rename_i e2
    exact State.retrained_keeps h1
  · rename_i e3 e4
    exact State.retrainFailed_keeps h1

theorem State.scrubLine_keeps {s0 : State} {s x1 : _} (h : Keeps s0 s) : Keeps s0 (State.scrubLine s x1) := by
  unfold State.scrubLine
  split
  rename_i e0 e1 e2 e3
  exact pIte (Keeps s0) (outOf (SndP (Keeps s0)) e3 (State.gddrFetch_keeps h)) (State.linePoison_keeps (outOf (SndP
      (Keeps s0)) e3 (State.gddrFetch_keeps h)))

theorem State.scrubNext_keeps {s0 : State} {s x1 x2 x3 : _} (h : Keeps s0 s) : Keeps s0 (State.scrubNext s x1 x2 x3)
    := by
  unfold State.scrubNext
  extract_lets +onlyGivenNames y0 y1 y2
  have h3 : (Keeps s0) y2 := by unfold y2; exact keepsMk h rfl
  clear_value y0 y1 y2
  exact pIte (Keeps s0) (State.bump_keeps h3) h3

theorem execScrubGroup_keeps {s0 : State} {x0 x1 s : _} (h : Keeps s0 s) : OutKeeps s0 (execScrubGroup x0 x1 s) := by
  unfold execScrubGroup
  refine pIte (OutKeeps s0) h ?_
  extract_lets +onlyGivenNames y0 y1
  clear_value y0 y1
  exact State.scrubNext_keeps (foldlP (Keeps s0) h (fun a2 a3 a4 => State.scrubLine_keeps a4))

theorem gdrPlotWriteOp_keeps {s0 : State} {x0 x1 x2 x3 s : _} (h : Keeps s0 s) : OutKeeps s0 (gdrPlotWriteOp x0 x1 x2
    x3 s) := by
  unfold gdrPlotWriteOp
  extract_lets +onlyGivenNames y0 y1
  clear_value y0 y1
  refine pIte (OutKeeps s0) (State.refuse_keeps h) (pIte (OutKeeps s0) h (pIte (OutKeeps s0) (pIte (Keeps s0) h
      (State.refuse_keeps h)) ?_))
  extract_lets +onlyGivenNames y2
  clear_value y2
  exact pIte (OutKeeps s0) (State.refuse_keeps h) (pIte (OutKeeps s0) h (State.wr_keeps (State.wr_keeps h)))

theorem execGdrPlotWrite_keeps {s0 : State} {x0 x1 x2 x3 s : _} (h : Keeps s0 s) : OutKeeps s0 (execGdrPlotWrite x0 x1
    x2 x3 s) := by
  unfold execGdrPlotWrite
  exact gdrPlotWriteOp_keeps h

theorem execPlotZeroFillDone_keeps {s0 : State} {x0 x1 s : _} (h : Keeps s0 s) : OutKeeps s0 (execPlotZeroFillDone x0
    x1 s) := by
  unfold execPlotZeroFillDone
  refine pIte (OutKeeps s0) h ?_
  extract_lets +onlyGivenNames y0
  clear_value y0
  exact State.wr_keeps (State.zeroRange_keeps h)

/-! ### Machine/Smmu.lean -/

theorem State.dropTag_keeps {s0 : State} {s x1 : _} (h : Keeps s0 s) : Keeps s0 (State.dropTag s x1) := by
  unfold State.dropTag
  extract_lets +onlyGivenNames y0
  clear_value y0
  exact keepsMk h rfl

theorem execSmmuCtxCommitGo_keeps {s0 : State} {x0 x1 s : _} (h : Keeps s0 s) : OutKeeps s0 (execSmmuCtxCommitGo x0 x1
    s) := by
  unfold execSmmuCtxCommitGo
  exact pIte (Keeps s0) (State.commitGo_keeps h) (State.refuse_keeps h)

theorem State.takeCtx_keeps {s0 : State} {s x1 : _} (h : Keeps s0 s) : Keeps s0 (State.takeCtx s x1) := by
  unfold State.takeCtx
  exact State.commitField_keeps (State.commitField_keeps (State.commitField_keeps h))

theorem execSmmuCtxCommitApply_keeps {s0 : State} {x0 s : _} (h : Keeps s0 s) : OutKeeps s0 (execSmmuCtxCommitApply x0
    s) := by
  unfold execSmmuCtxCommitApply
  refine pIte (OutKeeps s0) h (pIte (OutKeeps s0) (State.commitEnd_keeps h) ?_)
  extract_lets +onlyGivenNames y0
  have h1 : (Keeps s0) y0 := by unfold y0; exact State.takeCtx_keeps h
  clear_value y0
  extract_lets +onlyGivenNames y2
  have h3 : (Keeps s0) y2 := by unfold y2; exact pIte (Keeps s0) h1 (State.dropTag_keeps h1)
  clear_value y2
  exact State.commitEnd_keeps h3

theorem State.useLeaf_keeps {s0 : State} {s x1 x2 x3 x4 : _} (h : Keeps s0 s) : (XlatKeeps s0) (State.useLeaf s x1 x2
    x3 x4) := by
  unfold State.useLeaf
  exact pIte (XlatKeeps s0) h (pIte (XlatKeeps s0) h h)

theorem walkFrom_keeps {s0 : State} {x0 x1 x2 x3 x4 x5 s : _} (h : Keeps s0 s) : (WalkKeeps s0) (walkFrom x0 x1 x2 x3
    x4 x5 s) := by
  induction x3 generalizing x0 x1 x2 x4 x5 s
  · unfold walkFrom
    exact h
  · rename_i e0 e1
    unfold walkFrom
    refine pIte (WalkKeeps s0) h ?_
    extract_lets +onlyGivenNames y2
    clear_value y2
    split
    · rename_i e3 e4
      exact True.intro
    · rename_i e5 e6 e7 e8
      refine pIte (WalkKeeps s0) (outOf (OptP (SndP (Keeps s0))) e8 (State.pathRead_keeps h)) ?_
      extract_lets +onlyGivenNames y9 y10
      clear_value y9 y10
      refine pIte (WalkKeeps s0) (outOf (OptP (SndP (Keeps s0))) e8 (State.pathRead_keeps h)) (pIte (WalkKeeps s0)
          (outOf (OptP (SndP (Keeps s0))) e8 (State.pathRead_keeps h)) (pIte (WalkKeeps s0) (pIte (WalkKeeps s0)
          (outOf (OptP (SndP (Keeps s0))) e8 (State.pathRead_keeps h)) ?_) ?_))
      · extract_lets +onlyGivenNames y11 y12 y13
        have h14 : (Keeps s0) y13 := by
          unfold y13
          exact keepsMk (outOf (OptP (SndP (Keeps s0))) e8 (State.pathRead_keeps h)) rfl
        clear_value y11 y12 y13
        exact e1 h14
      · extract_lets +onlyGivenNames y15
        clear_value y15
        exact pIte (WalkKeeps s0) (outOf (OptP (SndP (Keeps s0))) e8 (State.pathRead_keeps h)) (outOf (OptP (SndP
            (Keeps s0))) e8 (State.pathRead_keeps h))

theorem State.walk_keeps {s0 : State} {s x1 x2 x3 : _} (h : Keeps s0 s) : (WalkKeeps s0) (State.walk s x1 x2 x3) := by
  unfold State.walk
  split
  rename_i e0 e1 e2 e3
  exact walkFrom_keeps (State.bump_keeps h)

theorem State.putUnitTlb_keeps {s0 : State} {s x1 x2 x3 : _} (h : Keeps s0 s) : Keeps s0 (State.putUnitTlb s x1 x2 x3)
    := by
  unfold State.putUnitTlb
  split
  · rename_i e0 e1
    exact keepsMk h rfl
  · rename_i e2 e3
    exact keepsMk h rfl

theorem State.putDieTlb_keeps {s0 : State} {s x1 x2 x3 : _} (h : Keeps s0 s) : Keeps s0 (State.putDieTlb s x1 x2 x3)
    := by
  unfold State.putDieTlb
  exact pIte (Keeps s0) (keepsMk h rfl) h

theorem State.xlat_keeps {s0 : State} {s x1 x2 x3 x4 x5 : _} (h : Keeps s0 s) : (XlatKeeps s0) (State.xlat s x1 x2 x3
    x4 x5) := by
  unfold State.xlat
  split
  · rename_i e0 e1 e2
    exact h
  · rename_i e3 e4
    extract_lets +onlyGivenNames y5 y6
    clear_value y5 y6
    split
    · rename_i e7 e8 e9
      exact State.useLeaf_keeps h
    · rename_i e10 e11
      split
      · rename_i e12 e13 e14
        exact State.useLeaf_keeps (State.putUnitTlb_keeps h)
      · rename_i e15 e16
        split
        · rename_i e17 e18
          exact True.intro
        · rename_i e19 e20 e21 e22 e23
          exact outOf (WalkKeeps s0) e23 (State.walk_keeps h)
        · rename_i e24 e25 e26 e27
          exact State.useLeaf_keeps (State.putUnitTlb_keeps (State.putDieTlb_keeps (outOf (WalkKeeps s0) e27
              (State.walk_keeps h))))

theorem State.recordXlat_keeps {s0 : State} {s x1 x2 x3 x4 x5 : _} (h : Keeps s0 s) : Keeps s0 (State.recordXlat s x1
    x2 x3 x4 x5) := by
  unfold State.recordXlat
  refine pIte (Keeps s0) (State.bump_keeps h) ?_
  extract_lets +onlyGivenNames y0
  have h1 : (Keeps s0) y0 := by unfold y0; exact State.wr_keeps (State.wr_keeps h)
  clear_value y0
  extract_lets +onlyGivenNames y2
  have h3 : (Keeps s0) y2 := by unfold y2; exact State.wr_keeps (State.wr_keeps h1)
  clear_value y2
  split
  · rename_i e4 e5
    exact State.wr_keeps h3
  · rename_i e6 e7
    exact State.wr_keeps h3

theorem execTranslationWalk_keeps {s0 : State} {x0 x1 x2 x3 s : _} (h : Keeps s0 s) : OutKeeps s0 (execTranslationWalk
    x0 x1 x2 x3 s) := by
  unfold execTranslationWalk
  split
  · rename_i e0 e1 e2
    exact State.send_keeps h
  · rename_i e3 e4
    split
    · rename_i e5 e6
      exact h
    · rename_i e7 e8 e9 e10 e11
      exact State.send_keeps (outOf (WalkKeeps s0) e11 (State.walk_keeps h))
    · rename_i e12 e13 e14 e15
      split
      · rename_i e16 e17 e18 e19 e20 e21
        exact State.send_keeps (outOf (XlatKeeps s0) e21 (State.useLeaf_keeps (State.putUnitTlb_keeps
            (State.putDieTlb_keeps (outOf (WalkKeeps s0) e15 (State.walk_keeps h))))))
      · rename_i e22 e23 e24 e25 e26
        exact State.send_keeps (outOf (XlatKeeps s0) e26 (State.useLeaf_keeps (State.putUnitTlb_keeps
            (State.putDieTlb_keeps (outOf (WalkKeeps s0) e15 (State.walk_keeps h))))))
      · rename_i e27 e28
        exact h

theorem State.wrap32_keeps {s0 : State} {s x1 x2 x3 : _} (h : Keeps s0 s) : Keeps s0 (State.wrap32 s x1 x2 x3) := by
  unfold State.wrap32
  exact State.wr_keeps h

theorem State.invEnter_keeps {s0 : State} {s x1 : _} (h : Keeps s0 s) : Keeps s0 (State.invEnter s x1) := by
  unfold State.invEnter
  extract_lets +onlyGivenNames y0
  clear_value y0
  exact State.wrap32_keeps (keepsMk h rfl)

theorem State.invOwn_keeps {s0 : State} {s x1 x2 x3 x4 : _} (h : Keeps s0 s) : Keeps s0 (State.invOwn s x1 x2 x3 x4)
    := by
  unfold State.invOwn
  exact keepsMk h rfl

theorem State.invWrite_keeps {s0 : State} {s x1 x2 x3 : _} (h : Keeps s0 s) : Keeps s0 (State.invWrite s x1 x2 x3) :=
    by
  unfold State.invWrite
  exact pIte (Keeps s0) (State.refuse_keeps h) (pIte (Keeps s0) (State.bump_keeps h) (pIte (Keeps s0)
      (State.invEnter_keeps h) (keepsMk h rfl)))

theorem execSmmuInvRange_keeps {s0 : State} {x0 x1 x2 s : _} (h : Keeps s0 s) : OutKeeps s0 (execSmmuInvRange x0 x1 x2
    s) := by
  unfold execSmmuInvRange
  exact State.invWrite_keeps h

theorem execSmmuInvTag_keeps {s0 : State} {x0 x1 x2 s : _} (h : Keeps s0 s) : OutKeeps s0 (execSmmuInvTag x0 x1 x2 s)
    := by
  unfold execSmmuInvTag
  exact State.invWrite_keeps h

theorem execSmmuInvAll_keeps {s0 : State} {x0 x1 x2 s : _} (h : Keeps s0 s) : OutKeeps s0 (execSmmuInvAll x0 x1 x2 s)
    := by
  unfold execSmmuInvAll
  exact State.invWrite_keeps h

theorem State.dropRange_keeps {s0 : State} {s x1 x2 x3 : _} (h : Keeps s0 s) : Keeps s0 (State.dropRange s x1 x2 x3)
    := by
  unfold State.dropRange
  extract_lets +onlyGivenNames y0
  clear_value y0
  exact keepsMk h rfl

theorem State.invComplete_keeps {s0 : State} {s : _} (h : Keeps s0 s) : Keeps s0 (State.invComplete s) := by
  unfold State.invComplete
  split
  · rename_i e0 e1
    exact h
  · rename_i e2 e3 e4 e5
    extract_lets +onlyGivenNames y6 y7
    have h8 : (Keeps s0) y7 := by unfold y7; exact keepsMk h rfl
    clear_value y6 y7
    refine pIte (Keeps s0) h8 ?_
    extract_lets +onlyGivenNames y9
    have h10 : (Keeps s0) y9 := by unfold y9; exact State.wrap32_keeps h8
    clear_value y9
    split
    · rename_i e11 e12
      exact h10
    · rename_i e13 e14 e15 e16
      exact State.invEnter_keeps (keepsMk h10 rfl)

theorem execSmmuInvTakeEffect_keeps {s0 : State} {s : _} (h : Keeps s0 s) : OutKeeps s0 (execSmmuInvTakeEffect s) :=
    by
  unfold execSmmuInvTakeEffect
  split
  · rename_i e0 e1
    exact h
  · rename_i e2 e3 e4 e5
    refine pIte (OutKeeps s0) h (pIte (OutKeeps s0) ?_ (State.invComplete_keeps (State.dropTag_keeps h)))
    extract_lets +onlyGivenNames y6 y7
    have h8 : (Keeps s0) y7 := by unfold y7; exact State.dropRange_keeps h
    clear_value y6 y7
    exact keepsMk h8 rfl

theorem execSmmuInvComplete_keeps {s0 : State} {s : _} (h : Keeps s0 s) : OutKeeps s0 (execSmmuInvComplete s) := by
  unfold execSmmuInvComplete
  split
  · rename_i e0 e1
    exact h
  · rename_i e2 e3 e4 e5
    exact pIte (OutKeeps s0) (State.invComplete_keeps h) h

theorem State.drained_keeps {s0 : State} {s x1 x2 x3 : _} (h : Keeps s0 s) : Keeps s0 (State.drained s x1 x2 x3) := by
  unfold State.drained
  exact keepsMk h rfl

/-! ### Machine/Waystation.lean -/

theorem State.wsInstall_keeps {s0 : State} {s x1 x2 : _} (h : Keeps s0 s) : Keeps s0 (State.wsInstall s x1 x2) := by
  unfold State.wsInstall
  extract_lets +onlyGivenNames y0 y1
  have h2 : (Keeps s0) y1 := by
    unfold y1
    exact State.setReg_keeps (State.setReg_keeps (State.setReg_keeps (State.setReg_keeps h)))
  clear_value y0 y1
  extract_lets +onlyGivenNames y3
  have h4 : (Keeps s0) y3 := by unfold y3; exact pIte (Keeps s0) (State.setReg_keeps h2) h2
  clear_value y3
  exact keepsMk h4 rfl

theorem execWsCommitGo_keeps {s0 : State} {x0 s : _} (h : Keeps s0 s) : OutKeeps s0 (execWsCommitGo x0 s) := by
  unfold execWsCommitGo
  exact pIte (Keeps s0) (State.commitGo_keeps h) (State.refuse_keeps h)

theorem execWsCommitApply_keeps {s0 : State} {s : _} (h : Keeps s0 s) : OutKeeps s0 (execWsCommitApply s) := by
  unfold execWsCommitApply
  extract_lets +onlyGivenNames y0
  clear_value y0
  refine pIte (OutKeeps s0) h (pIte (OutKeeps s0) ?_ (State.commitEnd_keeps h))
  extract_lets +onlyGivenNames y1
  have h2 : (Keeps s0) y1 := by unfold y1; exact foldlP (Keeps s0) h (fun a3 a4 a5 => State.wsInstall_keeps a5)
  clear_value y1
  exact State.commitEnd_keeps (foldlP (Keeps s0) h2 (fun a6 a7 a8 => State.drift_keeps a8))

theorem execWsOutCommitGo_keeps {s0 : State} {x0 s : _} (h : Keeps s0 s) : OutKeeps s0 (execWsOutCommitGo x0 s) := by
  unfold execWsOutCommitGo
  exact pIte (Keeps s0) (State.commitGo_keeps h) (State.refuse_keeps h)

theorem State.takeWsOut_keeps {s0 : State} {s x1 : _} (h : Keeps s0 s) : Keeps s0 (State.takeWsOut s x1) := by
  unfold State.takeWsOut
  exact foldlP (Keeps s0) h (fun a0 a1 a2 => State.commitField_keeps a2)

theorem execWsOutCommitApply_keeps {s0 : State} {s : _} (h : Keeps s0 s) : OutKeeps s0 (execWsOutCommitApply s) := by
  unfold execWsOutCommitApply
  exact pIte (OutKeeps s0) h (State.commitEnd_keeps (foldlP (Keeps s0) h (fun a0 a1 a2 => State.takeWsOut_keeps a2)))

theorem State.bucketTake_keeps {s0 : State} {s x1 x2 : _} (h : Keeps s0 s) : Keeps s0 (State.bucketTake s x1 x2) := by
  unfold State.bucketTake
  exact pIte (Keeps s0) h (keepsMk h rfl)

theorem State.wsRefuse_keeps {s0 : State} {s x1 x2 : _} (h : Keeps s0 s) : Keeps s0 (State.wsRefuse s x1 x2) := by
  unfold State.wsRefuse
  extract_lets +onlyGivenNames y0
  have h1 : (Keeps s0) y0 := by unfold y0; exact State.bump_keeps h
  clear_value y0
  extract_lets +onlyGivenNames y2
  have h3 : (Keeps s0) y2 := by
    unfold y2
    exact State.wr_keeps (State.wr_keeps (State.wr_keeps (State.wr_keeps (State.wr_keeps h1))))
  clear_value y2
  exact State.bump_keeps h3

theorem State.wsRetry_keeps {s0 : State} {s x1 : _} (h : Keeps s0 s) : Keeps s0 (State.wsRetry s x1) := by
  unfold State.wsRetry
  exact State.bump_keeps h

/-! ### Machine/Agree.lean -/

theorem State.onPort_keeps {s0 : State} {s x1 x2 : _} (h : Keeps s0 s) : Keeps s0 (State.onPort s x1 x2) := by
  unfold State.onPort
  exact State.setPort_keeps h

theorem State.putLink_keeps {s0 : State} {s x1 x2 : _} (h : Keeps s0 s) : Keeps s0 (State.putLink s x1 x2) := by
  unfold State.putLink
  exact State.onPort_keeps h

theorem State.putPeer_keeps {s0 : State} {s x1 x2 : _} (h : Keeps s0 s) : Keeps s0 (State.putPeer s x1 x2) := by
  unfold State.putPeer
  exact pIte (Keeps s0) (State.putLink_keeps h) h

theorem State.putBeacon_keeps {s0 : State} {s x1 x2 : _} (h : Keeps s0 s) : Keeps s0 (State.putBeacon s x1 x2) := by
  unfold State.putBeacon
  split
  · rename_i e0 e1
    exact h
  · rename_i e2 e3 e4
    split
    · rename_i e5 e6
      exact h
    · rename_i e7 e8 e9
      exact pIte (Keeps s0) h (State.putPeer_keeps h)

theorem State.putBeacons_keeps {s0 : State} {s x1 : _} (h : Keeps s0 s) : Keeps s0 (State.putBeacons s x1) := by
  unfold State.putBeacons
  exact foldlP (Keeps s0) h (fun a0 a1 a2 => State.putBeacon_keeps a2)

theorem State.announce_keeps {s0 : State} {s x1 : _} (h : Keeps s0 s) : Keeps s0 (State.announce s x1) := by
  unfold State.announce
  refine foldlP (Keeps s0) h (fun a0 a1 a2 => ?_)
  split
  · rename_i e3 e4
    exact a2
  · rename_i e5 e6 e7
    exact pIte (Keeps s0) a2 (State.putBeacon_keeps (State.wr_keeps a2))

theorem State.digestDue_keeps {s0 : State} {s : _} (h : Keeps s0 s) : Keeps s0 (State.digestDue s) := by
  unfold State.digestDue
  exact State.wr_keeps h

end Sys2Proof.Machine
end

