-- ==== Sys2Proof/Laws/KeepsStreams.lean ====
section
/-! SUPPORT. `Keeps` for every operation and every meaning of the stream engines, pavilions and collectives. -/

namespace Sys2Proof.Machine

/-! ### Machine/Collective.lean -/

theorem State.colPut_keeps {s0 : State} {s x1 x2 x3 x4 : _} (h : Keeps s0 s) : Keeps s0 (State.colPut s x1 x2 x3 x4)
    := by
  unfold State.colPut
  exact keepsMk h rfl

theorem State.colClear_keeps {s0 : State} {s x1 x2 : _} (h : Keeps s0 s) : Keeps s0 (State.colClear s x1 x2) := by
  unfold State.colClear
  extract_lets +onlyGivenNames y0 y1
  clear_value y0 y1
  exact keepsMk h rfl

/-! ### Machine/Streams.lean -/

theorem State.setRun_keeps {s0 : State} {s x1 x2 x3 : _} (h : Keeps s0 s) : Keeps s0 (State.setRun s x1 x2 x3) := by
  unfold State.setRun
  exact keepsMk h rfl

theorem State.engRead_keeps {s0 : State} {s x1 x2 x3 x4 x5 : _} (h : Keeps s0 s) : (SndP (Keeps s0)) (State.engRead s
    x1 x2 x3 x4 x5) := by
  unfold State.engRead
  exact bankRead_keeps h

theorem State.dropReads_keeps {s0 : State} {s x1 x2 : _} (h : Keeps s0 s) : Keeps s0 (State.dropReads s x1 x2) := by
  unfold State.dropReads
  extract_lets +onlyGivenNames y0
  clear_value y0
  exact keepsMk h rfl

theorem State.endRun_keeps {s0 : State} {s x1 x2 : _} (h : Keeps s0 s) : Keeps s0 (State.endRun s x1 x2) := by
  unfold State.endRun
  exact State.dropReads_keeps (keepsMk h rfl)

theorem State.ctxFault_keeps {s0 : State} {s x1 x2 x3 x4 x5 : _} (h : Keeps s0 s) : Keeps s0 (State.ctxFault s x1 x2
    x3 x4 x5) := by
  unfold State.ctxFault
  extract_lets +onlyGivenNames y0
  have h1 : (Keeps s0) y0 := by unfold y0; exact State.wr_keeps (State.wr_keeps (State.wr_keeps h))
  clear_value y0
  extract_lets +onlyGivenNames y2 y3
  clear_value y2 y3
  exact State.faultPav_keeps (State.alarm_keeps h1)

theorem State.runFault_keeps {s0 : State} {s x1 x2 x3 x4 : _} (h : Keeps s0 s) : Keeps s0 (State.runFault s x1 x2 x3
    x4) := by
  unfold State.runFault
  split
  · rename_i e0 e1
    exact h
  · rename_i e2 e3 e4
    exact State.ctxFault_keeps (pIte (Keeps s0) (State.endRun_keeps h) (State.setRun_keeps h))

theorem State.engFault_keeps {s0 : State} {s x1 x2 x3 : _} (h : Keeps s0 s) : Keeps s0 (State.engFault s x1 x2 x3) :=
    by
  unfold State.engFault
  exact State.opFault_keeps (State.dequeue_keeps h)

theorem State.engDone_keeps {s0 : State} {s x1 : _} (h : Keeps s0 s) : Keeps s0 (State.engDone s x1) := by
  unfold State.engDone
  exact State.progress_keeps (State.dequeue_keeps h)

theorem State.storeDesc_keeps {s0 : State} {s x1 x2 x3 : _} (h : Keeps s0 s) : Keeps s0 (State.storeDesc s x1 x2 x3)
    := by
  unfold State.storeDesc
  exact foldlP (Keeps s0) h (fun a0 a1 a2 => State.setReg_keeps a2)

theorem State.markCtx_keeps {s0 : State} {s x1 x2 x3 x4 x5 : _} (h : Keeps s0 s) : Keeps s0 (State.markCtx s x1 x2 x3
    x4 x5) := by
  unfold State.markCtx
  exact State.wr_keeps (State.wr_keeps (State.wr_keeps h))

theorem State.descBytes_keeps {s0 : State} {s x1 : _} (h : Keeps s0 s) : (SndP (Keeps s0)) (State.descBytes s x1) :=
    by
  unfold State.descBytes
  exact State.engRead_keeps h

theorem execDld_keeps {s0 : State} {x0 s : _} (h : Keeps s0 s) : OutKeeps s0 (execDld x0 s) := by
  unfold execDld
  extract_lets +onlyGivenNames y0 y1
  clear_value y0 y1
  refine pIte (OutKeeps s0) h ?_
  split
  · rename_i e2 e3 e4
    exact outOf (SndP (Keeps s0)) e4 (State.descBytes_keeps h)
  · rename_i e5 e6 e7 e8
    refine pIte (OutKeeps s0) (State.engFault_keeps (State.markCtx_keeps (State.storeDesc_keeps (outOf (SndP (Keeps
        s0)) e8 (State.descBytes_keeps h))))) ?_
    extract_lets +onlyGivenNames y9
    clear_value y9
    exact pIte (OutKeeps s0) (State.engDone_keeps (State.markCtx_keeps (State.storeDesc_keeps (outOf (SndP (Keeps s0))
        e8 (State.descBytes_keeps h))))) (State.engDone_keeps (State.markCtx_keeps (State.storeDesc_keeps (outOf (SndP
        (Keeps s0)) e8 (State.descBytes_keeps h)))))

theorem State.virtRead_keeps {s0 : State} {s x1 x2 x3 x4 x5 x6 x7 x8 : _} (h : Keeps s0 s) : (VResKeeps s0)
    (State.virtRead s x1 x2 x3 x4 x5 x6 x7 x8) := by
  unfold State.virtRead
  refine foldlP (VResKeeps s0) h (fun a0 a1 a2 => ?_)
  split
  rename_i e3 e4 e5
  split
  · rename_i e6 e7 e8
    split
    · rename_i e9 e10
      exact True.intro
    · rename_i e11 e12 e13 e14 e15
      exact State.recordXlat_keeps (outOf (XlatKeeps s0) e15 (State.xlat_keeps a2))
    · rename_i e16 e17 e18 e19 e20 e21
      refine pIte (VResKeeps s0) True.intro ?_
      split
      · rename_i e22 e23 e24 e25
        exact outOf (MemResKeeps s0) e25 (State.readAs_keeps (outOf (XlatKeeps s0) e21 (State.xlat_keeps a2)))
      · rename_i e26 e27
        exact True.intro
      · rename_i e28 e29 e30 e31
        exact outOf (MemResKeeps s0) e31 (State.readAs_keeps (outOf (XlatKeeps s0) e21 (State.xlat_keeps a2)))
  · rename_i e32 e33
    exact a2

theorem State.readVirt_keeps {s0 : State} {s x1 x2 x3 x4 x5 : _} (h : Keeps s0 s) : (VResKeeps s0) (State.readVirt s
    x1 x2 x3 x4 x5) := by
  unfold State.readVirt
  exact State.virtRead_keeps h

theorem State.leafAt_keeps {s0 : State} {s x1 x2 x3 : _} (h : Keeps s0 s) : (WalkKeeps s0) (State.leafAt s x1 x2 x3)
    := by
  unfold State.leafAt
  split
  · rename_i e0 e1 e2
    exact h
  · rename_i e3 e4
    exact State.walk_keeps h

theorem State.beginXlat_keeps {s0 : State} {s x1 x2 x3 x4 x5 : _} (h : Keeps s0 s) : (BeginKeeps s0) (State.beginXlat
    s x1 x2 x3 x4 x5) := by
  unfold State.beginXlat
  exact State.recordXlat_keeps h

theorem State.pagesAgree_keeps {s0 : State} {x0 x1 x2 x3 x4 x5 s : _} (h : Keeps s0 s) : (BeginKeeps s0)
    (State.pagesAgree x0 x1 x2 x3 x4 x5 s) := by
  induction x2 generalizing x0 x1 x3 x4 x5 s
  · unfold State.pagesAgree
    exact h
  · rename_i e0 e1
    unfold State.pagesAgree
    refine pIte (BeginKeeps s0) h ?_
    split
    · rename_i e2 e3
      exact True.intro
    · rename_i e4 e5 e6 e7 e8
      exact State.beginXlat_keeps (outOf (WalkKeeps s0) e8 (State.leafAt_keeps h))
    · rename_i e9 e10 e11 e12
      split
      · rename_i e13 e14
        exact True.intro
      · rename_i e15 e16 e17 e18 e19
        exact State.beginXlat_keeps (outOf (WalkKeeps s0) e19 (State.leafAt_keeps (outOf (WalkKeeps s0) e12
            (State.leafAt_keeps h))))
      · rename_i e20 e21 e22 e23
        refine pIte (BeginKeeps s0) (outOf (WalkKeeps s0) e23 (State.leafAt_keeps (outOf (WalkKeeps s0) e12
            (State.leafAt_keeps h)))) ?_
        extract_lets +onlyGivenNames y24
        clear_value y24
        exact e1 (outOf (WalkKeeps s0) e23 (State.leafAt_keeps (outOf (WalkKeeps s0) e12 (State.leafAt_keeps h))))

theorem State.beginChecks_keeps {s0 : State} {s x1 x2 x3 x4 x5 : _} (h : Keeps s0 s) : (BeginKeeps s0)
    (State.beginChecks s x1 x2 x3 x4 x5) := by
  unfold State.beginChecks
  refine pIte (BeginKeeps s0) h (pIte (BeginKeeps s0) h (pIte (BeginKeeps s0) (pIte (BeginKeeps s0) h
      (State.pagesAgree_keeps h)) (pIte (BeginKeeps s0) (pIte (BeginKeeps s0) h ?_) h)))
  split
  · rename_i e0 e1
    exact True.intro
  · rename_i e2 e3 e4 e5 e6
    exact outOf (VResKeeps s0) e6 (State.readVirt_keeps h)
  · rename_i e7 e8 e9 e10
    refine pIte (BeginKeeps s0) (outOf (VResKeeps s0) e10 (State.readVirt_keeps h)) ?_
    split
    · rename_i e11 e12
      exact True.intro
    · rename_i e13 e14 e15 e16 e17
      exact outOf (VResKeeps s0) e17 (State.readVirt_keeps (outOf (VResKeeps s0) e10 (State.readVirt_keeps h)))
    · rename_i e18 e19 e20 e21
      exact pIte (BeginKeeps s0) (outOf (VResKeeps s0) e21 (State.readVirt_keeps (outOf (VResKeeps s0) e10
          (State.readVirt_keeps h)))) (pIte (BeginKeeps s0) (outOf (VResKeeps s0) e21 (State.readVirt_keeps (outOf
          (VResKeeps s0) e10 (State.readVirt_keeps h)))) (outOf (VResKeeps s0) e21 (State.readVirt_keeps (outOf
          (VResKeeps s0) e10 (State.readVirt_keeps h)))))

theorem State.beginRun_keeps {s0 : State} {s x1 x2 x3 x4 x5 x6 x7 x8 : _} (h : Keeps s0 s) : Keeps s0 (State.beginRun
    s x1 x2 x3 x4 x5 x6 x7 x8) := by
  unfold State.beginRun
  extract_lets +onlyGivenNames y0 y1 y2
  clear_value y0 y1 y2
  exact State.setRun_keeps (State.wr_keeps (State.wr_keeps (State.wr_keeps h)))

theorem execRun_keeps {s0 : State} {x0 s : _} (h : Keeps s0 s) : OutKeeps s0 (execRun x0 s) := by
  unfold execRun
  extract_lets +onlyGivenNames y0 y1 y2 y3
  clear_value y0 y1 y2 y3
  refine pIte (OutKeeps s0) h (pIte (OutKeeps s0) (State.engFault_keeps h) (pIte (OutKeeps s0) (State.engFault_keeps
      h) (pIte (OutKeeps s0) h ?_)))
  extract_lets +onlyGivenNames y4
  clear_value y4
  split
  · rename_i e5 e6
    exact h
  · rename_i e7 e8 e9 e10
    exact State.engFault_keeps (outOf (BeginKeeps s0) e10 (State.beginChecks_keeps h))
  · rename_i e11 e12 e13 e14 e15
    exact State.ctxFault_keeps (State.dequeue_keeps (outOf (BeginKeeps s0) e15 (State.beginChecks_keeps h)))
  · rename_i e16 e17 e18 e19
    exact State.engDone_keeps (State.beginRun_keeps (outOf (BeginKeeps s0) e19 (State.beginChecks_keeps h)))

theorem execXchSend_keeps {s0 : State} {x0 s : _} (h : Keeps s0 s) : OutKeeps s0 (execXchSend x0 s) := by
  unfold execXchSend
  extract_lets +onlyGivenNames y0 y1 y2 y3
  clear_value y0 y1 y2 y3
  refine pIte (OutKeeps s0) h (pIte (OutKeeps s0) (State.opFault_keeps (State.xchTake_keeps h)) (pIte (OutKeeps s0)
      (State.opFault_keeps (State.xchTake_keeps h)) (pIte (OutKeeps s0) h ?_)))
  extract_lets +onlyGivenNames y4
  clear_value y4
  split
  · rename_i e5 e6
    exact h
  · rename_i e7 e8 e9 e10
    exact State.opFault_keeps (State.xchTake_keeps (outOf (BeginKeeps s0) e10 (State.beginChecks_keeps h)))
  · rename_i e11 e12 e13 e14 e15
    exact State.ctxFault_keeps (State.xchTake_keeps (outOf (BeginKeeps s0) e15 (State.beginChecks_keeps h)))
  · rename_i e16 e17 e18 e19
    exact State.xchTake_keeps (State.beginRun_keeps (outOf (BeginKeeps s0) e19 (State.beginChecks_keeps h)))

theorem State.localReq_keeps {s0 : State} {s x1 x2 x3 x4 x5 x6 x7 : _} (h : Keeps s0 s) : (IssueKeeps s0)
    (State.localReq s x1 x2 x3 x4 x5 x6 x7) := by
  unfold State.localReq
  extract_lets +onlyGivenNames y0
  clear_value y0
  split
  · rename_i e1 e2
    exact True.intro
  · rename_i e3 e4 e5 e6 e7
    exact State.recordXlat_keeps (outOf (XlatKeeps s0) e7 (State.xlat_keeps h))
  · rename_i e8 e9 e10 e11 e12 e13
    extract_lets +onlyGivenNames y14 y15
    clear_value y14 y15
    refine pIte (IssueKeeps s0) True.intro (pIte (IssueKeeps s0) (State.bump_keeps (outOf (XlatKeeps s0) e13
        (State.xlat_keeps h))) ?_)
    extract_lets +onlyGivenNames y16 y17 y18 y19
    have h20 : (Keeps s0) y19 := by
      unfold y19
      split
      · rename_i e21 e22
        exact keepsMk (outOf (XlatKeeps s0) e13 (State.xlat_keeps h)) rfl
      · rename_i e23 e24
        exact keepsMk (outOf (XlatKeeps s0) e13 (State.xlat_keeps h)) rfl
    clear_value y16 y17 y18 y19
    exact State.setRun_keeps (State.carry_keeps h20)

theorem State.rowOf_keeps {s0 : State} {s x1 x2 x3 x4 : _} (h : Keeps s0 s) : (SumP (SndP (SndP (Keeps s0)))
    (IssueKeeps s0)) (State.rowOf s x1 x2 x3 x4) := by
  unfold State.rowOf
  refine pIte (SumP (SndP (SndP (Keeps s0))) (IssueKeeps s0)) (inlP (sndMk (sndMk h))) ?_
  split
  · rename_i e0 e1 e2
    exact inlP (sndMk (sndMk h))
  · rename_i e3 e4
    extract_lets +onlyGivenNames y5
    clear_value y5
    split
    · rename_i e6 e7
      exact inrP True.intro
    · rename_i e8 e9 e10 e11 e12
      exact inrP (outOf (VResKeeps s0) e12 (State.readVirt_keeps h))
    · rename_i e13 e14 e15 e16
      extract_lets +onlyGivenNames y17 y18
      clear_value y17 y18
      exact inlP (sndMk (sndMk (outOf (VResKeeps s0) e16 (State.readVirt_keeps h))))

theorem State.group__keeps {s0 : State} {x0 x1 x2 x3 x4 x5 x6 s : _} (h : Keeps s0 s) : (SndP (SndP (Keeps s0)))
    (State.group_ x0 x1 x2 x3 x4 x5 x6 s) := by
  induction x4 generalizing x0 x1 x2 x3 x5 x6 s
  · unfold State.group_
    exact sndMk (sndMk h)
  · rename_i e0 e1
    unfold State.group_
    refine pIte (SndP (SndP (Keeps s0))) (sndMk (sndMk h)) ?_
    split
    · rename_i e2 e3 e4 e5 e6
      exact pIte (SndP (SndP (Keeps s0))) (e1 (outOf (SumP (SndP (SndP (Keeps s0))) (IssueKeeps s0)) e6
          (State.rowOf_keeps h))) (sndMk (sndMk (outOf (SumP (SndP (SndP (Keeps s0))) (IssueKeeps s0)) e6
          (State.rowOf_keeps h))))
    · rename_i e7 e8 e9 e10 e11 e12
      exact sndMk (sndMk (outOf (SumP (SndP (SndP (Keeps s0))) (IssueKeeps s0)) e12 (State.rowOf_keeps h)))
    · rename_i e13 e14 e15
      exact sndMk (sndMk h)

theorem State.fillRow_keeps {s0 : State} {s x1 x2 x3 x4 x5 : _} (h : Keeps s0 s) : (IssueKeeps s0) (State.fillRow s x1
    x2 x3 x4 x5) := by
  unfold State.fillRow
  extract_lets +onlyGivenNames y0 y1
  clear_value y0 y1
  exact pIte (IssueKeeps s0) h (State.setRun_keeps h)

theorem State.issueRead_keeps {s0 : State} {s x1 x2 x3 x4 : _} (h : Keeps s0 s) : (IssueKeeps s0) (State.issueRead s
    x1 x2 x3 x4) := by
  unfold State.issueRead
  refine pIte (IssueKeeps s0) True.intro ?_
  split
  · rename_i e0 e1 e2
    exact outOf (SumP (SndP (SndP (Keeps s0))) (IssueKeeps s0)) e2 (State.rowOf_keeps h)
  · rename_i e3 e4 e5 e6
    exact State.fillRow_keeps (outOf (SumP (SndP (SndP (Keeps s0))) (IssueKeeps s0)) e6 (State.rowOf_keeps h))
  · rename_i e7 e8 e9 e10
    exact State.fillRow_keeps (outOf (SumP (SndP (SndP (Keeps s0))) (IssueKeeps s0)) e10 (State.rowOf_keeps h))
  · rename_i e11 e12 e13 e14 e15
    extract_lets +onlyGivenNames y16
    clear_value y16
    split
    rename_i e17 e18 e19 e20 e21
    extract_lets +onlyGivenNames y22
    clear_value y22
    refine pIte (IssueKeeps s0) True.intro (pIte (IssueKeeps s0) ?_ (State.localReq_keeps (outOf (SndP (SndP (Keeps
        s0))) e21 (State.group__keeps (outOf (SumP (SndP (SndP (Keeps s0))) (IssueKeeps s0)) e15 (State.rowOf_keeps
        h))))))
    split
    · rename_i e23 e24 e25
      exact outOf (SndP (Keeps s0)) e25 (State.engRead_keeps (outOf (SndP (SndP (Keeps s0))) e21 (State.group__keeps
          (outOf (SumP (SndP (SndP (Keeps s0))) (IssueKeeps s0)) e15 (State.rowOf_keeps h)))))
    · rename_i e26 e27 e28 e29
      refine pIte (IssueKeeps s0) (outOf (SndP (Keeps s0)) e29 (State.engRead_keeps (outOf (SndP (SndP (Keeps s0)))
          e21 (State.group__keeps (outOf (SumP (SndP (SndP (Keeps s0))) (IssueKeeps s0)) e15 (State.rowOf_keeps
          h)))))) ?_
      extract_lets +onlyGivenNames y30
      clear_value y30
      exact State.setRun_keeps (outOf (SndP (Keeps s0)) e29 (State.engRead_keeps (outOf (SndP (SndP (Keeps s0))) e21
          (State.group__keeps (outOf (SumP (SndP (SndP (Keeps s0))) (IssueKeeps s0)) e15 (State.rowOf_keeps h))))))

theorem State.issueDense_keeps {s0 : State} {s x1 x2 x3 x4 : _} (h : Keeps s0 s) : (IssueKeeps s0) (State.issueDense s
    x1 x2 x3 x4) := by
  unfold State.issueDense
  refine pIte (IssueKeeps s0) True.intro (pIte (IssueKeeps s0) ?_ ?_)
  · extract_lets +onlyGivenNames y0 y1
    clear_value y0 y1
    split
    · rename_i e2 e3 e4
      exact outOf (SndP (Keeps s0)) e4 (State.engRead_keeps h)
    · rename_i e5 e6 e7 e8
      exact pIte (IssueKeeps s0) (outOf (SndP (Keeps s0)) e8 (State.engRead_keeps h)) (State.setRun_keeps (outOf (SndP
          (Keeps s0)) e8 (State.engRead_keeps h)))
  · extract_lets +onlyGivenNames y9
    clear_value y9
    split
    · rename_i e10 e11
      exact True.intro
    · rename_i e12 e13 e14 e15
      extract_lets +onlyGivenNames y16 y17 y18
      have h19 : (Keeps s0) y18 := by unfold y18; exact keepsMk h rfl
      clear_value y16 y17 y18
      exact State.setRun_keeps h19

theorem State.combineBlock_keeps {s0 : State} {s x1 x2 x3 x4 x5 x6 : _} (h : Keeps s0 s) : (SumP (SndP (Keeps s0))
    (IssueKeeps s0)) (State.combineBlock s x1 x2 x3 x4 x5 x6) := by
  unfold State.combineBlock
  split
  · rename_i e0 e1 e2 e3 e4
    split
    rename_i e5 e6 e7 e8
    extract_lets +onlyGivenNames y9
    have h10 : ∀ b0 b1 b2, (Keeps s0) b2 → (SumP (SndP (Keeps s0)) (IssueKeeps s0)) (y9 b0 b1 b2) := by
      unfold y9
      intro a11
      intro a12
      intro a13
      intro a14
      exact pIte (SumP (SndP (Keeps s0)) (IssueKeeps s0)) (inlP (sndMk a14)) (pIte (SumP (SndP (Keeps s0)) (IssueKeeps
          s0)) (inrP a14) (inlP (sndMk (State.bump_keeps a14))))
    clear_value y9
    split
    · rename_i e15 e16
      split
      · rename_i e17 e18 e19
        exact inrP (State.setRun_keeps (outOf (SndP (Keeps s0)) e19 (State.engRead_keeps h)))
      · rename_i e20 e21 e22 e23
        exact h10 _ _ _ (outOf (SndP (Keeps s0)) e23 (State.engRead_keeps h))
    · rename_i e24 e25 e26
      refine pIte (SumP (SndP (Keeps s0)) (IssueKeeps s0)) (inrP True.intro) ?_
      split
      · rename_i e27 e28
        exact inrP True.intro
      · rename_i e29 e30 e31 e32 e33
        exact inrP (outOf (VResKeeps s0) e33 (State.readVirt_keeps h))
      · rename_i e34 e35 e36 e37
        exact h10 _ _ _ (outOf (VResKeeps s0) e37 (State.readVirt_keeps h))
  · rename_i e38 e39 e40
    exact inlP (sndMk h)

theorem State.issueStridedWrite_keeps {s0 : State} {s x1 x2 x3 x4 : _} (h : Keeps s0 s) : (IssueKeeps s0)
    (State.issueStridedWrite s x1 x2 x3 x4) := by
  unfold State.issueStridedWrite
  refine pIte (IssueKeeps s0) True.intro ?_
  split
  · rename_i e0 e1 e2
    exact outOf (SumP (SndP (SndP (Keeps s0))) (IssueKeeps s0)) e2 (State.rowOf_keeps h)
  · rename_i e3 e4 e5 e6
    exact State.setRun_keeps (outOf (SumP (SndP (SndP (Keeps s0))) (IssueKeeps s0)) e6 (State.rowOf_keeps h))
  · rename_i e7 e8 e9 e10
    exact pIte (IssueKeeps s0) (outOf (SumP (SndP (SndP (Keeps s0))) (IssueKeeps s0)) e10 (State.rowOf_keeps h))
        (State.setRun_keeps (State.bump_keeps (outOf (SumP (SndP (SndP (Keeps s0))) (IssueKeeps s0)) e10
        (State.rowOf_keeps h))))
  · rename_i e11 e12 e13 e14 e15
    extract_lets +onlyGivenNames y16
    clear_value y16
    split
    rename_i e17 e18 e19 e20 e21
    extract_lets +onlyGivenNames y22 y23
    clear_value y22 y23
    refine pIte (IssueKeeps s0) True.intro ?_
    split
    · rename_i e24 e25 e26
      exact outOf (SumP (SndP (Keeps s0)) (IssueKeeps s0)) e26 (pIte (SumP (SndP (Keeps s0)) (IssueKeeps s0))
          (State.combineBlock_keeps (outOf (SndP (SndP (Keeps s0))) e21 (State.group__keeps (outOf (SumP (SndP (SndP
          (Keeps s0))) (IssueKeeps s0)) e15 (State.rowOf_keeps h))))) (inlP (sndMk (outOf (SndP (SndP (Keeps s0))) e21
          (State.group__keeps (outOf (SumP (SndP (SndP (Keeps s0))) (IssueKeeps s0)) e15 (State.rowOf_keeps h)))))))
    · rename_i e27 e28 e29 e30
      extract_lets +onlyGivenNames y31
      clear_value y31
      exact State.localReq_keeps (outOf (SumP (SndP (Keeps s0)) (IssueKeeps s0)) e30 (pIte (SumP (SndP (Keeps s0))
          (IssueKeeps s0)) (State.combineBlock_keeps (outOf (SndP (SndP (Keeps s0))) e21 (State.group__keeps (outOf
          (SumP (SndP (SndP (Keeps s0))) (IssueKeeps s0)) e15 (State.rowOf_keeps h))))) (inlP (sndMk (outOf (SndP
          (SndP (Keeps s0))) e21 (State.group__keeps (outOf (SumP (SndP (SndP (Keeps s0))) (IssueKeeps s0)) e15
          (State.rowOf_keeps h))))))))

theorem State.issueDenseWrite_keeps {s0 : State} {s x1 x2 x3 x4 : _} (h : Keeps s0 s) : (IssueKeeps s0)
    (State.issueDenseWrite s x1 x2 x3 x4) := by
  unfold State.issueDenseWrite
  extract_lets +onlyGivenNames y0 y1 y2 y3
  clear_value y0 y1 y2 y3
  refine pIte (IssueKeeps s0) True.intro ?_
  split
  · rename_i e4 e5 e6
    exact outOf (SumP (SndP (Keeps s0)) (IssueKeeps s0)) e6 (pIte (SumP (SndP (Keeps s0)) (IssueKeeps s0))
        (State.combineBlock_keeps h) (inlP (sndMk h)))
  · rename_i e7 e8 e9 e10
    exact State.localReq_keeps (outOf (SumP (SndP (Keeps s0)) (IssueKeeps s0)) e10 (pIte (SumP (SndP (Keeps s0))
        (IssueKeeps s0)) (State.combineBlock_keeps h) (inlP (sndMk h))))

theorem State.remoteReq_keeps {s0 : State} {s x1 x2 x3 x4 x5 x6 : _} (h : Keeps s0 s) : (IssueKeeps s0)
    (State.remoteReq s x1 x2 x3 x4 x5 x6) := by
  unfold State.remoteReq
  extract_lets +onlyGivenNames y0
  clear_value y0
  split
  · rename_i e1 e2
    exact State.bump_keeps h
  · rename_i e3 e4 e5
    refine pIte (IssueKeeps s0) True.intro ?_
    split
    · rename_i e6 e7 e8
      exact h
    · rename_i e9 e10 e11
      refine pIte (IssueKeeps s0) True.intro ?_
      split
      rename_i e12 e13 e14 e15
      extract_lets +onlyGivenNames y16
      have h17 : (Keeps s0) y16 := by
        unfold y16
        exact State.sendReq_keeps (outOf (SndP (Keeps s0)) e15 (State.nextEseq_keeps h))
      clear_value y16
      exact State.setRun_keeps h17

theorem State.issueRemote_keeps {s0 : State} {s x1 x2 x3 x4 : _} (h : Keeps s0 s) : (IssueKeeps s0) (State.issueRemote
    s x1 x2 x3 x4) := by
  unfold State.issueRemote
  extract_lets +onlyGivenNames y0 y1 y2 y3
  clear_value y0 y1 y2 y3
  refine pIte (IssueKeeps s0) True.intro ?_
  extract_lets +onlyGivenNames y4 y5
  clear_value y4 y5
  exact State.remoteReq_keeps h

theorem State.issueColl_keeps {s0 : State} {s x1 x2 x3 x4 x5 : _} (h : Keeps s0 s) : (IssueKeeps s0) (State.issueColl
    s x1 x2 x3 x4 x5) := by
  unfold State.issueColl
  extract_lets +onlyGivenNames y0 y1
  clear_value y0 y1
  split
  · rename_i e2 e3
    exact True.intro
  · rename_i e4 e5 e6 e7 e8 e9
    exact True.intro
  · rename_i e10 e11 e12 e13 e14 e15 e16 e17
    extract_lets +onlyGivenNames y18
    clear_value y18
    refine pIte (IssueKeeps s0) ?_ ?_
    · split
      · rename_i e19 e20
        exact h
      · rename_i e21 e22 e23
        extract_lets +onlyGivenNames y24
        clear_value y24
        exact State.setRun_keeps (State.colPut_keeps h)
    · extract_lets +onlyGivenNames y25
      clear_value y25
      exact State.remoteReq_keeps h

theorem State.issueColWrite_keeps {s0 : State} {s x1 x2 x3 x4 x5 : _} (h : Keeps s0 s) : (IssueKeeps s0)
    (State.issueColWrite s x1 x2 x3 x4 x5) := by
  unfold State.issueColWrite
  extract_lets +onlyGivenNames y0 y1
  clear_value y0 y1
  refine pIte (IssueKeeps s0) True.intro ?_
  split
  · rename_i e2 e3
    exact True.intro
  · rename_i e4 e5 e6 e7
    extract_lets +onlyGivenNames y8 y9 y10
    clear_value y8 y9 y10
    split
    · rename_i e11 e12 e13 e14 e15 e16
      exact State.localReq_keeps h
    · rename_i e17 e18
      exact True.intro
    · rename_i e19 e20 e21 e22 e23
      exact State.recordXlat_keeps (outOf (XlatKeeps s0) e23 (State.xlat_keeps h))

theorem State.nextIssue_keeps {s0 : State} {s x1 x2 x3 x4 : _} (h : Keeps s0 s) : (IssueKeeps s0) (State.nextIssue s
    x1 x2 x3 x4) := by
  unfold State.nextIssue
  split
  · rename_i e0 e1 e2
    exact issueCons (State.issueColWrite_keeps h) (issueCons (State.issueColl_keeps h) (issueCons
        (State.issueRead_keeps h) issueNil))
  · rename_i e3 e4
    exact pIte (IssueKeeps s0) (issueCons (State.issueStridedWrite_keeps h) (issueCons (State.issueDense_keeps h)
        issueNil)) (pIte (IssueKeeps s0) (State.issueRead_keeps h) (pIte (IssueKeeps s0) (issueCons
        (State.issueRemote_keeps h) (issueCons (State.issueRead_keeps h) issueNil)) (pIte (IssueKeeps s0) (issueCons
        (State.issueDenseWrite_keeps h) (issueCons (State.issueRead_keeps h) issueNil)) (State.issueRead_keeps h))))

theorem State.runLost_keeps {s0 : State} {s x1 x2 x3 x4 : _} (h : Keeps s0 s) : Keeps s0 (State.runLost s x1 x2 x3 x4)
    := by
  unfold State.runLost
  refine pIte (Keeps s0) (State.runFault_keeps h) (pIte (Keeps s0) (State.setRun_keeps h) ?_)
  extract_lets +onlyGivenNames y0
  clear_value y0
  exact State.setRun_keeps h

theorem execStreamRequestIssue_keeps {s0 : State} {x0 x1 s : _} (h : Keeps s0 s) : OutKeeps s0 (execStreamRequestIssue
    x0 x1 s) := by
  unfold execStreamRequestIssue
  split
  · rename_i e0 e1
    exact h
  · rename_i e2 e3 e4
    refine pIte (OutKeeps s0) h ?_
    split
    · rename_i e5 e6 e7
      exact outOf (IssueKeeps s0) e7 (State.nextIssue_keeps h)
    · rename_i e8 e9 e10
      exact outOf (IssueKeeps s0) e10 (State.nextIssue_keeps h)
    · rename_i e11 e12
      exact h
    · rename_i e13 e14 e15 e16 e17
      exact pIte (OutKeeps s0) (State.runLost_keeps (outOf (IssueKeeps s0) e17 (State.nextIssue_keeps h)))
          (State.runFault_keeps (outOf (IssueKeeps s0) e17 (State.nextIssue_keeps h)))

theorem State.dropReq_keeps {s0 : State} {s x1 x2 x3 x4 : _} (h : Keeps s0 s) : Keeps s0 (State.dropReq s x1 x2 x3 x4)
    := by
  unfold State.dropReq
  extract_lets +onlyGivenNames y0 y1
  have h2 : (Keeps s0) y1 := by unfold y1; exact State.drained_keeps h
  clear_value y0 y1
  exact pIte (Keeps s0) (State.endRun_keeps h2) (State.setRun_keeps h2)

theorem execStreamResponse_keeps {s0 : State} {x0 x1 x2 s : _} (h : Keeps s0 s) : OutKeeps s0 (execStreamResponse x0
    x1 x2 s) := by
  unfold execStreamResponse
  split
  · rename_i e0 e1
    exact h
  · rename_i e2 e3 e4
    split
    · rename_i e5 e6
      exact h
    · rename_i e7 e8 e9
      split
      rename_i e10 e11 e12 e13
      extract_lets +onlyGivenNames y14 y15
      have h16 : (Keeps s0) y15 := by unfold y15; exact State.dropReq_keeps h
      clear_value y14 y15
      extract_lets +onlyGivenNames y17
      clear_value y17
      exact pIte (OutKeeps s0) h16 (pIte (OutKeeps s0) (State.runLost_keeps h16) (pIte (OutKeeps s0)
          (State.runFault_keeps h16) (pIte (OutKeeps s0) h16 (pIte (OutKeeps s0) (State.runFault_keeps h16)
          (State.setRun_keeps h16)))))

theorem State.deliver_keeps {s0 : State} {s x1 x2 x3 x4 x5 x6 : _} (h : Keeps s0 s) : (IssueKeeps s0) (State.deliver s
    x1 x2 x3 x4 x5 x6) := by
  unfold State.deliver
  extract_lets +onlyGivenNames y0 y1 y2
  have h3 : ∀ b0 b1, (Keeps s0) b0 → (IssueKeeps s0) (y2 b0 b1) := by
    unfold y2
    intro a4
    intro a5
    intro a6
    exact State.setRun_keeps a6
  clear_value y0 y1 y2
  refine pIte (IssueKeeps s0) (pIte (IssueKeeps s0) (h3 _ _ h) (pIte (IssueKeeps s0) (h3 _ _ h) True.intro)) (pIte
      (IssueKeeps s0) (h3 _ _ h) (pIte (IssueKeeps s0) True.intro (pIte (IssueKeeps s0) ?_ ?_)))
  · extract_lets +onlyGivenNames y7 y8 y9
    have h10 : (SumP (SndP (Keeps s0)) (IssueKeeps s0)) y9 := by
      unfold y9
      refine pIte (SumP (SndP (Keeps s0)) (IssueKeeps s0)) (foldlP (SumP (SndP (Keeps s0)) (IssueKeeps s0)) (inlP
          (sndMk h)) (fun a11 a12 a13 => ?_)) (inlP (sndMk h))
      split
      · rename_i e14 e15 e16
        exact State.combineBlock_keeps a13
      · rename_i e17 e18
        exact a13
    clear_value y7 y8 y9
    refine pIte (IssueKeeps s0) True.intro ?_
    split
    · rename_i e19 e20
      exact h10
    · rename_i e21 e22 e23
      exact h3 _ _ (postCell_keeps h10)
  · extract_lets +onlyGivenNames y24
    clear_value y24
    refine pIte (IssueKeeps s0) True.intro ?_
    extract_lets +onlyGivenNames y25
    clear_value y25
    exact h3 _ _ (postSegs_keeps h)

theorem execBurstDeliver_keeps {s0 : State} {x0 x1 s : _} (h : Keeps s0 s) : OutKeeps s0 (execBurstDeliver x0 x1 s) :=
    by
  unfold execBurstDeliver
  split
  · rename_i e0 e1
    exact h
  · rename_i e2 e3 e4
    extract_lets +onlyGivenNames y5 y6
    clear_value y5 y6
    refine pIte (OutKeeps s0) h ?_
    split
    · rename_i e7 e8
      exact State.bump_keeps h
    · rename_i e9 e10 e11
      exact outOf (IssueKeeps s0) e11 (State.deliver_keeps h)
    · rename_i e12 e13 e14 e15 e16
      exact State.runFault_keeps (outOf (IssueKeeps s0) e16 (State.deliver_keeps h))
    · rename_i e17 e18 e19
      exact State.bump_keeps (State.bump_keeps (outOf (IssueKeeps s0) e19 (State.deliver_keeps h)))

theorem State.keepLocal_keeps {s0 : State} {s x1 x2 x3 x4 x5 : _} (h : Keeps s0 s) : Keeps s0 (State.keepLocal s x1 x2
    x3 x4 x5) := by
  unfold State.keepLocal
  extract_lets +onlyGivenNames y0 y1 y2
  clear_value y0 y1 y2
  refine pIte (Keeps s0) (postCell_keeps h) ?_
  extract_lets +onlyGivenNames y3
  clear_value y3
  refine foldlP (Keeps s0) h (fun a4 a5 a6 => ?_)
  extract_lets +onlyGivenNames y7
  clear_value y7
  exact postSegs_keeps a6

theorem State.keepRemote_keeps {s0 : State} {s x1 x2 x3 x4 x5 x6 x7 x8 x9 : _} (h : Keeps s0 s) : (IssueKeeps s0)
    (State.keepRemote s x1 x2 x3 x4 x5 x6 x7 x8 x9) := by
  unfold State.keepRemote
  extract_lets +onlyGivenNames y0 y1 y2 y3 y4
  clear_value y0 y1 y2 y3 y4
  refine pIte (IssueKeeps s0) True.intro ?_
  extract_lets +onlyGivenNames y5 y6
  clear_value y5 y6
  exact State.remoteReq_keeps h

theorem State.keepHere_keeps {s0 : State} {s x1 x2 x3 x4 x5 x6 x7 x8 x9 : _} (h : Keeps s0 s) : (IssueKeeps s0)
    (State.keepHere s x1 x2 x3 x4 x5 x6 x7 x8 x9) := by
  unfold State.keepHere
  extract_lets +onlyGivenNames y0
  clear_value y0
  refine pIte (IssueKeeps s0) True.intro ?_
  extract_lets +onlyGivenNames y1 y2
  have h3 : (Keeps s0) y2 := by unfold y2; exact State.keepLocal_keeps h
  clear_value y1 y2
  exact State.setRun_keeps h3

theorem State.stopStep_keeps {s0 : State} {s x1 x2 x3 x4 x5 x6 : _} (h : Keeps s0 s) : (IssueKeeps s0) (State.stopStep
    s x1 x2 x3 x4 x5 x6) := by
  unfold State.stopStep
  extract_lets +onlyGivenNames y0
  clear_value y0
  split
  rename_i e1 e2 e3 e4
  extract_lets +onlyGivenNames y5
  clear_value y5
  exact pIte (IssueKeeps s0) (pIte (IssueKeeps s0) (State.keepRemote_keeps h) (State.keepHere_keeps h)) (pIte
      (IssueKeeps s0) (State.setRun_keeps h) (pIte (IssueKeeps s0) (State.setRun_keeps h) True.intro))

theorem State.pruneStop_keeps {s0 : State} {s x1 x2 x3 : _} (h : Keeps s0 s) : Keeps s0 (State.pruneStop s x1 x2 x3)
    := by
  unfold State.pruneStop
  split
  · rename_i e0 e1
    exact h
  · rename_i e2 e3 e4
    extract_lets +onlyGivenNames y5
    clear_value y5
    exact State.setRun_keeps h

theorem execCaravanBurstForward_keeps {s0 : State} {x0 x1 x2 s : _} (h : Keeps s0 s) : OutKeeps s0
    (execCaravanBurstForward x0 x1 x2 s) := by
  unfold execCaravanBurstForward
  split
  · rename_i e0 e1
    exact h
  · rename_i e2 e3 e4
    refine pIte (OutKeeps s0) h ?_
    split
    · rename_i e5 e6
      exact State.pruneStop_keeps h
    · rename_i e7 e8 e9 e10
      split
      · rename_i e11 e12 e13
        exact State.pruneStop_keeps (outOf (IssueKeeps s0) e13 (State.stopStep_keeps h))
      · rename_i e14 e15 e16
        exact outOf (IssueKeeps s0) e16 (State.stopStep_keeps h)
      · rename_i e17 e18
        exact State.bump_keeps h
      · rename_i e19 e20 e21 e22 e23
        exact pIte (OutKeeps s0) (State.runLost_keeps (outOf (IssueKeeps s0) e23 (State.stopStep_keeps h)))
            (State.runFault_keeps (outOf (IssueKeeps s0) e23 (State.stopStep_keeps h)))

theorem execCaravanStopConfirm_keeps {s0 : State} {x0 x1 x2 s : _} (h : Keeps s0 s) : OutKeeps s0
    (execCaravanStopConfirm x0 x1 x2 s) := by
  unfold execCaravanStopConfirm
  split
  · rename_i e0 e1
    exact h
  · rename_i e2 e3 e4
    extract_lets +onlyGivenNames y5
    clear_value y5
    exact pIte (OutKeeps s0) h (State.setRun_keeps h)

theorem State.runEnded_keeps {s0 : State} {s x1 x2 x3 : _} (h : Keeps s0 s) : Keeps s0 (State.runEnded s x1 x2 x3) :=
    by
  unfold State.runEnded
  extract_lets +onlyGivenNames y0 y1
  have h2 : (Keeps s0) y1 := by unfold y1; exact pIte (Keeps s0) (State.setPav_keeps h) h
  clear_value y0 y1
  exact pIte (Keeps s0) (State.confirm_keeps h2) h2

theorem execRunComplete_keeps {s0 : State} {x0 x1 s : _} (h : Keeps s0 s) : OutKeeps s0 (execRunComplete x0 x1 s) :=
    by
  unfold execRunComplete
  split
  · rename_i e0 e1
    exact h
  · rename_i e2 e3 e4
    extract_lets +onlyGivenNames y5 y6
    clear_value y5 y6
    refine pIte (OutKeeps s0) h ?_
    extract_lets +onlyGivenNames y7
    have h8 : (Keeps s0) y7 := by unfold y7; exact State.endRun_keeps (State.wr_keeps (State.wr_keeps h))
    clear_value y7
    exact State.runEnded_keeps h8

theorem execContextStopped_keeps {s0 : State} {x0 x1 s : _} (h : Keeps s0 s) : OutKeeps s0 (execContextStopped x0 x1
    s) := by
  unfold execContextStopped
  split
  · rename_i e0 e1
    exact h
  · rename_i e2 e3 e4
    refine pIte (OutKeeps s0) h ?_
    extract_lets +onlyGivenNames y5
    have h6 : (Keeps s0) y5 := by unfold y5; exact pIte (Keeps s0) h (State.wr_keeps h)
    clear_value y5
    extract_lets +onlyGivenNames y7
    have h8 : (Keeps s0) y7 := by unfold y7; exact State.confirm_keeps h6
    clear_value y7
    extract_lets +onlyGivenNames y9
    have h10 : (Keeps s0) y9 := by
      unfold y9
      refine pIte (Keeps s0) ?_ h6
      split
      · rename_i e11 e12 e13
        exact State.addStile_keeps h8
      · rename_i e14 e15
        exact h8
    clear_value y9
    exact State.endRun_keeps h10

/-! ### Machine/Pavilion.lean -/

theorem State.pavRead_keeps {s0 : State} {s x1 x2 x3 : _} (h : Keeps s0 s) : (VResKeeps s0) (State.pavRead s x1 x2 x3)
    := by
  unfold State.pavRead
  exact State.virtRead_keeps h

theorem State.pavWrite_keeps {s0 : State} {s x1 x2 x3 : _} (h : Keeps s0 s) : (VResKeeps s0) (State.pavWrite s x1 x2
    x3) := by
  unfold State.pavWrite
  extract_lets +onlyGivenNames y0
  clear_value y0
  split
  · rename_i e1 e2
    exact True.intro
  · rename_i e3 e4 e5 e6 e7
    exact State.recordXlat_keeps (outOf (XlatKeeps s0) e7 (State.xlat_keeps h))
  · rename_i e8 e9 e10 e11 e12 e13
    split
    · rename_i e14 e15 e16 e17
      exact outOf (MemResKeeps s0) e17 (State.writeAs_keeps (outOf (XlatKeeps s0) e13 (State.xlat_keeps h)))
    · rename_i e18 e19
      exact True.intro
    · rename_i e20 e21 e22 e23
      exact outOf (MemResKeeps s0) e23 (State.writeAs_keeps (outOf (XlatKeeps s0) e13 (State.xlat_keeps h)))

theorem State.fetchWord_keeps {s0 : State} {s x1 x2 x3 : _} (h : Keeps s0 s) : (OptP (SndP (Keeps s0)))
    (State.fetchWord s x1 x2 x3) := by
  unfold State.fetchWord
  split
  · rename_i e0 e1
    exact True.intro
  · rename_i e2 e3 e4 e5 e6
    exact someP (sndMk (outOf (VResKeeps s0) e6 (State.virtRead_keeps h)))
  · rename_i e7 e8 e9 e10
    exact someP (sndMk (outOf (VResKeeps s0) e10 (State.virtRead_keeps h)))

theorem execPrefetchWord_keeps {s0 : State} {x0 x1 s : _} (h : Keeps s0 s) : OutKeeps s0 (execPrefetchWord x0 x1 s) :=
    by
  unfold execPrefetchWord
  extract_lets +onlyGivenNames y0
  clear_value y0
  split
  · rename_i e1 e2
    exact h
  · rename_i e3 e4 e5
    refine pIte (OutKeeps s0) h ?_
    split
    · rename_i e6 e7
      exact h
    · rename_i e8 e9 e10 e11
      exact State.setSlice_keeps (outOf (OptP (SndP (Keeps s0))) e11 (State.fetchWord_keeps h))

theorem State.hintWord_keeps {s0 : State} {x0 x1 s x3 : _} (h : Keeps s0 s) : Keeps s0 (State.hintWord x0 x1 s x3) :=
    by
  unfold State.hintWord
  split
  · rename_i e0 e1 e2 e3 e4
    exact State.setSlice_keeps (outOf (OptP (SndP (Keeps s0))) e4 (State.fetchWord_keeps h))
  · rename_i e5 e6
    exact h

theorem execCtlPfh_keeps {s0 : State} {x0 x1 x2 x3 s : _} (h : Keeps s0 s) : OutKeeps s0 (execCtlPfh x0 x1 x2 x3 s) :=
    by
  unfold execCtlPfh
  refine pIte (OutKeeps s0) h ?_
  extract_lets +onlyGivenNames y0
  have h1 : (Keeps s0) y0 := by unfold y0; exact State.setSlice_keeps h
  clear_value y0
  extract_lets +onlyGivenNames y2
  clear_value y2
  exact foldlP (Keeps s0) h1 (fun a3 a4 a5 => State.hintWord_keeps a5)

theorem State.clearBuffers_keeps {s0 : State} {s x1 : _} (h : Keeps s0 s) : Keeps s0 (State.clearBuffers s x1) := by
  unfold State.clearBuffers
  refine foldlP (Keeps s0) h (fun a0 a1 a2 => ?_)
  split
  · rename_i e3 e4 e5
    exact State.setSlice_keeps a2
  · rename_i e6 e7
    exact a2

theorem State.pageWrite_keeps {s0 : State} {s x1 : _} (h : Keeps s0 s) (hf : ∀ b0, Keeps s0 b0 → Keeps s0 (x1 b0)) :
    Keeps s0 (State.pageWrite s x1) := by
  unfold State.pageWrite
  exact pIte (Keeps s0) h (hf _ h)

theorem execPavProgCommitGo_keeps {s0 : State} {x0 x1 s : _} (h : Keeps s0 s) : OutKeeps s0 (execPavProgCommitGo x0 x1
    s) := by
  unfold execPavProgCommitGo
  exact State.pageWrite_keeps h (fun a0 a1 => State.commitGo_keeps a1)

theorem execPavProgCommitApply_keeps {s0 : State} {x0 s : _} (h : Keeps s0 s) : OutKeeps s0 (execPavProgCommitApply x0
    s) := by
  unfold execPavProgCommitApply
  refine pIte (OutKeeps s0) h (pIte (OutKeeps s0) (State.commitEnd_keeps h) ?_)
  extract_lets +onlyGivenNames y0
  have h1 : (Keeps s0) y0 := by unfold y0; exact State.commitField_keeps (State.commitField_keeps h)
  clear_value y0
  exact State.clearBuffers_keeps (State.wr_keeps (State.commitEnd_keeps h1))

theorem State.programBytes_keeps {s0 : State} {s x1 : _} (h : Keeps s0 s) : (VResKeeps s0) (State.programBytes s x1)
    := by
  unfold State.programBytes
  exact State.virtRead_keeps h

theorem State.programFails_keeps {s0 : State} {s x1 : _} (h : Keeps s0 s) : Keeps s0 (State.programFails s x1) := by
  unfold State.programFails
  extract_lets +onlyGivenNames y0 y1
  have h2 : (Keeps s0) y1 := by unfold y1; exact State.setPav_keeps (State.wr_keeps h)
  clear_value y0 y1
  exact State.wr_keeps (State.wr_keeps h2)

theorem State.registered_keeps {s0 : State} {s x1 : _} (h : Keeps s0 s) : Keeps s0 (State.registered s x1) := by
  unfold State.registered
  exact State.digestDue_keeps (State.announce_keeps (State.wr_keeps h))

theorem State.unreadWord_keeps {s0 : State} {s x1 x2 : _} (h : Keeps s0 s) : Keeps s0 (State.unreadWord s x1 x2) := by
  unfold State.unreadWord
  split
  rename_i e0 e1 e2 e3
  exact State.recordXlat_keeps (outOf (SndP (Keeps s0)) e3 (State.free_keeps h))

theorem execProgramRegistrationDone_keeps {s0 : State} {x0 s : _} (h : Keeps s0 s) : OutKeeps s0
    (execProgramRegistrationDone x0 s) := by
  unfold execProgramRegistrationDone
  refine pIte (OutKeeps s0) h (pIte (OutKeeps s0) (State.registered_keeps (State.setPav_keeps h)) ?_)
  split
  · rename_i e0 e1
    exact h
  · rename_i e2 e3 e4 e5 e6
    exact State.registered_keeps (State.programFails_keeps (pIte (Keeps s0) (outOf (VResKeeps s0) e6
        (State.programBytes_keeps h)) (State.unreadWord_keeps (outOf (VResKeeps s0) e6 (State.programBytes_keeps
        h)))))
  · rename_i e7 e8 e9 e10
    exact pIte (OutKeeps s0) (State.registered_keeps (State.setPav_keeps (outOf (VResKeeps s0) e10
        (State.programBytes_keeps h)))) (State.registered_keeps (State.programFails_keeps (State.unreadWord_keeps
        (outOf (VResKeeps s0) e10 (State.programBytes_keeps h)))))

theorem State.setQp_keeps {s0 : State} {s x1 x2 x3 : _} (h : Keeps s0 s) : Keeps s0 (State.setQp s x1 x2 x3) := by
  unfold State.setQp
  exact pIte (Keeps s0) h (State.event_keeps (State.wr_keeps h))

theorem State.unbindQp_keeps {s0 : State} {s x1 x2 : _} (h : Keeps s0 s) : Keeps s0 (State.unbindQp s x1 x2) := by
  unfold State.unbindQp
  extract_lets +onlyGivenNames y0
  clear_value y0
  exact State.setPav_keeps h

theorem execPavQpCommitGo_keeps {s0 : State} {x0 x1 s : _} (h : Keeps s0 s) : OutKeeps s0 (execPavQpCommitGo x0 x1 s)
    := by
  unfold execPavQpCommitGo
  exact State.pageWrite_keeps h (fun a0 a1 => State.commitGo_keeps a1)

theorem State.qpInstall_keeps {s0 : State} {s x1 x2 : _} (h : Keeps s0 s) : Keeps s0 (State.qpInstall s x1 x2) := by
  unfold State.qpInstall
  extract_lets +onlyGivenNames y0
  have h1 : (Keeps s0) y0 := by unfold y0; exact foldlP (Keeps s0) h (fun a2 a3 a4 => State.commitField_keeps a4)
  clear_value y0
  extract_lets +onlyGivenNames y5
  have h6 : (Keeps s0) y5 := by unfold y5; exact State.wr_keeps (State.wr_keeps (State.wr_keeps h1))
  clear_value y5
  extract_lets +onlyGivenNames y7
  have h8 : (Keeps s0) y7 := by unfold y7; exact State.unbindQp_keeps (State.wr_keeps h6)
  clear_value y7
  exact State.setQp_keeps h8

theorem execPavQpCommitApply_keeps {s0 : State} {x0 s : _} (h : Keeps s0 s) : OutKeeps s0 (execPavQpCommitApply x0 s)
    := by
  unfold execPavQpCommitApply
  refine pIte (OutKeeps s0) h ?_
  extract_lets +onlyGivenNames y0
  clear_value y0
  exact pIte (OutKeeps s0) (State.commitEnd_keeps h) (State.commitEnd_keeps (foldlP (Keeps s0) h (fun a1 a2 a3 =>
      State.qpInstall_keeps a3)))

theorem State.badDb_keeps {s0 : State} {s x1 x2 : _} (h : Keeps s0 s) : Keeps s0 (State.badDb s x1 x2) := by
  unfold State.badDb
  exact State.bump_keeps h

theorem sqDoorbellOp_keeps {s0 : State} {x0 x1 x2 x3 s : _} (h : Keeps s0 s) : OutKeeps s0 (sqDoorbellOp x0 x1 x2 x3
    s) := by
  unfold sqDoorbellOp
  extract_lets +onlyGivenNames y0
  clear_value y0
  exact State.pageWrite_keeps h (fun a1 a2 => pIte (Keeps s0) (State.badDb_keeps a2) (State.wr_keeps a2))

theorem execSqDoorbell_keeps {s0 : State} {x0 x1 x2 x3 s : _} (h : Keeps s0 s) : OutKeeps s0 (execSqDoorbell x0 x1 x2
    x3 s) := by
  unfold execSqDoorbell
  exact sqDoorbellOp_keeps h

theorem cqHeadWriteOp_keeps {s0 : State} {x0 x1 x2 x3 s : _} (h : Keeps s0 s) : OutKeeps s0 (cqHeadWriteOp x0 x1 x2 x3
    s) := by
  unfold cqHeadWriteOp
  extract_lets +onlyGivenNames y0
  clear_value y0
  exact State.pageWrite_keeps h (fun a1 a2 => pIte (Keeps s0) (State.badDb_keeps a2) (State.wr_keeps a2))

theorem execCqHeadWrite_keeps {s0 : State} {x0 x1 x2 x3 s : _} (h : Keeps s0 s) : OutKeeps s0 (execCqHeadWrite x0 x1
    x2 x3 s) := by
  unfold execCqHeadWrite
  exact cqHeadWriteOp_keeps h

theorem pavQpTokenWriteOp_keeps {s0 : State} {x0 x1 x2 x3 x4 s : _} (h : Keeps s0 s) : OutKeeps s0 (pavQpTokenWriteOp
    x0 x1 x2 x3 x4 s) := by
  unfold pavQpTokenWriteOp
  refine State.pageWrite_keeps h (fun a0 a1 => ?_)
  extract_lets +onlyGivenNames y2
  have h3 : (Keeps s0) y2 := by unfold y2; exact State.setReg_keeps a1
  clear_value y2
  refine pIte (Keeps s0) h3 ?_
  extract_lets +onlyGivenNames y4 y5
  clear_value y4 y5
  exact pIte (Keeps s0) (State.setQp_keeps (State.wr_keeps (State.setPav_keeps h3))) (State.setPav_keeps h3)

theorem execPavQpTokenWrite_keeps {s0 : State} {x0 x1 x2 x3 x4 s : _} (h : Keeps s0 s) : OutKeeps s0
    (execPavQpTokenWrite x0 x1 x2 x3 x4 s) := by
  unfold execPavQpTokenWrite
  exact pavQpTokenWriteOp_keeps h

theorem State.flushVec_keeps {s0 : State} {s x1 x2 : _} (h : Keeps s0 s) : Keeps s0 (State.flushVec s x1 x2) := by
  unfold State.flushVec
  exact pIte (Keeps s0) (State.deliverVec_keeps (State.wr_keeps h)) h

theorem State.evecWrite_keeps {s0 : State} {s x1 x2 x3 : _} (h : Keeps s0 s) : Keeps s0 (State.evecWrite s x1 x2 x3)
    := by
  unfold State.evecWrite
  extract_lets +onlyGivenNames y0 y1 y2
  have h3 : (Keeps s0) y2 := by unfold y2; exact foldlP (Keeps s0) h (fun a4 a5 a6 => State.wr_keeps a6)
  clear_value y0 y1 y2
  extract_lets +onlyGivenNames y7 y8
  have h9 : (Keeps s0) y8 := by unfold y8; exact pIte (Keeps s0) (State.wr_keeps h3) h3
  clear_value y7 y8
  extract_lets +onlyGivenNames y10
  have h11 : (Keeps s0) y10 := by unfold y10; exact pIte (Keeps s0) (State.wr_keeps h9) h9
  clear_value y10
  extract_lets +onlyGivenNames y12
  have h13 : (Keeps s0) y12 := by unfold y12; exact pIte (Keeps s0) (State.wr_keeps h11) h11
  clear_value y12
  extract_lets +onlyGivenNames y14
  have h15 : (Keeps s0) y14 := by unfold y14; exact pIte (Keeps s0) (State.wr_keeps h13) h13
  clear_value y14
  exact pIte (Keeps s0) (State.flushVec_keeps h15) h15

theorem pavEvecWriteOp_keeps {s0 : State} {x0 x1 x2 x3 s : _} (h : Keeps s0 s) : OutKeeps s0 (pavEvecWriteOp x0 x1 x2
    x3 s) := by
  unfold pavEvecWriteOp
  exact State.pageWrite_keeps h (fun a0 a1 => State.evecWrite_keeps a1)

theorem execPavEvecWrite_keeps {s0 : State} {x0 x1 x2 x3 s : _} (h : Keeps s0 s) : OutKeeps s0 (execPavEvecWrite x0 x1
    x2 x3 s) := by
  unfold execPavEvecWrite
  exact pavEvecWriteOp_keeps h

theorem State.writeRecord_keeps {s0 : State} {s x1 x2 x3 x4 : _} (h : Keeps s0 s) : (OptP (Keeps s0))
    (State.writeRecord s x1 x2 x3 x4) := by
  unfold State.writeRecord
  extract_lets +onlyGivenNames y0 y1 y2
  clear_value y0 y1 y2
  split
  · rename_i e3 e4
    exact True.intro
  · rename_i e5 e6 e7 e8 e9
    exact someP (State.setQp_keeps (outOf (VResKeeps s0) e9 (State.pavWrite_keeps h)))
  · rename_i e10 e11 e12 e13
    extract_lets +onlyGivenNames y14
    have h15 : (Keeps s0) y14 := by
      unfold y14
      exact State.wr_keeps (outOf (VResKeeps s0) e13 (State.pavWrite_keeps h))
    clear_value y14
    extract_lets +onlyGivenNames y16
    have h17 : (Keeps s0) y16 := by unfold y16; exact pIte (Keeps s0) (State.kmtPost_keeps h15) h15
    clear_value y16
    exact someP (pIte (Keeps s0) (State.event_keeps h17) h17)

theorem State.startRun_keeps {s0 : State} {s x1 x2 x3 x4 : _} (h : Keeps s0 s) : Keeps s0 (State.startRun s x1 x2 x3
    x4) := by
  unfold State.startRun
  extract_lets +onlyGivenNames y0
  have h1 : (Keeps s0) y0 := by unfold y0; exact foldlP (Keeps s0) h (fun a2 a3 a4 => State.setVec_keeps a4)
  clear_value y0
  extract_lets +onlyGivenNames y5 y6
  have h7 : (Keeps s0) y6 := by unfold y6; exact foldlP (Keeps s0) h1 (fun a8 a9 a10 => State.setSlice_keeps a10)
  clear_value y5 y6
  extract_lets +onlyGivenNames y11 y12
  have h13 : (Keeps s0) y12 := by unfold y12; exact State.setPav_keeps h7
  clear_value y11 y12
  exact State.setPavState_keeps h13

theorem State.sqRead_keeps {s0 : State} {s x1 x2 : _} (h : Keeps s0 s) : (VResKeeps s0) (State.sqRead s x1 x2) := by
  unfold State.sqRead
  exact State.pavRead_keeps h

theorem State.sqTaken_keeps {s0 : State} {s x1 x2 x3 : _} (h : Keeps s0 s) : Keeps s0 (State.sqTaken s x1 x2 x3) := by
  unfold State.sqTaken
  extract_lets +onlyGivenNames y0
  have h1 : (Keeps s0) y0 := by unfold y0; exact State.wr_keeps (State.wr_keeps h)
  clear_value y0
  exact State.setPav_keeps h1

theorem execSqEntryTake_keeps {s0 : State} {x0 s : _} (h : Keeps s0 s) : OutKeeps s0 (execSqEntryTake x0 s) := by
  unfold execSqEntryTake
  split
  · rename_i e0 e1
    exact h
  · rename_i e2 e3 e4
    refine pIte (OutKeeps s0) h ?_
    split
    · rename_i e5 e6
      exact h
    · rename_i e7 e8 e9 e10 e11
      exact State.setQp_keeps (outOf (VResKeeps s0) e11 (State.sqRead_keeps h))
    · rename_i e12 e13 e14 e15
      refine pIte (OutKeeps s0) (State.setQp_keeps (outOf (VResKeeps s0) e15 (State.sqRead_keeps h))) ?_
      extract_lets +onlyGivenNames y16 y17 y18
      have h19 : (Keeps s0) y18 := by
        unfold y18
        exact State.sqTaken_keeps (outOf (VResKeeps s0) e15 (State.sqRead_keeps h))
      clear_value y16 y17 y18
      refine pIte (OutKeeps s0) (State.startRun_keeps h19) ?_
      extract_lets +onlyGivenNames y20
      clear_value y20
      exact getDP (Keeps s0) (State.writeRecord_keeps h19) h

theorem execPavilionHalted_keeps {s0 : State} {x0 s : _} (h : Keeps s0 s) : OutKeeps s0 (execPavilionHalted x0 s) :=
    by
  unfold execPavilionHalted
  refine pIte (OutKeeps s0) h ?_
  split
  · rename_i e0 e1
    exact h
  · rename_i e2 e3 e4
    split
    · rename_i e5 e6
      exact h
    · rename_i e7 e8 e9
      exact State.setPavState_keeps (State.setPav_keeps (outOf (OptP (Keeps s0)) e9 (State.writeRecord_keeps h)))

theorem pavFenceWriteOp_keeps {s0 : State} {x0 x1 x2 s : _} (h : Keeps s0 s) : OutKeeps s0 (pavFenceWriteOp x0 x1 x2
    s) := by
  unfold pavFenceWriteOp
  exact State.pageWrite_keeps h (fun a0 a1 => pIte (Keeps s0) (State.fence_keeps a1) a1)

theorem execPavFenceWrite_keeps {s0 : State} {x0 x1 x2 s : _} (h : Keeps s0 s) : OutKeeps s0 (execPavFenceWrite x0 x1
    x2 s) := by
  unfold execPavFenceWrite
  exact pavFenceWriteOp_keeps h

theorem State.moveRecord_keeps {s0 : State} {s x1 x2 x3 x4 x5 x6 : _} (h : Keeps s0 s) : (OptP (Keeps s0))
    (State.moveRecord s x1 x2 x3 x4 x5 x6) := by
  unfold State.moveRecord
  extract_lets +onlyGivenNames y0 y1 y2 y3
  clear_value y0 y1 y2 y3
  refine pIte (OptP (Keeps s0)) (someP (State.bump_keeps h)) (mapOptP (Keeps s0) (Keeps s0) (State.pathWrite_keeps h)
      (fun a4 a5 => ?_))
  extract_lets +onlyGivenNames y6
  have h7 : (Keeps s0) y6 := by unfold y6; exact pIte (Keeps s0) (State.bump_keeps a5) a5
  clear_value y6
  exact State.event_keeps (State.wr_keeps h7)

theorem State.findPte_keeps {s0 : State} {x0 x1 x2 x3 s : _} (h : Keeps s0 s) : (PteKeeps s0) (State.findPte x0 x1 x2
    x3 s) := by
  induction x1 generalizing x0 x2 x3 s
  · unfold State.findPte
    exact h
  · rename_i e0 e1
    unfold State.findPte
    refine pIte (PteKeeps s0) h ?_
    extract_lets +onlyGivenNames y2
    clear_value y2
    split
    · rename_i e3 e4
      exact True.intro
    · rename_i e5 e6 e7 e8
      extract_lets +onlyGivenNames y9
      clear_value y9
      exact pIte (PteKeeps s0) (outOf (OptP (SndP (Keeps s0))) e8 (State.pathRead_keeps h)) (pIte (PteKeeps s0) (outOf
          (OptP (SndP (Keeps s0))) e8 (State.pathRead_keeps h)) (e1 (outOf (OptP (SndP (Keeps s0))) e8
          (State.pathRead_keeps h))))

theorem State.putPte_keeps {s0 : State} {s x1 x2 : _} (h : Keeps s0 s) : (OptP (Keeps s0)) (State.putPte s x1 x2) :=
    by
  unfold State.putPte
  exact State.pathWrite_keeps h

theorem State.releasePage_keeps {s0 : State} {s x1 x2 x3 x4 x5 x6 x7 x8 : _} (h : Keeps s0 s) : (OptP (Keeps s0))
    (State.releasePage s x1 x2 x3 x4 x5 x6 x7 x8) := by
  unfold State.releasePage
  extract_lets +onlyGivenNames y0 y1
  clear_value y0 y1
  exact bindOptP (Keeps s0) (Keeps s0) (State.putPte_keeps h) (fun a2 a3 => bindOptP (Keeps s0) (Keeps s0)
      (State.putPte_keeps a3) (fun a4 a5 => State.moveRecord_keeps a5))

theorem State.releasePages_keeps {s0 : State} {x0 x1 x2 x3 x4 s : _} (h : Keeps s0 s) : (OptP (Keeps s0))
    (State.releasePages x0 x1 x2 x3 x4 s) := by
  induction x1 generalizing x0 x2 x3 x4 s
  · unfold State.releasePages
    exact someP h
  · rename_i e0 e1
    unfold State.releasePages
    refine pIte (OptP (Keeps s0)) (someP h) ?_
    split
    · rename_i e2 e3
      exact True.intro
    · rename_i e4 e5 e6
      exact e1 (outOf (PteKeeps s0) e6 (State.findPte_keeps h))
    · rename_i e7 e8 e9 e10 e11 e12
      split
      · rename_i e13 e14
        exact True.intro
      · rename_i e15 e16 e17
        exact e1 (outOf (PteKeeps s0) e17 (State.findPte_keeps (outOf (PteKeeps s0) e12 (State.findPte_keeps h))))
      · rename_i e18 e19 e20 e21 e22 e23
        extract_lets +onlyGivenNames y24
        clear_value y24
        exact bindOptP (Keeps s0) (Keeps s0) (State.releasePage_keeps (outOf (PteKeeps s0) e23 (State.findPte_keeps
            (outOf (PteKeeps s0) e12 (State.findPte_keeps h))))) (fun a25 a26 => e1 a26)

theorem execMoveRelease_keeps {s0 : State} {x0 s : _} (h : Keeps s0 s) : OutKeeps s0 (execMoveRelease x0 s) := by
  unfold execMoveRelease
  split
  · rename_i e0 e1
    exact h
  · rename_i e2 e3 e4 e5
    refine pIte (OutKeeps s0) h ?_
    split
    · rename_i e6 e7
      exact h
    · rename_i e8 e9 e10
      exact State.invOwn_keeps (State.invOwn_keeps (outOf (OptP (Keeps s0)) e10 (State.releasePages_keeps
          (State.setPav_keeps h))))

theorem State.discardPages_keeps {s0 : State} {x0 x1 x2 x3 x4 s : _} (h : Keeps s0 s) : (OptP (Keeps s0))
    (State.discardPages x0 x1 x2 x3 x4 s) := by
  induction x1 generalizing x0 x2 x3 x4 s
  · unfold State.discardPages
    exact someP h
  · rename_i e0 e1
    unfold State.discardPages
    refine pIte (OptP (Keeps s0)) (someP h) ?_
    split
    · rename_i e2 e3
      exact True.intro
    · rename_i e4 e5 e6
      split
      rename_i e7 e8 e9 e10
      exact bindOptP (Keeps s0) (Keeps s0) (State.moveRecord_keeps (outOf (SndP (Keeps s0)) e10 (State.free_keeps
          (outOf (PteKeeps s0) e6 (State.findPte_keeps h))))) (fun a11 a12 => e1 a12)
    · rename_i e13 e14 e15 e16 e17 e18
      extract_lets +onlyGivenNames y19
      clear_value y19
      exact bindOptP (Keeps s0) (Keeps s0) (State.moveRecord_keeps (outOf (PteKeeps s0) e18 (State.findPte_keeps h)))
          (fun a20 a21 => e1 a21)

theorem State.discardMoves_keeps {s0 : State} {s x1 : _} (h : Keeps s0 s) : (OptP (Keeps s0)) (State.discardMoves s
    x1) := by
  unfold State.discardMoves
  exact foldlP (OptP (Keeps s0)) (someP (State.setPav_keeps h)) (fun a0 a1 a2 => bindOptP (Keeps s0) (Keeps s0) a2
      (fun a3 a4 => State.discardPages_keeps a4))

theorem State.flushPav_keeps {s0 : State} {s x1 : _} (h : Keeps s0 s) : Keeps s0 (State.flushPav s x1) := by
  unfold State.flushPav
  extract_lets +onlyGivenNames y0 y1
  have h2 : (Keeps s0) y1 := by unfold y1; exact State.setPav_keeps h
  clear_value y0 y1
  exact foldlP (Keeps s0) h2 (fun a3 a4 a5 => pIte (Keeps s0) (State.setQueue_keeps a5) a5)

theorem State.reloadContexts_keeps {s0 : State} {s x1 : _} (h : Keeps s0 s) : Keeps s0 (State.reloadContexts s x1) :=
    by
  unfold State.reloadContexts
  exact foldlP (Keeps s0) h (fun a0 a1 a2 => pIte (Keeps s0) (foldlP (Keeps s0) a2 (fun a3 a4 a5 => pIte (Keeps s0)
      (State.wr_keeps a5) a5)) a2)

theorem State.resetBeds_keeps {s0 : State} {s x1 : _} (h : Keeps s0 s) : Keeps s0 (State.resetBeds s x1) := by
  unfold State.resetBeds
  exact foldlP (Keeps s0) h (fun a0 a1 a2 => State.bedReset_keeps a2)

theorem State.restoreSnap_keeps {s0 : State} {s x1 x2 : _} (h : Keeps s0 s) : Keeps s0 (State.restoreSnap s x1 x2) :=
    by
  unfold State.restoreSnap
  extract_lets +onlyGivenNames y0
  have h1 : (Keeps s0) y0 := by
    unfold y0
    refine foldlP (Keeps s0) h (fun a2 a3 a4 => ?_)
    split
    rename_i e5 e6 e7
    exact State.setReg_keeps a4
  clear_value y0
  extract_lets +onlyGivenNames y8
  have h9 : (Keeps s0) y8 := by
    unfold y8
    refine foldlP (Keeps s0) h1 (fun a10 a11 a12 => ?_)
    split
    rename_i e13 e14 e15
    exact State.restoreDrain_keeps a12
  clear_value y8
  extract_lets +onlyGivenNames y16 y17 y18
  have h19 : (Keeps s0) y18 := by unfold y18; exact foldlP (Keeps s0) h9 (fun a20 a21 a22 => State.setSlice_keeps a22)
  clear_value y16 y17 y18
  extract_lets +onlyGivenNames y23
  clear_value y23
  exact State.setPav_keeps h19

theorem State.needReset_keeps {s0 : State} {s x1 : _} (h : Keeps s0 s) : Keeps s0 (State.needReset s x1) := by
  unfold State.needReset
  exact State.wr_keeps (State.setPav_keeps h)

theorem execReplayRestore_keeps {s0 : State} {x0 s : _} (h : Keeps s0 s) : OutKeeps s0 (execReplayRestore x0 s) := by
  unfold execReplayRestore
  split
  · rename_i e0 e1
    exact h
  · rename_i e2 e3 e4
    refine pIte (OutKeeps s0) h ?_
    extract_lets +onlyGivenNames y5
    have h6 : (Keeps s0) y5 := by
      unfold y5
      exact State.armMark_keeps (State.restoreSnap_keeps (State.reloadContexts_keeps (State.resetBeds_keeps
          (State.flushPav_keeps h))))
    clear_value y5
    extract_lets +onlyGivenNames y7
    have h8 : (Keeps s0) y7 := by unfold y7; exact State.wr_keeps h6
    clear_value y7
    exact State.setPavState_keeps h8

/-! ### Machine/Collectives.lean -/

theorem State.engWrite_keeps {s0 : State} {s x1 x2 x3 x4 : _} (h : Keeps s0 s) : (VResKeeps s0) (State.engWrite s x1
    x2 x3 x4) := by
  unfold State.engWrite
  refine foldlP (VResKeeps s0) h (fun a0 a1 a2 => ?_)
  split
  rename_i e3 e4 e5
  split
  · rename_i e6 e7 e8
    split
    · rename_i e9 e10
      exact True.intro
    · rename_i e11 e12 e13 e14 e15
      exact State.recordXlat_keeps (outOf (XlatKeeps s0) e15 (State.xlat_keeps a2))
    · rename_i e16 e17 e18 e19 e20 e21
      refine pIte (VResKeeps s0) True.intro ?_
      split
      · rename_i e22 e23 e24 e25
        exact outOf (MemResKeeps s0) e25 (State.writeAs_keeps (outOf (XlatKeeps s0) e21 (State.xlat_keeps a2)))
      · rename_i e26 e27
        exact True.intro
      · rename_i e28 e29 e30 e31
        exact outOf (MemResKeeps s0) e31 (State.writeAs_keeps (outOf (XlatKeeps s0) e21 (State.xlat_keeps a2)))
  · rename_i e32 e33
    exact a2

theorem State.beginCollective_keeps {s0 : State} {s x1 x2 x3 x4 x5 x6 : _} (h : Keeps s0 s) : Keeps s0
    (State.beginCollective s x1 x2 x3 x4 x5 x6) := by
  unfold State.beginCollective
  extract_lets +onlyGivenNames y0 y1
  have h2 : (Keeps s0) y1 := by unfold y1; exact State.xchTake_keeps (State.beginRun_keeps h)
  clear_value y0 y1
  refine pIte (Keeps s0) h2 ?_
  split
  · rename_i e3 e4 e5
    exact pIte (Keeps s0) (State.runLost_keeps h2) (State.wr_keeps (State.runLost_keeps h2))
  · rename_i e6 e7
    exact h2

theorem State.startCollective_keeps {s0 : State} {s x1 x2 : _} (h : Keeps s0 s) : Keeps s0 (State.startCollective s x1
    x2) := by
  unfold State.startCollective
  extract_lets +onlyGivenNames y0 y1 y2 y3 y4 y5
  have h6 : ∀ b0 b1, (Keeps s0) b0 → (Keeps s0) (y5 b0 b1) := by
    unfold y5
    intro a7
    intro a8
    intro a9
    exact State.opFault_keeps (State.xchTake_keeps a9)
  clear_value y0 y1 y2 y3 y4 y5
  refine pIte (Keeps s0) h ?_
  split
  · rename_i e10 e11
    exact h6 _ _ h
  · rename_i e12 e13 e14
    refine pIte (Keeps s0) (h6 _ _ h) (pIte (Keeps s0) h ?_)
    extract_lets +onlyGivenNames y15
    clear_value y15
    split
    · rename_i e16 e17
      exact h
    · rename_i e18 e19 e20 e21
      exact h6 _ _ (outOf (BeginKeeps s0) e21 (State.beginChecks_keeps h))
    · rename_i e22 e23 e24 e25 e26
      exact State.ctxFault_keeps (State.xchTake_keeps (outOf (BeginKeeps s0) e26 (State.beginChecks_keeps h)))
    · rename_i e27 e28 e29 e30
      exact State.beginCollective_keeps (outOf (BeginKeeps s0) e30 (State.beginChecks_keeps h))

theorem execAllred_keeps {s0 : State} {x0 s : _} (h : Keeps s0 s) : OutKeeps s0 (execAllred x0 s) := by
  unfold execAllred
  exact State.startCollective_keeps h

theorem execRscat_keeps {s0 : State} {x0 s : _} (h : Keeps s0 s) : OutKeeps s0 (execRscat x0 s) := by
  unfold execRscat
  exact State.startCollective_keeps h

theorem execAgath_keeps {s0 : State} {x0 s : _} (h : Keeps s0 s) : OutKeeps s0 (execAgath x0 s) := by
  unfold execAgath
  exact State.startCollective_keeps h

theorem State.endCollective_keeps {s0 : State} {s x1 x2 x3 : _} (h : Keeps s0 s) : Keeps s0 (State.endCollective s x1
    x2 x3) := by
  unfold State.endCollective
  exact State.endRun_keeps (State.wr_keeps (State.wr_keeps h))

theorem execCollectiveDone_keeps {s0 : State} {x0 x1 x2 s : _} (h : Keeps s0 s) : OutKeeps s0 (execCollectiveDone x0
    x1 x2 s) := by
  unfold execCollectiveDone
  split
  · rename_i e0 e1
    exact h
  · rename_i e2 e3 e4 e5 e6
    split
    · rename_i e7 e8
      exact h
    · rename_i e9 e10 e11
      extract_lets +onlyGivenNames y12
      clear_value y12
      refine pIte (OutKeeps s0) h (pIte (OutKeeps s0) ?_ (pIte (OutKeeps s0) (State.colClear_keeps
          (State.endCollective_keeps (State.confirm_keeps (State.addStile_keeps h)))) (pIte (OutKeeps s0)
          (State.runFault_keeps h) h)))
      split
      · rename_i e13 e14
        exact h
      · rename_i e15 e16 e17 e18 e19
        exact State.runFault_keeps (outOf (VResKeeps s0) e19 (State.engWrite_keeps h))
      · rename_i e20 e21 e22 e23
        exact State.colClear_keeps (State.endCollective_keeps (State.wr_keeps (outOf (VResKeeps s0) e23
            (State.engWrite_keeps h))))

end Sys2Proof.Machine
end

