-- ==== Sys2Proof/Laws/KeepsLinks.lean ====
section
/-! SUPPORT. `Keeps` for every operation and every meaning of the link ports, the handshake and KMT. -/

namespace Sys2Proof.Machine

/-! ### Machine/Ports.lean -/

theorem State.unagree_keeps {s0 : State} {s x1 : _} (h : Keeps s0 s) : Keeps s0 (State.unagree s x1) := by
  unfold State.unagree
  exact foldlP (Keeps s0) h (fun a0 a1 a2 => State.wr_keeps a2)

theorem State.putAck_keeps {s0 : State} {s x1 x2 : _} (h : Keeps s0 s) : Keeps s0 (State.putAck s x1 x2) := by
  unfold State.putAck
  extract_lets +onlyGivenNames y0
  clear_value y0
  exact State.onPort_keeps (State.putLink_keeps h)

theorem State.putCredit_keeps {s0 : State} {s x1 : _} (h : Keeps s0 s) : Keeps s0 (State.putCredit s x1) := by
  unfold State.putCredit
  extract_lets +onlyGivenNames y0
  clear_value y0
  split
  rename_i e1 e2 e3 e4
  refine pIte (Keeps s0) h ?_
  extract_lets +onlyGivenNames y5
  clear_value y5
  exact State.onPort_keeps (State.putLink_keeps h)

theorem State.putLack_keeps {s0 : State} {s x1 x2 : _} (h : Keeps s0 s) : Keeps s0 (State.putLack s x1 x2) := by
  unfold State.putLack
  exact pIte (Keeps s0) (State.putAck_keeps h) (State.putCredit_keeps (State.putAck_keeps h))

theorem State.resendAll_keeps {s0 : State} {s x1 : _} (h : Keeps s0 s) : Keeps s0 (State.resendAll s x1) := by
  unfold State.resendAll
  exact State.onPort_keeps h

theorem State.linkAcked_keeps {s0 : State} {s x1 x2 : _} (h : Keeps s0 s) : Keeps s0 (State.linkAcked s x1 x2) := by
  unfold State.linkAcked
  exact State.onPort_keeps h

theorem State.loseSession_keeps {s0 : State} {s x1 : _} (h : Keeps s0 s) : Keeps s0 (State.loseSession s x1) := by
  unfold State.loseSession
  extract_lets +onlyGivenNames y0 y1 y2
  have h3 : (Keeps s0) y2 := by unfold y2; exact keepsMk h rfl
  clear_value y0 y1 y2
  refine foldlP (Keeps s0) h3 (fun a4 a5 a6 => foldlP (Keeps s0) a6 (fun a7 a8 a9 => ?_))
  extract_lets +onlyGivenNames y10
  have h11 : (Keeps s0) y10 := by unfold y10; exact State.unbindQp_keeps a9
  clear_value y10
  exact pIte (Keeps s0) (State.setQp_keeps h11) h11

theorem State.losePortSessions_keeps {s0 : State} {s x1 : _} (h : Keeps s0 s) : Keeps s0 (State.losePortSessions s x1)
    := by
  unfold State.losePortSessions
  exact foldlP (Keeps s0) h (fun a0 a1 a2 => State.loseSession_keeps a2)

theorem State.failReq_keeps {s0 : State} {s x1 x2 : _} (h : Keeps s0 s) : Keeps s0 (State.failReq s x1 x2) := by
  unfold State.failReq
  split
  · rename_i e0 e1 e2 e3
    split
    · rename_i e4 e5
      exact h
    · rename_i e6 e7 e8
      exact State.setRun_keeps h
  · rename_i e9 e10 e11 e12
    exact State.send_keeps h
  · rename_i e13 e14 e15 e16
    extract_lets +onlyGivenNames y17 y18
    have h19 : (Keeps s0) y18 := by unfold y18; exact State.dropSig_keeps h
    clear_value y17 y18
    exact pIte (Keeps s0) h19 (State.faultPav_keeps h19)

theorem State.failReqs_keeps {s0 : State} {s x1 x2 : _} (h : Keeps s0 s) : Keeps s0 (State.failReqs s x1 x2) := by
  unfold State.failReqs
  extract_lets +onlyGivenNames y0
  clear_value y0
  exact foldlP (Keeps s0) (keepsMk h rfl) (fun a1 a2 a3 => State.failReq_keeps a3)

theorem State.forceWrite_keeps {s0 : State} {s x1 x2 x3 : _} (h : Keeps s0 s) : Keeps s0 (State.forceWrite s x1 x2 x3)
    := by
  unfold State.forceWrite
  refine foldlP (Keeps s0) h (fun a0 a1 a2 => ?_)
  split
  rename_i e3 e4 e5
  extract_lets +onlyGivenNames y6
  clear_value y6
  exact pIte (Keeps s0) (State.store_keeps a2) (getDP (Keeps s0) (State.pathWrite_keeps a2) (State.gddrWrite_keeps
      a2))

theorem State.windowFill_keeps {s0 : State} {s x1 : _} (h : Keeps s0 s) : Keeps s0 (State.windowFill s x1) := by
  unfold State.windowFill
  refine foldlP (Keeps s0) h (fun a0 a1 a2 => ?_)
  extract_lets +onlyGivenNames y3 y4 y5
  clear_value y3 y4 y5
  refine pIte (Keeps s0) ?_ a2
  extract_lets +onlyGivenNames y6
  have h7 : (Keeps s0) y6 := by unfold y6; exact State.forceWrite_keeps a2
  clear_value y6
  extract_lets +onlyGivenNames y8
  have h9 : (Keeps s0) y8 := by
    unfold y8
    exact pIte (Keeps s0) h7 (State.wr_keeps (State.wr_keeps (State.wr_keeps (State.wr_keeps (State.wr_keeps h7)))))
  clear_value y8
  exact State.bump_keeps h9

theorem State.breakStiles_keeps {s0 : State} {s x1 x2 : _} (h : Keeps s0 s) : Keeps s0 (State.breakStiles s x1 x2) :=
    by
  unfold State.breakStiles
  exact foldlP (Keeps s0) h (fun a0 a1 a2 => State.wr_keeps a2)

theorem State.loseCollectives_keeps {s0 : State} {s x1 : _} (h : Keeps s0 s) : Keeps s0 (State.loseCollectives s x1)
    := by
  unfold State.loseCollectives
  refine foldlP (Keeps s0) h (fun a0 a1 a2 => ?_)
  split
  · rename_i e3 e4 e5
    exact State.runLost_keeps a2
  · rename_i e6 e7
    exact a2

theorem State.partnerGone_keeps {s0 : State} {s x1 x2 x3 x4 : _} (h : Keeps s0 s) : Keeps s0 (State.partnerGone s x1
    x2 x3 x4) := by
  unfold State.partnerGone
  extract_lets +onlyGivenNames y0
  have h1 : (Keeps s0) y0 := by unfold y0; exact foldlP (Keeps s0) h (fun a2 a3 a4 => State.unagree_keeps a4)
  clear_value y0
  extract_lets +onlyGivenNames y5
  have h6 : (Keeps s0) y5 := by unfold y5; exact foldlP (Keeps s0) h1 (fun a7 a8 a9 => State.loseSession_keeps a9)
  clear_value y5
  exact State.alarm_keeps h6

theorem State.loseDevice_keeps {s0 : State} {s x1 : _} (h : Keeps s0 s) : Keeps s0 (State.loseDevice s x1) := by
  unfold State.loseDevice
  refine pIte (Keeps s0) h ?_
  extract_lets +onlyGivenNames y0 y1
  have h2 : (Keeps s0) y1 := by unfold y1; exact State.setReg_keeps h
  clear_value y0 y1
  extract_lets +onlyGivenNames y3
  have h4 : (Keeps s0) y3 := by unfold y3; exact State.failReqs_keeps h2
  clear_value y3
  extract_lets +onlyGivenNames y5 y6
  have h7 : (Keeps s0) y6 := by
    unfold y6
    exact State.breakStiles_keeps (State.windowFill_keeps (State.loseCollectives_keeps h4))
  clear_value y5 y6
  exact State.partnerGone_keeps h7

theorem State.putResponse_keeps {s0 : State} {s x1 x2 x3 x4 x5 x6 : _} (h : Keeps s0 s) : Keeps s0 (State.putResponse
    s x1 x2 x3 x4 x5 x6) := by
  unfold State.putResponse
  extract_lets +onlyGivenNames y0
  clear_value y0
  split
  · rename_i e1 e2 e3
    exact State.putFrame_keeps h
  · rename_i e4 e5 e6
    exact h

theorem State.unroutable_keeps {s0 : State} {s x1 : _} (h : Keeps s0 s) : Keeps s0 (State.unroutable s x1) := by
  unfold State.unroutable
  exact pIte (Keeps s0) h (State.putResponse_keeps h)

theorem State.failoverTo_keeps {s0 : State} {s x1 x2 : _} (h : Keeps s0 s) : Keeps s0 (State.failoverTo s x1 x2) := by
  unfold State.failoverTo
  extract_lets +onlyGivenNames y0
  clear_value y0
  exact State.putPeer_keeps (State.onPort_keeps h)

theorem State.dropFrames_keeps {s0 : State} {s x1 : _} (h : Keeps s0 s) : Keeps s0 (State.dropFrames s x1) := by
  unfold State.dropFrames
  extract_lets +onlyGivenNames y0
  clear_value y0
  exact foldlP (Keeps s0) (State.onPort_keeps h) (fun a1 a2 a3 => State.unroutable_keeps a3)

theorem State.losePartner_keeps {s0 : State} {s x1 : _} (h : Keeps s0 s) : Keeps s0 (State.losePartner s x1) := by
  unfold State.losePartner
  split
  · rename_i e0 e1 e2
    exact pIte (Keeps s0) (State.losePortSessions_keeps (State.unagree_keeps h)) (pIte (Keeps s0)
        (State.partnerGone_keeps h) (State.loseDevice_keeps h))
  · rename_i e3 e4
    exact State.losePortSessions_keeps (State.unagree_keeps h)

theorem State.leavePort_keeps {s0 : State} {s x1 x2 : _} (h : Keeps s0 s) : Keeps s0 (State.leavePort s x1 x2) := by
  unfold State.leavePort
  extract_lets +onlyGivenNames y0 y1
  have h2 : (Keeps s0) y1 := by unfold y1; exact State.wr_keeps (State.wr_keeps (State.wr_keeps h))
  clear_value y0 y1
  extract_lets +onlyGivenNames y3
  have h4 : (Keeps s0) y3 := by unfold y3; exact State.onPort_keeps h2
  clear_value y3
  refine pIte (Keeps s0) (State.losePortSessions_keeps h4) ?_
  split
  · rename_i e5 e6 e7
    extract_lets +onlyGivenNames y8
    have h9 : (Keeps s0) y8 := by unfold y8; exact State.failoverTo_keeps (State.unagree_keeps h4)
    clear_value y8
    exact State.losePortSessions_keeps (pIte (Keeps s0) (State.bump_keeps h9) h9)
  · rename_i e10 e11
    extract_lets +onlyGivenNames y12
    have h13 : (Keeps s0) y12 := by unfold y12; exact State.losePartner_keeps h4
    clear_value y12
    extract_lets +onlyGivenNames y14
    have h15 : (Keeps s0) y14 := by
      unfold y14
      split
      · rename_i e16 e17 e18
        exact pIte (Keeps s0) (State.dropFrames_keeps h13) h13
      · rename_i e19 e20
        exact h13
    clear_value y14
    exact State.dropFrames_keeps h15

theorem State.portAlarm_keeps {s0 : State} {s x1 x2 x3 : _} (h : Keeps s0 s) : Keeps s0 (State.portAlarm s x1 x2 x3)
    := by
  unfold State.portAlarm
  exact State.alarm_keeps h

theorem State.hostile_keeps {s0 : State} {s x1 : _} (h : Keeps s0 s) : Keeps s0 (State.hostile s x1) := by
  unfold State.hostile
  extract_lets +onlyGivenNames y0 y1 y2
  have h3 : (Keeps s0) y2 := by unfold y2; exact State.onPort_keeps h
  clear_value y0 y1 y2
  exact pIte (Keeps s0) (State.portAlarm_keeps (State.bump_keeps (State.leavePort_keeps h3))) h3

theorem State.sendNew_keeps {s0 : State} {s x1 x2 x3 : _} (h : Keeps s0 s) : Keeps s0 (State.sendNew s x1 x2 x3) := by
  unfold State.sendNew
  extract_lets +onlyGivenNames y0 y1
  clear_value y0
  exact State.send_keeps (State.setPort_keeps h)

theorem State.slpSend_keeps {s0 : State} {s x1 : _} (h : Keeps s0 s) : Keeps s0 (State.slpSend s x1) := by
  unfold State.slpSend
  extract_lets +onlyGivenNames y0
  clear_value y0
  split
  · rename_i e1 e2 e3 e4
    extract_lets +onlyGivenNames y5
    clear_value y5
    exact State.send_keeps (State.setPort_keeps h)
  · rename_i e6 e7
    refine pIte (Keeps s0) h ?_
    split
    · rename_i e8 e9 e10 e11
      extract_lets +onlyGivenNames y12
      have h13 : (Keeps s0) y12 := by unfold y12; exact State.setPort_keeps h
      clear_value y12
      split
      · rename_i e14 e15 e16
        exact State.send_keeps h13
      · rename_i e17 e18
        exact h13
    · rename_i e19 e20
      extract_lets +onlyGivenNames y21 y22 y23
      clear_value y21 y22 y23
      split
      · rename_i e24 e25 e26
        exact State.sendNew_keeps h
      · rename_i e27 e28 e29 e30 e31
        exact pIte (Keeps s0) (State.sendNew_keeps h) (State.sendNew_keeps h)
      · rename_i e32 e33 e34 e35
        exact State.sendNew_keeps h
      · rename_i e36 e37
        exact h

/-! ### Machine/Handshake.lean -/

theorem State.freeBytes_keeps {s0 : State} {s x1 : _} (h : Keeps s0 s) : (SndP (Keeps s0)) (State.freeBytes s x1) :=
    by
  unfold State.freeBytes
  refine foldlP (SndP (Keeps s0)) (sndMk h) (fun a0 a1 a2 => ?_)
  split
  rename_i e3 e4 e5 e6
  exact sndMk (outOf (SndP (Keeps s0)) e6 (State.free_keeps a2))

theorem State.beginHs_keeps {s0 : State} {s : _} (h : Keeps s0 s) : (SndP (Keeps s0)) (State.beginHs s) := by
  unfold State.beginHs
  split
  rename_i e0 e1 e2 e3
  split
  rename_i e4 e5 e6 e7
  exact sndMk (outOf (SndP (Keeps s0)) e7 (State.freeBytes_keeps (outOf (SndP (Keeps s0)) e3 (State.freeBytes_keeps
      h))))

theorem State.hsFail_keeps {s0 : State} {s x1 x2 : _} (h : Keeps s0 s) : Keeps s0 (State.hsFail s x1 x2) := by
  unfold State.hsFail
  extract_lets +onlyGivenNames y0
  have h1 : (Keeps s0) y0 := by unfold y0; exact State.bump_keeps h
  clear_value y0
  extract_lets +onlyGivenNames y2
  have h3 : (Keeps s0) y2 := by unfold y2; exact pIte (Keeps s0) (State.hostile_keeps h1) h1
  clear_value y2
  exact pIte (Keeps s0) (State.onPort_keeps (State.wr_keeps h3)) h3

theorem State.multiRule_keeps {s0 : State} {s x1 x2 : _} (h : Keeps s0 s) : Keeps s0 (State.multiRule s x1 x2) := by
  unfold State.multiRule
  exact pIte (Keeps s0) h (State.bump_keeps h)

theorem State.startAuth_keeps {s0 : State} {s x1 : _} (h : Keeps s0 s) : Keeps s0 (State.startAuth s x1) := by
  unfold State.startAuth
  extract_lets +onlyGivenNames y0
  have h1 : (Keeps s0) y0 := by unfold y0; exact State.wr_keeps h
  clear_value y0
  refine pIte (Keeps s0) ?_ (State.onPort_keeps h1)
  split
  rename_i e2 e3 e4 e5
  exact State.putLink_keeps (State.onPort_keeps (outOf (SndP (Keeps s0)) e5 (State.beginHs_keeps h1)))

theorem execPmdUp_keeps {s0 : State} {x0 s : _} (h : Keeps s0 s) : OutKeeps s0 (execPmdUp x0 s) := by
  unfold execPmdUp
  exact pIte (OutKeeps s0) (State.startAuth_keeps h) h

theorem execPmdTrainingFail_keeps {s0 : State} {x0 s : _} (h : Keeps s0 s) : OutKeeps s0 (execPmdTrainingFail x0 s) :=
    by
  unfold execPmdTrainingFail
  exact h

theorem State.newSession_keeps {s0 : State} {s : _} (h : Keeps s0 s) : (SndP (Keeps s0)) (State.newSession s) := by
  unfold State.newSession
  extract_lets +onlyGivenNames y0
  clear_value y0
  exact sndMk (keepsMk h rfl)

theorem State.showPartner_keeps {s0 : State} {s x1 x2 : _} (h : Keeps s0 s) : Keeps s0 (State.showPartner s x1 x2) :=
    by
  unfold State.showPartner
  extract_lets +onlyGivenNames y0
  have h1 : (Keeps s0) y0 := by unfold y0; exact State.wr_keeps (State.wr_keeps (State.wr_keeps h))
  clear_value y0
  exact pIte (Keeps s0) (State.wr_keeps h1) (State.wr_keeps (State.wr_keeps h1))

theorem State.recheck_keeps {s0 : State} {s x1 : _} (h : Keeps s0 s) : Keeps s0 (State.recheck s x1) := by
  unfold State.recheck
  split
  · rename_i e0 e1
    exact h
  · rename_i e2 e3 e4
    exact pIte (Keeps s0) (State.onPort_keeps (State.hsFail_keeps (State.leavePort_keeps h))) h

theorem State.learnId_keeps {s0 : State} {s x1 x2 : _} (h : Keeps s0 s) : Keeps s0 (State.learnId s x1 x2) := by
  unfold State.learnId
  split
  · rename_i e0 e1
    exact h
  · rename_i e2 e3 e4
    exact pIte (Keeps s0) (State.recheck_keeps (State.wr_keeps (State.wr_keeps (State.onPort_keeps h)))) h

theorem execHello_keeps {s0 : State} {x0 x1 s : _} (h : Keeps s0 s) : OutKeeps s0 (execHello x0 x1 s) := by
  unfold execHello
  extract_lets +onlyGivenNames y0
  clear_value y0
  refine pIte (OutKeeps s0) ?_ (pIte (OutKeeps s0) (pIte (OutKeeps s0) (State.hsFail_keeps h) ?_) h)
  · split
    · rename_i e1 e2 e3 e4 e5
      refine pIte (OutKeeps s0) h ?_
      split
      · rename_i e6
        exact State.hsFail_keeps h
      · rename_i e7 e8 e9
        extract_lets +onlyGivenNames y10
        have h11 : (Keeps s0) y10 := by unfold y10; exact State.onPort_keeps (State.multiRule_keeps h)
        clear_value y10
        exact State.putLink_keeps h11
    · rename_i e12 e13 e14
      exact State.learnId_keeps h
  · split
    · rename_i e15
      exact State.hsFail_keeps h
    · rename_i e16 e17 e18
      split
      rename_i e19 e20 e21 e22
      split
      rename_i e23 e24 e25 e26
      extract_lets +onlyGivenNames y27
      have h28 : (Keeps s0) y27 := by
        unfold y27
        exact State.setSession_keeps (outOf (SndP (Keeps s0)) e26 (State.newSession_keeps (outOf (SndP (Keeps s0)) e22
            (State.beginHs_keeps (State.multiRule_keeps h)))))
      clear_value y27
      exact State.send_keeps (State.send_keeps h28)

theorem State.enterUp_keeps {s0 : State} {s x1 x2 : _} (h : Keeps s0 s) : Keeps s0 (State.enterUp s x1 x2) := by
  unfold State.enterUp
  extract_lets +onlyGivenNames y0 y1 y2
  have h3 : (Keeps s0) y2 := by unfold y2; exact State.setPort_keeps h
  clear_value y0 y1 y2
  extract_lets +onlyGivenNames y4
  have h5 : (Keeps s0) y4 := by unfold y4; exact State.wr_keeps (State.showPartner_keeps h3)
  clear_value y4
  exact State.putBeacons_keeps (State.putCredit_keeps h5)

theorem execFinish_keeps {s0 : State} {x0 x1 x2 s : _} (h : Keeps s0 s) : OutKeeps s0 (execFinish x0 x1 x2 s) := by
  unfold execFinish
  refine pIte (OutKeeps s0) ?_ ?_
  · split
    · rename_i e0 e1 e2 e3 e4
      split
      · rename_i e5 e6
        exact State.hsFail_keeps h
      · rename_i e7 e8 e9 e10
        exact pIte (OutKeeps s0) (State.enterUp_keeps h) (State.hsFail_keeps h)
    · rename_i e11 e12 e13
      exact h
  · split
    · rename_i e14 e15
      exact h
    · rename_i e16 e17 e18
      split
      · rename_i e19 e20
        exact h
      · rename_i e21 e22 e23
        split
        · rename_i e24 e25
          exact h
        · rename_i e26 e27 e28 e29
          refine pIte (OutKeeps s0) ?_ (State.hsFail_keeps (State.loseSession_keeps h))
          extract_lets +onlyGivenNames y30 y31
          have h32 : (Keeps s0) y31 := by unfold y31; exact State.setSession_keeps h
          clear_value y30 y31
          exact pIte (Keeps s0) (State.onPort_keeps (State.showPartner_keeps h32)) h32

theorem execHandshakeTimeout_keeps {s0 : State} {x0 s : _} (h : Keeps s0 s) : OutKeeps s0 (execHandshakeTimeout x0 s)
    := by
  unfold execHandshakeTimeout
  refine pIte (OutKeeps s0) ?_ h
  extract_lets +onlyGivenNames y0
  clear_value y0
  exact State.hsFail_keeps (foldlP (Keeps s0) h (fun a1 a2 a3 => State.loseSession_keeps a3))

theorem execHandshakeRetry_keeps {s0 : State} {x0 s : _} (h : Keeps s0 s) : OutKeeps s0 (execHandshakeRetry x0 s) :=
    by
  unfold execHandshakeRetry
  exact pIte (OutKeeps s0) (State.startAuth_keeps h) h

/-! ### Machine/Inbound.lean -/

theorem State.linkTake_keeps {s0 : State} {s x1 x2 : _} (h : Keeps s0 s) : Keeps s0 (State.linkTake s x1 x2) := by
  unfold State.linkTake
  extract_lets +onlyGivenNames y0
  have h1 : (Keeps s0) y0 := by unfold y0; exact State.onPort_keeps h
  clear_value y0
  exact pIte (Keeps s0) (State.putLack_keeps h1) h1

theorem State.gate_keeps {s0 : State} {s x1 x2 x3 : _} (h : Keeps s0 s) : (GateResKeeps s0) (State.gate s x1 x2 x3) :=
    by
  unfold State.gate
  split
  · rename_i e0 e1
    exact h
  · rename_i e2 e3 e4
    extract_lets +onlyGivenNames y5
    clear_value y5
    refine pIte (GateResKeeps s0) h (pIte (GateResKeeps s0) (State.putLack_keeps (State.bump_keeps h)) (pIte
        (GateResKeeps s0) (State.hostile_keeps (State.bump_keeps h)) (pIte (GateResKeeps s0) (pIte (Keeps s0)
        (State.bump_keeps h) (State.putLack_keeps h)) ?_)))
    extract_lets +onlyGivenNames y6
    have h7 : (Keeps s0) y6 := by unfold y6; exact State.linkTake_keeps (State.onPort_keeps h)
    clear_value y6
    refine pIte (GateResKeeps s0) (State.bump_keeps h7) (pIte (GateResKeeps s0) (State.hostile_keeps (State.bump_keeps
        h7)) (pIte (GateResKeeps s0) (State.hostile_keeps (State.bump_keeps h7)) (pIte (GateResKeeps s0) h7 (pIte
        (GateResKeeps s0) (State.putResponse_keeps (State.hostile_keeps (State.bump_keeps h7))) ?_))))
    extract_lets +onlyGivenNames y8
    clear_value y8
    exact h7

theorem State.forward_keeps {s0 : State} {s x1 x2 x3 x4 : _} (h : Keeps s0 s) : Keeps s0 (State.forward s x1 x2 x3 x4)
    := by
  unfold State.forward
  extract_lets +onlyGivenNames y0 y1
  clear_value y0 y1
  split
  · rename_i e2 e3
    exact State.unroutable_keeps h
  · rename_i e4 e5 e6
    exact State.putFrame_keeps h

theorem State.answer_keeps {s0 : State} {s x1 x2 x3 x4 x5 x6 x7 : _} (h : Keeps s0 s) : Keeps s0 (State.answer s x1 x2
    x3 x4 x5 x6 x7) := by
  unfold State.answer
  split
  · rename_i e0
    exact State.putResponse_keeps h
  · rename_i e1 e2
    exact pIte (Keeps s0) h (pIte (Keeps s0) (State.kmtPost_keeps h) (State.kmtPost_keeps h))

theorem State.refuseIn_keeps {s0 : State} {s x1 x2 x3 x4 x5 x6 : _} (h : Keeps s0 s) : Keeps s0 (State.refuseIn s x1
    x2 x3 x4 x5 x6) := by
  unfold State.refuseIn
  exact State.answer_keeps (State.hostile_keeps (State.wsRefuse_keeps h))

theorem State.performWindow_keeps {s0 : State} {s x1 x2 x3 : _} (h : Keeps s0 s) : (OptP (Keeps s0))
    (State.performWindow s x1 x2 x3) := by
  unfold State.performWindow
  extract_lets +onlyGivenNames y0 y1 y2 y3 y4 y5
  clear_value y0 y1 y2 y3 y4 y5
  split
  · rename_i e6 e7 e8
    exact someP (State.refuseIn_keeps h)
  · rename_i e9 e10 e11
    exact someP (State.answer_keeps (State.wsRetry_keeps h))
  · rename_i e12 e13 e14 e15
    refine pIte (OptP (Keeps s0)) ?_ (pIte (OptP (Keeps s0)) ?_ ?_)
    · split
      · rename_i e16 e17
        exact True.intro
      · rename_i e18 e19 e20 e21
        exact someP (State.refuseIn_keeps (outOf (MemResKeeps s0) e21 (State.writeAs_keeps h)))
      · rename_i e22 e23 e24 e25
        extract_lets +onlyGivenNames y26
        have h27 : (Keeps s0) y26 := by
          unfold y26
          exact State.bucketTake_keeps (outOf (MemResKeeps s0) e25 (State.writeAs_keeps h))
        clear_value y26
        extract_lets +onlyGivenNames y28 y29
        have h30 : (Keeps s0) y29 := by unfold y29; exact pIte (Keeps s0) h27 (keepsMk h27 rfl)
        clear_value y28 y29
        exact someP (State.answer_keeps h30)
    · split
      · rename_i e31 e32
        exact True.intro
      · rename_i e33 e34 e35 e36
        exact someP (State.refuseIn_keeps (outOf (MemResKeeps s0) e36 (State.readAs_keeps h)))
      · rename_i e37 e38 e39 e40
        exact someP (State.answer_keeps (State.bucketTake_keeps (outOf (MemResKeeps s0) e40 (State.readAs_keeps h))))
    · split
      rename_i e41 e42 e43 e44 e45
      split
      · rename_i e46 e47
        exact True.intro
      · rename_i e48 e49 e50 e51 e52
        extract_lets +onlyGivenNames y53
        have h54 : (Keeps s0) y53 := by
          unfold y53
          exact pIte (Keeps s0) (State.bump_keeps (outOf (AtomResKeeps s0) e52 (State.atomicAt_keeps h))) (outOf
              (AtomResKeeps s0) e52 (State.atomicAt_keeps h))
        clear_value y53
        exact someP (State.refuseIn_keeps h54)
      · rename_i e55 e56 e57 e58
        extract_lets +onlyGivenNames y59
        have h60 : (Keeps s0) y59 := by
          unfold y59
          exact State.bucketTake_keeps (State.bump_keeps (outOf (AtomResKeeps s0) e58 (State.atomicAt_keeps h)))
        clear_value y59
        exact someP (pIte (Keeps s0) (State.answer_keeps h60) (State.answer_keeps h60))

theorem State.performToken_keeps {s0 : State} {s x1 x2 x3 : _} (h : Keeps s0 s) : Keeps s0 (State.performToken s x1 x2
    x3) := by
  unfold State.performToken
  extract_lets +onlyGivenNames y0 y1
  clear_value y0 y1
  refine pIte (Keeps s0) (State.answer_keeps (State.addStile_keeps h)) ?_
  split
  rename_i e2 e3 e4 e5
  extract_lets +onlyGivenNames y6
  have h7 : (Keeps s0) y6 := by unfold y6; exact State.wsRefuse_keeps h
  clear_value y6
  extract_lets +onlyGivenNames y8
  have h9 : (Keeps s0) y8 := by unfold y8; exact State.wr_keeps h7
  clear_value y8
  exact State.answer_keeps (State.hostile_keeps h9)

theorem State.refuseColl_keeps {s0 : State} {s x1 : _} (h : Keeps s0 s) : Keeps s0 (State.refuseColl s x1) := by
  unfold State.refuseColl
  exact keepsMk h rfl

theorem State.performColl_keeps {s0 : State} {s x1 x2 x3 : _} (h : Keeps s0 s) : Keeps s0 (State.performColl s x1 x2
    x3) := by
  unfold State.performColl
  split
  · rename_i e0 e1
    exact State.answer_keeps (State.refuseColl_keeps h)
  · rename_i e2 e3 e4 e5
    extract_lets +onlyGivenNames y6 y7 y8
    clear_value y6 y7 y8
    split
    · rename_i e9 e10
      exact State.refuseIn_keeps h
    · rename_i e11
      exact State.answer_keeps (State.colPut_keeps h)

theorem State.perform_keeps {s0 : State} {s x1 x2 x3 : _} (h : Keeps s0 s) : (OptP (Keeps s0)) (State.perform s x1 x2
    x3) := by
  unfold State.perform
  exact pIte (OptP (Keeps s0)) (someP (State.performToken_keeps h)) (pIte (OptP (Keeps s0)) (someP
      (State.performColl_keeps h)) (State.performWindow_keeps h))

theorem State.keepIn_keeps {s0 : State} {s x1 x2 x3 : _} (h : Keeps s0 s) : Keeps s0 (State.keepIn s x1 x2 x3) := by
  unfold State.keepIn
  exact keepsMk h rfl

theorem State.disagree_keeps {s0 : State} {s x1 : _} (h : Keeps s0 s) : Keeps s0 (State.disagree s x1) := by
  unfold State.disagree
  exact State.bump_keeps h

theorem State.takeRequest_keeps {s0 : State} {s x1 x2 x3 : _} (h : Keeps s0 s) : Keeps s0 (State.takeRequest s x1 x2
    x3) := by
  unfold State.takeRequest
  split
  · rename_i e0 e1 e2
    exact outOf (GateResKeeps s0) e2 (State.gate_keeps h)
  · rename_i e3 e4 e5 e6
    exact pIte (Keeps s0) (State.forward_keeps (outOf (GateResKeeps s0) e6 (State.gate_keeps h))) (pIte (Keeps s0)
        (State.disagree_keeps (outOf (GateResKeeps s0) e6 (State.gate_keeps h))) (pIte (Keeps s0) (State.keepIn_keeps
        (outOf (GateResKeeps s0) e6 (State.gate_keeps h))) (getDP (Keeps s0) (State.perform_keeps (outOf (GateResKeeps
        s0) e6 (State.gate_keeps h))) (State.keepIn_keeps (outOf (GateResKeeps s0) e6 (State.gate_keeps h))))))

theorem execSlpWrite_keeps {s0 : State} {x0 x1 s : _} (h : Keeps s0 s) : OutKeeps s0 (execSlpWrite x0 x1 s) := by
  unfold execSlpWrite
  exact State.takeRequest_keeps h

theorem execSlpRead_keeps {s0 : State} {x0 x1 s : _} (h : Keeps s0 s) : OutKeeps s0 (execSlpRead x0 x1 s) := by
  unfold execSlpRead
  exact State.takeRequest_keeps h

theorem execSlpAtomic_keeps {s0 : State} {x0 x1 s : _} (h : Keeps s0 s) : OutKeeps s0 (execSlpAtomic x0 x1 s) := by
  unfold execSlpAtomic
  exact State.takeRequest_keeps h

theorem execSlpToken_keeps {s0 : State} {x0 x1 s : _} (h : Keeps s0 s) : OutKeeps s0 (execSlpToken x0 x1 s) := by
  unfold execSlpToken
  exact State.takeRequest_keeps h

theorem execSlpColl_keeps {s0 : State} {x0 x1 s : _} (h : Keeps s0 s) : OutKeeps s0 (execSlpColl x0 x1 s) := by
  unfold execSlpColl
  exact State.takeRequest_keeps h

theorem State.serveIn_keeps {s0 : State} {s : _} (h : Keeps s0 s) : (OptP (Keeps s0)) (State.serveIn s) := by
  unfold State.serveIn
  split
  · rename_i e0 e1
    exact True.intro
  · rename_i e2 e3 e4 e5
    exact mapOptP (Keeps s0) (Keeps s0) (State.perform_keeps h) (fun a6 a7 => keepsMk a7 rfl)

theorem execHomeAgentAccess_keeps {s0 : State} {x0 s : _} (h : Keeps s0 s) : OutKeeps s0 (execHomeAgentAccess x0 s) :=
    by
  unfold execHomeAgentAccess
  exact getDP (Keeps s0) (State.homeTurn_keeps h) (getDP (Keeps s0) (State.serveIn_keeps h) h)

theorem execGddrAccess_keeps {s0 : State} {x0 s : _} (h : Keeps s0 s) : OutKeeps s0 (execGddrAccess x0 s) := by
  unfold execGddrAccess
  exact getDP (Keeps s0) (State.gddrTurn_keeps h) (getDP (Keeps s0) (State.serveIn_keeps h) h)

theorem execCommitStileApply_keeps {s0 : State} {x0 s : _} (h : Keeps s0 s) : OutKeeps s0 (execCommitStileApply x0 s)
    := by
  unfold execCommitStileApply
  split
  · rename_i e0 e1
    exact h
  · rename_i e2 e3 e4 e5
    exact State.addStile_keeps (keepsMk h rfl)

theorem State.okReq_keeps {s0 : State} {s x1 x2 : _} (h : Keeps s0 s) : Keeps s0 (State.okReq s x1 x2) := by
  unfold State.okReq
  extract_lets +onlyGivenNames y0 y1
  have h2 : (Keeps s0) y1 := by unfold y1; exact keepsMk h rfl
  clear_value y0 y1
  split
  · rename_i e3 e4 e5 e6
    split
    · rename_i e7 e8
      exact h2
    · rename_i e9 e10 e11
      exact State.setRun_keeps h2
  · rename_i e12 e13 e14 e15
    extract_lets +onlyGivenNames y16
    clear_value y16
    exact State.send_keeps h2
  · rename_i e17 e18 e19 e20
    exact State.confirm_keeps (State.dropSig_keeps h2)

theorem State.mapOut_keeps {s0 : State} {s x1 : _} (h : Keeps s0 s) : Keeps s0 (State.mapOut s x1) := by
  unfold State.mapOut
  exact keepsMk h rfl

theorem State.badReq_keeps {s0 : State} {s x1 x2 : _} (h : Keeps s0 s) : Keeps s0 (State.badReq s x1 x2) := by
  unfold State.badReq
  refine pIte (Keeps s0) ?_ (State.failReqs_keeps h)
  extract_lets +onlyGivenNames y0
  have h1 : (Keeps s0) y0 := by unfold y0; exact State.loseDevice_keeps h
  clear_value y0
  exact State.failReqs_keeps h1

theorem State.takeResponse_keeps {s0 : State} {s x1 x2 x3 x4 : _} (h : Keeps s0 s) (hf : ∀ b0 b1 b2, Keeps s0 b0 →
    Keeps s0 (x4 b0 b1 b2)) : Keeps s0 (State.takeResponse s x1 x2 x3 x4) := by
  unfold State.takeResponse
  split
  · rename_i e0 e1 e2
    exact outOf (GateResKeeps s0) e2 (State.gate_keeps h)
  · rename_i e3 e4 e5 e6
    refine pIte (Keeps s0) (State.forward_keeps (outOf (GateResKeeps s0) e6 (State.gate_keeps h))) ?_
    split
    · rename_i e7 e8
      exact outOf (GateResKeeps s0) e6 (State.gate_keeps h)
    · rename_i e9 e10 e11
      exact pIte (Keeps s0) (hf _ _ _ (outOf (GateResKeeps s0) e6 (State.gate_keeps h))) (State.disagree_keeps (outOf
          (GateResKeeps s0) e6 (State.gate_keeps h)))

theorem execSlpAck_keeps {s0 : State} {x0 x1 s : _} (h : Keeps s0 s) : OutKeeps s0 (execSlpAck x0 x1 s) := by
  unfold execSlpAck
  exact State.takeResponse_keeps h (fun a0 a1 a2 a3 => State.okReq_keeps a3)

theorem execSlpRdata_keeps {s0 : State} {x0 x1 s : _} (h : Keeps s0 s) : OutKeeps s0 (execSlpRdata x0 x1 s) := by
  unfold execSlpRdata
  exact State.takeResponse_keeps h (fun a0 a1 a2 a3 => State.okReq_keeps a3)

theorem execSlpRefuse_keeps {s0 : State} {x0 x1 s : _} (h : Keeps s0 s) : OutKeeps s0 (execSlpRefuse x0 x1 s) := by
  unfold execSlpRefuse
  exact State.takeResponse_keeps h (fun a0 a1 a2 a3 => State.badReq_keeps a3)

theorem execSlpRetry_keeps {s0 : State} {x0 x1 s : _} (h : Keeps s0 s) : OutKeeps s0 (execSlpRetry x0 x1 s) := by
  unfold execSlpRetry
  exact State.takeResponse_keeps h (fun a0 a1 a2 a3 => State.mapOut_keeps a3)

theorem execRetryResend_keeps {s0 : State} {x0 x1 s : _} (h : Keeps s0 s) : OutKeeps s0 (execRetryResend x0 x1 s) :=
    by
  unfold execRetryResend
  split
  · rename_i e0 e1
    exact h
  · rename_i e2 e3 e4
    split
    · rename_i e5 e6 e7
      exact State.badReq_keeps h
    · rename_i e8 e9 e10
      exact State.putFrame_keeps (State.mapOut_keeps h)

theorem execEndToEndTimeout_keeps {s0 : State} {x0 s : _} (h : Keeps s0 s) : OutKeeps s0 (execEndToEndTimeout x0 s) :=
    by
  unfold execEndToEndTimeout
  split
  · rename_i e0 e1 e2
    exact State.loseDevice_keeps h
  · rename_i e3 e4
    exact h

theorem apertureAccessOp_keeps {s0 : State} {x0 x1 x2 x3 x4 s : _} (h : Keeps s0 s) : OutKeeps s0 (apertureAccessOp x0
    x1 x2 x3 x4 s) := by
  unfold apertureAccessOp
  extract_lets +onlyGivenNames y0 y1
  have h2 : (Keeps s0) y1 := by unfold y1; exact State.send_keeps h
  clear_value y0 y1
  refine pIte (OutKeeps s0) h2 (pIte (OutKeeps s0) h ?_)
  split
  · rename_i e3 e4 e5
    exact h2
  · rename_i e6 e7 e8
    split
    · rename_i e9 e10
      exact h
    · rename_i e11 e12 e13
      split
      rename_i e14 e15 e16 e17
      exact State.sendReq_keeps (outOf (SndP (Keeps s0)) e17 (State.nextEseq_keeps h))

theorem execApertureAccess_keeps {s0 : State} {x0 x1 x2 x3 x4 s : _} (h : Keeps s0 s) : OutKeeps s0
    (execApertureAccess x0 x1 x2 x3 x4 s) := by
  unfold execApertureAccess
  exact apertureAccessOp_keeps h

theorem State.sigSent_keeps {s0 : State} {s x1 : _} (h : Keeps s0 s) : Keeps s0 (State.sigSent s x1) := by
  unfold State.sigSent
  extract_lets +onlyGivenNames y0
  clear_value y0
  exact State.setPav_keeps h

theorem execXchToken_keeps {s0 : State} {x0 s : _} (h : Keeps s0 s) : OutKeeps s0 (execXchToken x0 s) := by
  unfold execXchToken
  split
  · rename_i e0 e1
    exact h
  · rename_i e2 e3 e4
    split
    · rename_i e5 e6
      exact h
    · rename_i e7 e8 e9
      refine pIte (OutKeeps s0) h ?_
      split
      · rename_i e10 e11 e12
        extract_lets +onlyGivenNames y13
        have h14 : (Keeps s0) y13 := by unfold y13; exact State.dropSig_keeps h
        clear_value y13
        exact pIte (Keeps s0) h14 (State.faultPav_keeps h14)
      · rename_i e15 e16 e17
        refine pIte (OutKeeps s0) h ?_
        split
        · rename_i e18 e19
          exact h
        · rename_i e20 e21 e22
          split
          rename_i e23 e24 e25 e26
          exact State.sendReq_keeps (State.sigSent_keeps (outOf (SndP (Keeps s0)) e26 (State.nextEseq_keeps h)))

/-! ### Machine/LinkEvents.lean -/

theorem State.linkGate_keeps {s0 : State} {s x1 x2 x3 : _} (h : Keeps s0 s) : (FstP (Keeps s0)) (State.linkGate s x1
    x2 x3) := by
  unfold State.linkGate
  extract_lets +onlyGivenNames y0
  clear_value y0
  refine pIte (FstP (Keeps s0)) (fstMk h) (pIte (FstP (Keeps s0)) (fstMk (State.putLack_keeps (State.bump_keeps h)))
      (pIte (FstP (Keeps s0)) (fstMk (State.hostile_keeps (State.bump_keeps h))) ?_))
  extract_lets +onlyGivenNames y1
  have h2 : (Keeps s0) y1 := by unfold y1; exact State.onPort_keeps h
  clear_value y1
  refine pIte (FstP (Keeps s0)) (fstMk (State.bump_keeps h2)) ?_
  extract_lets +onlyGivenNames y3
  have h4 : (Keeps s0) y3 := by unfold y3; exact State.onPort_keeps h2
  clear_value y3
  exact pIte (FstP (Keeps s0)) (fstMk (State.hostile_keeps (State.bump_keeps h4))) (fstMk h4)

theorem State.linkIn_keeps {s0 : State} {s x1 x2 x3 x4 : _} (h : Keeps s0 s) (hf : ∀ b0, Keeps s0 b0 → Keeps s0 (x4
    b0)) : OutKeeps s0 (State.linkIn s x1 x2 x3 x4) := by
  unfold State.linkIn
  split
  rename_i e0 e1 e2 e3
  exact pIte (Keeps s0) (hf _ (outOf (FstP (Keeps s0)) e3 (State.linkGate_keeps h))) (outOf (FstP (Keeps s0)) e3
      (State.linkGate_keeps h))

theorem State.creditIn_keeps {s0 : State} {s x1 x2 : _} (h : Keeps s0 s) : Keeps s0 (State.creditIn s x1 x2) := by
  unfold State.creditIn
  extract_lets +onlyGivenNames y0 y1
  have h2 : (Keeps s0) y1 := by unfold y1; exact State.onPort_keeps h
  clear_value y0 y1
  exact pIte (Keeps s0) (State.wr_keeps h2) h2

theorem execSlpCredit_keeps {s0 : State} {x0 x1 s : _} (h : Keeps s0 s) : OutKeeps s0 (execSlpCredit x0 x1 s) := by
  unfold execSlpCredit
  exact State.linkIn_keeps h (fun a0 a1 => State.creditIn_keeps a1)

theorem execLack_keeps {s0 : State} {x0 x1 s : _} (h : Keeps s0 s) : OutKeeps s0 (execLack x0 x1 s) := by
  unfold execLack
  exact State.linkIn_keeps h (fun a0 a1 => State.linkAcked_keeps a1)

theorem execLnak_keeps {s0 : State} {x0 x1 s : _} (h : Keeps s0 s) : OutKeeps s0 (execLnak x0 x1 s) := by
  unfold execLnak
  exact State.linkIn_keeps h (fun a0 a1 => State.resendAll_keeps (State.linkAcked_keeps a1))

theorem execLinkIdle_keeps {s0 : State} {x0 x1 s : _} (h : Keeps s0 s) : OutKeeps s0 (execLinkIdle x0 x1 s) := by
  unfold execLinkIdle
  exact State.linkIn_keeps h (fun a0 a1 => a1)

theorem State.setBadLanes_keeps {s0 : State} {s x1 x2 : _} (h : Keeps s0 s) : Keeps s0 (State.setBadLanes s x1 x2) :=
    by
  unfold State.setBadLanes
  extract_lets +onlyGivenNames y0
  have h1 : (Keeps s0) y0 := by unfold y0; exact State.wr_keeps h
  clear_value y0
  exact State.resendAll_keeps (State.wr_keeps h1)

theorem State.removeLanes_keeps {s0 : State} {s x1 x2 : _} (h : Keeps s0 s) : Keeps s0 (State.removeLanes s x1 x2) :=
    by
  unfold State.removeLanes
  extract_lets +onlyGivenNames y0
  have h1 : (Keeps s0) y0 := by unfold y0; exact State.bump_keeps (State.setBadLanes_keeps h)
  clear_value y0
  exact State.portAlarm_keeps (State.putPeer_keeps h1)

theorem State.degradeIn_keeps {s0 : State} {s x1 x2 : _} (h : Keeps s0 s) : Keeps s0 (State.degradeIn s x1 x2) := by
  unfold State.degradeIn
  extract_lets +onlyGivenNames y0 y1
  clear_value y0 y1
  refine pIte (Keeps s0) h ?_
  extract_lets +onlyGivenNames y2
  have h3 : (Keeps s0) y2 := by unfold y2; exact State.setBadLanes_keeps h
  clear_value y2
  exact pIte (Keeps s0) (State.leavePort_keeps h3) (pIte (Keeps s0) (State.putPeer_keeps h3) (State.removeLanes_keeps
      h))

theorem execDegrade_keeps {s0 : State} {x0 x1 s : _} (h : Keeps s0 s) : OutKeeps s0 (execDegrade x0 x1 s) := by
  unfold execDegrade
  exact State.linkIn_keeps h (fun a0 a1 => State.degradeIn_keeps a1)

theorem State.failoverIn_keeps {s0 : State} {s x1 x2 : _} (h : Keeps s0 s) : Keeps s0 (State.failoverIn s x1 x2) := by
  unfold State.failoverIn
  split
  · rename_i e0 e1
    exact h
  · rename_i e2 e3 e4
    extract_lets +onlyGivenNames y5 y6 y7
    have h8 : (Keeps s0) y7 := by unfold y7; exact pIte (Keeps s0) h (State.failoverTo_keeps h)
    clear_value y5 y6 y7
    extract_lets +onlyGivenNames y9 y10
    have h11 : (Keeps s0) y10 := by unfold y10; exact State.onPort_keeps h8
    clear_value y9 y10
    exact State.onPort_keeps h11

theorem execFailover_keeps {s0 : State} {x0 x1 s : _} (h : Keeps s0 s) : OutKeeps s0 (execFailover x0 x1 s) := by
  unfold execFailover
  exact State.linkIn_keeps h (fun a0 a1 => State.failoverIn_keeps a1)

theorem State.ethSend_keeps {s0 : State} {s x1 : _} (h : Keeps s0 s) : Keeps s0 (State.ethSend s x1) := by
  unfold State.ethSend
  split
  · rename_i e0 e1
    exact h
  · rename_i e2 e3 e4 e5
    extract_lets +onlyGivenNames y6
    have h7 : (Keeps s0) y6 := by unfold y6; exact State.onPort_keeps h
    clear_value y6
    extract_lets +onlyGivenNames y8 y9
    clear_value y8 y9
    split
    · rename_i e10 e11
      exact pIte (Keeps s0) (State.failReqs_keeps h7) (State.unroutable_keeps h7)
    · rename_i e12 e13 e14 e15
      split
      · rename_i e16 e17
        exact pIte (Keeps s0) (State.failReqs_keeps h7) (State.unroutable_keeps h7)
      · rename_i e18 e19 e20
        extract_lets +onlyGivenNames y21 y22 y23
        have h24 : (Keeps s0) y23 := by unfold y23; exact keepsMk h7 rfl
        clear_value y21 y22 y23
        exact State.kmtPost_keeps h24

theorem execPortFrameSend_keeps {s0 : State} {x0 s : _} (h : Keeps s0 s) : OutKeeps s0 (execPortFrameSend x0 s) := by
  unfold execPortFrameSend
  refine pIte (OutKeeps s0) h (pIte (OutKeeps s0) (pIte (OutKeeps s0) (State.slpSend_keeps h) (pIte (OutKeeps s0) ?_
      h)) (pIte (OutKeeps s0) (State.ethSend_keeps h) h))
  split
  · rename_i e0 e1
    exact h
  · rename_i e2 e3 e4 e5
    extract_lets +onlyGivenNames y6
    clear_value y6
    exact State.send_keeps (State.setPort_keeps h)

theorem execLackTimer_keeps {s0 : State} {x0 s : _} (h : Keeps s0 s) : OutKeeps s0 (execLackTimer x0 s) := by
  unfold execLackTimer
  exact pIte (OutKeeps s0) (State.putCredit_keeps (State.putLack_keeps h)) h

theorem execCreditReturnTimer_keeps {s0 : State} {x0 s : _} (h : Keeps s0 s) : OutKeeps s0 (execCreditReturnTimer x0
    s) := by
  unfold execCreditReturnTimer
  exact pIte (OutKeeps s0) (State.putCredit_keeps h) h

theorem execReplayTimeout_keeps {s0 : State} {x0 s : _} (h : Keeps s0 s) : OutKeeps s0 (execReplayTimeout x0 s) := by
  unfold execReplayTimeout
  exact pIte (OutKeeps s0) (State.resendAll_keeps h) h

theorem execIdleTimer_keeps {s0 : State} {x0 s : _} (h : Keeps s0 s) : OutKeeps s0 (execIdleTimer x0 s) := by
  unfold execIdleTimer
  exact pIte (OutKeeps s0) (State.putLink_keeps h) h

theorem execPartnerAbsenceTimeout_keeps {s0 : State} {x0 s : _} (h : Keeps s0 s) : OutKeeps s0
    (execPartnerAbsenceTimeout x0 s) := by
  unfold execPartnerAbsenceTimeout
  exact pIte (OutKeeps s0) (State.leavePort_keeps h) h

theorem execCreditTimeout_keeps {s0 : State} {x0 x1 s : _} (h : Keeps s0 s) : OutKeeps s0 (execCreditTimeout x0 x1 s)
    := by
  unfold execCreditTimeout
  exact pIte (OutKeeps s0) (State.portAlarm_keeps (State.onPort_keeps (State.wr_keeps h))) h

theorem execSlowTimeout_keeps {s0 : State} {x0 s : _} (h : Keeps s0 s) : OutKeeps s0 (execSlowTimeout x0 s) := by
  unfold execSlowTimeout
  exact pIte (OutKeeps s0) (State.leavePort_keeps h) h

theorem execLostHoldExpire_keeps {s0 : State} {x0 s : _} (h : Keeps s0 s) : OutKeeps s0 (execLostHoldExpire x0 s) :=
    by
  unfold execLostHoldExpire
  exact pIte (OutKeeps s0) (State.wr_keeps h) h

theorem State.fecCount_keeps {s0 : State} {s x1 x2 x3 : _} (h : Keeps s0 s) : Keeps s0 (State.fecCount s x1 x2 x3) :=
    by
  unfold State.fecCount
  refine pIte (Keeps s0) ?_ h
  extract_lets +onlyGivenNames y0
  have h1 : (Keeps s0) y0 := by unfold y0; exact State.bump_keeps h
  clear_value y0
  exact pIte (Keeps s0) (State.bump_keeps h1) h1

theorem execFecDegrade_keeps {s0 : State} {x0 x1 x2 x3 s : _} (h : Keeps s0 s) : OutKeeps s0 (execFecDegrade x0 x1 x2
    x3 s) := by
  unfold execFecDegrade
  extract_lets +onlyGivenNames y0
  have h1 : (Keeps s0) y0 := by unfold y0; exact State.fecCount_keeps h
  clear_value y0
  exact pIte (OutKeeps s0) h1 (pIte (OutKeeps s0) (State.leavePort_keeps h1) (State.removeLanes_keeps h1))

theorem State.clearPortCounters_keeps {s0 : State} {s x1 : _} (h : Keeps s0 s) : Keeps s0 (State.clearPortCounters s
    x1) := by
  unfold State.clearPortCounters
  extract_lets +onlyGivenNames y0
  have h1 : (Keeps s0) y0 := by unfold y0; exact foldlP (Keeps s0) h (fun a2 a3 a4 => State.setReg_keeps a4)
  clear_value y0
  extract_lets +onlyGivenNames y5
  have h6 : (Keeps s0) y5 := by unfold y5; exact foldlP (Keeps s0) h1 (fun a7 a8 a9 => State.wr_keeps a9)
  clear_value y5
  exact h6

theorem State.resetPort_keeps {s0 : State} {s x1 : _} (h : Keeps s0 s) : Keeps s0 (State.resetPort s x1) := by
  unfold State.resetPort
  extract_lets +onlyGivenNames y0
  have h1 : (Keeps s0) y0 := by unfold y0; exact State.leavePort_keeps h
  clear_value y0
  exact State.onPort_keeps (State.clearPortCounters_keeps h1)

theorem State.lpCtlFields_keeps {s0 : State} {s x1 x2 x3 x4 x5 : _} (h : Keeps s0 s) : Keeps s0 (State.lpCtlFields s
    x1 x2 x3 x4 x5) := by
  unfold State.lpCtlFields
  extract_lets +onlyGivenNames y0
  have h1 : (Keeps s0) y0 := by unfold y0; exact pIte (Keeps s0) h (State.wr_keeps h)
  clear_value y0
  extract_lets +onlyGivenNames y2
  have h3 : (Keeps s0) y2 := by unfold y2; exact pIte (Keeps s0) (State.onPort_keeps (State.wr_keeps h1)) h1
  clear_value y2
  extract_lets +onlyGivenNames y4 y5
  have h6 : (Keeps s0) y5 := by unfold y5; exact pIte (Keeps s0) (keepsMk h3 rfl) h3
  clear_value y4 y5
  exact pIte (Keeps s0) (State.resetPort_keeps h6) h6

theorem State.lpCtlWrite_keeps {s0 : State} {s x1 x2 x3 : _} (h : Keeps s0 s) : Keeps s0 (State.lpCtlWrite s x1 x2 x3)
    := by
  unfold State.lpCtlWrite
  extract_lets +onlyGivenNames y0
  clear_value y0
  exact pIte (Keeps s0) (State.refuse_keeps h) (State.lpCtlFields_keeps h)

theorem execUnquar_keeps {s0 : State} {x0 x1 x2 s : _} (h : Keeps s0 s) : OutKeeps s0 (execUnquar x0 x1 x2 s) := by
  unfold execUnquar
  exact pIte (OutKeeps s0) (State.refuse_keeps h) (State.lpCtlFields_keeps h)

theorem execLpRetrain_keeps {s0 : State} {x0 x1 x2 s : _} (h : Keeps s0 s) : OutKeeps s0 (execLpRetrain x0 x1 x2 s) :=
    by
  unfold execLpRetrain
  exact pIte (OutKeeps s0) (State.refuse_keeps h) (State.lpCtlFields_keeps h)

theorem execPreset_keeps {s0 : State} {x0 x1 x2 s : _} (h : Keeps s0 s) : OutKeeps s0 (execPreset x0 x1 x2 s) := by
  unfold execPreset
  exact pIte (OutKeeps s0) (State.refuse_keeps h) (State.lpCtlFields_keeps h)

theorem State.startRetrain_keeps {s0 : State} {s x1 : _} (h : Keeps s0 s) : Keeps s0 (State.startRetrain s x1) := by
  unfold State.startRetrain
  extract_lets +onlyGivenNames y0
  have h1 : (Keeps s0) y0 := by
    unfold y0
    split
    · rename_i e2 e3 e4
      exact State.failoverTo_keeps h
    · rename_i e5 e6
      exact h
  clear_value y0
  exact State.wr_keeps h1

theorem State.retrainOver_keeps {s0 : State} {s x1 : _} (h : Keeps s0 s) : Keeps s0 (State.retrainOver s x1) := by
  unfold State.retrainOver
  exact State.upkeepEnded_keeps (keepsMk h rfl)

theorem execPortRetrainDone_keeps {s0 : State} {x0 s : _} (h : Keeps s0 s) : OutKeeps s0 (execPortRetrainDone x0 s) :=
    by
  unfold execPortRetrainDone
  exact pIte (OutKeeps s0) h (State.onPort_keeps (State.setBadLanes_keeps (State.wr_keeps (State.retrainOver_keeps
      h))))

theorem execRetrainTimeout_keeps {s0 : State} {x0 s : _} (h : Keeps s0 s) : OutKeeps s0 (execRetrainTimeout x0 s) :=
    by
  unfold execRetrainTimeout
  exact pIte (OutKeeps s0) (State.leavePort_keeps (State.retrainOver_keeps h)) h

theorem lpDevlostWriteOp_keeps {s0 : State} {x0 x1 x2 s : _} (h : Keeps s0 s) : OutKeeps s0 (lpDevlostWriteOp x0 x1 x2
    s) := by
  unfold lpDevlostWriteOp
  exact pIte (OutKeeps s0) (State.refuse_keeps h) (foldlP (Keeps s0) h (fun a0 a1 a2 => pIte (Keeps s0)
      (State.loseDevice_keeps a2) a2))

theorem execLpDevlostWrite_keeps {s0 : State} {x0 x1 x2 s : _} (h : Keeps s0 s) : OutKeeps s0 (execLpDevlostWrite x0
    x1 x2 s) := by
  unfold execLpDevlostWrite
  exact lpDevlostWriteOp_keeps h

theorem lpDevclrWriteOp_keeps {s0 : State} {x0 x1 x2 s : _} (h : Keeps s0 s) : OutKeeps s0 (lpDevclrWriteOp x0 x1 x2
    s) := by
  unfold lpDevclrWriteOp
  exact pIte (OutKeeps s0) (State.refuse_keeps h) (State.setReg_keeps h)

theorem execLpDevclrWrite_keeps {s0 : State} {x0 x1 x2 s : _} (h : Keeps s0 s) : OutKeeps s0 (execLpDevclrWrite x0 x1
    x2 s) := by
  unfold execLpDevclrWrite
  exact lpDevclrWriteOp_keeps h

theorem execArpRequest_keeps {s0 : State} {x0 x1 x2 s : _} (h : Keeps s0 s) : OutKeeps s0 (execArpRequest x0 x1 x2 s)
    := by
  unfold execArpRequest
  exact pIte (OutKeeps s0) (State.send_keeps h) h

theorem execNeighbourSolicitation_keeps {s0 : State} {x0 x1 x2 s : _} (h : Keeps s0 s) : OutKeeps s0
    (execNeighbourSolicitation x0 x1 x2 s) := by
  unfold execNeighbourSolicitation
  extract_lets +onlyGivenNames y0 y1
  clear_value y0 y1
  exact pIte (OutKeeps s0) (State.send_keeps h) h

/-! ### Machine/Kmt.lean -/

theorem State.kmtAcked_keeps {s0 : State} {s x1 x2 : _} (h : Keeps s0 s) : Keeps s0 (State.kmtAcked s x1 x2) := by
  unfold State.kmtAcked
  split
  · rename_i e0 e1
    exact h
  · rename_i e2 e3 e4
    extract_lets +onlyGivenNames y5
    clear_value y5
    refine pIte (Keeps s0) h ?_
    extract_lets +onlyGivenNames y6
    have h7 : (Keeps s0) y6 := by unfold y6; exact State.setSession_keeps h
    clear_value y6
    extract_lets +onlyGivenNames y8
    clear_value y8
    exact State.kmtPump_keeps (foldlP (Keeps s0) h7 (fun a9 a10 a11 => State.okReq_keeps a11))

theorem State.kmtGate_keeps {s0 : State} {s x1 x2 x3 : _} (h : Keeps s0 s) : (KmtResKeeps s0) (State.kmtGate s x1 x2
    x3) := by
  unfold State.kmtGate
  extract_lets +onlyGivenNames y0
  have h1 : (Keeps s0) y0 := by unfold y0; exact pIte (Keeps s0) (State.bump_keeps h) h
  clear_value y0
  split
  · rename_i e2 e3
    exact h1
  · rename_i e4 e5 e6
    split
    · rename_i e7 e8
      exact h1
    · rename_i e9 e10 e11
      refine pIte (KmtResKeeps s0) h (pIte (KmtResKeeps s0) (State.hostile_keeps (State.bump_keeps h)) (pIte
          (KmtResKeeps s0) (State.setSession_keeps (State.bump_keeps h)) (pIte (KmtResKeeps s0)
          (State.setSession_keeps h) ?_)))
      extract_lets +onlyGivenNames y12
      have h13 : (Keeps s0) y12 := by unfold y12; exact State.setSession_keeps h
      clear_value y12
      exact pIte (KmtResKeeps s0) (State.hostile_keeps (State.bump_keeps h13)) (pIte (KmtResKeeps s0)
          (State.hostile_keeps (State.bump_keeps h13)) (pIte (KmtResKeeps s0) h13 (pIte (KmtResKeeps s0)
          (State.bump_keeps h13) (pIte (KmtResKeeps s0) (State.kmtPost_keeps (State.hostile_keeps (State.bump_keeps
          h13))) h13))))

theorem State.kmtRefuse_keeps {s0 : State} {s x1 : _} (h : Keeps s0 s) : Keeps s0 (State.kmtRefuse s x1) := by
  unfold State.kmtRefuse
  exact State.kmtPost_keeps h

theorem State.resendRecords_keeps {s0 : State} {s x1 x2 x3 : _} (h : Keeps s0 s) : (OptP (Keeps s0))
    (State.resendRecords s x1 x2 x3) := by
  unfold State.resendRecords
  extract_lets +onlyGivenNames y0
  clear_value y0
  refine foldlP (OptP (Keeps s0)) (someP h) (fun a1 a2 a3 => ?_)
  split
  · rename_i e4
    exact a3
  · rename_i e5 e6
    split
    · rename_i e7 e8
      exact True.intro
    · rename_i e9 e10 e11 e12 e13
      exact someP (outOf (VResKeeps s0) e13 (State.pavRead_keeps a3))
    · rename_i e14 e15 e16 e17
      exact someP (State.kmtPost_keeps (outOf (VResKeeps s0) e17 (State.pavRead_keeps a3)))

theorem State.attachNo_keeps {s0 : State} {s x1 x2 x3 : _} (h : Keeps s0 s) : Keeps s0 (State.attachNo s x1 x2 x3) :=
    by
  unfold State.attachNo
  exact State.kmtPost_keeps h

theorem State.flushPair_keeps {s0 : State} {s x1 x2 : _} (h : Keeps s0 s) : Keeps s0 (State.flushPair s x1 x2) := by
  unfold State.flushPair
  exact foldlP (Keeps s0) h (fun a0 a1 a2 => pIte (Keeps s0) (State.flushVec_keeps a2) a2)

theorem State.attachTo_keeps {s0 : State} {s x1 x2 x3 : _} (h : Keeps s0 s) : (OptP (Keeps s0)) (State.attachTo s x1
    x2 x3) := by
  unfold State.attachTo
  extract_lets +onlyGivenNames y0 y1
  have h2 : (Keeps s0) y1 := by unfold y1; exact State.wr_keeps (State.setPav_keeps h)
  clear_value y0 y1
  extract_lets +onlyGivenNames y3
  have h4 : (Keeps s0) y3 := by unfold y3; exact State.setQp_keeps h2
  clear_value y3
  extract_lets +onlyGivenNames y5
  have h6 : (Keeps s0) y5 := by unfold y5; exact State.kmtPost_keeps h4
  clear_value y5
  exact mapOptP (Keeps s0) (Keeps s0) (State.resendRecords_keeps h6) (fun a7 a8 => State.flushPair_keeps a8)

theorem State.attachFails_keeps {s0 : State} {s x1 x2 : _} (h : Keeps s0 s) : Keeps s0 (State.attachFails s x1 x2) :=
    by
  unfold State.attachFails
  extract_lets +onlyGivenNames y0
  have h1 : (Keeps s0) y0 := by unfold y0; exact State.bump_keeps h
  clear_value y0
  exact pIte (Keeps s0) (State.setQp_keeps (State.unbindQp_keeps h1)) h1

theorem State.attachIn_keeps {s0 : State} {s x1 : _} (h : Keeps s0 s) : (OptP (Keeps s0)) (State.attachIn s x1) := by
  unfold State.attachIn
  extract_lets +onlyGivenNames y0 y1
  clear_value y0 y1
  exact pIte (OptP (Keeps s0)) (someP (State.attachNo_keeps h)) (pIte (OptP (Keeps s0)) (someP (State.attachNo_keeps
      (State.attachFails_keeps h))) (State.attachTo_keeps h))

theorem State.putEntries_keeps {s0 : State} {s x1 x2 x3 x4 x5 : _} (h : Keeps s0 s) : (OptP (OptP (Keeps s0)))
    (State.putEntries s x1 x2 x3 x4 x5) := by
  induction x4 generalizing s x1 x2 x3 x5
  · unfold State.putEntries
    exact someP (someP h)
  · rename_i e0 e1
    unfold State.putEntries
    split
    · rename_i e2 e3
      exact True.intro
    · rename_i e4 e5 e6 e7 e8
      exact someP True.intro
    · rename_i e9 e10 e11 e12
      exact e1 (outOf (VResKeeps s0) e12 (State.pavWrite_keeps h))

theorem State.submitIn_keeps {s0 : State} {s x1 : _} (h : Keeps s0 s) : (OptP (Keeps s0)) (State.submitIn s x1) := by
  unfold State.submitIn
  extract_lets +onlyGivenNames y0 y1 y2 y3 y4
  clear_value y0 y1 y2 y3 y4
  refine pIte (OptP (Keeps s0)) (someP (State.kmtRefuse_keeps h)) (mapOptP (OptP (Keeps s0)) (Keeps s0)
      (State.putEntries_keeps h) (fun a5 a6 => ?_))
  split
  · rename_i e7
    exact State.kmtRefuse_keeps h
  · rename_i e8 e9
    exact State.wr_keeps a6

theorem State.cqAckIn_keeps {s0 : State} {s x1 : _} (h : Keeps s0 s) : Keeps s0 (State.cqAckIn s x1) := by
  unfold State.cqAckIn
  extract_lets +onlyGivenNames y0 y1 y2
  clear_value y0 y1 y2
  exact pIte (Keeps s0) (State.kmtRefuse_keeps h) (pIte (Keeps s0) (State.wr_keeps h) (State.badDb_keeps h))

theorem State.kmtRequest_keeps {s0 : State} {s x1 x2 x3 : _} (h : Keeps s0 s) : Keeps s0 (State.kmtRequest s x1 x2 x3)
    := by
  unfold State.kmtRequest
  exact getDP (Keeps s0) (State.perform_keeps h) (State.keepIn_keeps h)

theorem State.rdataIn_keeps {s0 : State} {s x1 : _} (h : Keeps s0 s) : Keeps s0 (State.rdataIn s x1) := by
  unfold State.rdataIn
  split
  · rename_i e0 e1 e2
    exact State.okReq_keeps h
  · rename_i e3 e4
    exact h

theorem State.refusedIn_keeps {s0 : State} {s x1 : _} (h : Keeps s0 s) : Keeps s0 (State.refusedIn s x1) := by
  unfold State.refusedIn
  split
  · rename_i e0 e1
    exact h
  · rename_i e2 e3 e4
    exact pIte (Keeps s0) (keepsMk h rfl) (State.badReq_keeps h)

theorem State.kmtAct_keeps {s0 : State} {s x1 x2 x3 x4 : _} (h : Keeps s0 s) : (OptP (Keeps s0)) (State.kmtAct s x1 x2
    x3 x4) := by
  unfold State.kmtAct
  split
  · rename_i e0
    exact State.attachIn_keeps h
  · rename_i e1
    exact State.submitIn_keeps h
  · rename_i e2
    exact someP (State.cqAckIn_keeps h)
  · rename_i e3
    exact someP (State.kmtRequest_keeps h)
  · rename_i e4
    exact someP (State.kmtRequest_keeps h)
  · rename_i e5
    exact someP (State.rdataIn_keeps h)
  · rename_i e6
    exact someP (State.kmtRequest_keeps h)
  · rename_i e7
    exact someP (State.refusedIn_keeps h)
  · rename_i e8
    exact someP (State.loseSession_keeps h)
  · rename_i e9 e10 e11 e12 e13 e14 e15 e16 e17 e18
    exact someP h

theorem State.kmtEarly_keeps {s0 : State} {s x1 x2 x3 : _} (h : Keeps s0 s) : Keeps s0 (State.kmtEarly s x1 x2 x3) :=
    by
  induction x3 generalizing s x1 x2
  · unfold State.kmtEarly
    exact h
  · rename_i e0 e1
    unfold State.kmtEarly
    split
    · rename_i e2 e3
      exact h
    · rename_i e4 e5 e6 e7
      split
      · rename_i e8 e9 e10
        exact e1 (outOf (KmtResKeeps s0) e10 (State.kmtGate_keeps h))
      · rename_i e11 e12 e13 e14
        split
        · rename_i e15 e16
          exact h
        · rename_i e17 e18 e19
          exact e1 (State.kmtAcked_keeps (outOf (OptP (Keeps s0)) e19 (State.kmtAct_keeps (outOf (KmtResKeeps s0) e14
              (State.kmtGate_keeps h)))))

theorem State.kmtIn_keeps {s0 : State} {s x1 x2 x3 : _} (h : Keeps s0 s) : OutKeeps s0 (State.kmtIn s x1 x2 x3) := by
  unfold State.kmtIn
  split
  · rename_i e0 e1 e2
    exact State.kmtEarly_keeps (outOf (KmtResKeeps s0) e2 (State.kmtGate_keeps h))
  · rename_i e3 e4 e5 e6
    split
    · rename_i e7 e8
      exact h
    · rename_i e9 e10 e11
      exact State.kmtEarly_keeps (State.kmtAcked_keeps (outOf (OptP (Keeps s0)) e11 (State.kmtAct_keeps (outOf
          (KmtResKeeps s0) e6 (State.kmtGate_keeps h)))))

theorem execKmtAttach_keeps {s0 : State} {x0 x1 s : _} (h : Keeps s0 s) : OutKeeps s0 (execKmtAttach x0 x1 s) := by
  unfold execKmtAttach
  exact State.kmtIn_keeps h

theorem execKmtSubmit_keeps {s0 : State} {x0 x1 s : _} (h : Keeps s0 s) : OutKeeps s0 (execKmtSubmit x0 x1 s) := by
  unfold execKmtSubmit
  exact State.kmtIn_keeps h

theorem execKmtCqAck_keeps {s0 : State} {x0 x1 s : _} (h : Keeps s0 s) : OutKeeps s0 (execKmtCqAck x0 x1 s) := by
  unfold execKmtCqAck
  exact State.kmtIn_keeps h

theorem execKmtWrite_keeps {s0 : State} {x0 x1 s : _} (h : Keeps s0 s) : OutKeeps s0 (execKmtWrite x0 x1 s) := by
  unfold execKmtWrite
  exact State.kmtIn_keeps h

theorem execKmtRead_keeps {s0 : State} {x0 x1 s : _} (h : Keeps s0 s) : OutKeeps s0 (execKmtRead x0 x1 s) := by
  unfold execKmtRead
  exact State.kmtIn_keeps h

theorem execKmtToken_keeps {s0 : State} {x0 x1 s : _} (h : Keeps s0 s) : OutKeeps s0 (execKmtToken x0 x1 s) := by
  unfold execKmtToken
  exact State.kmtIn_keeps h

theorem execKmtRdata_keeps {s0 : State} {x0 x1 s : _} (h : Keeps s0 s) : OutKeeps s0 (execKmtRdata x0 x1 s) := by
  unfold execKmtRdata
  exact State.kmtIn_keeps h

theorem execKmtRefuse_keeps {s0 : State} {x0 x1 s : _} (h : Keeps s0 s) : OutKeeps s0 (execKmtRefuse x0 x1 s) := by
  unfold execKmtRefuse
  exact State.kmtIn_keeps h

theorem execKmtAck_keeps {s0 : State} {x0 x1 s : _} (h : Keeps s0 s) : OutKeeps s0 (execKmtAck x0 x1 s) := by
  unfold execKmtAck
  exact State.kmtIn_keeps h

theorem execKmtKeepalive_keeps {s0 : State} {x0 x1 s : _} (h : Keeps s0 s) : OutKeeps s0 (execKmtKeepalive x0 x1 s) :=
    by
  unfold execKmtKeepalive
  exact State.kmtIn_keeps h

theorem execKmtClose_keeps {s0 : State} {x0 x1 s : _} (h : Keeps s0 s) : OutKeeps s0 (execKmtClose x0 x1 s) := by
  unfold execKmtClose
  exact State.kmtIn_keeps h

theorem execKmtRetransmitTimeout_keeps {s0 : State} {x0 s : _} (h : Keeps s0 s) : OutKeeps s0
    (execKmtRetransmitTimeout x0 s) := by
  unfold execKmtRetransmitTimeout
  split
  · rename_i e0 e1
    exact h
  · rename_i e2 e3 e4
    split
    · rename_i e5 e6
      exact h
    · rename_i e7 e8 e9 e10 e11
      exact pIte (OutKeeps s0) (State.loseSession_keeps h) (pIte (OutKeeps s0) h (State.send_keeps
          (State.setSession_keeps h)))

theorem execKmtAckTimer_keeps {s0 : State} {x0 s : _} (h : Keeps s0 s) : OutKeeps s0 (execKmtAckTimer x0 s) := by
  unfold execKmtAckTimer
  split
  · rename_i e0 e1
    exact h
  · rename_i e2 e3 e4
    exact pIte (OutKeeps s0) (State.send_keeps (State.setSession_keeps h)) h

theorem execKmtKeepaliveTimer_keeps {s0 : State} {x0 s : _} (h : Keeps s0 s) : OutKeeps s0 (execKmtKeepaliveTimer x0
    s) := by
  unfold execKmtKeepaliveTimer
  exact State.kmtPost_keeps h

theorem execKmtSessionTimeout_keeps {s0 : State} {x0 s : _} (h : Keeps s0 s) : OutKeeps s0 (execKmtSessionTimeout x0
    s) := by
  unfold execKmtSessionTimeout
  exact pIte (OutKeeps s0) (State.loseSession_keeps h) h

end Sys2Proof.Machine
end

