-- ==== Sys2Proof/Laws/KeepsFaults.lean ====
section
/-! SUPPORT. `Keeps` for every operation and every meaning of pace and power, the Trellis, renewal, recovery and telemetry. -/

namespace Sys2Proof.Machine

/-! ### Machine/Hub.lean -/

theorem State.setAplic_keeps {s0 : State} {s x1 x2 x3 : _} (h : Keeps s0 s) : Keeps s0 (State.setAplic s x1 x2 x3) :=
    by
  unfold State.setAplic
  exact keepsMk h rfl

theorem State.aplicForward_keeps {s0 : State} {s x1 x2 : _} (h : Keeps s0 s) : Keeps s0 (State.aplicForward s x1 x2)
    := by
  unfold State.aplicForward
  refine pIte (Keeps s0) ?_ h
  extract_lets +onlyGivenNames y0 y1
  have h2 : (Keeps s0) y1 := by unfold y1; exact State.setAplic_keeps h
  clear_value y0 y1
  exact State.msi_keeps h2

theorem State.aplicSource_keeps {s0 : State} {s x1 : _} (h : Keeps s0 s) : Keeps s0 (State.aplicSource s x1) := by
  unfold State.aplicSource
  extract_lets +onlyGivenNames y0
  clear_value y0
  exact pIte (Keeps s0) h (State.aplicForward_keeps (State.setAplic_keeps h))

theorem State.alqSync_keeps {s0 : State} {s : _} (h : Keeps s0 s) : Keeps s0 (State.alqSync s) := by
  unfold State.alqSync
  exact State.wr_keeps (State.wr_keeps h)

theorem State.alarmFirst_keeps {s0 : State} {s x1 : _} (h : Keeps s0 s) : Keeps s0 (State.alarmFirst s x1) := by
  unfold State.alarmFirst
  exact State.alqSync_keeps (keepsMk h rfl)

theorem State.lossCause_keeps {s0 : State} {s x1 x2 : _} (h : Keeps s0 s) : Keeps s0 (State.lossCause s x1 x2) := by
  unfold State.lossCause
  exact pIte (Keeps s0) (State.wr_keeps (State.wr_keeps h)) h

theorem State.deviceLoss_keeps {s0 : State} {s x1 x2 : _} (h : Keeps s0 s) : Keeps s0 (State.deviceLoss s x1 x2) := by
  unfold State.deviceLoss
  refine pIte (Keeps s0) h ?_
  extract_lets +onlyGivenNames y0 y1
  have h2 : (Keeps s0) y1 := by unfold y1; exact State.lossCause_keeps h
  clear_value y0 y1
  extract_lets +onlyGivenNames y3
  have h4 : (Keeps s0) y3 := by unfold y3; exact foldlP (Keeps s0) h2 (fun a5 a6 a7 => State.fence_keeps a7)
  clear_value y3
  extract_lets +onlyGivenNames y8 y9
  have h10 : (Keeps s0) y9 := by unfold y9; exact State.record_keeps h4
  clear_value y8 y9
  extract_lets +onlyGivenNames y11
  have h12 : (Keeps s0) y11 := by unfold y11; exact State.alarmFirst_keeps h10
  clear_value y11
  exact keepsMk h12 rfl

/-! ### Machine/Pace.lean -/

theorem State.loopTarget_keeps {s0 : State} {s x1 : _} (h : Keeps s0 s) : Keeps s0 (State.loopTarget s x1) := by
  unfold State.loopTarget
  extract_lets +onlyGivenNames y0 y1
  clear_value y0 y1
  exact pIte (Keeps s0) (State.wr_keeps h) (State.wr_keeps (keepsMk h rfl))

theorem State.retarget_keeps {s0 : State} {s : _} (h : Keeps s0 s) : Keeps s0 (State.retarget s) := by
  unfold State.retarget
  extract_lets +onlyGivenNames y0
  have h1 : (Keeps s0) y0 := by unfold y0; exact State.wr_keeps (State.wr_keeps (State.wr_keeps (State.wr_keeps h)))
  clear_value y0
  exact foldlP (Keeps s0) h1 (fun a2 a3 a4 => State.loopTarget_keeps a4)

theorem State.powerAlarm_keeps {s0 : State} {s x1 x2 : _} (h : Keeps s0 s) : Keeps s0 (State.powerAlarm s x1 x2) := by
  unfold State.powerAlarm
  exact State.alarm_keeps h

theorem paceRequestWriteOp_keeps {s0 : State} {x0 x1 s : _} (h : Keeps s0 s) : OutKeeps s0 (paceRequestWriteOp x0 x1
    s) := by
  unfold paceRequestWriteOp
  extract_lets +onlyGivenNames y0
  clear_value y0
  refine pIte (OutKeeps s0) (State.refuse_keeps h) (pIte (OutKeeps s0) h ?_)
  extract_lets +onlyGivenNames y1
  have h2 : (Keeps s0) y1 := by unfold y1; exact State.wr_keeps h
  clear_value y1
  exact State.retarget_keeps (pIte (Keeps s0) h2 (State.drift_keeps h2))

theorem execPaceRequestWrite_keeps {s0 : State} {x0 x1 s : _} (h : Keeps s0 s) : OutKeeps s0 (execPaceRequestWrite x0
    x1 s) := by
  unfold execPaceRequestWrite
  exact paceRequestWriteOp_keeps h

theorem State.loopStep_keeps {s0 : State} {s x1 x2 : _} (h : Keeps s0 s) : (FstP (Keeps s0)) (State.loopStep s x1 x2)
    := by
  unfold State.loopStep
  refine pIte (FstP (Keeps s0)) (fstMk h) ?_
  extract_lets +onlyGivenNames y0 y1 y2
  clear_value y0 y1 y2
  split
  rename_i e3 e4 e5 e6
  extract_lets +onlyGivenNames y7 y8
  have h9 : (Keeps s0) y8 := by unfold y8; exact pIte (Keeps s0) h (State.send_keeps (State.wr_keeps h))
  clear_value y7 y8
  exact fstMk h9

theorem State.showPaces_keeps {s0 : State} {s x1 : _} (h : Keeps s0 s) : Keeps s0 (State.showPaces s x1) := by
  unfold State.showPaces
  exact foldlP (Keeps s0) h (fun a0 a1 a2 => State.wr_keeps a2)

theorem State.loopSteps_keeps {s0 : State} {s x1 : _} (h : Keeps s0 s) : (FstP (Keeps s0)) (State.loopSteps s x1) :=
    by
  unfold State.loopSteps
  refine foldlP (FstP (Keeps s0)) (fstMk h) (fun a0 a1 a2 => ?_)
  split
  rename_i e3 e4 e5 e6
  exact fstMk (outOf (FstP (Keeps s0)) e6 (State.loopStep_keeps a2))

theorem State.shortNow_keeps {s0 : State} {s x1 : _} (h : Keeps s0 s) : Keeps s0 (State.shortNow s x1) := by
  unfold State.shortNow
  extract_lets +onlyGivenNames y0 y1
  have h2 : (Keeps s0) y1 := by unfold y1; exact State.wr_keeps h
  clear_value y0 y1
  exact pIte (Keeps s0) (State.powerAlarm_keeps h2) h2

theorem execGovernorTick_keeps {s0 : State} {x0 s : _} (h : Keeps s0 s) : OutKeeps s0 (execGovernorTick x0 s) := by
  unfold execGovernorTick
  extract_lets +onlyGivenNames y0
  have h1 : (Keeps s0) y0 := by unfold y0; exact State.showPaces_keeps h
  clear_value y0
  exact pIte (OutKeeps s0) h1 (State.shortNow_keeps (State.loopSteps_keeps h1))

theorem State.hwBrakes_keeps {s0 : State} {s : _} (h : Keeps s0 s) : Keeps s0 (State.hwBrakes s) := by
  unfold State.hwBrakes
  exact State.wr_keeps h

theorem State.brakeFields_keeps {s0 : State} {s x1 x2 : _} (h : Keeps s0 s) : Keeps s0 (State.brakeFields s x1 x2) :=
    by
  unfold State.brakeFields
  extract_lets +onlyGivenNames y0
  have h1 : (Keeps s0) y0 := by unfold y0; exact pIte (Keeps s0) (State.wr_keeps h) h
  clear_value y0
  exact pIte (Keeps s0) (State.hwBrakes_keeps (State.wr_keeps h1)) h1

theorem State.brakeWrite_keeps {s0 : State} {s x1 x2 : _} (h : Keeps s0 s) : Keeps s0 (State.brakeWrite s x1 x2) := by
  unfold State.brakeWrite
  exact pIte (Keeps s0) (State.refuse_keeps h) (State.brakeFields_keeps h)

theorem execBrakeLevelWrite_keeps {s0 : State} {x0 x1 s : _} (h : Keeps s0 s) : OutKeeps s0 (execBrakeLevelWrite x0 x1
    s) := by
  unfold execBrakeLevelWrite
  exact State.brakeWrite_keeps h

theorem execAclr_keeps {s0 : State} {x0 x1 s : _} (h : Keeps s0 s) : OutKeeps s0 (execAclr x0 x1 s) := by
  unfold execAclr
  exact pIte (OutKeeps s0) (State.refuse_keeps h) (State.brakeFields_keeps h)

theorem State.alertAt_keeps {s0 : State} {s x1 : _} (h : Keeps s0 s) : Keeps s0 (State.alertAt s x1) := by
  unfold State.alertAt
  exact keepsMk h rfl

theorem execRegulatorAlert_keeps {s0 : State} {x0 s : _} (h : Keeps s0 s) : OutKeeps s0 (execRegulatorAlert x0 s) :=
    by
  unfold execRegulatorAlert
  exact State.aplicSource_keeps (State.hwBrakes_keeps (State.wr_keeps (State.alertAt_keeps h)))

theorem State.setCapPace_keeps {s0 : State} {s x1 : _} (h : Keeps s0 s) : Keeps s0 (State.setCapPace s x1) := by
  unfold State.setCapPace
  exact State.retarget_keeps (keepsMk h rfl)

theorem State.lowerThrottle_keeps {s0 : State} {s x1 : _} (h : Keeps s0 s) : Keeps s0 (State.lowerThrottle s x1) := by
  unfold State.lowerThrottle
  split
  · rename_i e0
    exact State.setCapPace_keeps h
  · rename_i e1
    exact State.wr_keeps h
  · rename_i e2 e3 e4
    exact State.wr_keeps h

theorem State.raiseThrottle_keeps {s0 : State} {s x1 : _} (h : Keeps s0 s) : Keeps s0 (State.raiseThrottle s x1) := by
  unfold State.raiseThrottle
  split
  · rename_i e0
    extract_lets +onlyGivenNames y1
    clear_value y1
    exact State.setCapPace_keeps h
  · rename_i e2
    exact State.wr_keeps h
  · rename_i e3 e4 e5
    exact State.wr_keeps h

theorem State.capStep_keeps {s0 : State} {s x1 : _} (h : Keeps s0 s) : Keeps s0 (State.capStep s x1) := by
  unfold State.capStep
  extract_lets +onlyGivenNames y0 y1
  clear_value y0 y1
  refine pIte (Keeps s0) ?_ (pIte (Keeps s0) (pIte (Keeps s0) (State.wr_keeps (keepsMk h rfl)) ?_) h)
  · split
    · rename_i e2 e3 e4
      exact State.lowerThrottle_keeps h
    · rename_i e5 e6
      extract_lets +onlyGivenNames y7
      have h8 : (Keeps s0) y7 := by unfold y7; exact State.wr_keeps h
      clear_value y7
      exact pIte (Keeps s0) h8 (State.powerAlarm_keeps (keepsMk h8 rfl))
  · split
    · rename_i e9 e10 e11
      exact State.raiseThrottle_keeps h
    · rename_i e12 e13
      exact h

theorem State.railRange_keeps {s0 : State} {s x1 x2 : _} (h : Keeps s0 s) : Keeps s0 (State.railRange s x1 x2) := by
  unfold State.railRange
  exact pIte (Keeps s0) (keepsMk h rfl) (pIte (Keeps s0) h (State.powerAlarm_keeps (keepsMk h rfl)))

theorem State.railRead_keeps {s0 : State} {s x1 x2 : _} (h : Keeps s0 s) : Keeps s0 (State.railRead s x1 x2) := by
  unfold State.railRead
  refine pIte (Keeps s0) ?_ ?_
  · extract_lets +onlyGivenNames y0
    have h1 : (Keeps s0) y0 := by unfold y0; exact State.wr_keeps (State.wr_keeps (State.wr_keeps h))
    clear_value y0
    exact State.railRange_keeps (keepsMk h1 rfl)
  · extract_lets +onlyGivenNames y2 y3 y4
    have h5 : (Keeps s0) y4 := by unfold y4; exact keepsMk h rfl
    clear_value y2 y3 y4
    exact pIte (Keeps s0) (State.powerAlarm_keeps (State.wr_keeps h5)) h5

theorem State.readRails_keeps {s0 : State} {s x1 : _} (h : Keeps s0 s) : Keeps s0 (State.readRails s x1) := by
  unfold State.readRails
  refine foldlP (Keeps s0) h (fun a0 a1 a2 => ?_)
  split
  rename_i e3 e4 e5
  exact State.railRead_keeps a2

theorem State.showPower_keeps {s0 : State} {s : _} (h : Keeps s0 s) : Keeps s0 (State.showPower s) := by
  unfold State.showPower
  extract_lets +onlyGivenNames y0
  clear_value y0
  exact State.wr_keeps (State.wr_keeps (State.wr_keeps (State.wr_keeps h)))

theorem execTelemetryRead_keeps {s0 : State} {x0 s : _} (h : Keeps s0 s) : OutKeeps s0 (execTelemetryRead x0 s) := by
  unfold execTelemetryRead
  refine pIte (OutKeeps s0) h ?_
  extract_lets +onlyGivenNames y0
  have h1 : (Keeps s0) y0 := by unfold y0; exact State.readRails_keeps h
  clear_value y0
  exact State.capStep_keeps (State.showPower_keeps h1)

theorem State.droopAt_keeps {s0 : State} {s x1 x2 : _} (h : Keeps s0 s) : Keeps s0 (State.droopAt s x1 x2) := by
  unfold State.droopAt
  extract_lets +onlyGivenNames y0
  clear_value y0
  exact keepsMk h rfl

theorem execDroopDetect_keeps {s0 : State} {x0 x1 s : _} (h : Keeps s0 s) : OutKeeps s0 (execDroopDetect x0 x1 s) :=
    by
  unfold execDroopDetect
  exact State.droopAt_keeps h

theorem State.droopOver_keeps {s0 : State} {s x1 x2 : _} (h : Keeps s0 s) : Keeps s0 (State.droopOver s x1 x2) := by
  unfold State.droopOver
  extract_lets +onlyGivenNames y0
  clear_value y0
  exact keepsMk h rfl

theorem execDroopEnd_keeps {s0 : State} {x0 s : _} (h : Keeps s0 s) : OutKeeps s0 (execDroopEnd x0 s) := by
  unfold execDroopEnd
  refine pIte (OutKeeps s0) h ?_
  extract_lets +onlyGivenNames y0 y1
  have h2 : (Keeps s0) y1 := by unfold y1; exact State.bump_keeps (State.droopOver_keeps h)
  clear_value y0 y1
  exact pIte (Keeps s0) (State.alarm_keeps h2) h2

theorem execDroopHoldEnd_keeps {s0 : State} {x0 s : _} (h : Keeps s0 s) : OutKeeps s0 (execDroopHoldEnd x0 s) := by
  unfold execDroopHoldEnd
  exact State.loopTarget_keeps (keepsMk h rfl)

theorem State.shutdown_keeps {s0 : State} {s : _} (h : Keeps s0 s) : Keeps s0 (State.shutdown s) := by
  unfold State.shutdown
  refine pIte (Keeps s0) h ?_
  extract_lets +onlyGivenNames y0 y1 y2
  have h3 : (Keeps s0) y2 := by unfold y2; exact keepsMk h rfl
  clear_value y0 y1 y2
  extract_lets +onlyGivenNames y4
  have h5 : (Keeps s0) y4 := by
    unfold y4
    exact State.deviceLoss_keeps (State.aplicSource_keeps (State.hwBrakes_keeps h3))
  clear_value y4
  exact foldlP (Keeps s0) h5 (fun a6 a7 a8 => State.send_keeps a8)

theorem State.takeTemp_keeps {s0 : State} {s x1 x2 : _} (h : Keeps s0 s) : Keeps s0 (State.takeTemp s x1 x2) := by
  unfold State.takeTemp
  extract_lets +onlyGivenNames y0
  have h1 : (Keeps s0) y0 := by unfold y0; exact State.wr_keeps h
  clear_value y0
  exact State.wr_keeps h1

theorem State.warnTemp_keeps {s0 : State} {s x1 x2 : _} (h : Keeps s0 s) : Keeps s0 (State.warnTemp s x1 x2) := by
  unfold State.warnTemp
  extract_lets +onlyGivenNames y0
  clear_value y0
  exact pIte (Keeps s0) (State.aplicSource_keeps (State.alarm_keeps (keepsMk h rfl))) (pIte (Keeps s0) (keepsMk h rfl)
      h)

theorem State.thermBrake_keeps {s0 : State} {s : _} (h : Keeps s0 s) : Keeps s0 (State.thermBrake s) := by
  unfold State.thermBrake
  extract_lets +onlyGivenNames y0 y1
  clear_value y0 y1
  exact pIte (Keeps s0) (State.hwBrakes_keeps (keepsMk h rfl)) (pIte (Keeps s0) (State.hwBrakes_keeps (keepsMk h rfl))
      h)

theorem execSensorRead_keeps {s0 : State} {x0 x1 s : _} (h : Keeps s0 s) : OutKeeps s0 (execSensorRead x0 x1 s) := by
  unfold execSensorRead
  extract_lets +onlyGivenNames y0 y1
  have h2 : (Keeps s0) y1 := by
    unfold y1
    exact State.thermBrake_keeps (State.warnTemp_keeps (State.takeTemp_keeps h))
  clear_value y0 y1
  exact pIte (Keeps s0) (State.shutdown_keeps h2) h2

theorem execThermalPaceStep_keeps {s0 : State} {s : _} (h : Keeps s0 s) : OutKeeps s0 (execThermalPaceStep s) := by
  unfold execThermalPaceStep
  exact State.retarget_keeps (keepsMk h rfl)

/-! ### Machine/Image.lean -/

theorem State.layMap_keeps {s0 : State} {s x1 : _} (h : Keeps s0 s) : Keeps s0 (State.layMap s x1) := by
  unfold State.layMap
  extract_lets +onlyGivenNames y0
  have h1 : (Keeps s0) y0 := by
    unfold y0
    refine foldlP (Keeps s0) h (fun a2 a3 a4 => ?_)
    extract_lets +onlyGivenNames y5
    clear_value y5
    exact pIte (Keeps s0) (State.wr_keeps (State.wr_keeps a4)) (State.wr_keeps (State.wr_keeps (State.wr_keeps a4)))
  clear_value y0
  refine foldlP (Keeps s0) h1 (fun a6 a7 a8 => ?_)
  extract_lets +onlyGivenNames y9
  have h10 : (Keeps s0) y9 := by unfold y9; exact State.wr_keeps a8
  clear_value y9
  exact pIte (Keeps s0) (State.wr_keeps h10) (State.wr_keeps (State.setPavState_keeps h10))

theorem State.layRoutes_keeps {s0 : State} {s x1 x2 : _} (h : Keeps s0 s) : Keeps s0 (State.layRoutes s x1 x2) := by
  unfold State.layRoutes
  extract_lets +onlyGivenNames y0 y1
  clear_value y0 y1
  exact keepsMk h rfl

theorem State.layGroups_keeps {s0 : State} {s x1 x2 : _} (h : Keeps s0 s) : Keeps s0 (State.layGroups s x1 x2) := by
  unfold State.layGroups
  extract_lets +onlyGivenNames y0
  have h1 : (Keeps s0) y0 := by
    unfold y0
    exact foldlP (Keeps s0) h (fun a2 a3 a4 => foldlP (Keeps s0) a4 (fun a5 a6 a7 => State.setReg_keeps a7))
  clear_value y0
  extract_lets +onlyGivenNames y8
  clear_value y8
  refine foldlP (Keeps s0) h1 (fun a9 a10 a11 => ?_)
  extract_lets +onlyGivenNames y12 y13
  clear_value y12 y13
  exact foldlP (Keeps s0) a11 (fun a14 a15 a16 => State.wr_keeps (State.wr_keeps (State.wr_keeps (State.wr_keeps
      a16))))

theorem State.clearEngines_keeps {s0 : State} {s x1 x2 : _} (h : Keeps s0 s) : Keeps s0 (State.clearEngines s x1 x2)
    := by
  unfold State.clearEngines
  exact keepsMk h rfl

theorem State.laySplit_keeps {s0 : State} {s x1 x2 : _} (h : Keeps s0 s) : Keeps s0 (State.laySplit s x1 x2) := by
  unfold State.laySplit
  extract_lets +onlyGivenNames y0 y1
  have h2 : (Keeps s0) y1 := by unfold y1; exact State.clearEngines_keeps h
  clear_value y0 y1
  extract_lets +onlyGivenNames y3
  have h4 : (Keeps s0) y3 := by unfold y3; exact State.wr_keeps (State.wr_keeps (State.wr_keeps h2))
  clear_value y3
  refine foldlP (Keeps s0) h4 (fun a5 a6 a7 => ?_)
  extract_lets +onlyGivenNames y8 y9
  clear_value y8 y9
  exact pIte (Keeps s0) (State.wr_keeps (State.wr_keeps (State.wr_keeps a7))) (State.wr_keeps (State.wr_keeps
      (State.wr_keeps a7)))

theorem State.layWays_keeps {s0 : State} {s x1 x2 : _} (h : Keeps s0 s) : Keeps s0 (State.layWays s x1 x2) := by
  unfold State.layWays
  exact foldlP (Keeps s0) h (fun a0 a1 a2 => State.wr_keeps (State.wr_keeps a2))

theorem State.layQuota_keeps {s0 : State} {s x1 x2 : _} (h : Keeps s0 s) : Keeps s0 (State.layQuota s x1 x2) := by
  unfold State.layQuota
  extract_lets +onlyGivenNames y0 y1
  have h2 : (Keeps s0) y1 := by
    unfold y1
    exact State.wr_keeps (State.wr_keeps (State.wr_keeps (State.wr_keeps (State.wr_keeps (State.wr_keeps h)))))
  clear_value y0 y1
  exact foldlP (Keeps s0) h2 (fun a3 a4 a5 => State.wr_keeps a5)

theorem State.layWindows_keeps {s0 : State} {s x1 x2 : _} (h : Keeps s0 s) : Keeps s0 (State.layWindows s x1 x2) := by
  unfold State.layWindows
  extract_lets +onlyGivenNames y0 y1 y2
  have h3 : ∀ b0 b1 b2, (Keeps s0) b0 → (Keeps s0) (y2 b0 b1 b2) := by
    unfold y2
    intro a4
    intro a5
    intro a6
    intro a7
    exact State.setShadow_keeps (State.setShadow_keeps (State.setShadow_keeps (State.setShadow_keeps
        (State.wsInstall_keeps a7))))
  clear_value y0 y1 y2
  extract_lets +onlyGivenNames y8
  have h9 : (Keeps s0) y8 := by
    unfold y8
    refine foldlP (Keeps s0) h (fun a10 a11 a12 => ?_)
    split
    rename_i e13 e14 e15 e16 e17 e18
    exact h3 _ _ _ a12
  clear_value y8
  extract_lets +onlyGivenNames y19
  have h20 : (Keeps s0) y19 := by unfold y19; exact foldlP (Keeps s0) h9 (fun a21 a22 a23 => h3 _ _ _ a23)
  clear_value y19
  exact keepsMk h20 rfl

theorem State.layPort_keeps {s0 : State} {s x1 x2 : _} (h : Keeps s0 s) : Keeps s0 (State.layPort s x1 x2) := by
  unfold State.layPort
  extract_lets +onlyGivenNames y0 y1 y2 y3 y4 y5
  have h6 : (Keeps s0) y5 := by unfold y5; exact State.onPort_keeps (State.wr_keeps h)
  clear_value y0 y1 y2 y3 y4 y5
  extract_lets +onlyGivenNames y7
  have h8 : (Keeps s0) y7 := by unfold y7; exact pIte (Keeps s0) h6 (State.leavePort_keeps h6)
  clear_value y7
  extract_lets +onlyGivenNames y9
  have h10 : (Keeps s0) y9 := by unfold y9; exact pIte (Keeps s0) h6 (State.wr_keeps h8)
  clear_value y9
  exact foldlP (Keeps s0) h10 (fun a11 a12 a13 => State.wr_keeps (State.wr_keeps a13))

theorem State.layGate_keeps {s0 : State} {s x1 : _} (h : Keeps s0 s) : Keeps s0 (State.layGate s x1) := by
  unfold State.layGate
  extract_lets +onlyGivenNames y0
  clear_value y0
  exact keepsMk h rfl

theorem State.setSlots_keeps {s0 : State} {s x1 x2 : _} (h : Keeps s0 s) : Keeps s0 (State.setSlots s x1 x2) := by
  unfold State.setSlots
  extract_lets +onlyGivenNames y0 y1 y2 y3
  have h4 : (Keeps s0) y3 := by unfold y3; exact State.wr_keeps (State.wr_keeps h)
  clear_value y0 y1 y2 y3
  exact foldlP (Keeps s0) h4 (fun a5 a6 a7 => State.wr_keeps a7)

theorem State.laySpare_keeps {s0 : State} {s x1 x2 : _} (h : Keeps s0 s) : Keeps s0 (State.laySpare s x1 x2) := by
  unfold State.laySpare
  extract_lets +onlyGivenNames y0 y1 y2
  have h3 : (Keeps s0) y2 := by unfold y2; exact keepsMk h rfl
  clear_value y0 y1 y2
  exact State.setSlots_keeps h3

theorem State.layUnavailable_keeps {s0 : State} {s x1 : _} (h : Keeps s0 s) : Keeps s0 (State.layUnavailable s x1) :=
    by
  unfold State.layUnavailable
  exact pIte (Keeps s0) (State.wr_keeps h) h

theorem State.layPace_keeps {s0 : State} {s x1 : _} (h : Keeps s0 s) : Keeps s0 (State.layPace s x1) := by
  unfold State.layPace
  split
  · rename_i e0 e1
    exact h
  · rename_i e2 e3 e4
    exact State.retarget_keeps (State.wr_keeps (State.wr_keeps (State.wr_keeps h)))

theorem State.layPav_keeps {s0 : State} {s x1 x2 : _} (h : Keeps s0 s) : Keeps s0 (State.layPav s x1 x2) := by
  unfold State.layPav
  exact State.layWindows_keeps (State.layQuota_keeps (State.layGroups_keeps (State.layRoutes_keeps h)))

theorem State.layAll_keeps {s0 : State} {s x1 : _} (h : Keeps s0 s) : Keeps s0 (State.layAll s x1) := by
  unfold State.layAll
  extract_lets +onlyGivenNames y0
  have h1 : (Keeps s0) y0 := by unfold y0; exact State.layMap_keeps h
  clear_value y0
  extract_lets +onlyGivenNames y2 y3
  have h4 : (Keeps s0) y3 := by unfold y3; exact keepsMk h1 rfl
  clear_value y2 y3
  extract_lets +onlyGivenNames y5
  have h6 : (Keeps s0) y5 := by
    unfold y5
    exact foldlP (Keeps s0) h4 (fun a7 a8 a9 => State.laySpare_keeps (State.layWays_keeps (State.laySplit_keeps a9)))
  clear_value y5
  extract_lets +onlyGivenNames y10
  have h11 : (Keeps s0) y10 := by unfold y10; exact foldlP (Keeps s0) h6 (fun a12 a13 a14 => State.layPav_keeps a14)
  clear_value y10
  extract_lets +onlyGivenNames y15
  have h16 : (Keeps s0) y15 := by
    unfold y15
    exact State.layGate_keeps (foldlP (Keeps s0) h11 (fun a17 a18 a19 => State.layPort_keeps a19))
  clear_value y15
  exact State.layPace_keeps (foldlP (Keeps s0) h16 (fun a20 a21 a22 => State.layUnavailable_keeps a22))

theorem State.candidate_keeps {s0 : State} {s x1 : _} (h : Keeps s0 s) : Keeps s0 (State.candidate s x1) := by
  unfold State.candidate
  extract_lets +onlyGivenNames y0
  have h1 : (Keeps s0) y0 := by
    unfold y0
    exact foldlP (Keeps s0) (State.layMap_keeps h) (fun a2 a3 a4 => State.layWays_keeps a4)
  clear_value y0
  exact foldlP (Keeps s0) h1 (fun a5 a6 a7 => State.layQuota_keeps a7)

/-! ### Machine/Trellis.lean -/

theorem State.setTrl_keeps {s0 : State} {s x1 : _} (h : Keeps s0 s) : Keeps s0 (State.setTrl s x1) := by
  unfold State.setTrl
  exact State.wr_keeps h

theorem State.trlReason_keeps {s0 : State} {s x1 : _} (h : Keeps s0 s) : Keeps s0 (State.trlReason s x1) := by
  unfold State.trlReason
  exact State.wr_keeps h

theorem State.dropImage_keeps {s0 : State} {s : _} (h : Keeps s0 s) : Keeps s0 (State.dropImage s) := by
  unfold State.dropImage
  exact keepsMk h rfl

theorem State.trlFail_keeps {s0 : State} {s x1 : _} (h : Keeps s0 s) : Keeps s0 (State.trlFail s x1) := by
  unfold State.trlFail
  exact State.setTrl_keeps (State.wr_keeps (State.trlReason_keeps h))

theorem State.trlReject_keeps {s0 : State} {s : _} (h : Keeps s0 s) : Keeps s0 (State.trlReject s) := by
  unfold State.trlReject
  exact State.trlReason_keeps (State.bump_keeps h)

theorem State.trlStage_keeps {s0 : State} {s : _} (h : Keeps s0 s) : Keeps s0 (State.trlStage s) := by
  unfold State.trlStage
  extract_lets +onlyGivenNames y0 y1 y2
  have h3 : (Keeps s0) y2 := by unfold y2; exact State.dropImage_keeps h
  clear_value y0 y1 y2
  exact pIte (Keeps s0) (State.setTrl_keeps (State.trlReason_keeps h3)) (State.setTrl_keeps (keepsMk h3 rfl))

theorem State.trlCommit_keeps {s0 : State} {s x1 : _} (h : Keeps s0 s) : Keeps s0 (State.trlCommit s x1) := by
  unfold State.trlCommit
  exact pIte (Keeps s0) (State.setTrl_keeps h) (pIte (Keeps s0) (State.setTrl_keeps (keepsMk h rfl))
      (State.trlReason_keeps h))

theorem State.trlWrite_keeps {s0 : State} {s x1 x2 : _} (h : Keeps s0 s) : Keeps s0 (State.trlWrite s x1 x2) := by
  unfold State.trlWrite
  extract_lets +onlyGivenNames y0
  clear_value y0
  refine pIte (Keeps s0) (State.refuse_keeps h) ?_
  split
  · rename_i e1 e2
    exact h
  · rename_i e3 e4
    exact pIte (Keeps s0) (State.trlStage_keeps h) (State.trlReject_keeps h)
  · rename_i e5 e6
    exact pIte (Keeps s0) (State.setTrl_keeps h) (State.trlReject_keeps h)
  · rename_i e7 e8
    split
    · rename_i e9 e10 e11
      exact pIte (Keeps s0) (State.trlCommit_keeps h) (State.trlReject_keeps h)
    · rename_i e12 e13
      exact State.trlReject_keeps h
  · rename_i e14 e15
    exact pIte (Keeps s0) (State.setTrl_keeps (State.dropImage_keeps h)) (State.trlReject_keeps h)
  · rename_i e16 e17 e18 e19 e20 e21
    exact State.trlReject_keeps h

theorem execTrlStage_keeps {s0 : State} {x0 x1 s : _} (h : Keeps s0 s) : OutKeeps s0 (execTrlStage x0 x1 s) := by
  unfold execTrlStage
  exact State.trlWrite_keeps h

theorem execTrlVerify_keeps {s0 : State} {x0 x1 s : _} (h : Keeps s0 s) : OutKeeps s0 (execTrlVerify x0 x1 s) := by
  unfold execTrlVerify
  exact State.trlWrite_keeps h

theorem execTrlCommit_keeps {s0 : State} {x0 x1 s : _} (h : Keeps s0 s) : OutKeeps s0 (execTrlCommit x0 x1 s) := by
  unfold execTrlCommit
  exact State.trlWrite_keeps h

theorem execTrlAbort_keeps {s0 : State} {x0 x1 s : _} (h : Keeps s0 s) : OutKeeps s0 (execTrlAbort x0 x1 s) := by
  unfold execTrlAbort
  exact State.trlWrite_keeps h

theorem execTrlStageCopyEnd_keeps {s0 : State} {s : _} (h : Keeps s0 s) : OutKeeps s0 (execTrlStageCopyEnd s) := by
  unfold execTrlStageCopyEnd
  refine pIte (OutKeeps s0) h ?_
  split
  rename_i e0 e1 e2 e3
  split
  · rename_i e4 e5
    exact h
  · rename_i e6 e7 e8 e9
    exact State.setTrl_keeps (State.trlReason_keeps h)
  · rename_i e10 e11 e12 e13
    exact pIte (OutKeeps s0) (State.setTrl_keeps (keepsMk (outOf (MemResKeeps s0) e13 (State.readAs_keeps h)) rfl))
        (State.setTrl_keeps (State.trlReason_keeps (outOf (MemResKeeps s0) e13 (State.readAs_keeps h))))

theorem execTrlVerifyDone_keeps {s0 : State} {s : _} (h : Keeps s0 s) : OutKeeps s0 (execTrlVerifyDone s) := by
  unfold execTrlVerifyDone
  refine pIte (OutKeeps s0) h ?_
  extract_lets +onlyGivenNames y0
  clear_value y0
  exact pIte (Keeps s0) (State.setTrl_keeps (State.trlReason_keeps h)) (State.trlFail_keeps h)

theorem State.cancelWs_keeps {s0 : State} {s x1 : _} (h : Keeps s0 s) : Keeps s0 (State.cancelWs s x1) := by
  unfold State.cancelWs
  exact pIte (Keeps s0) (State.commitCancel_keeps h) h

theorem State.commitPav_keeps {s0 : State} {s x1 : _} (h : Keeps s0 s) : Keeps s0 (State.commitPav s x1) := by
  unfold State.commitPav
  extract_lets +onlyGivenNames y0 y1 y2 y3 y4
  have h5 : (Keeps s0) y4 := by unfold y4; exact State.cancelWs_keeps (keepsMk h rfl)
  clear_value y0 y1 y2 y3 y4
  extract_lets +onlyGivenNames y6
  have h7 : (Keeps s0) y6 := by unfold y6; exact pIte (Keeps s0) (State.layRoutes_keeps h5) h5
  clear_value y6
  extract_lets +onlyGivenNames y8
  have h9 : (Keeps s0) y8 := by unfold y8; exact pIte (Keeps s0) (State.layGroups_keeps h7) h7
  clear_value y8
  extract_lets +onlyGivenNames y10
  have h11 : (Keeps s0) y10 := by unfold y10; exact pIte (Keeps s0) (State.layQuota_keeps h9) h9
  clear_value y10
  extract_lets +onlyGivenNames y12
  have h13 : (Keeps s0) y12 := by unfold y12; exact pIte (Keeps s0) (State.layWindows_keeps h11) h11
  clear_value y12
  extract_lets +onlyGivenNames y14
  have h15 : (Keeps s0) y14 := by
    unfold y14
    exact State.layPace_keeps (foldlP (Keeps s0) h13 (fun a16 a17 a18 => State.undrift_keeps a18))
  clear_value y14
  exact State.digestDue_keeps (State.announce_keeps (State.needReset_keeps (State.wr_keeps h15)))

theorem State.commitDevice_keeps {s0 : State} {s x1 : _} (h : Keeps s0 s) : Keeps s0 (State.commitDevice s x1) := by
  unfold State.commitDevice
  extract_lets +onlyGivenNames y0 y1 y2
  have h3 : (Keeps s0) y2 := by unfold y2; exact State.commitCancel_keeps (keepsMk h rfl)
  clear_value y0 y1 y2
  extract_lets +onlyGivenNames y4
  have h5 : (Keeps s0) y4 := by unfold y4; exact State.wr_keeps (State.wr_keeps h3)
  clear_value y4
  extract_lets +onlyGivenNames y6
  have h7 : (Keeps s0) y6 := by unfold y6; exact foldlP (Keeps s0) h5 (fun a8 a9 a10 => State.wr_keeps a10)
  clear_value y6
  exact State.digestDue_keeps (foldlP (Keeps s0) (State.layAll_keeps h7) (fun a11 a12 a13 => State.putBeacons_keeps
      a13))

theorem State.warmCommit_keeps {s0 : State} {s : _} (h : Keeps s0 s) : Keeps s0 (State.warmCommit s) := by
  unfold State.warmCommit
  extract_lets +onlyGivenNames y0
  have h1 : ∀ b0, (Keeps s0) b0 → (Keeps s0) (y0 b0) := by
    unfold y0
    intro a2
    intro a3
    extract_lets +onlyGivenNames y4 y5
    have h6 : (Keeps s0) y5 := by unfold y5; exact State.wr_keeps (keepsMk a3 rfl)
    clear_value y4 y5
    exact pIte (Keeps s0) h6 (State.layAll_keeps (State.commitCancel_keeps h6))
  clear_value y0
  split
  · rename_i e7 e8 e9 e10 e11
    extract_lets +onlyGivenNames y12
    clear_value y12
    exact pIte (Keeps s0) (State.setTrl_keeps (State.dropImage_keeps (State.commitDevice_keeps h)))
        (State.trlFail_keeps (h1 _ h))
  · rename_i e13 e14 e15
    exact State.setTrl_keeps (State.trlReason_keeps (State.dropImage_keeps (h1 _ h)))
  · rename_i e16 e17 e18
    exact State.setTrl_keeps (State.trlReason_keeps (State.dropImage_keeps (h1 _ h)))
  · rename_i e19 e20 e21 e22 e23
    exact h1 _ h

theorem State.putDigest_keeps {s0 : State} {s x1 x2 x3 : _} (h : Keeps s0 s) : Keeps s0 (State.putDigest s x1 x2 x3)
    := by
  unfold State.putDigest
  exact foldlP (Keeps s0) h (fun a0 a1 a2 => State.setReg_keeps a2)

theorem State.putDigests_keeps {s0 : State} {s : _} (h : Keeps s0 s) : Keeps s0 (State.putDigests s) := by
  unfold State.putDigests
  exact foldlP (Keeps s0) (State.putDigest_keeps h) (fun a0 a1 a2 => State.putDigest_keeps a2)

theorem execDigestRecomputeDone_keeps {s0 : State} {s : _} (h : Keeps s0 s) : OutKeeps s0 (execDigestRecomputeDone s)
    := by
  unfold execDigestRecomputeDone
  exact pIte (OutKeeps s0) h (State.wr_keeps (State.putDigests_keeps h))

theorem execTrlDigestCapture_keeps {s0 : State} {x0 s : _} (h : Keeps s0 s) : OutKeeps s0 (execTrlDigestCapture x0 s)
    := by
  unfold execTrlDigestCapture
  exact State.send_keeps (keepsMk h rfl)

theorem execTrlAgdCapture_keeps {s0 : State} {x0 x1 s : _} (h : Keeps s0 s) : OutKeeps s0 (execTrlAgdCapture x0 x1 s)
    := by
  unfold execTrlAgdCapture
  exact State.send_keeps (State.setPav_keeps h)

theorem State.agreeFence_keeps {s0 : State} {s x1 x2 : _} (h : Keeps s0 s) : Keeps s0 (State.agreeFence s x1 x2) := by
  unfold State.agreeFence
  extract_lets +onlyGivenNames y0
  have h1 : (Keeps s0) y0 := by unfold y0; exact State.bump_keeps (State.wr_keeps h)
  clear_value y0
  extract_lets +onlyGivenNames y2 y3 y4
  have h5 : (Keeps s0) y4 := by unfold y4; exact State.alarm_keeps h1
  clear_value y2 y3 y4
  split
  · rename_i e6 e7
    exact State.event_keeps h5
  · rename_i e8
    exact h5

theorem State.beaconAt_keeps {s0 : State} {s x1 x2 x3 x4 : _} (h : Keeps s0 s) : Keeps s0 (State.beaconAt s x1 x2 x3
    x4) := by
  unfold State.beaconAt
  extract_lets +onlyGivenNames y0 y1 y2 y3
  have h4 : (Keeps s0) y3 := by unfold y3; exact State.wr_keeps h
  clear_value y0 y1 y2 y3
  split
  · rename_i e5 e6
    exact pIte (Keeps s0) (State.wr_keeps h4) (pIte (Keeps s0) (State.agreeFence_keeps h4) (State.wr_keeps h4))
  · rename_i e7 e8
    exact pIte (Keeps s0) (State.wr_keeps h4) (pIte (Keeps s0) (State.agreeFence_keeps h4) h4)
  · rename_i e9 e10
    exact pIte (Keeps s0) h4 (State.agreeFence_keeps h4)
  · rename_i e11 e12 e13 e14
    exact h4

theorem State.beaconIn_keeps {s0 : State} {s x1 x2 : _} (h : Keeps s0 s) : Keeps s0 (State.beaconIn s x1 x2) := by
  unfold State.beaconIn
  split
  · rename_i e0 e1
    exact State.bump_keeps h
  · rename_i e2 e3 e4
    exact State.beaconAt_keeps h

theorem execSlpBeacon_keeps {s0 : State} {x0 x1 s : _} (h : Keeps s0 s) : OutKeeps s0 (execSlpBeacon x0 x1 s) := by
  unfold execSlpBeacon
  exact State.linkIn_keeps h (fun a0 a1 => State.beaconIn_keeps a1)

theorem execGraceTimerExpire_keeps {s0 : State} {x0 x1 s : _} (h : Keeps s0 s) : OutKeeps s0 (execGraceTimerExpire x0
    x1 s) := by
  unfold execGraceTimerExpire
  exact pIte (Keeps s0) (State.agreeFence_keeps h) h

theorem State.agreeWrite_keeps {s0 : State} {s x1 x2 x3 : _} (h : Keeps s0 s) : Keeps s0 (State.agreeWrite s x1 x2 x3)
    := by
  unfold State.agreeWrite
  exact pIte (Keeps s0) (State.putBeacon_keeps (State.wr_keeps h)) h

theorem execTrlAgreeClear_keeps {s0 : State} {x0 x1 x2 s : _} (h : Keeps s0 s) : OutKeeps s0 (execTrlAgreeClear x0 x1
    x2 s) := by
  unfold execTrlAgreeClear
  exact pIte (Keeps s0) (State.agreeWrite_keeps h) (State.refuse_keeps h)

theorem execBeaconSend_keeps {s0 : State} {x0 x1 s : _} (h : Keeps s0 s) : OutKeeps s0 (execBeaconSend x0 x1 s) := by
  unfold execBeaconSend
  exact pIte (Keeps s0) (State.putBeacon_keeps (keepsMk h rfl)) h

/-! ### Machine/Renew.lean -/

theorem State.pavReject_keeps {s0 : State} {s x1 : _} (h : Keeps s0 s) : Keeps s0 (State.pavReject s x1) := by
  unfold State.pavReject
  exact State.bump_keeps h

theorem State.release_keeps {s0 : State} {s x1 : _} (h : Keeps s0 s) : Keeps s0 (State.release s x1) := by
  unfold State.release
  extract_lets +onlyGivenNames y0
  have h1 : (Keeps s0) y0 := by unfold y0; exact State.setReg_keeps (State.wr_keeps (State.wr_keeps h))
  clear_value y0
  exact State.announce_keeps (State.setPavState_keeps h1)

theorem State.dropRuns_keeps {s0 : State} {s x1 : _} (h : Keeps s0 s) : Keeps s0 (State.dropRuns s x1) := by
  unfold State.dropRuns
  extract_lets +onlyGivenNames y0
  clear_value y0
  exact keepsMk h rfl

theorem State.dropContexts_keeps {s0 : State} {s x1 : _} (h : Keeps s0 s) : Keeps s0 (State.dropContexts s x1) := by
  unfold State.dropContexts
  exact State.clearEngines_keeps h

theorem State.dropLines_keeps {s0 : State} {s x1 x2 x3 : _} (h : Keeps s0 s) : Keeps s0 (State.dropLines s x1 x2 x3)
    := by
  unfold State.dropLines
  exact keepsMk h rfl

theorem State.scrubPav_keeps {s0 : State} {s x1 : _} (h : Keeps s0 s) : Keeps s0 (State.scrubPav s x1) := by
  unfold State.scrubPav
  extract_lets +onlyGivenNames y0 y1
  have h2 : (Keeps s0) y1 := by
    unfold y1
    exact pIte (Keeps s0) (foldlP (Keeps s0) h (fun a3 a4 a5 => State.zeroRange_keeps a5)) h
  clear_value y0 y1
  extract_lets +onlyGivenNames y6
  have h7 : (Keeps s0) y6 := by
    unfold y6
    refine pIte (Keeps s0) (foldlP (Keeps s0) h2 (fun a8 a9 a10 => ?_)) h2
    split
    rename_i e11 e12 e13
    extract_lets +onlyGivenNames y14
    clear_value y14
    exact State.zeroRange_keeps a10
  clear_value y6
  refine pIte (Keeps s0) (foldlP (Keeps s0) h7 (fun a15 a16 a17 => ?_)) h7
  split
  rename_i e18 e19 e20
  extract_lets +onlyGivenNames y21
  clear_value y21
  exact State.zeroRange_keeps (State.dropLines_keeps a17)

theorem State.clearPav_keeps {s0 : State} {s x1 : _} (h : Keeps s0 s) : Keeps s0 (State.clearPav s x1) := by
  unfold State.clearPav
  extract_lets +onlyGivenNames y0
  have h1 : (Keeps s0) y0 := by unfold y0; exact State.resetBeds_keeps (State.dropRuns_keeps h)
  clear_value y0
  extract_lets +onlyGivenNames y2
  have h3 : (Keeps s0) y2 := by
    unfold y2
    exact foldlP (Keeps s0) (State.dropTag_keeps h1) (fun a4 a5 a6 => State.clearGroup_keeps a6)
  clear_value y2
  extract_lets +onlyGivenNames y7
  have h8 : (Keeps s0) y7 := by unfold y7; exact State.setReg_keeps (State.wr_keeps (State.dropContexts_keeps h3))
  clear_value y7
  extract_lets +onlyGivenNames y9
  have h10 : (Keeps s0) y9 := by unfold y9; exact State.setReg_keeps (State.setReg_keeps h8)
  clear_value y9
  extract_lets +onlyGivenNames y11 y12 y13
  have h14 : (Keeps s0) y13 := by unfold y13; exact State.setPav_keeps h10
  clear_value y11 y12 y13
  refine foldlP (Keeps s0) h14 (fun a15 a16 a17 => ?_)
  split
  · rename_i e18 e19 e20
    exact State.setSlice_keeps a17
  · rename_i e21 e22
    exact a17

theorem State.drainRecord_keeps {s0 : State} {s x1 : _} (h : Keeps s0 s) : (OptP (Keeps s0)) (State.drainRecord s x1)
    := by
  unfold State.drainRecord
  split
  · rename_i e0 e1
    exact someP h
  · rename_i e2 e3 e4
    exact pIte (OptP (Keeps s0)) (someP h) (State.writeRecord_keeps h)

theorem State.pavCtlFields_keeps {s0 : State} {s x1 x2 x3 x4 x5 : _} (h : Keeps s0 s) : Keeps s0 (State.pavCtlFields s
    x1 x2 x3 x4 x5) := by
  unfold State.pavCtlFields
  refine State.pageWrite_keeps h (fun a0 a1 => ?_)
  extract_lets +onlyGivenNames y2
  have h3 : (Keeps s0) y2 := by unfold y2; exact State.wr_keeps (State.wr_keeps a1)
  clear_value y2
  split
  · rename_i e4 e5
    exact State.pavReject_keeps h3
  · rename_i e6 e7
    exact pIte (Keeps s0) (State.setPavState_keeps (State.setPav_keeps h3)) (State.pavReject_keeps h3)
  · rename_i e8 e9
    exact pIte (Keeps s0) (State.release_keeps h3) (State.pavReject_keeps h3)
  · rename_i e10 e11
    exact h3

theorem State.pavCtlWrite_keeps {s0 : State} {s x1 x2 : _} (h : Keeps s0 s) : Keeps s0 (State.pavCtlWrite s x1 x2) :=
    by
  unfold State.pavCtlWrite
  extract_lets +onlyGivenNames y0
  clear_value y0
  exact State.pavCtlFields_keeps h

theorem execPavReset_keeps {s0 : State} {x0 x1 x2 s : _} (h : Keeps s0 s) : OutKeeps s0 (execPavReset x0 x1 x2 s) :=
    by
  unfold execPavReset
  exact State.pavCtlFields_keeps h

theorem execPavRelease_keeps {s0 : State} {x0 x1 x2 s : _} (h : Keeps s0 s) : OutKeeps s0 (execPavRelease x0 x1 x2 s)
    := by
  unfold execPavRelease
  exact State.pavCtlFields_keeps h

theorem execPavResetDone_keeps {s0 : State} {x0 s : _} (h : Keeps s0 s) : OutKeeps s0 (execPavResetDone x0 s) := by
  unfold execPavResetDone
  refine pIte (OutKeeps s0) h ?_
  split
  · rename_i e0 e1
    exact h
  · rename_i e2 e3 e4
    extract_lets +onlyGivenNames y5 y6
    have h7 : (Keeps s0) y6 := by
      unfold y6
      exact State.setPavState_keeps (State.wr_keeps (State.scrubPav_keeps (State.clearPav_keeps (outOf (OptP (Keeps
          s0)) e4 (bindOptP (Keeps s0) (Keeps s0) (State.drainRecord_keeps h) (fun a8 a9 => State.discardMoves_keeps
          a9))))))
    clear_value y5 y6
    exact pIte (Keeps s0) (State.release_keeps h7) h7

/-! ### Machine/Recover.lean -/

theorem execSharedFaultEvent_keeps {s0 : State} {x0 s : _} (h : Keeps s0 s) : OutKeeps s0 (execSharedFaultEvent x0 s)
    := by
  unfold execSharedFaultEvent
  extract_lets +onlyGivenNames y0
  clear_value y0
  exact State.alarm_keeps (State.sharedFault_keeps h)

theorem execIbufParityError_keeps {s0 : State} {x0 x1 x2 x3 s : _} (h : Keeps s0 s) : OutKeeps s0 (execIbufParityError
    x0 x1 x2 x3 s) := by
  unfold execIbufParityError
  refine pIte (OutKeeps s0) (State.sliceFault_keeps h) ?_
  extract_lets +onlyGivenNames y0 y1
  have h2 : (Keeps s0) y1 := by unfold y1; exact State.setSlice_keeps h
  clear_value y0 y1
  extract_lets +onlyGivenNames y3 y4
  have h5 : (Keeps s0) y4 := by unfold y4; exact State.record_keeps h2
  clear_value y3 y4
  split
  · rename_i e6 e7
    exact h5
  · rename_i e8 e9 e10 e11
    exact State.setSlice_keeps (outOf (OptP (SndP (Keeps s0))) e11 (State.fetchWord_keeps h5))

theorem State.beginReplay_keeps {s0 : State} {s x1 : _} (h : Keeps s0 s) : (FstP (Keeps s0)) (State.beginReplay s x1)
    := by
  unfold State.beginReplay
  extract_lets +onlyGivenNames y0
  clear_value y0
  exact pIte (FstP (Keeps s0)) (fstMk (State.setPav_keeps h)) (fstMk h)

theorem copyWord_keeps {s0 : State} {x0 x1 x2 : _} (h : (FstP (Keeps s0)) x0) : (FstP (Keeps s0)) (copyWord x0 x1 x2)
    := by
  unfold copyWord
  extract_lets +onlyGivenNames y0 y1
  have h2 : (Keeps s0) y1 := by unfold y1; exact eccWord_keeps h
  clear_value y0 y1
  exact fstMk (pIte (Keeps s0) h2 (keepsMk h2 rfl))

theorem State.copyStores_keeps {s0 : State} {s x1 : _} (h : Keeps s0 s) : (FstP (Keeps s0)) (State.copyStores s x1) :=
    by
  unfold State.copyStores
  refine foldlP (FstP (Keeps s0)) (fstMk h) (fun a0 a1 a2 => ?_)
  extract_lets +onlyGivenNames y3 y4
  clear_value y3 y4
  exact foldlP (FstP (Keeps s0)) a2 (fun a5 a6 a7 => copyWord_keeps a7)

theorem State.markBad_keeps {s0 : State} {s x1 x2 : _} (h : Keeps s0 s) : Keeps s0 (State.markBad s x1 x2) := by
  unfold State.markBad
  exact pIte (Keeps s0) (State.wr_keeps h) h

theorem State.spareFault_keeps {s0 : State} {s x1 : _} (h : Keeps s0 s) : Keeps s0 (State.spareFault s x1) := by
  unfold State.spareFault
  exact pIte (Keeps s0) (State.setSlots_keeps (State.markBad_keeps h)) h

theorem execContainedFault_keeps {s0 : State} {x0 s : _} (h : Keeps s0 s) : OutKeeps s0 (execContainedFault x0 s) :=
    by
  unfold execContainedFault
  extract_lets +onlyGivenNames y0 y1
  have h2 : (Keeps s0) y1 := by unfold y1; exact State.spareFault_keeps h
  clear_value y0 y1
  exact State.alarm_keeps (pIte (Keeps s0) (State.faultPav_keeps h2) (State.record_keeps h2))

theorem State.replaceBed_keeps {s0 : State} {s x1 : _} (h : Keeps s0 s) : (FstP (Keeps s0)) (State.replaceBed s x1) :=
    by
  unfold State.replaceBed
  extract_lets +onlyGivenNames y0 y1 y2 y3
  have h4 : (Keeps s0) y3 := by unfold y3; exact State.markBad_keeps h
  clear_value y0 y1 y2 y3
  extract_lets +onlyGivenNames y5 y6
  have h7 : (Keeps s0) y6 := by unfold y6; exact keepsMk h4 rfl
  clear_value y5 y6
  exact fstMk (State.setSlots_keeps h7)

theorem State.absorbBed_keeps {s0 : State} {s x1 x2 : _} (h : Keeps s0 s) : Keeps s0 (State.absorbBed s x1 x2) := by
  unfold State.absorbBed
  split
  rename_i e0 e1 e2 e3
  refine pIte (Keeps s0) ?_ ?_
  · split
    · rename_i e4 e5 e6
      exact State.wr_keeps (State.setPav_keeps (outOf (FstP (Keeps s0)) e3 (State.replaceBed_keeps h)))
    · rename_i e7 e8
      exact outOf (FstP (Keeps s0)) e3 (State.replaceBed_keeps h)
  · split
    rename_i e9 e10 e11 e12
    split
    · rename_i e13 e14
      exact outOf (FstP (Keeps s0)) e12 (State.copyStores_keeps (State.bump_keeps (outOf (FstP (Keeps s0)) e3
          (State.replaceBed_keeps h))))
    · rename_i e15 e16 e17
      refine pIte (Keeps s0) (pIte (Keeps s0) (State.beginReplay_keeps (outOf (FstP (Keeps s0)) e12
          (State.copyStores_keeps (State.bump_keeps (outOf (FstP (Keeps s0)) e3 (State.replaceBed_keeps h)))))) (outOf
          (FstP (Keeps s0)) e12 (State.copyStores_keeps (State.bump_keeps (outOf (FstP (Keeps s0)) e3
          (State.replaceBed_keeps h)))))) ?_
      extract_lets +onlyGivenNames y18
      have h19 : (Keeps s0) y18 := by
        unfold y18
        exact State.record_keeps (outOf (FstP (Keeps s0)) e12 (State.copyStores_keeps (State.bump_keeps (outOf (FstP
            (Keeps s0)) e3 (State.replaceBed_keeps h)))))
      clear_value y18
      exact State.wr_keeps (State.setPav_keeps h19)

theorem State.bedLogicFault_keeps {s0 : State} {s x1 : _} (h : Keeps s0 s) : Keeps s0 (State.bedLogicFault s x1) := by
  unfold State.bedLogicFault
  extract_lets +onlyGivenNames y0
  clear_value y0
  exact State.absorbBed_keeps (pIte (Keeps s0) h (State.alarm_keeps (State.bedFault_keeps h)))

theorem State.bedFails_keeps {s0 : State} {s x1 : _} (h : Keeps s0 s) : Keeps s0 (State.bedFails s x1) := by
  unfold State.bedFails
  exact pIte (Keeps s0) (pIte (Keeps s0) h (keepsMk h rfl)) (State.bedLogicFault_keeps h)

theorem execBedReplacement_keeps {s0 : State} {x0 s : _} (h : Keeps s0 s) : OutKeeps s0 (execBedReplacement x0 s) :=
    by
  unfold execBedReplacement
  exact pIte (Keeps s0) h (State.bedFails_keeps h)

theorem State.lateFaults_keeps {s0 : State} {s : _} (h : Keeps s0 s) : Keeps s0 (State.lateFaults s) := by
  unfold State.lateFaults
  extract_lets +onlyGivenNames y0 y1
  have h2 : (Keeps s0) y1 := by
    unfold y1
    exact foldlP (Keeps s0) (keepsMk h rfl) (fun a3 a4 a5 => State.faultPav_keeps a5)
  clear_value y0 y1
  exact foldlP (Keeps s0) h2 (fun a6 a7 a8 => State.bedLogicFault_keeps a8)

theorem execTrlPavCommitDone_keeps {s0 : State} {s : _} (h : Keeps s0 s) : OutKeeps s0 (execTrlPavCommitDone s) := by
  unfold execTrlPavCommitDone
  split
  · rename_i e0 e1
    exact h
  · rename_i e2 e3 e4
    refine pIte (OutKeeps s0) h ?_
    extract_lets +onlyGivenNames y5
    clear_value y5
    exact pIte (Keeps s0) (State.lateFaults_keeps (State.setTrl_keeps (State.dropImage_keeps (State.commitPav_keeps
        h)))) (State.lateFaults_keeps (State.trlFail_keeps h))

theorem State.contextRecovery_keeps {s0 : State} {s x1 x2 : _} (h : Keeps s0 s) : Keeps s0 (State.contextRecovery s x1
    x2) := by
  unfold State.contextRecovery
  extract_lets +onlyGivenNames y0 y1
  have h2 : (Keeps s0) y1 := by unfold y1; exact State.alarm_keeps (State.faultPav_keeps h)
  clear_value y0 y1
  refine pIte (Keeps s0) h2 ?_
  split
  rename_i e3 e4 e5 e6
  exact pIte (Keeps s0) (State.bump_keeps (outOf (FstP (Keeps s0)) e6 (State.beginReplay_keeps h2))) (outOf (FstP
      (Keeps s0)) e6 (State.beginReplay_keeps h2))

theorem State.sliceLost_keeps {s0 : State} {s x1 x2 : _} (h : Keeps s0 s) : Keeps s0 (State.sliceLost s x1 x2) := by
  unfold State.sliceLost
  extract_lets +onlyGivenNames y0 y1
  have h2 : (Keeps s0) y1 := by unfold y1; exact State.alarm_keeps (State.faultPav_keeps h)
  clear_value y0 y1
  extract_lets +onlyGivenNames y3 y4 y5
  have h6 : (Keeps s0) y5 := by unfold y5; exact pIte (Keeps s0) h2 (State.bump_keeps (State.wr_keeps h2))
  clear_value y3 y4 y5
  exact State.wr_keeps (State.setPav_keeps h6)

theorem execControlStateFault_keeps {s0 : State} {x0 x1 x2 s : _} (h : Keeps s0 s) : OutKeeps s0
    (execControlStateFault x0 x1 x2 s) := by
  unfold execControlStateFault
  split
  · rename_i e0 e1
    extract_lets +onlyGivenNames y2 y3 y4 y5
    have h6 : (Keeps s0) y5 := by unfold y5; exact keepsMk h rfl
    clear_value y2 y3 y4 y5
    exact pIte (Keeps s0) (State.bedFails_keeps h6) (State.contextRecovery_keeps h6)
  · rename_i e7
    extract_lets +onlyGivenNames y8 y9 y10 y11
    have h12 : (Keeps s0) y11 := by unfold y11; exact keepsMk h rfl
    clear_value y8 y9 y10 y11
    exact pIte (Keeps s0) (State.sliceLost_keeps h12) (State.contextRecovery_keeps h12)

/-! ### Machine/Hang.lean -/

theorem State.putHang_keeps {s0 : State} {s x1 x2 x3 x4 x5 : _} (h : Keeps s0 s) : Keeps s0 (State.putHang s x1 x2 x3
    x4 x5) := by
  unfold State.putHang
  extract_lets +onlyGivenNames y0
  have h1 : (Keeps s0) y0 := by unfold y0; exact State.wr_keeps (State.setReg_keeps h)
  clear_value y0
  exact State.wr_keeps (State.wr_keeps (State.wr_keeps (State.wr_keeps (State.wr_keeps (State.wr_keeps h1)))))

theorem State.hangAlarms_keeps {s0 : State} {s x1 x2 x3 : _} (h : Keeps s0 s) : Keeps s0 (State.hangAlarms s x1 x2 x3)
    := by
  unfold State.hangAlarms
  exact foldlP (Keeps s0) (State.alarm_keeps h) (fun a0 a1 a2 => State.alarm_keeps a2)

theorem execHangWindowExpire_keeps {s0 : State} {x0 s : _} (h : Keeps s0 s) : OutKeeps s0 (execHangWindowExpire x0 s)
    := by
  unfold execHangWindowExpire
  refine pIte (OutKeeps s0) h ?_
  split
  · rename_i e0 e1
    exact h
  · rename_i e2 e3 e4 e5 e6 e7
    exact State.hangAlarms_keeps (State.faultPav_keeps (State.bump_keeps (State.putHang_keeps h)))

theorem execStallTimeout_keeps {s0 : State} {x0 s : _} (h : Keeps s0 s) : OutKeeps s0 (execStallTimeout x0 s) := by
  unfold execStallTimeout
  extract_lets +onlyGivenNames y0 y1
  clear_value y0 y1
  refine pIte (OutKeeps s0) h ?_
  split
  · rename_i e2 e3
    exact h
  · rename_i e4 e5 e6
    extract_lets +onlyGivenNames y7
    have h8 : (Keeps s0) y7 := by unfold y7; exact State.setPav_keeps h
    clear_value y7
    extract_lets +onlyGivenNames y9
    clear_value y9
    exact State.alarm_keeps (State.putHang_keeps h8)

/-! ### Machine/Telemetry.lean -/

theorem State.setKeeper_keeps {s0 : State} {s x1 : _} (h : Keeps s0 s) : Keeps s0 (State.setKeeper s x1) := by
  unfold State.setKeeper
  exact State.wr_keeps h

theorem State.keeperAlarm_keeps {s0 : State} {s x1 : _} (h : Keeps s0 s) : Keeps s0 (State.keeperAlarm s x1) := by
  unfold State.keeperAlarm
  exact State.alarm_keeps h

theorem State.keeperReset_keeps {s0 : State} {s : _} (h : Keeps s0 s) : Keeps s0 (State.keeperReset s) := by
  unfold State.keeperReset
  exact pIte (Keeps s0) (State.setKeeper_keeps (State.bump_keeps h)) h

theorem State.keeperHalt_keeps {s0 : State} {s : _} (h : Keeps s0 s) : Keeps s0 (State.keeperHalt s) := by
  unfold State.keeperHalt
  exact State.alarmFirst_keeps (State.lossCause_keeps (State.setKeeper_keeps h))

theorem State.checkerFault_keeps {s0 : State} {s : _} (h : Keeps s0 s) : Keeps s0 (State.checkerFault s) := by
  unfold State.checkerFault
  exact State.setKeeper_keeps (State.keeperAlarm_keeps (State.wr_keeps (State.bump_keeps h)))

theorem execKeeperMismatch_keeps {s0 : State} {s : _} (h : Keeps s0 s) : OutKeeps s0 (execKeeperMismatch s) := by
  unfold execKeeperMismatch
  exact pIte (Keeps s0) (State.setKeeper_keeps h) h

theorem State.noteMismatch_keeps {s0 : State} {s : _} (h : Keeps s0 s) : Keeps s0 (State.noteMismatch s) := by
  unfold State.noteMismatch
  exact keepsMk h rfl

theorem execKeeperSelftestDone_keeps {s0 : State} {x0 s : _} (h : Keeps s0 s) : OutKeeps s0 (execKeeperSelftestDone x0
    s) := by
  unfold execKeeperSelftestDone
  refine pIte (OutKeeps s0) h (pIte (OutKeeps s0) (State.checkerFault_keeps h) ?_)
  extract_lets +onlyGivenNames y0
  have h1 : (Keeps s0) y0 := by unfold y0; exact State.noteMismatch_keeps h
  clear_value y0
  exact pIte (OutKeeps s0) (State.keeperHalt_keeps h1) (State.setKeeper_keeps (State.keeperAlarm_keeps
      (State.bump_keeps h1)))

theorem execKeeperPeriodicSelftest_keeps {s0 : State} {x0 s : _} (h : Keeps s0 s) : OutKeeps s0
    (execKeeperPeriodicSelftest x0 s) := by
  unfold execKeeperPeriodicSelftest
  exact pIte (Keeps s0) (State.checkerFault_keeps h) h

theorem execKeeperWatchdogExpire_keeps {s0 : State} {s : _} (h : Keeps s0 s) : OutKeeps s0 (execKeeperWatchdogExpire
    s) := by
  unfold execKeeperWatchdogExpire
  exact State.keeperReset_keeps h

theorem State.markBuffered_keeps {s0 : State} {s : _} (h : Keeps s0 s) : Keeps s0 (State.markBuffered s) := by
  unfold State.markBuffered
  extract_lets +onlyGivenNames y0
  clear_value y0
  exact keepsMk h rfl

theorem execKeeperResume_keeps {s0 : State} {x0 x1 s : _} (h : Keeps s0 s) : OutKeeps s0 (execKeeperResume x0 x1 s) :=
    by
  unfold execKeeperResume
  refine pIte (OutKeeps s0) h (pIte (OutKeeps s0) (State.setKeeper_keeps (State.markBuffered_keeps h)) ?_)
  extract_lets +onlyGivenNames y0 y1
  have h2 : (Keeps s0) y1 := by unfold y1; exact keepsMk h rfl
  clear_value y0
  exact pIte (Keeps s0) (State.keeperHalt_keeps h2) h2

theorem execDeviceLossDeclare_keeps {s0 : State} {x0 x1 s : _} (h : Keeps s0 s) : OutKeeps s0 (execDeviceLossDeclare
    x0 x1 s) := by
  unfold execDeviceLossDeclare
  exact pIte (OutKeeps s0) h (pIte (OutKeeps s0) (pIte (Keeps s0) h (State.keeperHalt_keeps h))
      (State.deviceLoss_keeps h))

theorem State.setLodge_keeps {s0 : State} {s x1 x2 : _} (h : Keeps s0 s) : Keeps s0 (State.setLodge s x1 x2) := by
  unfold State.setLodge
  exact keepsMk h rfl

theorem State.countAt_keeps {s0 : State} {s x1 x2 : _} (h : Keeps s0 s) : Keeps s0 (State.countAt s x1 x2) := by
  unfold State.countAt
  exact keepsMk h rfl

theorem execLodgeAlarm_keeps {s0 : State} {x0 x1 s : _} (h : Keeps s0 s) : OutKeeps s0 (execLodgeAlarm x0 x1 s) := by
  unfold execLodgeAlarm
  extract_lets +onlyGivenNames y0
  have h1 : (Keeps s0) y0 := by unfold y0; exact keepsMk h rfl
  exact pIte (OutKeeps s0) (State.countAt_keeps h1) (State.setLodge_keeps h1)

theorem lodgeSummary_keeps {s0 : State} {x0 s x2 : _} (h : Keeps s0 s) : Keeps s0 (lodgeSummary x0 s x2) := by
  unfold lodgeSummary
  split
  · rename_i e0 e1 e2
    refine pIte (Keeps s0) ?_ h
    extract_lets +onlyGivenNames y3
    have h4 : (Keeps s0) y3 := by unfold y3; exact State.setLodge_keeps h
    clear_value y3
    exact keepsMk h4 rfl
  · rename_i e5 e6
    exact h

theorem execLodgeSummarySend_keeps {s0 : State} {x0 s : _} (h : Keeps s0 s) : OutKeeps s0 (execLodgeSummarySend x0 s)
    := by
  unfold execLodgeSummarySend
  exact pIte (OutKeeps s0) h (foldlP (Keeps s0) h (fun a0 a1 a2 => lodgeSummary_keeps a2))

theorem State.coalCount_keeps {s0 : State} {s x1 x2 : _} (h : Keeps s0 s) : Keeps s0 (State.coalCount s x1 x2) := by
  unfold State.coalCount
  exact State.wr_keeps h

theorem State.coalesce_keeps {s0 : State} {s x1 x2 : _} (h : Keeps s0 s) : Keeps s0 (State.coalesce s x1 x2) := by
  unfold State.coalesce
  extract_lets +onlyGivenNames y0 y1 y2 y3
  have h4 : (Keeps s0) y3 := by unfold y3; exact keepsMk h rfl
  clear_value y0 y1 y2 y3
  exact State.bump_keeps (State.coalCount_keeps h4)

theorem execKeeperAlarmEnqueue_keeps {s0 : State} {x0 x1 s : _} (h : Keeps s0 s) : OutKeeps s0 (execKeeperAlarmEnqueue
    x0 x1 s) := by
  unfold execKeeperAlarmEnqueue
  refine pIte (OutKeeps s0) h ?_
  extract_lets +onlyGivenNames y0
  have h1 : (Keeps s0) y0 := by unfold y0; exact State.manage_keeps (State.setLodge_keeps h)
  clear_value y0
  exact pIte (OutKeeps s0) (State.coalesce_keeps h1) (State.alqSync_keeps (keepsMk h1 rfl))

theorem queueSummary_keeps {s0 : State} {s x1 : _} (h : Keeps s0 s) : Keeps s0 (queueSummary s x1) := by
  unfold queueSummary
  split
  · rename_i e0 e1 e2
    exact pIte (Keeps s0) (State.coalCount_keeps (keepsMk h rfl)) h
  · rename_i e3 e4
    exact h

theorem execAlarmSummaryEnqueue_keeps {s0 : State} {s : _} (h : Keeps s0 s) : OutKeeps s0 (execAlarmSummaryEnqueue s)
    := by
  unfold execAlarmSummaryEnqueue
  exact pIte (OutKeeps s0) h (State.alqSync_keeps (foldlP (Keeps s0) h (fun a0 a1 a2 => queueSummary_keeps a2)))

theorem State.ringWrite_keeps {s0 : State} {s x1 : _} (h : Keeps s0 s) : Keeps s0 (State.ringWrite s x1) := by
  unfold State.ringWrite
  refine pIte (Keeps s0) h ?_
  extract_lets +onlyGivenNames y0 y1 y2 y3
  have h4 : (Keeps s0) y3 := by unfold y3; exact State.bump_keeps h
  clear_value y0 y1 y2 y3
  refine pIte (Keeps s0) h4 ?_
  split
  · rename_i e5 e6
    exact h4
  · rename_i e7 e8 e9
    extract_lets +onlyGivenNames y10
    have h11 : (Keeps s0) y10 := by
      unfold y10
      exact pIte (Keeps s0) (State.bump_keeps (outOf (OptP (Keeps s0)) e9 (State.pathWrite_keeps h))) (outOf (OptP
          (Keeps s0)) e9 (State.pathWrite_keeps h))
    clear_value y10
    exact State.wr_keeps h11

theorem State.sentAlarm_keeps {s0 : State} {s x1 x2 x3 x4 : _} (h : Keeps s0 s) : Keeps s0 (State.sentAlarm s x1 x2 x3
    x4) := by
  unfold State.sentAlarm
  extract_lets +onlyGivenNames y0 y1 y2 y3
  have h4 : (Keeps s0) y3 := by unfold y3; exact keepsMk h rfl
  clear_value y0 y1 y2 y3
  exact State.aplicSource_keeps (State.ringWrite_keeps (State.kmtPost_keeps h4))

theorem execAlarmSend_keeps {s0 : State} {s : _} (h : Keeps s0 s) : OutKeeps s0 (execAlarmSend s) := by
  unfold execAlarmSend
  split
  · rename_i e0 e1 e2 e3 e4 e5
    split
    · rename_i e6 e7 e8 e9 e10 e11
      exact pIte (OutKeeps s0) h (State.sentAlarm_keeps h)
    · rename_i e12 e13 e14
      exact h
  · rename_i e15 e16 e17
    exact h

theorem execAlarmAck_keeps {s0 : State} {s : _} (h : Keeps s0 s) : OutKeeps s0 (execAlarmAck s) := by
  unfold execAlarmAck
  split
  · rename_i e0 e1 e2
    exact State.alqSync_keeps (keepsMk h rfl)
  · rename_i e3 e4
    exact h

theorem State.setLogTokens_keeps {s0 : State} {s x1 x2 x3 : _} (h : Keeps s0 s) : Keeps s0 (State.setLogTokens s x1 x2
    x3) := by
  unfold State.setLogTokens
  exact keepsMk h rfl

theorem State.putLog_keeps {s0 : State} {s x1 : _} (h : Keeps s0 s) : Keeps s0 (State.putLog s x1) := by
  unfold State.putLog
  extract_lets +onlyGivenNames y0 y1 y2 y3
  have h4 : (Keeps s0) y3 := by unfold y3; exact keepsMk h rfl
  clear_value y1 y2 y3
  exact pIte (Keeps s0) (State.bump_keeps h4) h4

theorem execLogRecord_keeps {s0 : State} {x0 x1 x2 s : _} (h : Keeps s0 s) : OutKeeps s0 (execLogRecord x0 x1 x2 s) :=
    by
  unfold execLogRecord
  extract_lets +onlyGivenNames y0
  clear_value y0
  exact pIte (OutKeeps s0) (State.bump_keeps (State.setLogTokens_keeps h)) (State.putLog_keeps (State.manage_keeps
      (State.setLogTokens_keeps h)))

theorem State.logSend_keeps {s0 : State} {s : _} (h : Keeps s0 s) : Keeps s0 (State.logSend s) := by
  unfold State.logSend
  split
  · rename_i e0 e1
    exact h
  · rename_i e2 e3 e4
    refine pIte (Keeps s0) h ?_
    extract_lets +onlyGivenNames y5
    clear_value y5
    exact State.kmtPost_keeps (keepsMk h rfl)

theorem execTraceRecord_keeps {s0 : State} {x0 x1 x2 s : _} (h : Keeps s0 s) : OutKeeps s0 (execTraceRecord x0 x1 x2
    s) := by
  unfold execTraceRecord
  refine pIte (OutKeeps s0) (State.bump_keeps h) ?_
  extract_lets +onlyGivenNames y0 y1
  have h2 : (Keeps s0) y1 := by unfold y1; exact State.carry_keeps h
  clear_value y0 y1
  exact keepsMk h2 rfl

theorem State.traceSend_keeps {s0 : State} {s : _} (h : Keeps s0 s) : Keeps s0 (State.traceSend s) := by
  unfold State.traceSend
  split
  · rename_i e0 e1
    exact h
  · rename_i e2 e3 e4
    exact pIte (Keeps s0) h (State.kmtPost_keeps (keepsMk h rfl))

/-! ### Machine/Upkeep.lean -/

theorem State.bedCarried_keeps {s0 : State} {s x1 : _} (h : Keeps s0 s) : Keeps s0 (State.bedCarried s x1) := by
  unfold State.bedCarried
  extract_lets +onlyGivenNames y0 y1 y2
  have h3 : (Keeps s0) y2 := by unfold y2; exact State.bedReset_keeps h
  clear_value y0 y1 y2
  exact foldlP (Keeps s0) (keepsMk h3 rfl) (fun a4 a5 a6 => State.setDrain_keeps a6)

theorem State.rotateBed_keeps {s0 : State} {s x1 x2 : _} (h : Keeps s0 s) : Keeps s0 (State.rotateBed s x1 x2) := by
  unfold State.rotateBed
  extract_lets +onlyGivenNames y0
  clear_value y0
  split
  rename_i e1 e2 e3 e4
  extract_lets +onlyGivenNames y5
  have h6 : (Keeps s0) y5 := by
    unfold y5
    exact State.setSlots_keeps (State.bedCarried_keeps (outOf (FstP (Keeps s0)) e4 (State.copyStores_keeps h)))
  clear_value y5
  extract_lets +onlyGivenNames y7 y8
  have h9 : (Keeps s0) y8 := by unfold y8; exact keepsMk h6 rfl
  clear_value y7 y8
  split
  · rename_i e10 e11
    exact h9
  · rename_i e12 e13 e14
    extract_lets +onlyGivenNames y15 y16
    have h17 : (Keeps s0) y16 := by
      unfold y16
      split
      · rename_i e18 e19 e20
        exact State.setPav_keeps h9
      · rename_i e21 e22
        exact State.armBed_keeps h9
    clear_value y15 y16
    exact pIte (Keeps s0) h17 (State.faultPav_keeps h17)

theorem State.undefer_keeps {s0 : State} {s x1 : _} (h : Keeps s0 s) : Keeps s0 (State.undefer s x1) := by
  unfold State.undefer
  exact keepsMk h rfl

theorem State.grant_keeps {s0 : State} {s x1 : _} (h : Keeps s0 s) : Keeps s0 (State.grant s x1) := by
  unfold State.grant
  extract_lets +onlyGivenNames y0
  have h1 : (Keeps s0) y0 := by
    unfold y0
    refine foldlP (Keeps s0) (State.undefer_keeps h) (fun a2 a3 a4 => ?_)
    split
    · rename_i e5 e6 e7
      exact pIte (Keeps s0) (State.setPav_keeps a4) a4
    · rename_i e8 e9
      exact a4
  clear_value y0
  split
  · rename_i e10 e11
    exact State.wr_keeps (State.wr_keeps h1)
  · rename_i e12 e13
    exact State.startRetrain_keeps h1
  · rename_i e14 e15
    split
    · rename_i e16 e17 e18
      exact State.upkeepEnded_keeps (State.rotateBed_keeps h1)
    · rename_i e19 e20
      exact h1

theorem execUpkeepGrant_keeps {s0 : State} {x0 s : _} (h : Keeps s0 s) : OutKeeps s0 (execUpkeepGrant x0 s) := by
  unfold execUpkeepGrant
  exact pIte (Keeps s0) (State.grant_keeps h) h

theorem State.countDeferral_keeps {s0 : State} {s x1 : _} (h : Keeps s0 s) : Keeps s0 (State.countDeferral s x1) := by
  unfold State.countDeferral
  split
  · rename_i e0 e1
    exact State.bump_keeps h
  · rename_i e2 e3
    exact State.bump_keeps h
  · rename_i e4 e5
    exact State.bump_keeps h

theorem execUpkeepDeadline_keeps {s0 : State} {x0 s : _} (h : Keeps s0 s) : OutKeeps s0 (execUpkeepDeadline x0 s) :=
    by
  unfold execUpkeepDeadline
  refine pIte (OutKeeps s0) h ?_
  extract_lets +onlyGivenNames y0 y1
  have h2 : (Keeps s0) y1 := by unfold y1; exact keepsMk h rfl
  clear_value y0 y1
  exact State.alarm_keeps (State.countDeferral_keeps h2)

theorem State.openQuiet_keeps {s0 : State} {s x1 x2 x3 x4 : _} (h : Keeps s0 s) : Keeps s0 (State.openQuiet s x1 x2 x3
    x4) := by
  unfold State.openQuiet
  extract_lets +onlyGivenNames y0
  have h1 : (Keeps s0) y0 := by unfold y0; exact foldlP (Keeps s0) h (fun a2 a3 a4 => State.setSlice_keeps a4)
  clear_value y0
  extract_lets +onlyGivenNames y5
  clear_value y5
  exact State.setPav_keeps h1

theorem quietGrant_keeps {s0 : State} {x0 x1 s x3 : _} (h : Keeps s0 s) : Keeps s0 (quietGrant x0 x1 s x3) := by
  unfold quietGrant
  exact pIte (Keeps s0) (State.grant_keeps h) h

theorem State.passQuiet_keeps {s0 : State} {s x1 : _} (h : Keeps s0 s) : Keeps s0 (State.passQuiet s x1) := by
  unfold State.passQuiet
  exact foldlP (Keeps s0) h (fun a0 a1 a2 => State.setSlice_keeps a2)

theorem execCtlQuiet_keeps {s0 : State} {x0 x1 x2 x3 s : _} (h : Keeps s0 s) : OutKeeps s0 (execCtlQuiet x0 x1 x2 x3
    s) := by
  unfold execCtlQuiet
  refine pIte (OutKeeps s0) h ?_
  extract_lets +onlyGivenNames y0
  have h1 : (Keeps s0) y0 := by unfold y0; exact State.openQuiet_keeps h
  clear_value y0
  exact pIte (OutKeeps s0) (State.passQuiet_keeps h) (foldlP (Keeps s0) h1 (fun a2 a3 a4 => quietGrant_keeps a4))

theorem execQuietClose_keeps {s0 : State} {x0 s : _} (h : Keeps s0 s) : OutKeeps s0 (execQuietClose x0 s) := by
  unfold execQuietClose
  split
  · rename_i e0 e1
    exact h
  · rename_i e2 e3 e4
    exact pIte (OutKeeps s0) (State.closeQuiet_keeps h) (State.setPav_keeps h)

theorem execSpareSelftest_keeps {s0 : State} {x0 x1 s : _} (h : Keeps s0 s) : OutKeeps s0 (execSpareSelftest x0 x1 s)
    := by
  unfold execSpareSelftest
  extract_lets +onlyGivenNames y0
  clear_value y0
  refine pIte (OutKeeps s0) h (pIte (OutKeeps s0) (keepsMk h rfl) ?_)
  extract_lets +onlyGivenNames y1
  have h2 : (Keeps s0) y1 := by unfold y1; exact State.setSlots_keeps (State.markBad_keeps h)
  clear_value y1
  exact keepsMk h2 rfl

theorem execRotationRequest_keeps {s0 : State} {x0 s : _} (h : Keeps s0 s) : OutKeeps s0 (execRotationRequest x0 s) :=
    by
  unfold execRotationRequest
  refine pIte (OutKeeps s0) h ?_
  split
  · rename_i e0 e1 e2
    exact keepsMk h rfl
  · rename_i e3 e4
    exact h

end Sys2Proof.Machine
end

