-- ==== Sys2Proof/Laws/KeepsCores.lean ====
section
/-! SUPPORT. `Keeps` for every operation and every meaning of die links, coherence and the caches. -/

namespace Sys2Proof.Machine

/-! ### Machine/D2d.lean -/

theorem execD2dFlitTransmit_keeps {s0 : State} {x0 x1 s : _} (h : Keeps s0 s) : OutKeeps s0 (execD2dFlitTransmit x0 x1
    s) := by
  unfold execD2dFlitTransmit
  extract_lets +onlyGivenNames y0
  clear_value y0
  refine pIte (OutKeeps s0) h ?_
  split
  · rename_i e1 e2
    exact h
  · rename_i e3 e4 e5
    extract_lets +onlyGivenNames y6 y7 y8
    clear_value y6 y7 y8
    exact State.send_keeps (State.setD2d_keeps h)

theorem State.flitDelivered_keeps {s0 : State} {s x1 x2 x3 : _} (h : Keeps s0 s) : Keeps s0 (State.flitDelivered s x1
    x2 x3) := by
  unfold State.flitDelivered
  split
  · rename_i e0 e1
    exact h
  · rename_i e2 e3 e4 e5
    extract_lets +onlyGivenNames y6
    clear_value y6
    exact State.setD2d_keeps h

theorem State.arrive_keeps {s0 : State} {s x1 x2 x3 : _} (h : Keeps s0 s) : Keeps s0 (State.arrive s x1 x2 x3) := by
  unfold State.arrive
  split
  · rename_i e0 e1
    exact State.send_keeps h
  · rename_i e2 e3 e4 e5
    extract_lets +onlyGivenNames y6
    clear_value y6
    exact State.putFlits_keeps h

theorem execD2dFlitReceive_keeps {s0 : State} {x0 x1 x2 x3 s : _} (h : Keeps s0 s) : OutKeeps s0 (execD2dFlitReceive
    x0 x1 x2 x3 s) := by
  unfold execD2dFlitReceive
  extract_lets +onlyGivenNames y0
  clear_value y0
  exact pIte (OutKeeps s0) h (pIte (OutKeeps s0) (State.send_keeps h) (pIte (OutKeeps s0) h (State.flitDelivered_keeps
      (State.arrive_keeps (State.setD2d_keeps h)))))

theorem State.resendFlits_keeps {s0 : State} {s x1 x2 x3 : _} (h : Keeps s0 s) : Keeps s0 (State.resendFlits s x1 x2
    x3) := by
  unfold State.resendFlits
  extract_lets +onlyGivenNames y0
  clear_value y0
  exact State.bump_keeps (foldlP (Keeps s0) h (fun a1 a2 a3 => State.send_keeps a3))

theorem execD2dFlitRetransmit_keeps {s0 : State} {x0 x1 x2 s : _} (h : Keeps s0 s) : OutKeeps s0
    (execD2dFlitRetransmit x0 x1 x2 s) := by
  unfold execD2dFlitRetransmit
  exact pIte (Keeps s0) (State.resendFlits_keeps h) h

theorem State.setD2dState_keeps {s0 : State} {s x1 x2 x3 x4 : _} (h : Keeps s0 s) : Keeps s0 (State.setD2dState s x1
    x2 x3 x4) := by
  unfold State.setD2dState
  exact State.wr_keeps (State.wr_keeps h)

theorem State.dieReach_keeps {s0 : State} {s x1 : _} (h : Keeps s0 s) : Keeps s0 (State.dieReach s x1) := by
  unfold State.dieReach
  exact pIte (Keeps s0) h (State.deviceLoss_keeps (State.wr_keeps h))

theorem State.d2dDown_keeps {s0 : State} {s x1 x2 : _} (h : Keeps s0 s) : Keeps s0 (State.d2dDown s x1 x2) := by
  unfold State.d2dDown
  extract_lets +onlyGivenNames y0 y1
  have h2 : (Keeps s0) y1 := by
    unfold y1
    refine foldlP (Keeps s0) h (fun a3 a4 a5 => ?_)
    extract_lets +onlyGivenNames y6
    clear_value y6
    exact State.alarm_keeps (State.sharedFault_keeps (State.setD2dState_keeps a5))
  clear_value y0 y1
  exact foldlP (Keeps s0) h2 (fun a7 a8 a9 => State.dieReach_keeps a9)

theorem State.laneFails_keeps {s0 : State} {s x1 x2 x3 : _} (h : Keeps s0 s) : Keeps s0 (State.laneFails s x1 x2 x3)
    := by
  unfold State.laneFails
  extract_lets +onlyGivenNames y0
  clear_value y0
  refine pIte (Keeps s0) h ?_
  extract_lets +onlyGivenNames y1 y2
  have h3 : (Keeps s0) y2 := by unfold y2; exact State.setD2d_keeps h
  clear_value y1 y2
  extract_lets +onlyGivenNames y4
  have h5 : ∀ b0, (Keeps s0) b0 → (Keeps s0) (y4 b0) := by
    unfold y4
    intro a6
    intro a7
    split
    · rename_i e8 e9 e10 e11
      exact State.resendFlits_keeps a7
    · rename_i e12 e13
      exact a7
  clear_value y4
  exact pIte (Keeps s0) (h5 _ (State.alarm_keeps (State.bump_keeps h3))) (pIte (Keeps s0) (pIte (Keeps s0) (h5 _ h3)
      (h5 _ (State.alarm_keeps (State.setD2dState_keeps h3)))) (State.d2dDown_keeps h3))

theorem execD2dLaneFailover_keeps {s0 : State} {x0 x1 x2 s : _} (h : Keeps s0 s) : OutKeeps s0 (execD2dLaneFailover x0
    x1 x2 s) := by
  unfold execD2dLaneFailover
  exact State.laneFails_keeps h

theorem execD2dLaneDegrade_keeps {s0 : State} {x0 x1 x2 s : _} (h : Keeps s0 s) : OutKeeps s0 (execD2dLaneDegrade x0
    x1 x2 s) := by
  unfold execD2dLaneDegrade
  exact State.laneFails_keeps h

theorem execD2dPortDown_keeps {s0 : State} {x0 x1 s : _} (h : Keeps s0 s) : OutKeeps s0 (execD2dPortDown x0 x1 s) :=
    by
  unfold execD2dPortDown
  exact pIte (Keeps s0) (State.d2dDown_keeps h) h

theorem State.moveFlits_keeps {s0 : State} {s x1 x2 x3 x4 : _} (h : Keeps s0 s) : Keeps s0 (State.moveFlits s x1 x2 x3
    x4) := by
  unfold State.moveFlits
  extract_lets +onlyGivenNames y0 y1
  clear_value y0 y1
  exact State.setD2d_keeps (State.setD2d_keeps h)

theorem execD2dReroute_keeps {s0 : State} {x0 x1 s : _} (h : Keeps s0 s) : OutKeeps s0 (execD2dReroute x0 x1 s) := by
  unfold execD2dReroute
  split
  · rename_i e0 e1
    exact h
  · rename_i e2 e3 e4
    refine pIte (OutKeeps s0) h ?_
    split
    · rename_i e5 e6
      exact h
    · rename_i e7 e8 e9
      extract_lets +onlyGivenNames y10 y11
      have h12 : (Keeps s0) y11 := by unfold y11; exact keepsMk h rfl
      clear_value y10 y11
      split
      · rename_i e13 e14
        exact h12
      · rename_i e15 e16 e17
        exact State.moveFlits_keeps h12

theorem execLodgeBusFail_keeps {s0 : State} {x0 s : _} (h : Keeps s0 s) : OutKeeps s0 (execLodgeBusFail x0 s) := by
  unfold execLodgeBusFail
  refine pIte (OutKeeps s0) h ?_
  extract_lets +onlyGivenNames y0 y1
  have h2 : (Keeps s0) y1 := by unfold y1; exact State.alarm_keeps (State.wr_keeps (State.wr_keeps h))
  clear_value y0 y1
  exact State.dieReach_keeps h2

theorem State.lose156_keeps {s0 : State} {s : _} (h : Keeps s0 s) : Keeps s0 (State.lose156 s) := by
  unfold State.lose156
  extract_lets +onlyGivenNames y0 y1
  have h2 : (Keeps s0) y1 := by unfold y1; exact keepsMk h rfl
  clear_value y0 y1
  extract_lets +onlyGivenNames y3
  have h4 : (Keeps s0) y3 := by unfold y3; exact State.wr_keeps h2
  clear_value y3
  extract_lets +onlyGivenNames y5
  clear_value y5
  exact foldlP (Keeps s0) h4 (fun a6 a7 a8 => State.leavePort_keeps a8)

theorem State.lose100_keeps {s0 : State} {s : _} (h : Keeps s0 s) : Keeps s0 (State.lose100 s) := by
  unfold State.lose100
  extract_lets +onlyGivenNames y0 y1
  have h2 : (Keeps s0) y1 := by unfold y1; exact keepsMk h rfl
  clear_value y0 y1
  extract_lets +onlyGivenNames y3
  have h4 : (Keeps s0) y3 := by unfold y3; exact State.wr_keeps h2
  clear_value y3
  extract_lets +onlyGivenNames y5
  have h6 : (Keeps s0) y5 := by
    unfold y5
    exact foldlP (Keeps s0) h4 (fun a7 a8 a9 => foldlP (Keeps s0) a9 (fun a10 a11 a12 => State.setD2dState_keeps a12))
  clear_value y5
  exact foldlP (Keeps s0) h6 (fun a13 a14 a15 => State.wr_keeps a15)

theorem execReferenceLost_keeps {s0 : State} {x0 s : _} (h : Keeps s0 s) : OutKeeps s0 (execReferenceLost x0 s) := by
  unfold execReferenceLost
  split
  · rename_i e0
    exact pIte (OutKeeps s0) h (State.lose156_keeps h)
  · rename_i e1
    exact pIte (OutKeeps s0) h (State.deviceLoss_keeps (State.lose100_keeps h))

/-! ### Machine/Coherence.lean -/

theorem State.setDir_keeps {s0 : State} {s x1 x2 : _} (h : Keeps s0 s) : Keeps s0 (State.setDir s x1 x2) := by
  unfold State.setDir
  split
  · rename_i e0 e1 e2 e3
    exact State.setPline_keeps h
  · rename_i e4 e5
    exact h

theorem State.homeFetch_keeps {s0 : State} {s x1 : _} (h : Keeps s0 s) : (OptP (SndP (Keeps s0))) (State.homeFetch s
    x1) := by
  unfold State.homeFetch
  exact State.partAccess_keeps h

theorem State.homePut_keeps {s0 : State} {s x1 x2 : _} (h : Keeps s0 s) : (OptP (Keeps s0)) (State.homePut s x1 x2) :=
    by
  unfold State.homePut
  exact mapOptP (SndP (Keeps s0)) (Keeps s0) (State.partAccess_keeps h) (fun a0 a1 => a1)

theorem State.post_keeps {s0 : State} {s x1 : _} (h : Keeps s0 s) : Keeps s0 (State.post s x1) := by
  unfold State.post
  split
  rename_i e0 e1 e2 e3 e4
  extract_lets +onlyGivenNames y5
  have h6 : (Keeps s0) y5 := by unfold y5; exact State.carry_keeps h
  clear_value y5
  exact keepsMk h6 rfl

theorem State.take_keeps {s0 : State} {s x1 : _} (h : Keeps s0 s) : Keeps s0 (State.take s x1) := by
  unfold State.take
  exact keepsMk h rfl

theorem State.setCreq_keeps {s0 : State} {s x1 x2 x3 : _} (h : Keeps s0 s) : Keeps s0 (State.setCreq s x1 x2 x3) := by
  unfold State.setCreq
  exact keepsMk h rfl

theorem State.request_keeps {s0 : State} {s x1 x2 x3 x4 : _} (h : Keeps s0 s) : Keeps s0 (State.request s x1 x2 x3 x4)
    := by
  unfold State.request
  exact State.post_keeps (State.setCreq_keeps h)

theorem State.setTxn_keeps {s0 : State} {s x1 : _} (h : Keeps s0 s) : Keeps s0 (State.setTxn s x1) := by
  unfold State.setTxn
  exact keepsMk h rfl

theorem State.endTxn_keeps {s0 : State} {s x1 : _} (h : Keeps s0 s) : Keeps s0 (State.endTxn s x1) := by
  unfold State.endTxn
  exact keepsMk h rfl

theorem State.usePrivate_keeps {s0 : State} {s x1 x2 x3 : _} (h : Keeps s0 s) : Keeps s0 (State.usePrivate s x1 x2 x3)
    := by
  unfold State.usePrivate
  split
  rename_i e0 e1 e2 e3
  extract_lets +onlyGivenNames y4 y5
  clear_value y4 y5
  exact keepsMk h rfl

theorem State.useLine_keeps {s0 : State} {s x1 x2 x3 : _} (h : Keeps s0 s) : Keeps s0 (State.useLine s x1 x2 x3) := by
  unfold State.useLine
  extract_lets +onlyGivenNames y0
  clear_value y0
  exact pIte (Keeps s0) h (State.usePrivate_keeps (State.setCline_keeps h))

theorem State.evictCore_keeps {s0 : State} {s x1 x2 : _} (h : Keeps s0 s) : Keeps s0 (State.evictCore s x1 x2) := by
  unfold State.evictCore
  extract_lets +onlyGivenNames y0
  clear_value y0
  split
  · rename_i e1 e2
    exact h
  · rename_i e3 e4
    exact State.post_keeps (State.setCreq_keeps (State.setCline_keeps (State.givenErrs_keeps h)))
  · rename_i e5 e6 e7
    exact State.post_keeps (State.setCline_keeps h)

theorem State.l3Place_keeps {s0 : State} {s x1 x2 : _} (h : Keeps s0 s) : (OptP (SndP (Keeps s0))) (State.l3Place s x1
    x2) := by
  unfold State.l3Place
  extract_lets +onlyGivenNames y0
  clear_value y0
  split
  · rename_i e1 e2 e3
    exact someP (sndMk h)
  · rename_i e4 e5
    split
    · rename_i e6 e7 e8
      exact someP (sndMk h)
    · rename_i e9 e10
      extract_lets +onlyGivenNames y11 y12
      clear_value y11 y12
      split
      · rename_i e13 e14
        exact True.intro
      · rename_i e15 e16 e17
        extract_lets +onlyGivenNames y18
        have h19 : (Keeps s0) y18 := by
          unfold y18
          exact foldlP (Keeps s0) h (fun a20 a21 a22 => pIte (Keeps s0) a22 (State.setCline_keeps a22))
        clear_value y18
        exact someP (sndMk (State.evictCore_keeps h19))

theorem State.readWords_keeps {s0 : State} {s x1 x2 x3 x4 : _} (h : Keeps s0 s) : (SndP (Keeps s0)) (State.readWords s
    x1 x2 x3 x4) := by
  unfold State.readWords
  extract_lets +onlyGivenNames y0 y1 y2 y3 y4 y5 y6
  have h7 : (Keeps s0) y6 := by unfold y6; exact foldlP (Keeps s0) h (fun a8 a9 a10 => State.countErr_keeps a10)
  clear_value y0 y1 y2 y3 y4 y5 y6
  extract_lets +onlyGivenNames y11
  clear_value y11
  exact pIte (SndP (Keeps s0)) (sndMk h7) (pIte (SndP (Keeps s0)) (sndMk (State.setCline_keeps h7)) (pIte (SndP (Keeps
      s0)) (sndMk (State.evictCore_keeps (State.setCline_keeps h7))) (sndMk (State.setCline_keeps h7))))

theorem State.readCaches_keeps {s0 : State} {s x1 : _} (h : Keeps s0 s) : (SndP (Keeps s0)) (State.readCaches s x1) :=
    by
  unfold State.readCaches
  refine foldlP (SndP (Keeps s0)) (sndMk h) (fun a0 a1 a2 => ?_)
  split
  · rename_i e3 e4 e5
    exact a2
  · rename_i e6 e7
    split
    · rename_i e8 e9
      exact State.readWords_keeps a2
    · rename_i e10 e11
      exact a2

theorem State.loadTry_keeps {s0 : State} {s x1 x2 : _} (h : Keeps s0 s) : Keeps s0 (State.loadTry s x1 x2) := by
  unfold State.loadTry
  split
  · rename_i e0 e1 e2
    extract_lets +onlyGivenNames y3
    clear_value y3
    split
    · rename_i e4 e5 e6 e7 e8
      exact State.coreErr_keeps (State.loadFault_keeps (outOf (SndP (Keeps s0)) e8 (State.readCaches_keeps h)))
    · rename_i e9 e10 e11
      exact State.answerLoad_keeps (foldlP (Keeps s0) (outOf (SndP (Keeps s0)) e11 (State.readCaches_keeps h)) (fun
          a12 a13 a14 => State.useLine_keeps a14))
  · rename_i e15 e16
    exact h
  · rename_i e17 e18 e19
    split
    · rename_i e20 e21 e22
      exact State.setCreq_keeps h
    · rename_i e23 e24
      exact State.request_keeps h

theorem State.storeHead_keeps {s0 : State} {s x1 : _} (h : Keeps s0 s) : (OptP (Keeps s0)) (State.storeHead s x1) :=
    by
  unfold State.storeHead
  split
  · rename_i e0 e1
    exact True.intro
  · rename_i e2 e3 e4 e5
    extract_lets +onlyGivenNames y6 y7 y8 y9 y10
    have h11 : ∀ b0, (OptP (Keeps s0)) (y10 b0) := by
      unfold y10
      intro a12
      exact pIte (OptP (Keeps s0)) True.intro (someP (State.request_keeps h))
    clear_value y6 y7 y8 y9 y10
    split
    · rename_i e13 e14
      exact h11 _
    · rename_i e15 e16
      exact h11 _
    · rename_i e17 e18
      exact h11 _
    · rename_i e19 e20 e21 e22
      split
      · rename_i e23 e24 e25 e26 e27 e28
        exact someP (outOf (SndP (Keeps s0)) e27 (State.readWords_keeps h))
      · rename_i e29 e30 e31 e32 e33 e34
        extract_lets +onlyGivenNames y35 y36 y37 y38
        have h39 : (Keeps s0) y38 := by
          unfold y38
          exact State.useLine_keeps (State.setCline_keeps (State.unreserve_keeps (outOf (SndP (Keeps s0)) e33
              (State.readWords_keeps h))))
        clear_value y35 y36 y37 y38
        exact someP (keepsMk h39 rfl)

theorem State.drainStores_keeps {s0 : State} {s x1 x2 : _} (h : Keeps s0 s) : Keeps s0 (State.drainStores s x1 x2) :=
    by
  induction x2 generalizing s x1
  · unfold State.drainStores
    exact h
  · rename_i e0 e1
    unfold State.drainStores
    split
    · rename_i e2 e3 e4
      exact pIte (Keeps s0) (e1 (outOf (OptP (Keeps s0)) e4 (State.storeHead_keeps h))) (outOf (OptP (Keeps s0)) e4
          (State.storeHead_keeps h))
    · rename_i e5 e6
      exact h

theorem State.drainDie_keeps {s0 : State} {s x1 : _} (h : Keeps s0 s) : Keeps s0 (State.drainDie s x1) := by
  unfold State.drainDie
  exact foldlP (Keeps s0) h (fun a0 a1 a2 => pIte (Keeps s0) (State.drainStores_keeps a2) a2)

theorem State.wake_keeps {s0 : State} {s x1 x2 : _} (h : Keeps s0 s) : Keeps s0 (State.wake s x1 x2) := by
  unfold State.wake
  exact foldlP (Keeps s0) (State.drainDie_keeps h) (fun a0 a1 a2 => State.loadTry_keeps a2)

theorem State.agentDone_keeps {s0 : State} {s x1 x2 : _} (h : Keeps s0 s) : Keeps s0 (State.agentDone s x1 x2) := by
  unfold State.agentDone
  split
  · rename_i e0 e1
    exact h
  · rename_i e2 e3 e4
    extract_lets +onlyGivenNames y5 y6
    clear_value y5 y6
    split
    · rename_i e7 e8 e9 e10 e11
      split
      · rename_i e12 e13
        exact h
      · rename_i e14 e15 e16 e17
        extract_lets +onlyGivenNames y18
        have h19 : (Keeps s0) y18 := by
          unfold y18
          exact State.setCline_keeps (outOf (OptP (SndP (Keeps s0))) e17 (State.l3Place_keeps h))
        clear_value y18
        extract_lets +onlyGivenNames y20 y21
        have h22 : (Keeps s0) y21 := by unfold y21; exact keepsMk h19 rfl
        clear_value y20 y21
        exact State.wake_keeps (State.endTxn_keeps h22)
    · rename_i e23 e24 e25 e26
      exact h

theorem State.finishTxn_keeps {s0 : State} {s x1 : _} (h : Keeps s0 s) : Keeps s0 (State.finishTxn s x1) := by
  unfold State.finishTxn
  split
  · rename_i e0 e1
    exact h
  · rename_i e2 e3 e4
    refine pIte (Keeps s0) h ?_
    extract_lets +onlyGivenNames y5 y6 y7
    clear_value y5 y6 y7
    split
    rename_i e8 e9 e10 e11
    extract_lets +onlyGivenNames y12
    clear_value y12
    split
    · rename_i e13 e14
      exact h
    · rename_i e15 e16 e17 e18
      extract_lets +onlyGivenNames y19
      have h20 : (Keeps s0) y19 := by
        unfold y19
        exact State.setDir_keeps (outOf (OptP (SndP (Keeps s0))) e18 (pIte (OptP (SndP (Keeps s0))) (someP (sndMk h))
            (State.homeFetch_keeps h)))
      clear_value y19
      extract_lets +onlyGivenNames y21
      have h22 : (Keeps s0) y21 := by unfold y21; exact pIte (Keeps s0) h20 (State.post_keeps h20)
      clear_value y21
      exact State.post_keeps (State.setTxn_keeps h22)

theorem State.begin_keeps {s0 : State} {s x1 x2 x3 : _} (h : Keeps s0 s) : Keeps s0 (State.begin s x1 x2 x3) := by
  unfold State.begin
  extract_lets +onlyGivenNames y0 y1
  have h2 : (Keeps s0) y1 := by unfold y1; exact State.tagCheck_keeps (State.take_keeps h)
  clear_value y0 y1
  extract_lets +onlyGivenNames y3 y4 y5 y6
  clear_value y3 y4 y5 y6
  split
  rename_i e7 e8 e9 e10
  extract_lets +onlyGivenNames y11 y12
  have h13 : (Keeps s0) y12 := by
    unfold y12
    exact foldlP (Keeps s0) (State.snoops_keeps h2) (fun a14 a15 a16 => State.post_keeps a16)
  clear_value y11 y12
  exact State.finishTxn_keeps (State.setTxn_keeps h13)

theorem State.takeReq_keeps {s0 : State} {s x1 x2 x3 : _} (h : Keeps s0 s) : Keeps s0 (State.takeReq s x1 x2 x3) := by
  unfold State.takeReq
  split
  · rename_i e0 e1 e2 e3 e4 e5 e6
    exact pIte (Keeps s0) (State.begin_keeps h) h
  · rename_i e7 e8 e9
    exact h

theorem execReadShared_keeps {s0 : State} {x0 x1 s : _} (h : Keeps s0 s) : OutKeeps s0 (execReadShared x0 x1 s) := by
  unfold execReadShared
  exact State.takeReq_keeps h

theorem execReadOwn_keeps {s0 : State} {x0 x1 s : _} (h : Keeps s0 s) : OutKeeps s0 (execReadOwn x0 x1 s) := by
  unfold execReadOwn
  exact State.takeReq_keeps h

theorem execUpgrade_keeps {s0 : State} {x0 x1 s : _} (h : Keeps s0 s) : OutKeeps s0 (execUpgrade x0 x1 s) := by
  unfold execUpgrade
  exact State.takeReq_keeps h

theorem execCleanEvict_keeps {s0 : State} {x0 x1 s : _} (h : Keeps s0 s) : OutKeeps s0 (execCleanEvict x0 x1 s) := by
  unfold execCleanEvict
  split
  · rename_i e0 e1 e2 e3 e4 e5
    refine pIte (OutKeeps s0) h ?_
    extract_lets +onlyGivenNames y6 y7 y8
    have h9 : (Keeps s0) y8 := by unfold y8; exact State.setDir_keeps (State.take_keeps h)
    clear_value y6 y7 y8
    exact pIte (OutKeeps s0) (State.setTxn_keeps (State.post_keeps (State.snoops_keeps h9))) h9
  · rename_i e10 e11 e12
    exact h

theorem State.tookBack_keeps {s0 : State} {s x1 x2 : _} (h : Keeps s0 s) : Keeps s0 (State.tookBack s x1 x2) := by
  unfold State.tookBack
  extract_lets +onlyGivenNames y0
  have h1 : (Keeps s0) y0 := by unfold y0; exact State.setDir_keeps h
  clear_value y0
  extract_lets +onlyGivenNames y2 y3 y4
  have h5 : (Keeps s0) y4 := by unfold y4; exact keepsMk h1 rfl
  clear_value y2 y3 y4
  extract_lets +onlyGivenNames y6
  have h7 : (Keeps s0) y6 := by
    unfold y6
    split
    · rename_i e8 e9 e10
      exact State.finishTxn_keeps (State.setTxn_keeps h5)
    · rename_i e11 e12
      exact h5
  clear_value y6
  exact State.wake_keeps h7

theorem execWriteBack_keeps {s0 : State} {x0 x1 s : _} (h : Keeps s0 s) : OutKeeps s0 (execWriteBack x0 x1 s) := by
  unfold execWriteBack
  split
  · rename_i e0 e1 e2 e3
    extract_lets +onlyGivenNames y4
    clear_value y4
    refine pIte (OutKeeps s0) h ?_
    split
    · rename_i e5 e6
      exact h
    · rename_i e7 e8 e9
      exact State.tookBack_keeps (outOf (OptP (Keeps s0)) e9 (State.homePut_keeps (State.take_keeps h)))
  · rename_i e10 e11
    exact h

theorem State.passData_keeps {s0 : State} {s x1 x2 x3 : _} (h : Keeps s0 s) : Keeps s0 (State.passData s x1 x2 x3) :=
    by
  unfold State.passData
  split
  · rename_i e0 e1
    exact h
  · rename_i e2 e3 e4
    extract_lets +onlyGivenNames y5
    have h6 : (Keeps s0) y5 := by unfold y5; exact State.post_keeps h
    clear_value y5
    exact pIte (Keeps s0) h6 (State.bump_keeps h6)

theorem State.answerSnoop_keeps {s0 : State} {s x1 x2 x3 : _} (h : Keeps s0 s) : Keeps s0 (State.answerSnoop s x1 x2
    x3) := by
  unfold State.answerSnoop
  extract_lets +onlyGivenNames y0
  have h1 : (Keeps s0) y0 := by unfold y0; exact State.take_keeps h
  clear_value y0
  refine pIte (Keeps s0) (State.post_keeps h1) ?_
  extract_lets +onlyGivenNames y2 y3 y4
  have h5 : (Keeps s0) y4 := by unfold y4; exact pIte (Keeps s0) (State.givenErrs_keeps h1) h1
  clear_value y2 y3 y4
  extract_lets +onlyGivenNames y6 y7
  have h8 : (Keeps s0) y7 := by unfold y7; exact pIte (Keeps s0) (State.passData_keeps h5) h5
  clear_value y6 y7
  extract_lets +onlyGivenNames y9
  have h10 : (Keeps s0) y9 := by unfold y9; exact pIte (Keeps s0) (State.carry_keeps (State.post_keeps h8)) h8
  clear_value y9
  exact State.post_keeps (State.setCline_keeps h10)

theorem State.homeSnoop_keeps {s0 : State} {s x1 x2 x3 : _} (h : Keeps s0 s) : Keeps s0 (State.homeSnoop s x1 x2 x3)
    := by
  unfold State.homeSnoop
  extract_lets +onlyGivenNames y0
  clear_value y0
  refine pIte (Keeps s0) h ?_
  split
  · rename_i e1 e2
    exact h
  · rename_i e3 e4 e5
    extract_lets +onlyGivenNames y6
    have h7 : (Keeps s0) y6 := by
      unfold y6
      exact State.snoops_keeps (State.setCline_keeps (outOf (OptP (Keeps s0)) e5 (pIte (OptP (Keeps s0))
          (State.homePut_keeps (State.givenErrs_keeps h)) (someP h))))
    clear_value y6
    exact State.setDir_keeps h7

theorem State.snoopRow_keeps {s0 : State} {s x1 x2 x3 : _} (h : Keeps s0 s) : Keeps s0 (State.snoopRow s x1 x2 x3) :=
    by
  unfold State.snoopRow
  exact pIte (Keeps s0) (State.answerSnoop_keeps h) h

theorem execSnpShared_keeps {s0 : State} {x0 x1 s : _} (h : Keeps s0 s) : OutKeeps s0 (execSnpShared x0 x1 s) := by
  unfold execSnpShared
  exact State.snoopRow_keeps h

theorem execSnpOwn_keeps {s0 : State} {x0 x1 s : _} (h : Keeps s0 s) : OutKeeps s0 (execSnpOwn x0 x1 s) := by
  unfold execSnpOwn
  exact State.snoopRow_keeps h

theorem execPromote_keeps {s0 : State} {x0 x1 s : _} (h : Keeps s0 s) : OutKeeps s0 (execPromote x0 x1 s) := by
  unfold execPromote
  exact State.snoopRow_keeps h

theorem execSnpClean_keeps {s0 : State} {x0 x1 s : _} (h : Keeps s0 s) : OutKeeps s0 (execSnpClean x0 x1 s) := by
  unfold execSnpClean
  exact pIte (Keeps s0) (State.answerSnoop_keeps h) (pIte (Keeps s0) (State.homeSnoop_keeps h) h)

theorem execSnpInv_keeps {s0 : State} {x0 x1 s : _} (h : Keeps s0 s) : OutKeeps s0 (execSnpInv x0 x1 s) := by
  unfold execSnpInv
  exact pIte (Keeps s0) (State.answerSnoop_keeps h) (State.homeSnoop_keeps h)

theorem execBackInvalidation_keeps {s0 : State} {x0 x1 s : _} (h : Keeps s0 s) : OutKeeps s0 (execBackInvalidation x0
    x1 s) := by
  unfold execBackInvalidation
  exact pIte (Keeps s0) (State.answerSnoop_keeps h) (State.homeSnoop_keeps h)

theorem State.answered_keeps {s0 : State} {s x1 x2 x3 x4 : _} (h : Keeps s0 s) : Keeps s0 (State.answered s x1 x2 x3
    x4) := by
  unfold State.answered
  split
  · rename_i e0 e1
    exact h
  · rename_i e2 e3 e4
    refine pIte (Keeps s0) h (pIte (Keeps s0) (State.endTxn_keeps (State.setDir_keeps h)) ?_)
    extract_lets +onlyGivenNames y5
    clear_value y5
    exact State.finishTxn_keeps (State.setTxn_keeps h)

theorem execCohAck_keeps {s0 : State} {x0 x1 s : _} (h : Keeps s0 s) : OutKeeps s0 (execCohAck x0 x1 s) := by
  unfold execCohAck
  split
  · rename_i e0 e1
    exact h
  · rename_i e2 e3 e4
    exact State.answered_keeps (State.take_keeps h)

theorem execAckWb_keeps {s0 : State} {x0 x1 s : _} (h : Keeps s0 s) : OutKeeps s0 (execAckWb x0 x1 s) := by
  unfold execAckWb
  exact pIte (OutKeeps s0) h (State.answered_keeps (State.take_keeps h))

theorem execCohComplete_keeps {s0 : State} {x0 x1 s : _} (h : Keeps s0 s) : OutKeeps s0 (execCohComplete x0 x1 s) :=
    by
  unfold execCohComplete
  split
  · rename_i e0 e1
    exact State.agentDone_keeps (State.finishTxn_keeps h)
  · rename_i e2 e3 e4
    extract_lets +onlyGivenNames y5
    have h6 : (Keeps s0) y5 := by unfold y5; exact State.take_keeps h
    clear_value y5
    split
    · rename_i e7 e8
      exact h6
    · rename_i e9 e10 e11
      exact State.agentDone_keeps (State.setCreq_keeps h6)

theorem execCoherenceData_keeps {s0 : State} {x0 x1 x2 s : _} (h : Keeps s0 s) : OutKeeps s0 (execCoherenceData x0 x1
    x2 s) := by
  unfold execCoherenceData
  split
  · rename_i e0 e1
    exact h
  · rename_i e2 e3 e4
    extract_lets +onlyGivenNames y5
    have h6 : (Keeps s0) y5 := by unfold y5; exact State.take_keeps h
    clear_value y5
    split
    · rename_i e7 e8
      split
      · rename_i e9 e10
        exact h6
      · rename_i e11 e12 e13
        exact State.agentDone_keeps (State.setCreq_keeps h6)
    · rename_i e14
      split
      · rename_i e15 e16
        exact h
      · rename_i e17 e18 e19
        split
        · rename_i e20 e21 e22
          exact State.finishTxn_keeps (State.setTxn_keeps (outOf (OptP (Keeps s0)) e19 (State.homePut_keeps h6)))
        · rename_i e23 e24
          exact outOf (OptP (Keeps s0)) e19 (State.homePut_keeps h6)

theorem execSnpQuery_keeps {s0 : State} {x0 x1 s : _} (h : Keeps s0 s) : OutKeeps s0 (execSnpQuery x0 x1 s) := by
  unfold execSnpQuery
  split
  · rename_i e0 e1
    exact h
  · rename_i e2 e3 e4
    exact State.post_keeps (foldlP (Keeps s0) (State.take_keeps h) (fun a5 a6 a7 => State.post_keeps a7))

theorem State.learn_keeps {s0 : State} {s x1 x2 x3 x4 x5 : _} (h : Keeps s0 s) : Keeps s0 (State.learn s x1 x2 x3 x4
    x5) := by
  unfold State.learn
  extract_lets +onlyGivenNames y0
  clear_value y0
  exact State.setDir_keeps h

theorem execPresenceRecord_keeps {s0 : State} {x0 x1 x2 x3 s : _} (h : Keeps s0 s) : OutKeeps s0 (execPresenceRecord
    x0 x1 x2 x3 s) := by
  unfold execPresenceRecord
  refine pIte (OutKeeps s0) h ?_
  extract_lets +onlyGivenNames y0
  have h1 : (Keeps s0) y0 := by unfold y0; exact State.take_keeps h
  clear_value y0
  split
  · rename_i e2 e3 e4 e5
    exact pIte (Keeps s0) (State.learn_keeps h1) h1
  · rename_i e6 e7
    split
    · rename_i e8 e9 e10 e11
      exact State.learn_keeps (outOf (OptP (SndP (Keeps s0))) e11 (State.homeFetch_keeps h1))
    · rename_i e12 e13
      exact h

theorem State.allKnown_keeps {s0 : State} {s x1 : _} (h : Keeps s0 s) : Keeps s0 (State.allKnown s x1) := by
  unfold State.allKnown
  extract_lets +onlyGivenNames y0 y1 y2
  have h3 : (Keeps s0) y2 := by unfold y2; exact keepsMk h rfl
  clear_value y0 y1 y2
  exact pIte (Keeps s0) h3 (State.wr_keeps h3)

theorem execEndRecord_keeps {s0 : State} {x0 x1 s : _} (h : Keeps s0 s) : OutKeeps s0 (execEndRecord x0 x1 s) := by
  unfold execEndRecord
  split
  · rename_i e0 e1
    exact h
  · rename_i e2 e3 e4
    refine pIte (OutKeeps s0) h ?_
    extract_lets +onlyGivenNames y5
    have h6 : (Keeps s0) y5 := by unfold y5; exact State.take_keeps h
    clear_value y5
    exact State.allKnown_keeps (keepsMk h6 rfl)

theorem State.ooForceWrite_keeps {s0 : State} {s x1 x2 x3 : _} (h : Keeps s0 s) : Keeps s0 (State.ooForceWrite s x1 x2
    x3) := by
  unfold State.ooForceWrite
  extract_lets +onlyGivenNames y0 y1
  clear_value y0 y1
  refine pIte (Keeps s0) (State.refuse_keeps h) ?_
  extract_lets +onlyGivenNames y2
  have h3 : (Keeps s0) y2 := by unfold y2; exact State.wr_keeps h
  clear_value y2
  exact pIte (Keeps s0) (State.wr_keeps (State.wr_keeps (State.wr_keeps h3))) (pIte (Keeps s0) (State.wr_keeps h3) h3)

theorem execCohOoForce_keeps {s0 : State} {x0 x1 x2 s : _} (h : Keeps s0 s) : OutKeeps s0 (execCohOoForce x0 x1 x2 s)
    := by
  unfold execCohOoForce
  exact State.ooForceWrite_keeps h

theorem execOwnerOrderDrained_keeps {s0 : State} {x0 s : _} (h : Keeps s0 s) : OutKeeps s0 (execOwnerOrderDrained x0
    s) := by
  unfold execOwnerOrderDrained
  exact pIte (OutKeeps s0) h (State.wr_keeps (State.wr_keeps (State.wr_keeps h)))

theorem State.biasStart_keeps {s0 : State} {s : _} (h : Keeps s0 s) : Keeps s0 (State.biasStart s) := by
  unfold State.biasStart
  exact pIte (Keeps s0) (State.wr_keeps (State.wr_keeps h)) (State.wr_keeps (State.wr_keeps h))

theorem State.biasFields_keeps {s0 : State} {s x1 x2 x3 x4 : _} (h : Keeps s0 s) : Keeps s0 (State.biasFields s x1 x2
    x3 x4) := by
  unfold State.biasFields
  extract_lets +onlyGivenNames y0
  have h1 : (Keeps s0) y0 := by unfold y0; exact pIte (Keeps s0) (State.wr_keeps h) h
  clear_value y0
  refine pIte (Keeps s0) h1 ?_
  extract_lets +onlyGivenNames y2
  have h3 : (Keeps s0) y2 := by unfold y2; exact pIte (Keeps s0) (State.wr_keeps h1) h1
  clear_value y2
  extract_lets +onlyGivenNames y4
  have h5 : (Keeps s0) y4 := by unfold y4; exact pIte (Keeps s0) (State.wr_keeps h3) h3
  clear_value y4
  refine pIte (Keeps s0) h5 (pIte (Keeps s0) ?_ (State.biasStart_keeps h5))
  extract_lets +onlyGivenNames y6
  have h7 : (Keeps s0) y6 := by unfold y6; exact State.wr_keeps h5
  clear_value y6
  exact keepsMk h7 rfl

theorem State.biasWrite_keeps {s0 : State} {s x1 x2 : _} (h : Keeps s0 s) : Keeps s0 (State.biasWrite s x1 x2) := by
  unfold State.biasWrite
  exact pIte (Keeps s0) (State.refuse_keeps h) (State.biasFields_keeps h)

theorem execBiasRelease_keeps {s0 : State} {x0 x1 s : _} (h : Keeps s0 s) : OutKeeps s0 (execBiasRelease x0 x1 s) :=
    by
  unfold execBiasRelease
  exact pIte (OutKeeps s0) (State.refuse_keeps h) (State.biasFields_keeps h)

theorem execBiasRecall_keeps {s0 : State} {x0 x1 s : _} (h : Keeps s0 s) : OutKeeps s0 (execBiasRecall x0 x1 s) := by
  unfold execBiasRecall
  exact pIte (OutKeeps s0) (State.refuse_keeps h) (State.biasFields_keeps h)

theorem execCohBiasCommitGo_keeps {s0 : State} {x0 s : _} (h : Keeps s0 s) : OutKeeps s0 (execCohBiasCommitGo x0 s) :=
    by
  unfold execCohBiasCommitGo
  exact pIte (OutKeeps s0) (State.refuse_keeps h) (State.commitGo_keeps h)

theorem execCohBiasCommitApply_keeps {s0 : State} {s : _} (h : Keeps s0 s) : OutKeeps s0 (execCohBiasCommitApply s) :=
    by
  unfold execCohBiasCommitApply
  refine pIte (OutKeeps s0) h ?_
  extract_lets +onlyGivenNames y0
  have h1 : (Keeps s0) y0 := by
    unfold y0
    exact pIte (Keeps s0) (State.commitEnd_keeps (State.commitField_keeps (State.commitField_keeps h)))
        (State.commitEnd_keeps h)
  clear_value y0
  exact pIte (Keeps s0) (State.biasStart_keeps (keepsMk h1 rfl)) h1

theorem State.clearLines_keeps {s0 : State} {s x1 : _} (h : Keeps s0 s) : Keeps s0 (State.clearLines s x1) := by
  unfold State.clearLines
  refine foldlP (Keeps s0) h (fun a0 a1 a2 => ?_)
  split
  · rename_i e3 e4 e5
    exact State.dropPline_keeps (State.writeBackLine_keeps a2)
  · rename_i e6 e7
    exact a2

theorem State.recallLine_keeps {s0 : State} {s x1 : _} (h : Keeps s0 s) : Keeps s0 (State.recallLine s x1) := by
  unfold State.recallLine
  split
  rename_i e0 e1 e2 e3
  split
  · rename_i e4
    exact outOf (SndP (Keeps s0)) e3 (State.snoopInv_keeps h)
  · rename_i e5 e6
    split
    · rename_i e7 e8 e9 e10
      exact State.setPline_keeps (outOf (SndP (Keeps s0)) e3 (State.snoopInv_keeps h))
    · rename_i e11 e12
      exact State.gddrPut_keeps (outOf (SndP (Keeps s0)) e3 (State.snoopInv_keeps h))

theorem execBiasDone_keeps {s0 : State} {s : _} (h : Keeps s0 s) : OutKeeps s0 (execBiasDone s) := by
  unfold execBiasDone
  refine pIte (OutKeeps s0) h ?_
  extract_lets +onlyGivenNames y0 y1
  have h2 : (Keeps s0) y1 := by
    unfold y1
    exact foldlP (Keeps s0) (foldlP (Keeps s0) h (fun a3 a4 a5 => State.recallLine_keeps a5)) (fun a6 a7 a8 =>
        State.visitTags_keeps a8)
  clear_value y0 y1
  extract_lets +onlyGivenNames y9
  have h10 : (Keeps s0) y9 := by unfold y9; exact State.clearLines_keeps h2
  clear_value y9
  exact State.wr_keeps (State.wr_keeps h10)

/-! ### Machine/Caches.lean -/

theorem State.mergeHome_keeps {s0 : State} {s x1 x2 : _} (h : Keeps s0 s) : (OptP (Keeps s0)) (State.mergeHome s x1
    x2) := by
  unfold State.mergeHome
  split
  · rename_i e0 e1
    exact State.homePut_keeps h
  · rename_i e2
    exact someP h

theorem State.cleanLine_keeps {s0 : State} {s x1 x2 : _} (h : Keeps s0 s) : Keeps s0 (State.cleanLine s x1 x2) := by
  unfold State.cleanLine
  refine pIte (Keeps s0) h ?_
  split
  rename_i e0 e1 e2 e3
  split
  · rename_i e4 e5 e6
    exact pIte (Keeps s0) (State.setDir_keeps (outOf (OptP (Keeps s0)) e6 (State.mergeHome_keeps (outOf (SndP (Keeps
        s0)) e3 (State.snoopClean_keeps h))))) (outOf (OptP (Keeps s0)) e6 (State.mergeHome_keeps (outOf (SndP (Keeps
        s0)) e3 (State.snoopClean_keeps h))))
  · rename_i e7 e8
    exact h

theorem State.flushLine_keeps {s0 : State} {s x1 x2 : _} (h : Keeps s0 s) : Keeps s0 (State.flushLine s x1 x2) := by
  unfold State.flushLine
  refine pIte (Keeps s0) h ?_
  split
  rename_i e0 e1 e2 e3
  split
  · rename_i e4 e5 e6
    exact State.setDir_keeps (outOf (OptP (Keeps s0)) e6 (State.mergeHome_keeps (outOf (SndP (Keeps s0)) e3
        (State.snoopInv_keeps h))))
  · rename_i e7 e8
    exact h

theorem State.pushStores_keeps {s0 : State} {s x1 x2 : _} (h : Keeps s0 s) : Keeps s0 (State.pushStores s x1 x2) := by
  unfold State.pushStores
  refine pIte (Keeps s0) h ?_
  extract_lets +onlyGivenNames y0 y1
  have h2 : (Keeps s0) y1 := by unfold y1; exact keepsMk h rfl
  clear_value y0 y1
  exact State.drainStores_keeps h2

theorem State.zeroBlock_keeps {s0 : State} {s x1 x2 x3 : _} (h : Keeps s0 s) : Keeps s0 (State.zeroBlock s x1 x2 x3)
    := by
  unfold State.zeroBlock
  exact State.pushStores_keeps h

theorem State.trap_keeps {s0 : State} {s x1 x2 : _} (h : Keeps s0 s) : Keeps s0 (State.trap s x1 x2) := by
  unfold State.trap
  exact State.send_keeps h

theorem State.cacheOp_keeps {s0 : State} {s x1 x2 x3 x4 x5 s1 : _} (h : Keeps s0 s) (h1 : Keeps s0 s1) : Keeps s0
    (State.cacheOp s x1 x2 x3 x4 x5 s1) := by
  unfold State.cacheOp
  split
  · rename_i e0 e1
    exact State.trap_keeps h
  · rename_i e2 e3
    exact State.trap_keeps h
  · rename_i e4 e5
    exact State.trap_keeps h
  · rename_i e6 e7
    exact State.trap_keeps h
  · rename_i e8 e9
    exact pIte (Keeps s0) (pIte (Keeps s0) (State.trap_keeps h) h) (pIte (Keeps s0) h h1)

theorem State.kx_keeps {s0 : State} {s x1 x2 x3 s1 : _} (h : Keeps s0 s) (h1 : Keeps s0 s1) : Keeps s0 (State.kx s x1
    x2 x3 s1) := by
  unfold State.kx
  exact pIte (Keeps s0) h1 (State.trap_keeps h)

theorem execKxEfence_keeps {s0 : State} {x0 s : _} (h : Keeps s0 s) : OutKeeps s0 (execKxEfence x0 s) := by
  unfold execKxEfence
  exact State.kx_keeps h (State.drainStores_keeps h)

theorem execKxLclean_keeps {s0 : State} {x0 x1 x2 x3 s : _} (h : Keeps s0 s) : OutKeeps s0 (execKxLclean x0 x1 x2 x3
    s) := by
  unfold execKxLclean
  exact State.kx_keeps h (State.cacheOp_keeps h (State.cleanLine_keeps h))

theorem execKxLflush_keeps {s0 : State} {x0 x1 x2 x3 s : _} (h : Keeps s0 s) : OutKeeps s0 (execKxLflush x0 x1 x2 x3
    s) := by
  unfold execKxLflush
  exact State.kx_keeps h (State.cacheOp_keeps h (State.flushLine_keeps h))

theorem execCboClean_keeps {s0 : State} {x0 x1 x2 x3 s : _} (h : Keeps s0 s) : OutKeeps s0 (execCboClean x0 x1 x2 x3
    s) := by
  unfold execCboClean
  exact State.cacheOp_keeps h (State.cleanLine_keeps h)

theorem execCboFlush_keeps {s0 : State} {x0 x1 x2 x3 s : _} (h : Keeps s0 s) : OutKeeps s0 (execCboFlush x0 x1 x2 x3
    s) := by
  unfold execCboFlush
  exact State.cacheOp_keeps h (State.flushLine_keeps h)

theorem execCboInval_keeps {s0 : State} {x0 x1 x2 x3 s : _} (h : Keeps s0 s) : OutKeeps s0 (execCboInval x0 x1 x2 x3
    s) := by
  unfold execCboInval
  exact State.cacheOp_keeps h (State.flushLine_keeps h)

theorem State.zeroAs_keeps {s0 : State} {s x1 x2 x3 : _} (h : Keeps s0 s) : Keeps s0 (State.zeroAs s x1 x2 x3) := by
  unfold State.zeroAs
  refine pIte (Keeps s0) (State.zeroBlock_keeps h) ?_
  split
  · rename_i e0 e1 e2 e3
    exact outOf (MemResKeeps s0) e3 (State.writeAs_keeps h)
  · rename_i e4 e5
    exact h
  · rename_i e6 e7 e8 e9
    exact State.trap_keeps (outOf (MemResKeeps s0) e9 (State.writeAs_keeps h))

theorem execKxLzero_keeps {s0 : State} {x0 x1 x2 x3 s : _} (h : Keeps s0 s) : OutKeeps s0 (execKxLzero x0 x1 x2 x3 s)
    := by
  unfold execKxLzero
  exact State.kx_keeps h (State.cacheOp_keeps h (State.zeroAs_keeps h))

theorem execCboZero_keeps {s0 : State} {x0 x1 x2 x3 s : _} (h : Keeps s0 s) : OutKeeps s0 (execCboZero x0 x1 x2 x3 s)
    := by
  unfold execCboZero
  exact State.cacheOp_keeps h (State.zeroAs_keeps h)

theorem execCoreEviction_keeps {s0 : State} {x0 x1 s : _} (h : Keeps s0 s) : OutKeeps s0 (execCoreEviction x0 x1 s) :=
    by
  unfold execCoreEviction
  exact pIte (Keeps s0) h (State.evictCore_keeps h)

/-! ### Machine/Flash.lean -/

theorem State.writeDir_keeps {s0 : State} {s x1 x2 : _} (h : Keeps s0 s) : Keeps s0 (State.writeDir s x1 x2) := by
  unfold State.writeDir
  split
  rename_i e0 e1 e2 e3
  extract_lets +onlyGivenNames y4
  clear_value y4
  exact State.flashWrite_keeps h

end Sys2Proof.Machine
end

