-- ==== Sys2Proof/Laws/KeepsHost.lean ====
section
/-! SUPPORT. `Keeps` for every operation and every meaning of reset, boot, the Keeper, SPDM, JTAG, register accesses, harts and the tick. -/

namespace Sys2Proof.Machine

/-! ### Machine/Reset.lean -/

theorem State.coldRequest_keeps {s0 : State} {s x1 : _} (h : Keeps s0 s) : Keeps s0 (State.coldRequest s x1) := by
  unfold State.coldRequest
  exact State.coldState_keeps h

theorem State.coldEnd_keeps {s0 : State} {s : _} (h : Keeps s0 s) : Keeps s0 (State.coldEnd s) := by
  unfold State.coldEnd
  exact pIte (Keeps s0) (keepsMk h rfl) h

theorem execSysResetN_keeps {s0 : State} {x0 s : _} (h : Keeps s0 s) : OutKeeps s0 (execSysResetN x0 s) := by
  unfold execSysResetN
  refine pIte (OutKeeps s0) (State.coldEnd_keeps (keepsMk h rfl)) ?_
  extract_lets +onlyGivenNames y0
  have h1 : (Keeps s0) y0 := by unfold y0; exact State.coldState_keeps h
  clear_value y0
  exact keepsMk h1 rfl

theorem execPwrGoodFall_keeps {s0 : State} {s : _} (h : Keeps s0 s) : OutKeeps s0 (execPwrGoodFall s) := by
  unfold execPwrGoodFall
  extract_lets +onlyGivenNames y0 y1
  have h2 : (Keeps s0) y1 := by unfold y1; exact keepsMk h rfl
  clear_value y0 y1
  refine pIte (OutKeeps s0) h2 ?_
  extract_lets +onlyGivenNames y3
  have h4 : (Keeps s0) y3 := by unfold y3; exact State.deviceLoss_keeps h2
  clear_value y3
  exact keepsMk h4 rfl

theorem execVauxOutOfRange_keeps {s0 : State} {s : _} (h : Keeps s0 s) : OutKeeps s0 (execVauxOutOfRange s) := by
  unfold execVauxOutOfRange
  extract_lets +onlyGivenNames y0
  have h1 : (Keeps s0) y0 := by unfold y0; exact State.coldState_keeps (State.deviceLoss_keeps h)
  clear_value y0
  exact keepsMk h1 rfl

theorem State.coldTick_keeps {s0 : State} {s : _} (h : Keeps s0 s) : Keeps s0 (State.coldTick s) := by
  unfold State.coldTick
  split
  · rename_i e0 e1 e2
    exact pIte (Keeps s0) (State.coldState_keeps h) h
  · rename_i e3 e4
    split
    · rename_i e5 e6 e7
      exact pIte (Keeps s0) (State.coldEnd_keeps (keepsMk h rfl)) h
    · rename_i e8 e9
      exact h

theorem State.warmRequest_keeps {s0 : State} {s x1 : _} (h : Keeps s0 s) : Keeps s0 (State.warmRequest s x1) := by
  unfold State.warmRequest
  exact pIte (Keeps s0) h (keepsMk h rfl)

theorem State.dieRequest_keeps {s0 : State} {s x1 : _} (h : Keeps s0 s) : Keeps s0 (State.dieRequest s x1) := by
  unfold State.dieRequest
  exact pIte (Keeps s0) h (keepsMk h rfl)

theorem State.kprResetWrite_keeps {s0 : State} {s x1 x2 : _} (h : Keeps s0 s) : Keeps s0 (State.kprResetWrite s x1 x2)
    := by
  unfold State.kprResetWrite
  refine pIte (Keeps s0) (State.refuse_keeps h) ?_
  split
  · rename_i e0 e1
    exact State.coldRequest_keeps h
  · rename_i e2 e3
    exact State.warmRequest_keeps h
  · rename_i e4 e5
    extract_lets +onlyGivenNames y6
    clear_value y6
    exact pIte (Keeps s0) (State.dieRequest_keeps h) (State.send_keeps h)
  · rename_i e7 e8
    exact State.keeperReset_keeps h
  · rename_i e9 e10 e11 e12 e13
    exact h

theorem execKprResetCold_keeps {s0 : State} {x0 x1 s : _} (h : Keeps s0 s) : OutKeeps s0 (execKprResetCold x0 x1 s) :=
    by
  unfold execKprResetCold
  exact State.kprResetWrite_keeps h

theorem execKprResetWarm_keeps {s0 : State} {x0 x1 s : _} (h : Keeps s0 s) : OutKeeps s0 (execKprResetWarm x0 x1 s) :=
    by
  unfold execKprResetWarm
  exact State.kprResetWrite_keeps h

theorem execKprResetDie_keeps {s0 : State} {x0 x1 s : _} (h : Keeps s0 s) : OutKeeps s0 (execKprResetDie x0 x1 s) :=
    by
  unfold execKprResetDie
  exact State.kprResetWrite_keeps h

theorem execKprResetKeeper_keeps {s0 : State} {x0 x1 s : _} (h : Keeps s0 s) : OutKeeps s0 (execKprResetKeeper x0 x1
    s) := by
  unfold execKprResetKeeper
  exact State.kprResetWrite_keeps h

theorem execSrstWarmReboot_keeps {s0 : State} {x0 s : _} (h : Keeps s0 s) : OutKeeps s0 (execSrstWarmReboot x0 s) :=
    by
  unfold execSrstWarmReboot
  exact State.warmRequest_keeps h

theorem execSrstColdReboot_keeps {s0 : State} {x0 s : _} (h : Keeps s0 s) : OutKeeps s0 (execSrstColdReboot x0 s) :=
    by
  unfold execSrstColdReboot
  exact pIte (Keeps s0) (State.coldRequest_keeps h) h

theorem execWarmResetNFall_keeps {s0 : State} {s : _} (h : Keeps s0 s) : OutKeeps s0 (execWarmResetNFall s) := by
  unfold execWarmResetNFall
  extract_lets +onlyGivenNames y0 y1
  have h2 : (Keeps s0) y1 := by unfold y1; exact keepsMk h rfl
  clear_value y0 y1
  exact pIte (Keeps s0) (State.warmRequest_keeps h2) h2

theorem State.setHart_keeps {s0 : State} {s x1 x2 : _} (h : Keeps s0 s) : Keeps s0 (State.setHart s x1 x2) := by
  unfold State.setHart
  exact keepsMk h rfl

theorem State.stopHarts_keeps {s0 : State} {s x1 : _} (h : Keeps s0 s) : Keeps s0 (State.stopHarts s x1) := by
  unfold State.stopHarts
  extract_lets +onlyGivenNames y0 y1
  have h2 : (Keeps s0) y1 := by unfold y1; exact foldlP (Keeps s0) h (fun a3 a4 a5 => State.setHart_keeps a5)
  clear_value y0 y1
  exact keepsMk h2 rfl

theorem State.startHarts_keeps {s0 : State} {s x1 : _} (h : Keeps s0 s) : Keeps s0 (State.startHarts s x1) := by
  unfold State.startHarts
  extract_lets +onlyGivenNames y0
  clear_value y0
  exact pIte (Keeps s0) h (foldlP (Keeps s0) h (fun a1 a2 a3 => State.setHart_keeps a3))

theorem State.setPlots_keeps {s0 : State} {s : _} (h : Keeps s0 s) : Keeps s0 (State.setPlots s) := by
  unfold State.setPlots
  extract_lets +onlyGivenNames y0
  clear_value y0
  refine foldlP (Keeps s0) h (fun a1 a2 a3 => ?_)
  split
  rename_i e4 e5 e6
  refine pIte (Keeps s0) a3 ?_
  extract_lets +onlyGivenNames y7
  clear_value y7
  exact State.wr_keeps (State.zeroRange_keeps a3)

theorem State.loadCores_keeps {s0 : State} {s : _} (h : Keeps s0 s) : Keeps s0 (State.loadCores s) := by
  unfold State.loadCores
  extract_lets +onlyGivenNames y0 y1
  have h2 : ∀ b0 b1 b2, (Keeps s0) b0 → (Keeps s0) (y1 b0 b1 b2) := by
    unfold y1
    intro a3
    intro a4
    intro a5
    intro a6
    refine pIte (Keeps s0) a6 (foldlP (Keeps s0) a6 (fun a7 a8 a9 => ?_))
    extract_lets +onlyGivenNames y10
    clear_value y10
    exact pIte (Keeps s0) (State.gddrWrite_keeps a9) (State.store_keeps a9)
  clear_value y0 y1
  extract_lets +onlyGivenNames y11
  have h12 : (Keeps s0) y11 := by unfold y11; exact foldlP (Keeps s0) h (fun a13 a14 a15 => h2 _ _ _ a15)
  clear_value y11
  split
  · rename_i e16 e17 e18
    exact h2 _ _ _ h12
  · rename_i e19 e20
    exact h12

theorem State.warmFence_keeps {s0 : State} {s : _} (h : Keeps s0 s) : Keeps s0 (State.warmFence s) := by
  unfold State.warmFence
  exact foldlP (Keeps s0) h (fun a0 a1 a2 => pIte (Keeps s0) (State.fence_keeps a2) a2)

theorem State.warmRecord_keeps {s0 : State} {s x1 : _} (h : Keeps s0 s) : (OptP (Keeps s0)) (State.warmRecord s x1) :=
    by
  unfold State.warmRecord
  refine bindOptP (Keeps s0) (Keeps s0) ?_ (fun a0 a1 => State.discardMoves_keeps a1)
  split
  · rename_i e2 e3
    exact someP h
  · rename_i e4 e5 e6
    exact State.writeRecord_keeps h

theorem State.warmRecords_keeps {s0 : State} {s : _} (h : Keeps s0 s) : (OptP (Keeps s0)) (State.warmRecords s) := by
  unfold State.warmRecords
  exact foldlP (OptP (Keeps s0)) (someP h) (fun a0 a1 a2 => bindOptP (Keeps s0) (Keeps s0) a2 (fun a3 a4 =>
      State.warmRecord_keeps a4))

theorem State.closeBound_keeps {s0 : State} {s : _} (h : Keeps s0 s) : Keeps s0 (State.closeBound s) := by
  unfold State.closeBound
  extract_lets +onlyGivenNames y0
  clear_value y0
  exact foldlP (Keeps s0) h (fun a1 a2 a3 => State.loseSession_keeps (State.kmtPost_keeps a3))

theorem State.putHome_keeps {s0 : State} {s x1 x2 : _} (h : Keeps s0 s) : Keeps s0 (State.putHome s x1 x2) := by
  unfold State.putHome
  exact getDP (Keeps s0) (State.homePut_keeps h) (State.gddrPut_keeps h)

theorem State.flushCores_keeps {s0 : State} {s : _} (h : Keeps s0 s) : Keeps s0 (State.flushCores s) := by
  unfold State.flushCores
  extract_lets +onlyGivenNames y0
  have h1 : (Keeps s0) y0 := by unfold y0; exact foldlP (Keeps s0) h (fun a2 a3 a4 => State.putHome_keeps a4)
  clear_value y0
  extract_lets +onlyGivenNames y5
  have h6 : (Keeps s0) y5 := by
    unfold y5
    exact foldlP (Keeps s0) h1 (fun a7 a8 a9 => State.putHome_keeps (State.givenErrs_keeps a9))
  clear_value y5
  extract_lets +onlyGivenNames y10 y11 y12
  have h13 : (Keeps s0) y12 := by unfold y12; exact keepsMk h6 rfl
  clear_value y10 y11 y12
  exact foldlP (Keeps s0) h13 (fun a14 a15 a16 => getDP (Keeps s0) (State.partWrite_keeps a16) (State.gddrWrite_keeps
      a16))

theorem State.warmWriteBack_keeps {s0 : State} {s : _} (h : Keeps s0 s) : Keeps s0 (State.warmWriteBack s) := by
  unfold State.warmWriteBack
  exact foldlP (Keeps s0) h (fun a0 a1 a2 => pIte (Keeps s0) (State.writeBackLine_keeps a2) a2)

theorem State.homeOrdered_keeps {s0 : State} {s : _} (h : Keeps s0 s) : Keeps s0 (State.homeOrdered s) := by
  unfold State.homeOrdered
  exact foldlP (Keeps s0) h (fun a0 a1 a2 => State.wr_keeps (State.wr_keeps (State.wr_keeps a2)))

theorem State.invDrain_keeps {s0 : State} {s x1 : _} (h : Keeps s0 s) : Keeps s0 (State.invDrain s x1) := by
  induction x1 generalizing s
  · unfold State.invDrain
    exact h
  · rename_i e0 e1
    unfold State.invDrain
    exact e1 (State.invComplete_keeps h)

theorem State.warmClear_keeps {s0 : State} {s : _} (h : Keeps s0 s) : Keeps s0 (State.warmClear s) := by
  unfold State.warmClear
  extract_lets +onlyGivenNames y0 y1
  have h2 : (Keeps s0) y1 := by unfold y1; exact State.homeOrdered_keeps (keepsMk h rfl)
  clear_value y0 y1
  extract_lets +onlyGivenNames y3
  have h4 : (Keeps s0) y3 := by unfold y3; exact State.invDrain_keeps (State.dropTag_keeps h2)
  clear_value y3
  exact keepsMk h4 rfl

theorem State.warmRegisters_keeps {s0 : State} {s : _} (h : Keeps s0 s) : Keeps s0 (State.warmRegisters s) := by
  unfold State.warmRegisters
  extract_lets +onlyGivenNames y0 y1 y2
  have h3 : (Keeps s0) y2 := by unfold y2; exact keepsMk h rfl
  clear_value y0 y1 y2
  exact foldlP (Keeps s0) h3 (fun a4 a5 a6 => foldlP (Keeps s0) a6 (fun a7 a8 a9 => pIte (Keeps s0) (State.wr_keeps
      a9) a9))

theorem State.zeroWays_keeps {s0 : State} {s x1 : _} (h : Keeps s0 s) : Keeps s0 (State.zeroWays s x1) := by
  unfold State.zeroWays
  refine foldlP (Keeps s0) h (fun a0 a1 a2 => ?_)
  split
  rename_i e3 e4 e5
  extract_lets +onlyGivenNames y6
  clear_value y6
  exact State.zeroRange_keeps a2

theorem State.clearSnapshots_keeps {s0 : State} {s : _} (h : Keeps s0 s) : Keeps s0 (State.clearSnapshots s) := by
  unfold State.clearSnapshots
  refine foldlP (Keeps s0) h (fun a0 a1 a2 => ?_)
  extract_lets +onlyGivenNames y3
  clear_value y3
  exact State.zeroRange_keeps a2

theorem State.warmPavs_keeps {s0 : State} {s : _} (h : Keeps s0 s) : Keeps s0 (State.warmPavs s) := by
  unfold State.warmPavs
  extract_lets +onlyGivenNames y0
  have h1 : (Keeps s0) y0 := by unfold y0; exact foldlP (Keeps s0) h (fun a2 a3 a4 => State.clearPav_keeps a4)
  clear_value y0
  exact keepsMk h1 rfl

theorem State.warmStates_keeps {s0 : State} {s : _} (h : Keeps s0 s) : Keeps s0 (State.warmStates s) := by
  unfold State.warmStates
  exact foldlP (Keeps s0) h (fun a0 a1 a2 => pIte (Keeps s0) a2 (State.layUnavailable_keeps (State.wr_keeps
      (State.setPavState_keeps a2))))

theorem State.warmEnd_keeps {s0 : State} {s : _} (h : Keeps s0 s) : Keeps s0 (State.warmEnd s) := by
  unfold State.warmEnd
  extract_lets +onlyGivenNames y0 y1
  have h2 : (Keeps s0) y1 := by unfold y1; exact keepsMk h rfl
  clear_value y0 y1
  exact foldlP (Keeps s0) (State.loadCores_keeps (State.setPlots_keeps h2)) (fun a3 a4 a5 => State.startHarts_keeps
      a5)

theorem State.warmSteps_keeps {s0 : State} {s : _} (h : Keeps s0 s) : Keeps s0 (State.warmSteps s) := by
  unfold State.warmSteps
  extract_lets +onlyGivenNames y0
  have h1 : (Keeps s0) y0 := by
    unfold y0
    exact State.warmWriteBack_keeps (State.flushCores_keeps (foldlP (Keeps s0) (State.closeBound_keeps h) (fun a2 a3
        a4 => State.stopHarts_keeps a4)))
  clear_value y0
  extract_lets +onlyGivenNames y5
  have h6 : (Keeps s0) y5 := by
    unfold y5
    exact State.warmCommit_keeps (State.warmRegisters_keeps (State.warmClear_keeps (State.warmPavs_keeps h1)))
  clear_value y5
  extract_lets +onlyGivenNames y7
  have h8 : (Keeps s0) y7 := by
    unfold y7
    exact State.digestDue_keeps (State.warmStates_keeps (State.clearSnapshots_keeps (State.zeroWays_keeps h6)))
  clear_value y7
  extract_lets +onlyGivenNames y9 y10
  have h11 : (Keeps s0) y10 := by unfold y10; exact keepsMk h8 rfl
  clear_value y9 y10
  exact State.wr_keeps h11

theorem execWarmResetSequence_keeps {s0 : State} {s : _} (h : Keeps s0 s) : OutKeeps s0 (execWarmResetSequence s) :=
    by
  unfold execWarmResetSequence
  refine pIte (OutKeeps s0) h ?_
  extract_lets +onlyGivenNames y0
  have h1 : (Keeps s0) y0 := by unfold y0; exact State.warmFence_keeps h
  clear_value y0
  extract_lets +onlyGivenNames y2 y3
  have h4 : (Keeps s0) y3 := by unfold y3; exact keepsMk h1 rfl
  clear_value y2 y3
  refine pIte (OutKeeps s0) h4 ?_
  split
  · rename_i e5 e6
    exact h4
  · rename_i e7 e8 e9
    extract_lets +onlyGivenNames y10
    have h11 : (Keeps s0) y10 := by
      unfold y10
      exact State.warmSteps_keeps (outOf (OptP (Keeps s0)) e9 (State.warmRecords_keeps h4))
    clear_value y10
    exact pIte (Keeps s0) (State.warmEnd_keeps h11) (keepsMk h11 rfl)

theorem execWarmResetNRise_keeps {s0 : State} {s : _} (h : Keeps s0 s) : OutKeeps s0 (execWarmResetNRise s) := by
  unfold execWarmResetNRise
  extract_lets +onlyGivenNames y0 y1
  have h2 : (Keeps s0) y1 := by unfold y1; exact keepsMk h rfl
  clear_value y0 y1
  exact pIte (Keeps s0) (State.warmEnd_keeps h2) h2

theorem State.setDie_keeps {s0 : State} {s x1 x2 : _} (h : Keeps s0 s) : Keeps s0 (State.setDie s x1 x2) := by
  unfold State.setDie
  exact State.wr_keeps h

theorem State.retrainPorts_keeps {s0 : State} {s x1 : _} (h : Keeps s0 s) : Keeps s0 (State.retrainPorts s x1) := by
  unfold State.retrainPorts
  exact foldlP (Keeps s0) h (fun a0 a1 a2 => foldlP (Keeps s0) a2 (fun a3 a4 a5 => State.setD2dState_keeps
      (State.setD2d_keeps a5)))

theorem State.resetTensorDie_keeps {s0 : State} {s x1 : _} (h : Keeps s0 s) : Keeps s0 (State.resetTensorDie s x1) :=
    by
  unfold State.resetTensorDie
  extract_lets +onlyGivenNames y0
  have h1 : (Keeps s0) y0 := by unfold y0; exact foldlP (Keeps s0) h (fun a2 a3 a4 => State.writeBackLine_keeps a4)
  clear_value y0
  extract_lets +onlyGivenNames y5
  have h6 : (Keeps s0) y5 := by unfold y5; exact foldlP (Keeps s0) h1 (fun a7 a8 a9 => State.bedReset_keeps a9)
  clear_value y5
  extract_lets +onlyGivenNames y10 y11 y12
  have h13 : (Keeps s0) y12 := by unfold y12; exact keepsMk h6 rfl
  clear_value y10 y11 y12
  exact State.queryDies_keeps (State.retrainPorts_keeps h13)

theorem State.loseLine_keeps {s0 : State} {s x1 : _} (h : Keeps s0 s) : Keeps s0 (State.loseLine s x1) := by
  unfold State.loseLine
  extract_lets +onlyGivenNames y0 y1
  have h2 : (Keeps s0) y1 := by
    unfold y1
    split
    · rename_i e3 e4 e5 e6
      exact State.setPline_keeps h
    · rename_i e7 e8
      exact State.gddrPut_keeps h
  clear_value y0 y1
  exact State.alarm_keeps (State.bump_keeps h2)

theorem State.sweep_keeps {s0 : State} {s x1 : _} (h : Keeps s0 s) : Keeps s0 (State.sweep s x1) := by
  unfold State.sweep
  exact keepsMk h rfl

theorem State.resetCoreDie_keeps {s0 : State} {s x1 x2 : _} (h : Keeps s0 s) : Keeps s0 (State.resetCoreDie s x1 x2)
    := by
  unfold State.resetCoreDie
  extract_lets +onlyGivenNames y0
  have h1 : (Keeps s0) y0 := by unfold y0; exact State.stopHarts_keeps h
  clear_value y0
  extract_lets +onlyGivenNames y2 y3 y4
  have h5 : (Keeps s0) y4 := by unfold y4; exact foldlP (Keeps s0) h1 (fun a6 a7 a8 => State.putHome_keeps a8)
  clear_value y2 y3 y4
  extract_lets +onlyGivenNames y9
  have h10 : (Keeps s0) y9 := by
    unfold y9
    exact foldlP (Keeps s0) h5 (fun a11 a12 a13 => pIte (Keeps s0) (State.putHome_keeps a13) (State.loseLine_keeps
        a13))
  clear_value y9
  extract_lets +onlyGivenNames y14 y15 y16 y17
  have h18 : (Keeps s0) y17 := by unfold y17; exact keepsMk h10 rfl
  clear_value y14 y15 y16 y17
  exact State.startHarts_keeps (State.sweep_keeps h18)

theorem execDieReset_keeps {s0 : State} {x0 x1 s : _} (h : Keeps s0 s) : OutKeeps s0 (execDieReset x0 x1 s) := by
  unfold execDieReset
  refine pIte (OutKeeps s0) h ?_
  extract_lets +onlyGivenNames y0
  have h1 : (Keeps s0) y0 := by
    unfold y0
    exact pIte (Keeps s0) (foldlP (Keeps s0) h (fun a2 a3 a4 => State.needReset_keeps (State.fence_keeps a4))) h
  clear_value y0
  refine pIte (OutKeeps s0) h ?_
  extract_lets +onlyGivenNames y5 y6
  have h7 : (Keeps s0) y6 := by unfold y6; exact keepsMk h1 rfl
  clear_value y5 y6
  exact pIte (Keeps s0) (State.resetTensorDie_keeps h7) (State.resetCoreDie_keeps h7)

/-! ### Machine/Boot.lean -/

theorem State.bootLine_keeps {s0 : State} {s : _} (h : Keeps s0 s) : Keeps s0 (State.bootLine s) := by
  unfold State.bootLine
  exact State.send_keeps h

theorem State.bootStep_keeps {s0 : State} {s x1 : _} (h : Keeps s0 s) : Keeps s0 (State.bootStep s x1) := by
  unfold State.bootStep
  exact State.bootLine_keeps (State.wr_keeps h)

theorem State.bootStop_keeps {s0 : State} {s x1 : _} (h : Keeps s0 s) : Keeps s0 (State.bootStop s x1) := by
  unfold State.bootStop
  extract_lets +onlyGivenNames y0
  have h1 : (Keeps s0) y0 := by unfold y0; exact State.bootLine_keeps (State.wr_keeps h)
  clear_value y0
  exact keepsMk h1 rfl

theorem State.bootThen_keeps {s0 : State} {s x1 : _} (h : Keeps s0 s) (hf : ∀ b0, Keeps s0 b0 → Keeps s0 (x1 b0)) :
    Keeps s0 (State.bootThen s x1) := by
  unfold State.bootThen
  exact pIte (Keeps s0) h (hf _ h)

theorem State.bootRails_keeps {s0 : State} {s : _} (h : Keeps s0 s) : Keeps s0 (State.bootRails s) := by
  unfold State.bootRails
  refine foldlP (Keeps s0) h (fun a0 a1 a2 => ?_)
  extract_lets +onlyGivenNames y3 y4
  have h5 : (Keeps s0) y4 := by unfold y4; exact State.wr_keeps a2
  clear_value y3 y4
  exact pIte (Keeps s0) (State.send_keeps h5) h5

theorem State.bootOne_keeps {s0 : State} {s x1 : _} (h : Keeps s0 s) : Keeps s0 (State.bootOne s x1) := by
  unfold State.bootOne
  extract_lets +onlyGivenNames y0
  have h1 : (Keeps s0) y0 := by unfold y0; exact State.bootStep_keeps (State.wr_keeps (State.bootRails_keeps h))
  clear_value y0
  extract_lets +onlyGivenNames y2
  have h3 : (Keeps s0) y2 := by unfold y2; exact pIte (Keeps s0) h1 (State.checkerFault_keeps h1)
  clear_value y2
  refine pIte (Keeps s0) (State.bootStop_keeps h3) ?_
  extract_lets +onlyGivenNames y4 y5
  have h6 : (Keeps s0) y5 := by unfold y5; exact keepsMk h3 rfl
  clear_value y4 y5
  extract_lets +onlyGivenNames y7
  have h8 : (Keeps s0) y7 := by unfold y7; exact State.wr_keeps h6
  clear_value y7
  exact pIte (Keeps s0) h8 (State.bootStop_keeps h8)

theorem State.adopt_keeps {s0 : State} {s x1 x2 : _} (h : Keeps s0 s) : Keeps s0 (State.adopt s x1 x2) := by
  unfold State.adopt
  extract_lets +onlyGivenNames y0 y1 y2 y3 y4
  have h5 : (Keeps s0) y4 := by unfold y4; exact keepsMk h rfl
  clear_value y0 y1 y2 y3 y4
  extract_lets +onlyGivenNames y6 y7
  have h8 : (Keeps s0) y7 := by unfold y7; exact State.wr_keeps h5
  clear_value y6 y7
  extract_lets +onlyGivenNames y9
  have h10 : (Keeps s0) y9 := by unfold y9; exact State.wr_keeps (State.wr_keeps (State.wr_keeps h8))
  clear_value y9
  extract_lets +onlyGivenNames y11
  have h12 : (Keeps s0) y11 := by unfold y11; exact State.wr_keeps h10
  clear_value y11
  exact State.wr_keeps (State.wr_keeps h12)

theorem State.identify_keeps {s0 : State} {s : _} (h : Keeps s0 s) : Keeps s0 (State.identify s) := by
  unfold State.identify
  extract_lets +onlyGivenNames y0
  clear_value y0
  exact keepsMk h rfl

theorem State.bootTwo_keeps {s0 : State} {s : _} (h : Keeps s0 s) : Keeps s0 (State.bootTwo s) := by
  unfold State.bootTwo
  extract_lets +onlyGivenNames y0
  have h1 : (Keeps s0) y0 := by unfold y0; exact State.bootStep_keeps (State.bootStep_keeps h)
  clear_value y0
  extract_lets +onlyGivenNames y2
  have h3 : (Keeps s0) y2 := by unfold y2; exact State.identify_keeps h1
  clear_value y2
  split
  · rename_i e4 e5
    exact State.bootStop_keeps h3
  · rename_i e6 e7 e8
    exact State.wr_keeps (State.adopt_keeps h3)

theorem State.bootDies_keeps {s0 : State} {s x1 : _} (h : Keeps s0 s) : Keeps s0 (State.bootDies s x1) := by
  unfold State.bootDies
  extract_lets +onlyGivenNames y0
  have h1 : (Keeps s0) y0 := by
    unfold y0
    exact foldlP (Keeps s0) h (fun a2 a3 a4 => pIte (Keeps s0) (State.wr_keeps a4) (State.wr_keeps (State.wr_keeps
        (State.wr_keeps a4))))
  clear_value y0
  refine foldlP (Keeps s0) h1 (fun a5 a6 a7 => foldlP (Keeps s0) a7 (fun a8 a9 a10 => ?_))
  split
  rename_i e11 e12 e13
  extract_lets +onlyGivenNames y14 y15
  clear_value y14 y15
  exact State.wr_keeps (State.setD2dState_keeps a10)

theorem State.bootThree_keeps {s0 : State} {s x1 : _} (h : Keeps s0 s) : Keeps s0 (State.bootThree s x1) := by
  unfold State.bootThree
  extract_lets +onlyGivenNames y0
  have h1 : (Keeps s0) y0 := by unfold y0; exact State.bootDies_keeps (State.bootStep_keeps h)
  clear_value y0
  split
  · rename_i e2 e3 e4
    exact State.bootStop_keeps (State.deviceLoss_keeps h1)
  · rename_i e5 e6
    exact h1

theorem State.bootGddr_keeps {s0 : State} {s x1 : _} (h : Keeps s0 s) : Keeps s0 (State.bootGddr s x1) := by
  unfold State.bootGddr
  refine State.bootStep_keeps (foldlP (Keeps s0) (State.bootStep_keeps h) (fun a0 a1 a2 => ?_))
  split
  · rename_i e3 e4 e5 e6
    exact State.alarm_keeps (State.gddrAbsent_keeps a2)
  · rename_i e7 e8
    extract_lets +onlyGivenNames y9
    have h10 : (Keeps s0) y9 := by unfold y9; exact State.wr_keeps (State.wr_keeps a2)
    clear_value y9
    exact State.trainTemps_keeps h10

theorem State.bootTrellis_keeps {s0 : State} {s x1 : _} (h : Keeps s0 s) : (FstP (Keeps s0)) (State.bootTrellis s x1)
    := by
  unfold State.bootTrellis
  extract_lets +onlyGivenNames y0 y1
  clear_value y0 y1
  exact pIte (FstP (Keeps s0)) (fstMk (State.setTrl_keeps (State.trlReason_keeps (State.wr_keeps
      (State.commitDevice_keeps h))))) (fstMk (State.trlFail_keeps h))

theorem State.bootBase_keeps {s0 : State} {s : _} (h : Keeps s0 s) : Keeps s0 (State.bootBase s) := by
  unfold State.bootBase
  extract_lets +onlyGivenNames y0
  have h1 : (Keeps s0) y0 := by unfold y0; exact State.bootStep_keeps h
  clear_value y0
  extract_lets +onlyGivenNames y2
  clear_value y2
  split
  · rename_i e3 e4 e5
    exact State.warmStates_keeps (outOf (FstP (Keeps s0)) e5 (State.bootTrellis_keeps h1))
  · rename_i e6 e7 e8 e9 e10
    split
    · rename_i e11 e12 e13
      exact State.warmStates_keeps (outOf (FstP (Keeps s0)) e13 (State.bootTrellis_keeps (State.wr_keeps (outOf (FstP
          (Keeps s0)) e10 (State.bootTrellis_keeps h1)))))
    · rename_i e14 e15 e16 e17 e18
      exact outOf (FstP (Keeps s0)) e18 (State.bootTrellis_keeps (State.wr_keeps (outOf (FstP (Keeps s0)) e10
          (State.bootTrellis_keeps h1))))

theorem State.bootLast_keeps {s0 : State} {s : _} (h : Keeps s0 s) : Keeps s0 (State.bootLast s) := by
  unfold State.bootLast
  extract_lets +onlyGivenNames y0
  have h1 : (Keeps s0) y0 := by
    unfold y0
    exact State.bootStep_keeps (foldlP (Keeps s0) (State.loadCores_keeps (State.setPlots_keeps (State.bootStep_keeps
        h))) (fun a2 a3 a4 => State.startHarts_keeps a4))
  clear_value y0
  exact keepsMk h1 rfl

theorem State.bootRecovery_keeps {s0 : State} {s : _} (h : Keeps s0 s) : Keeps s0 (State.bootRecovery s) := by
  unfold State.bootRecovery
  exact keepsMk h rfl

theorem State.boot_keeps {s0 : State} {s x1 : _} (h : Keeps s0 s) : Keeps s0 (State.boot s x1) := by
  unfold State.boot
  extract_lets +onlyGivenNames y0
  have h1 : (Keeps s0) y0 := by unfold y0; exact State.bootOne_keeps h
  clear_value y0
  exact State.bootThen_keeps h1 (fun a2 a3 => pIte (Keeps s0) (State.bootRecovery_keeps a3) (State.bootThen_keeps
      (State.bootTwo_keeps a3) (fun a4 a5 => State.bootThen_keeps (State.bootThree_keeps a5) (fun a6 a7 =>
      State.bootLast_keeps (State.bootBase_keeps (State.bootGddr_keeps a7))))))

theorem State.powered_keeps {s0 : State} {s : _} (h : Keeps s0 s) : Keeps s0 (State.powered s) := by
  unfold State.powered
  extract_lets +onlyGivenNames y0 y1 y2
  have h3 : (Keeps s0) y2 := by unfold y2; exact keepsMk h rfl
  clear_value y0 y1 y2
  exact State.wr_keeps h3

theorem execColdBoot_keeps {s0 : State} {x0 s : _} (h : Keeps s0 s) : OutKeeps s0 (execColdBoot x0 s) := by
  unfold execColdBoot
  extract_lets +onlyGivenNames y0
  have h1 : (Keeps s0) y0 := by unfold y0; exact pIte (Keeps s0) (State.coldState_keeps h) h
  clear_value y0
  exact pIte (OutKeeps s0) h1 (State.boot_keeps (State.powered_keeps h1))

theorem State.recoverBundle_keeps {s0 : State} {s x1 : _} (h : Keeps s0 s) : Keeps s0 (State.recoverBundle s x1) := by
  unfold State.recoverBundle
  split
  rename_i e0 e1 e2 e3
  exact State.writeDir_keeps (State.flashWrite_keeps h)

theorem execUartRecovery_keeps {s0 : State} {x0 s : _} (h : Keeps s0 s) : OutKeeps s0 (execUartRecovery x0 s) := by
  unfold execUartRecovery
  exact pIte (OutKeeps s0) h (pIte (OutKeeps s0) (State.send_keeps (State.recoverBundle_keeps h)) (State.send_keeps
      h))

/-! ### Machine/Keeper.lean -/

theorem kStatus_keeps {s0 : State} {x0 : _}  : (KResKeeps s0) (kStatus x0) := by
  unfold kStatus
  exact kresMk (fun a0 a1 => a1)

theorem kDo_keeps {s0 : State} {x0 : _} (hf : ∀ b0, Keeps s0 b0 → Keeps s0 (x0 b0)) : (KResKeeps s0) (kDo x0) := by
  unfold kDo
  exact kresMk (fun a0 a1 => hf _ a1)

theorem State.assignId_keeps {s0 : State} {s x1 : _} (h : Keeps s0 s) : (KResKeeps s0) (State.assignId s x1) := by
  unfold State.assignId
  exact pIte (KResKeeps s0) (kStatus_keeps ) (kDo_keeps (fun a0 a1 => foldlP (Keeps s0) (State.wr_keeps
      (State.wr_keeps a1)) (fun a2 a3 a4 => State.recheck_keeps a4)))

theorem State.epochFloor_keeps {s0 : State} {s x1 : _} (h : Keeps s0 s) : Keeps s0 (State.epochFloor s x1) := by
  unfold State.epochFloor
  exact pIte (Keeps s0) (State.wr_keeps h) h

theorem State.flashActivate_keeps {s0 : State} {s x1 : _} (h : Keeps s0 s) : (KResKeeps s0) (State.flashActivate s x1)
    := by
  unfold State.flashActivate
  split
  rename_i e0 e1 e2 e3
  refine pIte (KResKeeps s0) (pIte (KResKeeps s0) (kDo_keeps (fun a4 a5 => State.writeDir_keeps a5)) (kStatus_keeps ))
      (pIte (KResKeeps s0) ?_ (kStatus_keeps ))
  extract_lets +onlyGivenNames y6 y7
  clear_value y6 y7
  exact pIte (KResKeeps s0) (kDo_keeps (fun a8 a9 => State.writeDir_keeps a9)) (kStatus_keeps )

theorem State.svnCommit_keeps {s0 : State} {s : _} (h : Keeps s0 s) : Keeps s0 (State.svnCommit s) := by
  unfold State.svnCommit
  extract_lets +onlyGivenNames y0
  clear_value y0
  refine pIte (Keeps s0) h ?_
  extract_lets +onlyGivenNames y1
  have h2 : (Keeps s0) y1 := by unfold y1; exact State.wr_keeps h
  clear_value y1
  exact keepsMk h2 rfl

theorem State.debugUnlock_keeps {s0 : State} {s x1 : _} (h : Keeps s0 s) : (KResKeeps s0) (State.debugUnlock s x1) :=
    by
  unfold State.debugUnlock
  exact pIte (KResKeeps s0) (kDo_keeps (fun a0 a1 => State.wr_keeps a1)) (kStatus_keeps )

theorem State.subscribe_keeps {s0 : State} {s x1 : _} (h : Keeps s0 s) : Keeps s0 (State.subscribe s x1) := by
  unfold State.subscribe
  exact keepsMk h rfl

theorem State.kOperate_keeps {s0 : State} {s x1 x2 : _} (h : Keeps s0 s) : (KResKeeps s0) (State.kOperate s x1 x2) :=
    by
  unfold State.kOperate
  extract_lets +onlyGivenNames y0
  clear_value y0
  refine pIte (KResKeeps s0) (kStatus_keeps ) (pIte (KResKeeps s0) (kStatus_keeps ) ?_)
  split
  · rename_i e1
    exact kresMk (fun a2 a3 => a3)
  · rename_i e4
    exact kDo_keeps (fun a5 a6 => State.warmRequest_keeps a6)
  · rename_i e7
    exact kDo_keeps (fun a8 a9 => State.coldRequest_keeps a9)
  · rename_i e10
    exact pIte (KResKeeps s0) (kDo_keeps (fun a11 a12 => State.dieRequest_keeps a12)) (kStatus_keeps )
  · rename_i e13
    exact kDo_keeps (fun a14 a15 => State.keeperReset_keeps a15)
  · rename_i e16
    exact State.assignId_keeps h
  · rename_i e17
    exact kDo_keeps (fun a18 a19 => State.epochFloor_keeps a19)
  · rename_i e20
    exact pIte (KResKeeps s0) (kDo_keeps (fun a21 a22 => State.flashWrite_keeps a22)) (kStatus_keeps )
  · rename_i e23
    exact State.flashActivate_keeps h
  · rename_i e24
    exact kDo_keeps (fun a25 a26 => State.svnCommit_keeps a26)
  · rename_i e27
    exact kDo_keeps (fun a28 a29 => State.deviceLoss_keeps a29)
  · rename_i e30
    exact kDo_keeps (fun a31 a32 => State.subscribe_keeps a32)
  · rename_i e33
    exact State.debugUnlock_keeps h
  · rename_i e34 e35 e36 e37 e38 e39 e40 e41 e42 e43 e44 e45 e46 e47
    exact kStatus_keeps 

theorem State.setKqueue_keeps {s0 : State} {s x1 : _} (h : Keeps s0 s) : Keeps s0 (State.setKqueue s x1) := by
  unfold State.setKqueue
  exact keepsMk h rfl

theorem State.kRespond_keeps {s0 : State} {s x1 x2 : _} (h : Keeps s0 s) : Keeps s0 (State.kRespond s x1 x2) := by
  unfold State.kRespond
  exact State.kmtPost_keeps h

theorem State.mbxAnswer_keeps {s0 : State} {s x1 x2 : _} (h : Keeps s0 s) : (OptP (Keeps s0)) (State.mbxAnswer s x1
    x2) := by
  unfold State.mbxAnswer
  extract_lets +onlyGivenNames y0
  have h1 : ∀ b0, (Keeps s0) b0 → (Keeps s0) (y0 b0) := by
    unfold y0
    intro a2
    intro a3
    exact State.aplicSource_keeps (State.wr_keeps a3)
  clear_value y0
  split
  · rename_i e4 e5
    exact True.intro
  · rename_i e6 e7 e8 e9
    exact someP (h1 _ h)
  · rename_i e10 e11 e12 e13
    exact someP (h1 _ (outOf (MemResKeeps s0) e13 (State.writeAs_keeps h)))

theorem State.kFetch_keeps {s0 : State} {s x1 : _} (h : Keeps s0 s) : (OptP (SndP (SndP (SndP (Keeps s0)))))
    (State.kFetch s x1) := by
  unfold State.kFetch
  split
  · rename_i e0 e1 e2
    exact someP (sndMk (sndMk (sndMk h)))
  · rename_i e3 e4 e5
    split
    · rename_i e6 e7
      exact True.intro
    · rename_i e8 e9 e10 e11
      exact someP (sndMk (sndMk (sndMk h)))
    · rename_i e12 e13 e14 e15
      exact someP (sndMk (sndMk (sndMk (outOf (MemResKeeps s0) e15 (State.readAs_keeps h)))))

theorem State.kFinish_keeps {s0 : State} {s x1 x2 x3 x4 : _} (h : Keeps s0 s) (h1 : (KResKeeps s0) x4) : (OptP (Keeps
    s0)) (State.kFinish s x1 x2 x3 x4) := by
  unfold State.kFinish
  extract_lets +onlyGivenNames y0 y1
  have h2 : (Keeps s0) y1 := by unfold y1; exact State.setKqueue_keeps h
  clear_value y0 y1
  split
  · rename_i e3 e4 e5
    exact someP (kresAfter h1 (State.kRespond_keeps h2))
  · rename_i e6 e7 e8
    exact mapOptP (Keeps s0) (Keeps s0) (State.mbxAnswer_keeps h2) (fun a9 a10 => kresAfter h1 a10)

theorem State.kServe_keeps {s0 : State} {s x1 : _} (h : Keeps s0 s) : Keeps s0 (State.kServe s x1) := by
  unfold State.kServe
  split
  · rename_i e0 e1
    exact h
  · rename_i e2 e3 e4 e5
    refine pIte (Keeps s0) h ?_
    split
    · rename_i e6 e7
      exact h
    · rename_i e8 e9 e10 e11 e12 e13
      refine pIte (Keeps s0) h ?_
      extract_lets +onlyGivenNames y14
      have h15 : (KResKeeps s0) y14 := by
        unfold y14
        exact pIte (KResKeeps s0) (State.kOperate_keeps (outOf (OptP (SndP (SndP (SndP (Keeps s0))))) e13
            (State.kFetch_keeps h))) (kStatus_keeps )
      clear_value y14
      exact getDP (Keeps s0) (State.kFinish_keeps (outOf (OptP (SndP (SndP (SndP (Keeps s0))))) e13
          (State.kFetch_keeps h)) h15) h

theorem State.kArrive_keeps {s0 : State} {s x1 x2 : _} (h : Keeps s0 s) : Keeps s0 (State.kArrive s x1 x2) := by
  unfold State.kArrive
  split
  · rename_i e0 e1
    exact State.bump_keeps h
  · rename_i e2 e3 e4
    refine pIte (Keeps s0) (State.bump_keeps h) ?_
    extract_lets +onlyGivenNames y5
    have h6 : (Keeps s0) y5 := by unfold y5; exact State.setSession_keeps h
    clear_value y5
    exact pIte (Keeps s0) (State.bump_keeps h6) (pIte (Keeps s0) (State.kRespond_keeps h6) (pIte (Keeps s0)
        (State.kRespond_keeps h6) (State.setKqueue_keeps h6)))

theorem State.kRow_keeps {s0 : State} {s x1 x2 : _} (h : Keeps s0 s) : OutKeeps s0 (State.kRow s x1 x2) := by
  unfold State.kRow
  split
  · rename_i e0
    exact State.kServe_keeps h
  · rename_i e1 e2 e3
    extract_lets +onlyGivenNames y4
    have h5 : (Keeps s0) y4 := by unfold y4; exact State.kArrive_keeps h
    clear_value y4
    exact pIte (Keeps s0) (State.kServe_keeps h5) h5

theorem execReqInfo_keeps {s0 : State} {x0 s : _} (h : Keeps s0 s) : OutKeeps s0 (execReqInfo x0 s) := by
  unfold execReqInfo
  exact State.kRow_keeps h

theorem execReqWarmReset_keeps {s0 : State} {x0 s : _} (h : Keeps s0 s) : OutKeeps s0 (execReqWarmReset x0 s) := by
  unfold execReqWarmReset
  exact State.kRow_keeps h

theorem execReqColdReset_keeps {s0 : State} {x0 s : _} (h : Keeps s0 s) : OutKeeps s0 (execReqColdReset x0 s) := by
  unfold execReqColdReset
  exact State.kRow_keeps h

theorem execReqDieReset_keeps {s0 : State} {x0 s : _} (h : Keeps s0 s) : OutKeeps s0 (execReqDieReset x0 s) := by
  unfold execReqDieReset
  exact State.kRow_keeps h

theorem execReqKeeperReset_keeps {s0 : State} {x0 s : _} (h : Keeps s0 s) : OutKeeps s0 (execReqKeeperReset x0 s) :=
    by
  unfold execReqKeeperReset
  exact State.kRow_keeps h

theorem execReqAssignId_keeps {s0 : State} {x0 s : _} (h : Keeps s0 s) : OutKeeps s0 (execReqAssignId x0 s) := by
  unfold execReqAssignId
  exact State.kRow_keeps h

theorem execReqEpochFloor_keeps {s0 : State} {x0 s : _} (h : Keeps s0 s) : OutKeeps s0 (execReqEpochFloor x0 s) := by
  unfold execReqEpochFloor
  exact State.kRow_keeps h

theorem execReqFlashWrite_keeps {s0 : State} {x0 s : _} (h : Keeps s0 s) : OutKeeps s0 (execReqFlashWrite x0 s) := by
  unfold execReqFlashWrite
  exact State.kRow_keeps h

theorem execReqFlashActivate_keeps {s0 : State} {x0 s : _} (h : Keeps s0 s) : OutKeeps s0 (execReqFlashActivate x0 s)
    := by
  unfold execReqFlashActivate
  exact State.kRow_keeps h

theorem execReqSvnCommit_keeps {s0 : State} {x0 s : _} (h : Keeps s0 s) : OutKeeps s0 (execReqSvnCommit x0 s) := by
  unfold execReqSvnCommit
  exact State.kRow_keeps h

theorem execReqDeviceLoss_keeps {s0 : State} {x0 s : _} (h : Keeps s0 s) : OutKeeps s0 (execReqDeviceLoss x0 s) := by
  unfold execReqDeviceLoss
  exact State.kRow_keeps h

theorem execReqSubscribe_keeps {s0 : State} {x0 s : _} (h : Keeps s0 s) : OutKeeps s0 (execReqSubscribe x0 s) := by
  unfold execReqSubscribe
  exact State.kRow_keeps h

theorem execReqDebugUnlock_keeps {s0 : State} {x0 s : _} (h : Keeps s0 s) : OutKeeps s0 (execReqDebugUnlock x0 s) :=
    by
  unfold execReqDebugUnlock
  exact State.kRow_keeps h

theorem State.mbxWrite_keeps {s0 : State} {s x1 : _} (h : Keeps s0 s) : (SndP (Keeps s0)) (State.mbxWrite s x1) := by
  unfold State.mbxWrite
  extract_lets +onlyGivenNames y0 y1
  exact pIte (SndP (Keeps s0)) (sndMk (State.bump_keeps h)) (sndMk (State.wr_keeps (State.setKqueue_keeps h)))

theorem execKprMbxSubmit_keeps {s0 : State} {x0 x1 s : _} (h : Keeps s0 s) : OutKeeps s0 (execKprMbxSubmit x0 x1 s) :=
    by
  unfold execKprMbxSubmit
  exact pIte (Keeps s0) (State.mbxWrite_keeps h) (State.refuse_keeps h)

/-! ### Machine/Spdm.lean -/

theorem State.setSpdm_keeps {s0 : State} {s x1 : _} (h : Keeps s0 s) : Keeps s0 (State.setSpdm s x1) := by
  unfold State.setSpdm
  exact keepsMk h rfl

theorem State.spdmTake_keeps {s0 : State} {s x1 : _} (h : Keeps s0 s) : (OptP (Keeps s0)) (State.spdmTake s x1) := by
  unfold State.spdmTake
  split
  · rename_i e0
    exact someP h
  · rename_i e1 e2
    split
    · rename_i e3 e4
      exact True.intro
    · rename_i e5 e6 e7
      exact pIte (OptP (Keeps s0)) True.intro (someP (State.setSession_keeps h))

theorem State.spdmSend_keeps {s0 : State} {s x1 x2 : _} (h : Keeps s0 s) : Keeps s0 (State.spdmSend s x1 x2) := by
  unfold State.spdmSend
  split
  · rename_i e0
    exact State.send_keeps h
  · rename_i e1 e2
    exact State.kmtPost_keeps h

theorem State.spdmRow_keeps {s0 : State} {s x1 x2 x3 x4 x5 x6 : _} (h : Keeps s0 s) (hf : ∀ b0, Keeps s0 b0 → (SndP
    (Keeps s0)) (x6 b0)) : OutKeeps s0 (State.spdmRow s x1 x2 x3 x4 x5 x6) := by
  unfold State.spdmRow
  refine pIte (OutKeeps s0) h ?_
  split
  · rename_i e0 e1
    exact h
  · rename_i e2 e3 e4
    refine pIte (OutKeeps s0) (State.spdmSend_keeps (outOf (OptP (Keeps s0)) e4 (State.spdmTake_keeps h))) (pIte
        (OutKeeps s0) (State.spdmSend_keeps (outOf (OptP (Keeps s0)) e4 (State.spdmTake_keeps h))) ?_)
    split
    rename_i e5 e6 e7 e8
    exact State.spdmSend_keeps (outOf (SndP (Keeps s0)) e8 (hf _ (outOf (OptP (Keeps s0)) e4 (State.spdmTake_keeps
        h))))

theorem State.note_keeps {s0 : State} {s x1 x2 : _} (h : Keeps s0 s) : Keeps s0 (State.note s x1 x2) := by
  unfold State.note
  exact State.setSpdm_keeps h

theorem State.versionReply_keeps {s0 : State} {s x1 : _} (h : Keeps s0 s) : (SndP (Keeps s0)) (State.versionReply s
    x1) := by
  unfold State.versionReply
  extract_lets +onlyGivenNames y0
  clear_value y0
  exact sndMk (State.setSpdm_keeps h)

theorem execSpdmGetVersion_keeps {s0 : State} {x0 x1 s : _} (h : Keeps s0 s) : OutKeeps s0 (execSpdmGetVersion x0 x1
    s) := by
  unfold execSpdmGetVersion
  exact State.spdmRow_keeps h (fun a0 a1 => State.versionReply_keeps a1)

theorem State.capsReply_keeps {s0 : State} {s x1 : _} (h : Keeps s0 s) : (SndP (Keeps s0)) (State.capsReply s x1) :=
    by
  unfold State.capsReply
  split
  rename_i e0 e1 e2 e3
  split
  rename_i e4 e5 e6 e7
  extract_lets +onlyGivenNames y8
  clear_value y8
  exact sndMk (State.setSpdm_keeps (State.note_keeps (outOf (SndP (Keeps s0)) e7 (State.free_keeps (outOf (SndP (Keeps
      s0)) e3 (State.free_keeps h))))))

theorem execSpdmGetCapabilities_keeps {s0 : State} {x0 x1 s : _} (h : Keeps s0 s) : OutKeeps s0
    (execSpdmGetCapabilities x0 x1 s) := by
  unfold execSpdmGetCapabilities
  exact State.spdmRow_keeps h (fun a0 a1 => pIte (SndP (Keeps s0)) (sndMk a1) (State.capsReply_keeps a1))

theorem State.algsReply_keeps {s0 : State} {s x1 : _} (h : Keeps s0 s) : (SndP (Keeps s0)) (State.algsReply s x1) :=
    by
  unfold State.algsReply
  extract_lets +onlyGivenNames y0
  clear_value y0
  exact sndMk (State.setSpdm_keeps (State.note_keeps h))

theorem execSpdmNegotiateAlgorithms_keeps {s0 : State} {x0 x1 s : _} (h : Keeps s0 s) : OutKeeps s0
    (execSpdmNegotiateAlgorithms x0 x1 s) := by
  unfold execSpdmNegotiateAlgorithms
  exact State.spdmRow_keeps h (fun a0 a1 => pIte (SndP (Keeps s0)) (sndMk a1) (pIte (SndP (Keeps s0)) (sndMk a1)
      (State.algsReply_keeps a1)))

theorem State.digestsReply_keeps {s0 : State} {s x1 : _} (h : Keeps s0 s) : (SndP (Keeps s0)) (State.digestsReply s
    x1) := by
  unfold State.digestsReply
  extract_lets +onlyGivenNames y0
  clear_value y0
  exact sndMk (State.note_keeps h)

theorem execSpdmGetDigests_keeps {s0 : State} {x0 x1 s : _} (h : Keeps s0 s) : OutKeeps s0 (execSpdmGetDigests x0 x1
    s) := by
  unfold execSpdmGetDigests
  exact State.spdmRow_keeps h (fun a0 a1 => State.digestsReply_keeps a1)

theorem State.certReply_keeps {s0 : State} {s x1 : _} (h : Keeps s0 s) : (SndP (Keeps s0)) (State.certReply s x1) :=
    by
  unfold State.certReply
  extract_lets +onlyGivenNames y0 y1 y2 y3
  clear_value y0 y1 y2 y3
  exact sndMk (State.note_keeps h)

theorem execSpdmGetCertificate_keeps {s0 : State} {x0 x1 s : _} (h : Keeps s0 s) : OutKeeps s0 (execSpdmGetCertificate
    x0 x1 s) := by
  unfold execSpdmGetCertificate
  exact State.spdmRow_keeps h (fun a0 a1 => pIte (SndP (Keeps s0)) (sndMk a1) (State.certReply_keeps a1))

theorem State.measReply_keeps {s0 : State} {s x1 : _} (h : Keeps s0 s) : (SndP (Keeps s0)) (State.measReply s x1) :=
    by
  unfold State.measReply
  extract_lets +onlyGivenNames y0 y1 y2
  clear_value y0 y1 y2
  split
  rename_i e3 e4 e5 e6
  extract_lets +onlyGivenNames y7
  clear_value y7
  exact sndMk (outOf (SndP (Keeps s0)) e6 (State.freeBytes_keeps h))

theorem execSpdmGetMeasurements_keeps {s0 : State} {x0 x1 s : _} (h : Keeps s0 s) : OutKeeps s0
    (execSpdmGetMeasurements x0 x1 s) := by
  unfold execSpdmGetMeasurements
  exact State.spdmRow_keeps h (fun a0 a1 => pIte (SndP (Keeps s0)) (sndMk a1) (State.measReply_keeps a1))

theorem State.challengeReply_keeps {s0 : State} {s x1 : _} (h : Keeps s0 s) : (SndP (Keeps s0)) (State.challengeReply
    s x1) := by
  unfold State.challengeReply
  split
  rename_i e0 e1 e2 e3
  extract_lets +onlyGivenNames y4
  clear_value y4
  exact sndMk (outOf (SndP (Keeps s0)) e3 (State.freeBytes_keeps h))

theorem execSpdmChallenge_keeps {s0 : State} {x0 x1 s : _} (h : Keeps s0 s) : OutKeeps s0 (execSpdmChallenge x0 x1 s)
    := by
  unfold execSpdmChallenge
  exact State.spdmRow_keeps h (fun a0 a1 => pIte (SndP (Keeps s0)) (sndMk a1) (State.challengeReply_keeps a1))

theorem State.keyReply_keeps {s0 : State} {s x1 : _} (h : Keeps s0 s) : (SndP (Keeps s0)) (State.keyReply s x1) := by
  unfold State.keyReply
  split
  rename_i e0 e1 e2 e3
  split
  rename_i e4 e5 e6 e7
  split
  rename_i e8 e9 e10 e11
  split
  rename_i e12 e13 e14 e15
  extract_lets +onlyGivenNames y16 y17 y18 y19 y20 y21 y22 y23
  clear_value y16 y17 y18 y19 y20 y21 y22 y23
  exact sndMk (State.setSpdm_keeps (outOf (SndP (Keeps s0)) e15 (State.freeBytes_keeps (outOf (SndP (Keeps s0)) e11
      (State.freeBytes_keeps (outOf (SndP (Keeps s0)) e7 (State.free_keeps (outOf (SndP (Keeps s0)) e3
      (State.free_keeps h)))))))))

theorem execSpdmKeyExchange_keeps {s0 : State} {x0 x1 s : _} (h : Keeps s0 s) : OutKeeps s0 (execSpdmKeyExchange x0 x1
    s) := by
  unfold execSpdmKeyExchange
  exact State.spdmRow_keeps h (fun a0 a1 => pIte (SndP (Keeps s0)) (sndMk a1) (State.keyReply_keeps a1))

theorem execSpdmFinish_keeps {s0 : State} {x0 x1 s : _} (h : Keeps s0 s) : OutKeeps s0 (execSpdmFinish x0 x1 s) := by
  unfold execSpdmFinish
  refine State.spdmRow_keeps h (fun a0 a1 => ?_)
  extract_lets +onlyGivenNames y2
  clear_value y2
  exact pIte (SndP (Keeps s0)) (sndMk a1) (pIte (SndP (Keeps s0)) (sndMk a1) (sndMk (State.setSpdm_keeps a1)))

theorem State.inSpdm_keeps {s0 : State} {s x1 x2 : _} (h : Keeps s0 s) : (SndP (Keeps s0)) (State.inSpdm s x1 x2) :=
    by
  unfold State.inSpdm
  exact pIte (SndP (Keeps s0)) (sndMk (State.setSpdm_keeps h)) (sndMk h)

theorem execSpdmHeartbeat_keeps {s0 : State} {x0 x1 s : _} (h : Keeps s0 s) : OutKeeps s0 (execSpdmHeartbeat x0 x1 s)
    := by
  unfold execSpdmHeartbeat
  exact State.spdmRow_keeps h (fun a0 a1 => State.inSpdm_keeps a1)

theorem execSpdmKeyUpdate_keeps {s0 : State} {x0 x1 s : _} (h : Keeps s0 s) : OutKeeps s0 (execSpdmKeyUpdate x0 x1 s)
    := by
  unfold execSpdmKeyUpdate
  refine State.spdmRow_keeps h (fun a0 a1 => ?_)
  extract_lets +onlyGivenNames y2 y3
  clear_value y2 y3
  exact pIte (SndP (Keeps s0)) (sndMk a1) (State.inSpdm_keeps a1)

theorem execSpdmEndSession_keeps {s0 : State} {x0 x1 s : _} (h : Keeps s0 s) : OutKeeps s0 (execSpdmEndSession x0 x1
    s) := by
  unfold execSpdmEndSession
  exact State.spdmRow_keeps h (fun a0 a1 => State.inSpdm_keeps a1)

/-! ### Machine/Jtag.lean -/

theorem State.setJtag_keeps {s0 : State} {s x1 : _} (h : Keeps s0 s) : Keeps s0 (State.setJtag s x1) := by
  unfold State.setJtag
  exact keepsMk h rfl

theorem State.jtagIr_keeps {s0 : State} {s x1 : _} (h : Keeps s0 s) : Keeps s0 (State.jtagIr s x1) := by
  unfold State.jtagIr
  exact State.setJtag_keeps h

theorem State.bypass_keeps {s0 : State} {s : _} (h : Keeps s0 s) : Keeps s0 (State.bypass s) := by
  unfold State.bypass
  exact State.send_keeps h

theorem execJtagBypass_keeps {s0 : State} {s : _} (h : Keeps s0 s) : OutKeeps s0 (execJtagBypass s) := by
  unfold execJtagBypass
  exact State.bypass_keeps (State.jtagIr_keeps h)

theorem execJtagIdcode_keeps {s0 : State} {s : _} (h : Keeps s0 s) : OutKeeps s0 (execJtagIdcode s) := by
  unfold execJtagIdcode
  exact State.send_keeps (State.jtagIr_keeps h)

theorem execJtagSamplePreload_keeps {s0 : State} {x0 s : _} (h : Keeps s0 s) : OutKeeps s0 (execJtagSamplePreload x0
    s) := by
  unfold execJtagSamplePreload
  extract_lets +onlyGivenNames y0
  have h1 : (Keeps s0) y0 := by unfold y0; exact State.jtagIr_keeps h
  clear_value y0
  extract_lets +onlyGivenNames y2
  clear_value y2
  exact State.send_keeps (State.setJtag_keeps h1)

theorem State.jtagDrive_keeps {s0 : State} {s x1 x2 x3 : _} (h : Keeps s0 s) (hf : ∀ b0, Keeps s0 b0 → Keeps s0 (x3
    b0)) : Keeps s0 (State.jtagDrive s x1 x2 x3) := by
  unfold State.jtagDrive
  extract_lets +onlyGivenNames y0
  have h1 : (Keeps s0) y0 := by unfold y0; exact State.jtagIr_keeps h
  clear_value y0
  exact pIte (Keeps s0) (hf _ (State.setJtag_keeps h1)) (State.bypass_keeps h1)

theorem execJtagExtest_keeps {s0 : State} {s : _} (h : Keeps s0 s) : OutKeeps s0 (execJtagExtest s) := by
  unfold execJtagExtest
  exact State.jtagDrive_keeps h (fun a0 a1 => State.send_keeps a1)

theorem execJtagClamp_keeps {s0 : State} {s : _} (h : Keeps s0 s) : OutKeeps s0 (execJtagClamp s) := by
  unfold execJtagClamp
  exact State.jtagDrive_keeps h (fun a0 a1 => State.bypass_keeps a1)

theorem execJtagHighz_keeps {s0 : State} {s : _} (h : Keeps s0 s) : OutKeeps s0 (execJtagHighz s) := by
  unfold execJtagHighz
  exact State.jtagDrive_keeps h (fun a0 a1 => State.bypass_keeps a1)

theorem execJtagDtmcs_keeps {s0 : State} {x0 s : _} (h : Keeps s0 s) : OutKeeps s0 (execJtagDtmcs x0 s) := by
  unfold execJtagDtmcs
  extract_lets +onlyGivenNames y0
  have h1 : (Keeps s0) y0 := by unfold y0; exact State.jtagIr_keeps h
  clear_value y0
  refine pIte (OutKeeps s0) (State.send_keeps h1) ?_
  split
  rename_i e2 e3 e4 e5
  extract_lets +onlyGivenNames y6 y7
  have h8 : (Keeps s0) y7 := by
    unfold y7
    exact pIte (Keeps s0) (State.setJtag_keeps (outOf (SndP (Keeps s0)) e5 (State.free_keeps h1))) (outOf (SndP (Keeps
        s0)) e5 (State.free_keeps h1))
  clear_value y6 y7
  exact State.send_keeps h8

theorem execJtagDmi_keeps {s0 : State} {x0 s : _} (h : Keeps s0 s) : OutKeeps s0 (execJtagDmi x0 s) := by
  unfold execJtagDmi
  extract_lets +onlyGivenNames y0
  have h1 : (Keeps s0) y0 := by unfold y0; exact State.jtagIr_keeps h
  clear_value y0
  refine pIte (OutKeeps s0) (State.send_keeps h1) ?_
  extract_lets +onlyGivenNames y2
  clear_value y2
  split
  rename_i e3 e4 e5 e6
  extract_lets +onlyGivenNames y7 y8
  have h9 : (Keeps s0) y8 := by
    unfold y8
    exact pIte (Keeps s0) (outOf (SndP (Keeps s0)) e6 (State.free_keeps h1)) (State.setJtag_keeps (outOf (SndP (Keeps
        s0)) e6 (State.free_keeps h1)))
  clear_value y7 y8
  exact State.send_keeps h9

theorem execSmbAlertN_keeps {s0 : State} {x0 s : _} (h : Keeps s0 s) : OutKeeps s0 (execSmbAlertN x0 s) := by
  unfold execSmbAlertN
  extract_lets +onlyGivenNames y0 y1 y2
  have h3 : (Keeps s0) y2 := by unfold y2; exact keepsMk h rfl
  clear_value y0 y1 y2
  exact pIte (Keeps s0) (State.aplicSource_keeps h3) h3

theorem execMtimecmpExpire_keeps {s0 : State} {x0 x1 s : _} (h : Keeps s0 s) : OutKeeps s0 (execMtimecmpExpire x0 x1
    s) := by
  unfold execMtimecmpExpire
  exact pIte (OutKeeps s0) (keepsMk h rfl) h

/-! ### Machine/Registers.lean -/

theorem State.readEffect_keeps {s0 : State} {s x1 x2 x3 : _} (h : Keeps s0 s) : Keeps s0 (State.readEffect s x1 x2 x3)
    := by
  unfold State.readEffect
  split
  · rename_i e0 e1 e2
    exact keepsMk h rfl
  · rename_i e3 e4 e5
    exact State.setPav_keeps h
  · rename_i e6 e7 e8 e9 e10
    exact h

theorem State.regRead_keeps {s0 : State} {s x1 x2 : _} (h : Keeps s0 s) : (RegResKeeps s0) (State.regRead s x1 x2) :=
    by
  unfold State.regRead
  extract_lets +onlyGivenNames y0
  clear_value y0
  refine pIte (RegResKeeps s0) h ?_
  split
  · rename_i e1 e2
    exact h
  · rename_i e3 e4 e5 e6 e7 e8
    exact State.readEffect_keeps h

theorem State.fieldWrite_keeps {s0 : State} {s x1 x2 x3 x4 x5 x6 : _} (h : Keeps s0 s) : Keeps s0 (State.fieldWrite s
    x1 x2 x3 x4 x5 x6) := by
  unfold State.fieldWrite
  extract_lets +onlyGivenNames y0 y1
  clear_value y0 y1
  refine pIte (Keeps s0) h ?_
  split
  · rename_i e2 e3
    extract_lets +onlyGivenNames y4
    clear_value y4
    exact pIte (Keeps s0) h (State.setReg_keeps h)
  · rename_i e5 e6
    extract_lets +onlyGivenNames y7
    clear_value y7
    exact pIte (Keeps s0) h (State.setShadow_keeps h)
  · rename_i e8 e9
    exact State.setReg_keeps h
  · rename_i e10 e11
    exact State.setReg_keeps h
  · rename_i e12 e13 e14 e15 e16
    exact h

theorem State.plainWrite_keeps {s0 : State} {s x1 x2 x3 x4 x5 : _} (h : Keeps s0 s) : Keeps s0 (State.plainWrite s x1
    x2 x3 x4 x5) := by
  unfold State.plainWrite
  exact foldlP (Keeps s0) h (fun a0 a1 a2 => State.fieldWrite_keeps a2)

theorem State.commitWrite_keeps {s0 : State} {s x1 x2 x3 : _} (h : Keeps s0 s) : Keeps s0 (State.commitWrite s x1 x2
    x3) := by
  unfold State.commitWrite
  extract_lets +onlyGivenNames y0
  have h1 : (Keeps s0) y0 := by unfold y0; exact pIte (Keeps s0) (State.wr_keeps (State.wr_keeps h)) h
  clear_value y0
  exact pIte (Keeps s0) (State.commitGo_keeps h1) h1

theorem State.thermWrite_keeps {s0 : State} {s x1 : _} (h : Keeps s0 s) : Keeps s0 (State.thermWrite s x1) := by
  unfold State.thermWrite
  extract_lets +onlyGivenNames y0 y1 y2
  have h3 : (Keeps s0) y2 := by unfold y2; exact pIte (Keeps s0) h (State.wr_keeps h)
  clear_value y0 y1 y2
  exact pIte (Keeps s0) h3 (State.wr_keeps h3)

theorem State.wfillWrite_keeps {s0 : State} {s x1 x2 : _} (h : Keeps s0 s) : Keeps s0 (State.wfillWrite s x1 x2) := by
  unfold State.wfillWrite
  extract_lets +onlyGivenNames y0 y1
  clear_value y0 y1
  exact State.setReg_keeps h

theorem stateOf_keeps {s0 : State} {x0 s1 : _} (h : (OutKeeps s0) x0) (h1 : Keeps s0 s1) : Keeps s0 (stateOf x0 s1) :=
    by
  unfold stateOf
  split
  · rename_i e0 e1
    exact h
  · rename_i e2 e3
    exact h1

theorem State.regEffect_keeps {s0 : State} {s x1 x2 x3 x4 x5 x6 x7 : _} (h : Keeps s0 s) : Keeps s0 (State.regEffect s
    x1 x2 x3 x4 x5 x6 x7) := by
  unfold State.regEffect
  extract_lets +onlyGivenNames y0 y1 y2
  clear_value y0 y1 y2
  split
  · rename_i e3
    exact pIte (Keeps s0) (stateOf_keeps (bedResetOp_keeps h) h) h
  · rename_i e4
    exact stateOf_keeps (stlStateWriteOp_keeps h) h
  · rename_i e5
    exact stateOf_keeps (stlGroupWriteOp_keeps h) h
  · rename_i e6
    exact State.trlWrite_keeps h
  · rename_i e7
    exact State.agreeWrite_keeps h
  · rename_i e8
    exact pIte (Keeps s0) (State.epochFloor_keeps h) (State.refuse_keeps h)
  · rename_i e9
    exact stateOf_keeps (orgFlushOp_keeps h) h
  · rename_i e10
    exact stateOf_keeps (gdrPlotWriteOp_keeps h) h
  · rename_i e11
    exact pIte (Keeps s0) (State.plainWrite_keeps h) h
  · rename_i e12
    exact State.invWrite_keeps h
  · rename_i e13
    exact State.ooForceWrite_keeps h
  · rename_i e14
    exact State.biasWrite_keeps h
  · rename_i e15
    exact pIte (Keeps s0) (State.wr_keeps (State.wr_keeps h)) h
  · rename_i e16
    exact State.pavCtlWrite_keeps h
  · rename_i e17
    exact stateOf_keeps (pavFenceWriteOp_keeps h) h
  · rename_i e18
    exact stateOf_keeps (pavQpTokenWriteOp_keeps h) h
  · rename_i e19
    exact stateOf_keeps (pavQpTokenWriteOp_keeps h) h
  · rename_i e20
    exact pIte (Keeps s0) (stateOf_keeps (sqDoorbellOp_keeps h) h) h
  · rename_i e21
    exact pIte (Keeps s0) (stateOf_keeps (cqHeadWriteOp_keeps h) h) h
  · rename_i e22
    exact stateOf_keeps (pavEvecWriteOp_keeps h) h
  · rename_i e23
    exact State.lpCtlWrite_keeps h
  · rename_i e24
    exact stateOf_keeps (lpDevlostWriteOp_keeps h) h
  · rename_i e25
    exact stateOf_keeps (lpDevclrWriteOp_keeps h) h
  · rename_i e26
    exact State.wfillWrite_keeps h
  · rename_i e27
    exact pIte (Keeps s0) (State.refuse_keeps h) (State.plainWrite_keeps h)
  · rename_i e28
    exact pIte (Keeps s0) (stateOf_keeps (paceRequestWriteOp_keeps h) h) h
  · rename_i e29
    exact State.brakeWrite_keeps h
  · rename_i e30
    exact pIte (Keeps s0) (State.thermWrite_keeps h) h
  · rename_i e31
    exact State.kprResetWrite_keeps h
  · rename_i e32
    exact pIte (Keeps s0) (State.mbxWrite_keeps h) h
  · rename_i e33 e34 e35 e36 e37 e38 e39 e40 e41 e42 e43 e44 e45 e46 e47 e48 e49 e50 e51 e52 e53 e54 e55 e56 e57 e58
      e59 e60 e61 e62 e63
    exact pIte (Keeps s0) (pIte (Keeps s0) (State.pageWrite_keeps h (fun a64 a65 => State.commitWrite_keeps a65))
        (State.commitWrite_keeps h)) (pIte (Keeps s0) (State.refuse_keeps h) (pIte (Keeps s0) (State.pageWrite_keeps h
        (fun a66 a67 => State.plainWrite_keeps a67)) (State.plainWrite_keeps h)))

theorem State.regWrite_keeps {s0 : State} {s x1 x2 x3 x4 : _} (h : Keeps s0 s) : (RegResKeeps s0) (State.regWrite s x1
    x2 x3 x4) := by
  unfold State.regWrite
  extract_lets +onlyGivenNames y0
  clear_value y0
  refine pIte (RegResKeeps s0) h ?_
  split
  · rename_i e1 e2
    exact h
  · rename_i e3 e4 e5
    extract_lets +onlyGivenNames y6 y7
    clear_value y6 y7
    refine pIte (RegResKeeps s0) h (pIte (RegResKeeps s0) h ?_)
    split
    · rename_i e8
      exact pIte (RegResKeeps s0) h h
    · rename_i e9 e10 e11 e12 e13
      extract_lets +onlyGivenNames y14 y15
      have h16 : (Keeps s0) y15 := by unfold y15; exact State.regEffect_keeps h
      clear_value y14 y15
      split
      · rename_i e17 e18 e19
        exact keepsMk h16 rfl
      · rename_i e20 e21
        exact h16

theorem State.aplicPump_keeps {s0 : State} {s x1 : _} (h : Keeps s0 s) : Keeps s0 (State.aplicPump s x1) := by
  unfold State.aplicPump
  exact foldlP (Keeps s0) h (fun a0 a1 a2 => State.aplicForward_keeps a2)

theorem State.aplicConfig_keeps {s0 : State} {s x1 x2 x3 : _} (h : Keeps s0 s) : Keeps s0 (State.aplicConfig s x1 x2
    x3) := by
  unfold State.aplicConfig
  extract_lets +onlyGivenNames y0 y1
  have h2 : ∀ b0 b1, (Keeps s0) b0 → (Keeps s0) (y1 b0 b1) := by
    unfold y1
    intro a3
    intro a4
    intro a5
    exact State.setAplic_keeps (State.setAplic_keeps a5)
  clear_value y0 y1
  refine pIte (Keeps s0) h (pIte (Keeps s0) (State.setAplic_keeps (h2 _ _ h)) (pIte (Keeps s0) h ?_))
  extract_lets +onlyGivenNames y6
  have h7 : (Keeps s0) y6 := by unfold y6; exact pIte (Keeps s0) (State.setAplic_keeps (h2 _ _ h)) h
  clear_value y6
  extract_lets +onlyGivenNames y8
  have h9 : (Keeps s0) y8 := by unfold y8; exact pIte (Keeps s0) (h2 _ _ h7) h7
  clear_value y8
  exact State.setAplic_keeps h9

theorem State.aplicBits_keeps {s0 : State} {s x1 x2 x3 x4 : _} (h : Keeps s0 s) : Keeps s0 (State.aplicBits s x1 x2 x3
    x4) := by
  unfold State.aplicBits
  extract_lets +onlyGivenNames y0
  clear_value y0
  exact State.setAplic_keeps h

theorem State.aplicWrite_keeps {s0 : State} {s x1 x2 x3 : _} (h : Keeps s0 s) : Keeps s0 (State.aplicWrite s x1 x2 x3)
    := by
  unfold State.aplicWrite
  exact pIte (Keeps s0) (State.aplicPump_keeps (State.setAplic_keeps h)) (pIte (Keeps s0) (State.aplicConfig_keeps h)
      (pIte (Keeps s0) (State.aplicPump_keeps (State.aplicBits_keeps h)) (pIte (Keeps s0) (State.aplicPump_keeps
      (State.aplicBits_keeps h)) (pIte (Keeps s0) (State.aplicBits_keeps h) (pIte (Keeps s0) (State.aplicBits_keeps h)
      (pIte (Keeps s0) (State.aplicPump_keeps (State.aplicBits_keeps h)) (pIte (Keeps s0) (State.aplicPump_keeps
      (State.aplicBits_keeps h)) (pIte (Keeps s0) (State.aplicBits_keeps h) (pIte (Keeps s0) (State.aplicBits_keeps h)
      (pIte (Keeps s0) (State.msi_keeps h) (pIte (Keeps s0) (State.setAplic_keeps h) h)))))))))))

theorem State.setCmp_keeps {s0 : State} {s x1 x2 : _} (h : Keeps s0 s) : Keeps s0 (State.setCmp s x1 x2) := by
  unfold State.setCmp
  exact keepsMk h rfl

theorem State.intRead_keeps {s0 : State} {s x1 x2 : _} (h : Keeps s0 s) : (RegResKeeps s0) (State.intRead s x1 x2) :=
    by
  unfold State.intRead
  extract_lets +onlyGivenNames y0 y1
  have h2 : ∀ b0 b1, (RegResKeeps s0) (y1 b0 b1) := by
    unfold y1
    intro a3
    intro a4
    exact h
  clear_value y0 y1
  refine pIte (RegResKeeps s0) h ?_
  split
  · rename_i e5 e6 e7 e8 e9
    exact h2 _ _
  · rename_i e10 e11 e12 e13 e14 e15
    exact pIte (RegResKeeps s0) h h
  · rename_i e16 e17 e18 e19
    exact pIte (RegResKeeps s0) (h2 _ _) h

theorem State.intWrite_keeps {s0 : State} {s x1 x2 x3 : _} (h : Keeps s0 s) : (RegResKeeps s0) (State.intWrite s x1 x2
    x3) := by
  unfold State.intWrite
  extract_lets +onlyGivenNames y0
  clear_value y0
  refine pIte (RegResKeeps s0) h ?_
  extract_lets +onlyGivenNames y1
  clear_value y1
  split
  · rename_i e2 e3 e4 e5 e6 e7 e8
    exact pIte (RegResKeeps s0) h (pIte (Keeps s0) (State.msi_keeps h) h)
  · rename_i e9 e10 e11 e12 e13 e14 e15
    exact State.setCmp_keeps h
  · rename_i e16 e17 e18 e19 e20 e21 e22 e23
    exact pIte (RegResKeeps s0) (State.aplicWrite_keeps h) h
  · rename_i e24 e25 e26 e27 e28 e29
    exact pIte (RegResKeeps s0) (keepsMk h rfl) h

theorem State.spaceRead_keeps {s0 : State} {s x1 x2 : _} (h : Keeps s0 s) : (RegResKeeps s0) (State.spaceRead s x1 x2)
    := by
  unfold State.spaceRead
  exact pIte (RegResKeeps s0) (State.intRead_keeps h) (State.regRead_keeps h)

theorem State.spaceWrite_keeps {s0 : State} {s x1 x2 x3 x4 : _} (h : Keeps s0 s) : (RegResKeeps s0) (State.spaceWrite
    s x1 x2 x3 x4) := by
  unfold State.spaceWrite
  exact pIte (RegResKeeps s0) (State.intWrite_keeps h) (State.regWrite_keeps h)

theorem execRegisterWrite_keeps {s0 : State} {x0 x1 x2 x3 s : _} (h : Keeps s0 s) : OutKeeps s0 (execRegisterWrite x0
    x1 x2 x3 s) := by
  unfold execRegisterWrite
  refine pIte (OutKeeps s0) (State.refuse_keeps h) ?_
  split
  · rename_i e0 e1 e2 e3
    exact outOf (RegResKeeps s0) e3 (State.spaceWrite_keeps h)
  · rename_i e4 e5 e6 e7
    exact State.send_keeps (outOf (RegResKeeps s0) e7 (State.spaceWrite_keeps h))

/-! ### Machine/Cores.lean -/

theorem State.storeFault_keeps {s0 : State} {s x1 : _} (h : Keeps s0 s) : Keeps s0 (State.storeFault s x1) := by
  unfold State.storeFault
  exact State.send_keeps h

theorem State.memLoad_keeps {s0 : State} {s x1 x2 x3 x4 x5 x6 : _} (h : Keeps s0 s) : Keeps s0 (State.memLoad s x1 x2
    x3 x4 x5 x6) := by
  unfold State.memLoad
  refine pIte (Keeps s0) ?_ ?_
  · split
    · rename_i e0 e1
      exact State.loadTry_keeps h
    · rename_i e2 e3
      exact h
    · rename_i e4 e5 e6
      exact State.loadFault_keeps h
  · split
    · rename_i e7 e8 e9 e10
      exact State.answerLoad_keeps (outOf (MemResKeeps s0) e10 (State.readAs_keeps h))
    · rename_i e11 e12
      exact h
    · rename_i e13 e14 e15 e16
      exact State.loadFault_keeps (outOf (MemResKeeps s0) e16 (State.readAs_keeps h))

theorem execCoreLoad_keeps {s0 : State} {x0 x1 x2 x3 x4 x5 s : _} (h : Keeps s0 s) : OutKeeps s0 (execCoreLoad x0 x1
    x2 x3 x4 x5 s) := by
  unfold execCoreLoad
  refine pIte (OutKeeps s0) (apertureAccessOp_keeps h) (pIte (OutKeeps s0) ?_ (pIte (OutKeeps s0)
      (State.loadFault_keeps h) (State.memLoad_keeps h)))
  split
  · rename_i e0 e1 e2 e3
    exact State.send_keeps (outOf (RegResKeeps s0) e3 (State.spaceRead_keeps h))
  · rename_i e4 e5 e6 e7
    exact State.loadFault_keeps (outOf (RegResKeeps s0) e7 (State.spaceRead_keeps h))

theorem State.memStore_keeps {s0 : State} {s x1 x2 x3 x4 x5 : _} (h : Keeps s0 s) : Keeps s0 (State.memStore s x1 x2
    x3 x4 x5) := by
  unfold State.memStore
  refine pIte (Keeps s0) ?_ ?_
  · split
    · rename_i e0 e1
      exact State.pushStores_keeps h
    · rename_i e2 e3
      exact h
    · rename_i e4 e5 e6
      exact State.storeFault_keeps h
  · split
    · rename_i e7 e8 e9 e10
      exact outOf (MemResKeeps s0) e10 (State.writeAs_keeps h)
    · rename_i e11 e12
      exact h
    · rename_i e13 e14 e15 e16
      exact State.storeFault_keeps (outOf (MemResKeeps s0) e16 (State.writeAs_keeps h))

theorem execCoreStore_keeps {s0 : State} {x0 x1 x2 x3 x4 x5 s : _} (h : Keeps s0 s) : OutKeeps s0 (execCoreStore x0 x1
    x2 x3 x4 x5 s) := by
  unfold execCoreStore
  refine pIte (OutKeeps s0) (apertureAccessOp_keeps h) (pIte (OutKeeps s0) ?_ (pIte (OutKeeps s0)
      (State.storeFault_keeps h) (State.memStore_keeps h)))
  split
  · rename_i e0 e1 e2 e3
    exact outOf (RegResKeeps s0) e3 (State.spaceWrite_keeps h)
  · rename_i e4 e5 e6 e7
    exact State.storeFault_keeps (outOf (RegResKeeps s0) e7 (State.spaceWrite_keeps h))

theorem execMsiWrite_keeps {s0 : State} {x0 x1 x2 s : _} (h : Keeps s0 s) : OutKeeps s0 (execMsiWrite x0 x1 x2 s) :=
    by
  unfold execMsiWrite
  exact pIte (Keeps s0) (State.msi_keeps h) h

theorem execKxsRegWrite_keeps {s0 : State} {x0 x1 x2 s : _} (h : Keeps s0 s) : OutKeeps s0 (execKxsRegWrite x0 x1 x2
    s) := by
  unfold execKxsRegWrite
  refine pIte (OutKeeps s0) (State.send_keeps h) (pIte (OutKeeps s0) (State.send_keeps h) ?_)
  split
  · rename_i e0 e1 e2 e3
    exact pIte (Keeps s0) h (State.send_keeps (outOf (RegResKeeps s0) e3 (State.spaceWrite_keeps h)))
  · rename_i e4 e5 e6 e7
    exact State.send_keeps (outOf (RegResKeeps s0) e7 (State.spaceWrite_keeps h))

theorem execKxsRegRead_keeps {s0 : State} {x0 x1 s : _} (h : Keeps s0 s) : OutKeeps s0 (execKxsRegRead x0 x1 s) := by
  unfold execKxsRegRead
  refine pIte (OutKeeps s0) (State.send_keeps h) (pIte (OutKeeps s0) (State.send_keeps h) ?_)
  split
  · rename_i e0 e1 e2 e3
    exact State.send_keeps (outOf (RegResKeeps s0) e3 (State.spaceRead_keeps h))
  · rename_i e4 e5 e6 e7
    exact State.send_keeps (outOf (RegResKeeps s0) e7 (State.spaceRead_keeps h))

theorem execKxsKeeper_keeps {s0 : State} {x0 x1 x2 s : _} (h : Keeps s0 s) : OutKeeps s0 (execKxsKeeper x0 x1 x2 s) :=
    by
  unfold execKxsKeeper
  refine pIte (OutKeeps s0) (State.send_keeps h) (pIte (OutKeeps s0) (State.send_keeps h) (pIte (OutKeeps s0)
      (State.send_keeps h) ?_))
  split
  rename_i e0 e1 e2 e3
  exact pIte (OutKeeps s0) (State.send_keeps (outOf (SndP (Keeps s0)) e3 (State.mbxWrite_keeps h))) (State.send_keeps
      (outOf (SndP (Keeps s0)) e3 (State.mbxWrite_keeps h)))

/-! ### Machine/Tick.lean -/

theorem State.sundials_keeps {s0 : State} {s : _} (h : Keeps s0 s) : Keeps s0 (State.sundials s) := by
  unfold State.sundials
  exact foldlP (Keeps s0) h (fun a0 a1 a2 => pIte (Keeps s0) (State.beat_keeps a2) a2)

theorem State.clock_keeps {s0 : State} {s : _} (h : Keeps s0 s) : Keeps s0 (State.clock s) := by
  unfold State.clock
  exact pIte (Keeps s0) (keepsMk h rfl) h

theorem State.tick_keeps {s0 : State} {s : _} (h : Keeps s0 s) : Keeps s0 (State.tick s) := by
  unfold State.tick
  exact State.traceSend_keeps (State.logSend_keeps (State.coldTick_keeps (State.clock_keeps (State.sundials_keeps
      h))))

end Sys2Proof.Machine
end

