-- ==== Sys2Proof/Laws/State.lean ====
section
/-! SUPPORT. What each update of State leaves as it was, field by field, and what reads back. -/

namespace Sys2Proof.Machine

/-! ### setReg -/

@[simp] theorem State.setReg_pending (s : State) {r i j v} : (s.setReg r i j v).pending = s.pending := rfl
@[simp] theorem State.setReg_freeCtr (s : State) {r i j v} : (s.setReg r i j v).freeCtr = s.freeCtr := rfl
@[simp] theorem State.setReg_mtime (s : State) {r i j v} : (s.setReg r i j v).mtime = s.mtime := rfl
@[simp] theorem State.setReg_shadows (s : State) {r i j v} : (s.setReg r i j v).shadows = s.shadows := rfl
@[simp] theorem State.setReg_mem (s : State) {r i j v} : (s.setReg r i j v).mem = s.mem := rfl
@[simp] theorem State.setReg_marks (s : State) {r i j v} : (s.setReg r i j v).marks = s.marks := rfl
@[simp] theorem State.setReg_arr (s : State) {r i j v} : (s.setReg r i j v).arr = s.arr := rfl
@[simp] theorem State.setReg_str (s : State) {r i j v} : (s.setReg r i j v).str = s.str := rfl
@[simp] theorem State.setReg_smmu (s : State) {r i j v} : (s.setReg r i j v).smmu = s.smmu := rfl
@[simp] theorem State.setReg_ws (s : State) {r i j v} : (s.setReg r i j v).ws = s.ws := rfl
@[simp] theorem State.setReg_lnk (s : State) {r i j v} : (s.setReg r i j v).lnk = s.lnk := rfl
@[simp] theorem State.setReg_org (s : State) {r i j v} : (s.setReg r i j v).org = s.org := rfl
@[simp] theorem State.setReg_coh (s : State) {r i j v} : (s.setReg r i j v).coh = s.coh := rfl
@[simp] theorem State.setReg_slices (s : State) {r i j v} : (s.setReg r i j v).slices = s.slices := rfl
@[simp] theorem State.setReg_pavs (s : State) {r i j v} : (s.setReg r i j v).pavs = s.pavs := rfl
@[simp] theorem State.setReg_binds (s : State) {r i j v} : (s.setReg r i j v).binds = s.binds := rfl
@[simp] theorem State.setReg_raised (s : State) {r i j v} : (s.setReg r i j v).raised = s.raised := rfl
@[simp] theorem State.setReg_records (s : State) {r i j v} : (s.setReg r i j v).records = s.records := rfl
@[simp] theorem State.setReg_lodgeSeq (s : State) {r i j v} : (s.setReg r i j v).lodgeSeq = s.lodgeSeq := rfl
@[simp] theorem State.setReg_imsic (s : State) {r i j v} : (s.setReg r i j v).imsic = s.imsic := rfl
@[simp] theorem State.setReg_d2d (s : State) {r i j v} : (s.setReg r i j v).d2d = s.d2d := rfl
@[simp] theorem State.setReg_trl (s : State) {r i j v} : (s.setReg r i j v).trl = s.trl := rfl
@[simp] theorem State.setReg_tel (s : State) {r i j v} : (s.setReg r i j v).tel = s.tel := rfl
@[simp] theorem State.setReg_pwr (s : State) {r i j v} : (s.setReg r i j v).pwr = s.pwr := rfl
@[simp] theorem State.setReg_sys (s : State) {r i j v} : (s.setReg r i j v).sys = s.sys := rfl
@[simp] theorem State.setReg_kpr (s : State) {r i j v} : (s.setReg r i j v).kpr = s.kpr := rfl
@[simp] theorem State.setReg_hub (s : State) {r i j v} : (s.setReg r i j v).hub = s.hub := rfl
@[simp] theorem State.setReg_out (s : State) {r i j v} : (s.setReg r i j v).out = s.out := rfl

/-! ### wr -/

@[simp] theorem State.wr_pending (s : State) {f i j v} : (s.wr f i j v).pending = s.pending := rfl
@[simp] theorem State.wr_freeCtr (s : State) {f i j v} : (s.wr f i j v).freeCtr = s.freeCtr := rfl
@[simp] theorem State.wr_mtime (s : State) {f i j v} : (s.wr f i j v).mtime = s.mtime := rfl
@[simp] theorem State.wr_shadows (s : State) {f i j v} : (s.wr f i j v).shadows = s.shadows := rfl
@[simp] theorem State.wr_mem (s : State) {f i j v} : (s.wr f i j v).mem = s.mem := rfl
@[simp] theorem State.wr_marks (s : State) {f i j v} : (s.wr f i j v).marks = s.marks := rfl
@[simp] theorem State.wr_arr (s : State) {f i j v} : (s.wr f i j v).arr = s.arr := rfl
@[simp] theorem State.wr_str (s : State) {f i j v} : (s.wr f i j v).str = s.str := rfl
@[simp] theorem State.wr_smmu (s : State) {f i j v} : (s.wr f i j v).smmu = s.smmu := rfl
@[simp] theorem State.wr_ws (s : State) {f i j v} : (s.wr f i j v).ws = s.ws := rfl
@[simp] theorem State.wr_lnk (s : State) {f i j v} : (s.wr f i j v).lnk = s.lnk := rfl
@[simp] theorem State.wr_org (s : State) {f i j v} : (s.wr f i j v).org = s.org := rfl
@[simp] theorem State.wr_coh (s : State) {f i j v} : (s.wr f i j v).coh = s.coh := rfl
@[simp] theorem State.wr_slices (s : State) {f i j v} : (s.wr f i j v).slices = s.slices := rfl
@[simp] theorem State.wr_pavs (s : State) {f i j v} : (s.wr f i j v).pavs = s.pavs := rfl
@[simp] theorem State.wr_binds (s : State) {f i j v} : (s.wr f i j v).binds = s.binds := rfl
@[simp] theorem State.wr_raised (s : State) {f i j v} : (s.wr f i j v).raised = s.raised := rfl
@[simp] theorem State.wr_records (s : State) {f i j v} : (s.wr f i j v).records = s.records := rfl
@[simp] theorem State.wr_lodgeSeq (s : State) {f i j v} : (s.wr f i j v).lodgeSeq = s.lodgeSeq := rfl
@[simp] theorem State.wr_imsic (s : State) {f i j v} : (s.wr f i j v).imsic = s.imsic := rfl
@[simp] theorem State.wr_d2d (s : State) {f i j v} : (s.wr f i j v).d2d = s.d2d := rfl
@[simp] theorem State.wr_trl (s : State) {f i j v} : (s.wr f i j v).trl = s.trl := rfl
@[simp] theorem State.wr_tel (s : State) {f i j v} : (s.wr f i j v).tel = s.tel := rfl
@[simp] theorem State.wr_pwr (s : State) {f i j v} : (s.wr f i j v).pwr = s.pwr := rfl
@[simp] theorem State.wr_sys (s : State) {f i j v} : (s.wr f i j v).sys = s.sys := rfl
@[simp] theorem State.wr_kpr (s : State) {f i j v} : (s.wr f i j v).kpr = s.kpr := rfl
@[simp] theorem State.wr_hub (s : State) {f i j v} : (s.wr f i j v).hub = s.hub := rfl
@[simp] theorem State.wr_out (s : State) {f i j v} : (s.wr f i j v).out = s.out := rfl

/-! ### bump -/

@[simp] theorem State.bump_pending (s : State) {f i j n} : (s.bump f i j n).pending = s.pending := rfl
@[simp] theorem State.bump_freeCtr (s : State) {f i j n} : (s.bump f i j n).freeCtr = s.freeCtr := rfl
@[simp] theorem State.bump_mtime (s : State) {f i j n} : (s.bump f i j n).mtime = s.mtime := rfl
@[simp] theorem State.bump_shadows (s : State) {f i j n} : (s.bump f i j n).shadows = s.shadows := rfl
@[simp] theorem State.bump_mem (s : State) {f i j n} : (s.bump f i j n).mem = s.mem := rfl
@[simp] theorem State.bump_marks (s : State) {f i j n} : (s.bump f i j n).marks = s.marks := rfl
@[simp] theorem State.bump_arr (s : State) {f i j n} : (s.bump f i j n).arr = s.arr := rfl
@[simp] theorem State.bump_str (s : State) {f i j n} : (s.bump f i j n).str = s.str := rfl
@[simp] theorem State.bump_smmu (s : State) {f i j n} : (s.bump f i j n).smmu = s.smmu := rfl
@[simp] theorem State.bump_ws (s : State) {f i j n} : (s.bump f i j n).ws = s.ws := rfl
@[simp] theorem State.bump_lnk (s : State) {f i j n} : (s.bump f i j n).lnk = s.lnk := rfl
@[simp] theorem State.bump_org (s : State) {f i j n} : (s.bump f i j n).org = s.org := rfl
@[simp] theorem State.bump_coh (s : State) {f i j n} : (s.bump f i j n).coh = s.coh := rfl
@[simp] theorem State.bump_slices (s : State) {f i j n} : (s.bump f i j n).slices = s.slices := rfl
@[simp] theorem State.bump_pavs (s : State) {f i j n} : (s.bump f i j n).pavs = s.pavs := rfl
@[simp] theorem State.bump_binds (s : State) {f i j n} : (s.bump f i j n).binds = s.binds := rfl
@[simp] theorem State.bump_raised (s : State) {f i j n} : (s.bump f i j n).raised = s.raised := rfl
@[simp] theorem State.bump_records (s : State) {f i j n} : (s.bump f i j n).records = s.records := rfl
@[simp] theorem State.bump_lodgeSeq (s : State) {f i j n} : (s.bump f i j n).lodgeSeq = s.lodgeSeq := rfl
@[simp] theorem State.bump_imsic (s : State) {f i j n} : (s.bump f i j n).imsic = s.imsic := rfl
@[simp] theorem State.bump_d2d (s : State) {f i j n} : (s.bump f i j n).d2d = s.d2d := rfl
@[simp] theorem State.bump_trl (s : State) {f i j n} : (s.bump f i j n).trl = s.trl := rfl
@[simp] theorem State.bump_tel (s : State) {f i j n} : (s.bump f i j n).tel = s.tel := rfl
@[simp] theorem State.bump_pwr (s : State) {f i j n} : (s.bump f i j n).pwr = s.pwr := rfl
@[simp] theorem State.bump_sys (s : State) {f i j n} : (s.bump f i j n).sys = s.sys := rfl
@[simp] theorem State.bump_kpr (s : State) {f i j n} : (s.bump f i j n).kpr = s.kpr := rfl
@[simp] theorem State.bump_hub (s : State) {f i j n} : (s.bump f i j n).hub = s.hub := rfl
@[simp] theorem State.bump_out (s : State) {f i j n} : (s.bump f i j n).out = s.out := rfl

/-! ### setShadow -/

@[simp] theorem State.setShadow_pending (s : State) {r i j v} : (s.setShadow r i j v).pending = s.pending := rfl
@[simp] theorem State.setShadow_freeCtr (s : State) {r i j v} : (s.setShadow r i j v).freeCtr = s.freeCtr := rfl
@[simp] theorem State.setShadow_mtime (s : State) {r i j v} : (s.setShadow r i j v).mtime = s.mtime := rfl
@[simp] theorem State.setShadow_regs (s : State) {r i j v} : (s.setShadow r i j v).regs = s.regs := rfl
@[simp] theorem State.setShadow_mem (s : State) {r i j v} : (s.setShadow r i j v).mem = s.mem := rfl
@[simp] theorem State.setShadow_marks (s : State) {r i j v} : (s.setShadow r i j v).marks = s.marks := rfl
@[simp] theorem State.setShadow_arr (s : State) {r i j v} : (s.setShadow r i j v).arr = s.arr := rfl
@[simp] theorem State.setShadow_str (s : State) {r i j v} : (s.setShadow r i j v).str = s.str := rfl
@[simp] theorem State.setShadow_smmu (s : State) {r i j v} : (s.setShadow r i j v).smmu = s.smmu := rfl
@[simp] theorem State.setShadow_ws (s : State) {r i j v} : (s.setShadow r i j v).ws = s.ws := rfl
@[simp] theorem State.setShadow_lnk (s : State) {r i j v} : (s.setShadow r i j v).lnk = s.lnk := rfl
@[simp] theorem State.setShadow_org (s : State) {r i j v} : (s.setShadow r i j v).org = s.org := rfl
@[simp] theorem State.setShadow_coh (s : State) {r i j v} : (s.setShadow r i j v).coh = s.coh := rfl
@[simp] theorem State.setShadow_slices (s : State) {r i j v} : (s.setShadow r i j v).slices = s.slices := rfl
@[simp] theorem State.setShadow_pavs (s : State) {r i j v} : (s.setShadow r i j v).pavs = s.pavs := rfl
@[simp] theorem State.setShadow_binds (s : State) {r i j v} : (s.setShadow r i j v).binds = s.binds := rfl
@[simp] theorem State.setShadow_raised (s : State) {r i j v} : (s.setShadow r i j v).raised = s.raised := rfl
@[simp] theorem State.setShadow_records (s : State) {r i j v} : (s.setShadow r i j v).records = s.records := rfl
@[simp] theorem State.setShadow_lodgeSeq (s : State) {r i j v} : (s.setShadow r i j v).lodgeSeq = s.lodgeSeq := rfl
@[simp] theorem State.setShadow_imsic (s : State) {r i j v} : (s.setShadow r i j v).imsic = s.imsic := rfl
@[simp] theorem State.setShadow_d2d (s : State) {r i j v} : (s.setShadow r i j v).d2d = s.d2d := rfl
@[simp] theorem State.setShadow_trl (s : State) {r i j v} : (s.setShadow r i j v).trl = s.trl := rfl
@[simp] theorem State.setShadow_tel (s : State) {r i j v} : (s.setShadow r i j v).tel = s.tel := rfl
@[simp] theorem State.setShadow_pwr (s : State) {r i j v} : (s.setShadow r i j v).pwr = s.pwr := rfl
@[simp] theorem State.setShadow_sys (s : State) {r i j v} : (s.setShadow r i j v).sys = s.sys := rfl
@[simp] theorem State.setShadow_kpr (s : State) {r i j v} : (s.setShadow r i j v).kpr = s.kpr := rfl
@[simp] theorem State.setShadow_hub (s : State) {r i j v} : (s.setShadow r i j v).hub = s.hub := rfl
@[simp] theorem State.setShadow_out (s : State) {r i j v} : (s.setShadow r i j v).out = s.out := rfl
@[simp] theorem State.setShadow_reg (s : State) {r i j v} (z : Reg) (z1 z2 : Nat) : (s.setShadow r i j v).reg z z1 z2 = s.reg z z1 z2 := rfl
@[simp] theorem State.setShadow_self (s : State) {r i j v} : (s.setShadow r i j v).shadow r i j = v := tget_tset_self _ _ _ _

/-! ### send -/

@[simp] theorem State.send_pending (s : State) {x} : (s.send x).pending = s.pending := rfl
@[simp] theorem State.send_freeCtr (s : State) {x} : (s.send x).freeCtr = s.freeCtr := rfl
@[simp] theorem State.send_mtime (s : State) {x} : (s.send x).mtime = s.mtime := rfl
@[simp] theorem State.send_regs (s : State) {x} : (s.send x).regs = s.regs := rfl
@[simp] theorem State.send_shadows (s : State) {x} : (s.send x).shadows = s.shadows := rfl
@[simp] theorem State.send_mem (s : State) {x} : (s.send x).mem = s.mem := rfl
@[simp] theorem State.send_marks (s : State) {x} : (s.send x).marks = s.marks := rfl
@[simp] theorem State.send_arr (s : State) {x} : (s.send x).arr = s.arr := rfl
@[simp] theorem State.send_str (s : State) {x} : (s.send x).str = s.str := rfl
@[simp] theorem State.send_smmu (s : State) {x} : (s.send x).smmu = s.smmu := rfl
@[simp] theorem State.send_ws (s : State) {x} : (s.send x).ws = s.ws := rfl
@[simp] theorem State.send_lnk (s : State) {x} : (s.send x).lnk = s.lnk := rfl
@[simp] theorem State.send_org (s : State) {x} : (s.send x).org = s.org := rfl
@[simp] theorem State.send_coh (s : State) {x} : (s.send x).coh = s.coh := rfl
@[simp] theorem State.send_slices (s : State) {x} : (s.send x).slices = s.slices := rfl
@[simp] theorem State.send_pavs (s : State) {x} : (s.send x).pavs = s.pavs := rfl
@[simp] theorem State.send_binds (s : State) {x} : (s.send x).binds = s.binds := rfl
@[simp] theorem State.send_raised (s : State) {x} : (s.send x).raised = s.raised := rfl
@[simp] theorem State.send_records (s : State) {x} : (s.send x).records = s.records := rfl
@[simp] theorem State.send_lodgeSeq (s : State) {x} : (s.send x).lodgeSeq = s.lodgeSeq := rfl
@[simp] theorem State.send_imsic (s : State) {x} : (s.send x).imsic = s.imsic := rfl
@[simp] theorem State.send_d2d (s : State) {x} : (s.send x).d2d = s.d2d := rfl
@[simp] theorem State.send_trl (s : State) {x} : (s.send x).trl = s.trl := rfl
@[simp] theorem State.send_tel (s : State) {x} : (s.send x).tel = s.tel := rfl
@[simp] theorem State.send_pwr (s : State) {x} : (s.send x).pwr = s.pwr := rfl
@[simp] theorem State.send_sys (s : State) {x} : (s.send x).sys = s.sys := rfl
@[simp] theorem State.send_kpr (s : State) {x} : (s.send x).kpr = s.kpr := rfl
@[simp] theorem State.send_hub (s : State) {x} : (s.send x).hub = s.hub := rfl
@[simp] theorem State.send_reg (s : State) {x} (z : Reg) (z1 z2 : Nat) : (s.send x).reg z z1 z2 = s.reg z z1 z2 := rfl

/-! ### store -/

@[simp] theorem State.store_pending (s : State) {a bs} : (s.store a bs).pending = s.pending := rfl
@[simp] theorem State.store_freeCtr (s : State) {a bs} : (s.store a bs).freeCtr = s.freeCtr := rfl
@[simp] theorem State.store_mtime (s : State) {a bs} : (s.store a bs).mtime = s.mtime := rfl
@[simp] theorem State.store_regs (s : State) {a bs} : (s.store a bs).regs = s.regs := rfl
@[simp] theorem State.store_shadows (s : State) {a bs} : (s.store a bs).shadows = s.shadows := rfl
@[simp] theorem State.store_arr (s : State) {a bs} : (s.store a bs).arr = s.arr := rfl
@[simp] theorem State.store_str (s : State) {a bs} : (s.store a bs).str = s.str := rfl
@[simp] theorem State.store_smmu (s : State) {a bs} : (s.store a bs).smmu = s.smmu := rfl
@[simp] theorem State.store_ws (s : State) {a bs} : (s.store a bs).ws = s.ws := rfl
@[simp] theorem State.store_lnk (s : State) {a bs} : (s.store a bs).lnk = s.lnk := rfl
@[simp] theorem State.store_org (s : State) {a bs} : (s.store a bs).org = s.org := rfl
@[simp] theorem State.store_coh (s : State) {a bs} : (s.store a bs).coh = s.coh := rfl
@[simp] theorem State.store_slices (s : State) {a bs} : (s.store a bs).slices = s.slices := rfl
@[simp] theorem State.store_pavs (s : State) {a bs} : (s.store a bs).pavs = s.pavs := rfl
@[simp] theorem State.store_binds (s : State) {a bs} : (s.store a bs).binds = s.binds := rfl
@[simp] theorem State.store_raised (s : State) {a bs} : (s.store a bs).raised = s.raised := rfl
@[simp] theorem State.store_records (s : State) {a bs} : (s.store a bs).records = s.records := rfl
@[simp] theorem State.store_lodgeSeq (s : State) {a bs} : (s.store a bs).lodgeSeq = s.lodgeSeq := rfl
@[simp] theorem State.store_imsic (s : State) {a bs} : (s.store a bs).imsic = s.imsic := rfl
@[simp] theorem State.store_d2d (s : State) {a bs} : (s.store a bs).d2d = s.d2d := rfl
@[simp] theorem State.store_trl (s : State) {a bs} : (s.store a bs).trl = s.trl := rfl
@[simp] theorem State.store_tel (s : State) {a bs} : (s.store a bs).tel = s.tel := rfl
@[simp] theorem State.store_pwr (s : State) {a bs} : (s.store a bs).pwr = s.pwr := rfl
@[simp] theorem State.store_sys (s : State) {a bs} : (s.store a bs).sys = s.sys := rfl
@[simp] theorem State.store_kpr (s : State) {a bs} : (s.store a bs).kpr = s.kpr := rfl
@[simp] theorem State.store_hub (s : State) {a bs} : (s.store a bs).hub = s.hub := rfl
@[simp] theorem State.store_out (s : State) {a bs} : (s.store a bs).out = s.out := rfl
@[simp] theorem State.store_reg (s : State) {a bs} (z : Reg) (z1 z2 : Nat) : (s.store a bs).reg z z1 z2 = s.reg z z1 z2 := rfl

/-! ### lineStore -/

@[simp] theorem State.lineStore_pending (s : State) {la bs} : (s.lineStore la bs).pending = s.pending := rfl
@[simp] theorem State.lineStore_freeCtr (s : State) {la bs} : (s.lineStore la bs).freeCtr = s.freeCtr := rfl
@[simp] theorem State.lineStore_mtime (s : State) {la bs} : (s.lineStore la bs).mtime = s.mtime := rfl
@[simp] theorem State.lineStore_regs (s : State) {la bs} : (s.lineStore la bs).regs = s.regs := rfl
@[simp] theorem State.lineStore_shadows (s : State) {la bs} : (s.lineStore la bs).shadows = s.shadows := rfl
@[simp] theorem State.lineStore_marks (s : State) {la bs} : (s.lineStore la bs).marks = s.marks := rfl
@[simp] theorem State.lineStore_arr (s : State) {la bs} : (s.lineStore la bs).arr = s.arr := rfl
@[simp] theorem State.lineStore_str (s : State) {la bs} : (s.lineStore la bs).str = s.str := rfl
@[simp] theorem State.lineStore_smmu (s : State) {la bs} : (s.lineStore la bs).smmu = s.smmu := rfl
@[simp] theorem State.lineStore_ws (s : State) {la bs} : (s.lineStore la bs).ws = s.ws := rfl
@[simp] theorem State.lineStore_lnk (s : State) {la bs} : (s.lineStore la bs).lnk = s.lnk := rfl
@[simp] theorem State.lineStore_coh (s : State) {la bs} : (s.lineStore la bs).coh = s.coh := rfl
@[simp] theorem State.lineStore_slices (s : State) {la bs} : (s.lineStore la bs).slices = s.slices := rfl
@[simp] theorem State.lineStore_pavs (s : State) {la bs} : (s.lineStore la bs).pavs = s.pavs := rfl
@[simp] theorem State.lineStore_binds (s : State) {la bs} : (s.lineStore la bs).binds = s.binds := rfl
@[simp] theorem State.lineStore_raised (s : State) {la bs} : (s.lineStore la bs).raised = s.raised := rfl
@[simp] theorem State.lineStore_records (s : State) {la bs} : (s.lineStore la bs).records = s.records := rfl
@[simp] theorem State.lineStore_lodgeSeq (s : State) {la bs} : (s.lineStore la bs).lodgeSeq = s.lodgeSeq := rfl
@[simp] theorem State.lineStore_imsic (s : State) {la bs} : (s.lineStore la bs).imsic = s.imsic := rfl
@[simp] theorem State.lineStore_d2d (s : State) {la bs} : (s.lineStore la bs).d2d = s.d2d := rfl
@[simp] theorem State.lineStore_trl (s : State) {la bs} : (s.lineStore la bs).trl = s.trl := rfl
@[simp] theorem State.lineStore_tel (s : State) {la bs} : (s.lineStore la bs).tel = s.tel := rfl
@[simp] theorem State.lineStore_pwr (s : State) {la bs} : (s.lineStore la bs).pwr = s.pwr := rfl
@[simp] theorem State.lineStore_sys (s : State) {la bs} : (s.lineStore la bs).sys = s.sys := rfl
@[simp] theorem State.lineStore_kpr (s : State) {la bs} : (s.lineStore la bs).kpr = s.kpr := rfl
@[simp] theorem State.lineStore_hub (s : State) {la bs} : (s.lineStore la bs).hub = s.hub := rfl
@[simp] theorem State.lineStore_out (s : State) {la bs} : (s.lineStore la bs).out = s.out := rfl
@[simp] theorem State.lineStore_reg (s : State) {la bs} (z : Reg) (z1 z2 : Nat) : (s.lineStore la bs).reg z z1 z2 = s.reg z z1 z2 := rfl

/-! ### linePoison -/

@[simp] theorem State.linePoison_pending (s : State) {la bs} : (s.linePoison la bs).pending = s.pending := rfl
@[simp] theorem State.linePoison_freeCtr (s : State) {la bs} : (s.linePoison la bs).freeCtr = s.freeCtr := rfl
@[simp] theorem State.linePoison_mtime (s : State) {la bs} : (s.linePoison la bs).mtime = s.mtime := rfl
@[simp] theorem State.linePoison_regs (s : State) {la bs} : (s.linePoison la bs).regs = s.regs := rfl
@[simp] theorem State.linePoison_shadows (s : State) {la bs} : (s.linePoison la bs).shadows = s.shadows := rfl
@[simp] theorem State.linePoison_marks (s : State) {la bs} : (s.linePoison la bs).marks = s.marks := rfl
@[simp] theorem State.linePoison_arr (s : State) {la bs} : (s.linePoison la bs).arr = s.arr := rfl
@[simp] theorem State.linePoison_str (s : State) {la bs} : (s.linePoison la bs).str = s.str := rfl
@[simp] theorem State.linePoison_smmu (s : State) {la bs} : (s.linePoison la bs).smmu = s.smmu := rfl
@[simp] theorem State.linePoison_ws (s : State) {la bs} : (s.linePoison la bs).ws = s.ws := rfl
@[simp] theorem State.linePoison_lnk (s : State) {la bs} : (s.linePoison la bs).lnk = s.lnk := rfl
@[simp] theorem State.linePoison_coh (s : State) {la bs} : (s.linePoison la bs).coh = s.coh := rfl
@[simp] theorem State.linePoison_slices (s : State) {la bs} : (s.linePoison la bs).slices = s.slices := rfl
@[simp] theorem State.linePoison_pavs (s : State) {la bs} : (s.linePoison la bs).pavs = s.pavs := rfl
@[simp] theorem State.linePoison_binds (s : State) {la bs} : (s.linePoison la bs).binds = s.binds := rfl
@[simp] theorem State.linePoison_raised (s : State) {la bs} : (s.linePoison la bs).raised = s.raised := rfl
@[simp] theorem State.linePoison_records (s : State) {la bs} : (s.linePoison la bs).records = s.records := rfl
@[simp] theorem State.linePoison_lodgeSeq (s : State) {la bs} : (s.linePoison la bs).lodgeSeq = s.lodgeSeq := rfl
@[simp] theorem State.linePoison_imsic (s : State) {la bs} : (s.linePoison la bs).imsic = s.imsic := rfl
@[simp] theorem State.linePoison_d2d (s : State) {la bs} : (s.linePoison la bs).d2d = s.d2d := rfl
@[simp] theorem State.linePoison_trl (s : State) {la bs} : (s.linePoison la bs).trl = s.trl := rfl
@[simp] theorem State.linePoison_tel (s : State) {la bs} : (s.linePoison la bs).tel = s.tel := rfl
@[simp] theorem State.linePoison_pwr (s : State) {la bs} : (s.linePoison la bs).pwr = s.pwr := rfl
@[simp] theorem State.linePoison_sys (s : State) {la bs} : (s.linePoison la bs).sys = s.sys := rfl
@[simp] theorem State.linePoison_kpr (s : State) {la bs} : (s.linePoison la bs).kpr = s.kpr := rfl
@[simp] theorem State.linePoison_hub (s : State) {la bs} : (s.linePoison la bs).hub = s.hub := rfl
@[simp] theorem State.linePoison_out (s : State) {la bs} : (s.linePoison la bs).out = s.out := rfl
@[simp] theorem State.linePoison_reg (s : State) {la bs} (z : Reg) (z1 z2 : Nat) : (s.linePoison la bs).reg z z1 z2 = s.reg z z1 z2 := rfl

/-! ### setTxn -/

@[simp] theorem State.setTxn_pending (s : State) {t} : (s.setTxn t).pending = s.pending := rfl
@[simp] theorem State.setTxn_freeCtr (s : State) {t} : (s.setTxn t).freeCtr = s.freeCtr := rfl
@[simp] theorem State.setTxn_mtime (s : State) {t} : (s.setTxn t).mtime = s.mtime := rfl
@[simp] theorem State.setTxn_regs (s : State) {t} : (s.setTxn t).regs = s.regs := rfl
@[simp] theorem State.setTxn_shadows (s : State) {t} : (s.setTxn t).shadows = s.shadows := rfl
@[simp] theorem State.setTxn_mem (s : State) {t} : (s.setTxn t).mem = s.mem := rfl
@[simp] theorem State.setTxn_marks (s : State) {t} : (s.setTxn t).marks = s.marks := rfl
@[simp] theorem State.setTxn_arr (s : State) {t} : (s.setTxn t).arr = s.arr := rfl
@[simp] theorem State.setTxn_str (s : State) {t} : (s.setTxn t).str = s.str := rfl
@[simp] theorem State.setTxn_smmu (s : State) {t} : (s.setTxn t).smmu = s.smmu := rfl
@[simp] theorem State.setTxn_ws (s : State) {t} : (s.setTxn t).ws = s.ws := rfl
@[simp] theorem State.setTxn_lnk (s : State) {t} : (s.setTxn t).lnk = s.lnk := rfl
@[simp] theorem State.setTxn_org (s : State) {t} : (s.setTxn t).org = s.org := rfl
@[simp] theorem State.setTxn_slices (s : State) {t} : (s.setTxn t).slices = s.slices := rfl
@[simp] theorem State.setTxn_pavs (s : State) {t} : (s.setTxn t).pavs = s.pavs := rfl
@[simp] theorem State.setTxn_binds (s : State) {t} : (s.setTxn t).binds = s.binds := rfl
@[simp] theorem State.setTxn_raised (s : State) {t} : (s.setTxn t).raised = s.raised := rfl
@[simp] theorem State.setTxn_records (s : State) {t} : (s.setTxn t).records = s.records := rfl
@[simp] theorem State.setTxn_lodgeSeq (s : State) {t} : (s.setTxn t).lodgeSeq = s.lodgeSeq := rfl
@[simp] theorem State.setTxn_imsic (s : State) {t} : (s.setTxn t).imsic = s.imsic := rfl
@[simp] theorem State.setTxn_d2d (s : State) {t} : (s.setTxn t).d2d = s.d2d := rfl
@[simp] theorem State.setTxn_trl (s : State) {t} : (s.setTxn t).trl = s.trl := rfl
@[simp] theorem State.setTxn_tel (s : State) {t} : (s.setTxn t).tel = s.tel := rfl
@[simp] theorem State.setTxn_pwr (s : State) {t} : (s.setTxn t).pwr = s.pwr := rfl
@[simp] theorem State.setTxn_sys (s : State) {t} : (s.setTxn t).sys = s.sys := rfl
@[simp] theorem State.setTxn_kpr (s : State) {t} : (s.setTxn t).kpr = s.kpr := rfl
@[simp] theorem State.setTxn_hub (s : State) {t} : (s.setTxn t).hub = s.hub := rfl
@[simp] theorem State.setTxn_out (s : State) {t} : (s.setTxn t).out = s.out := rfl
@[simp] theorem State.setTxn_reg (s : State) {t} (z : Reg) (z1 z2 : Nat) : (s.setTxn t).reg z z1 z2 = s.reg z z1 z2 := rfl

/-! ### setCreq -/

@[simp] theorem State.setCreq_pending (s : State) {d a x} : (s.setCreq d a x).pending = s.pending := rfl
@[simp] theorem State.setCreq_freeCtr (s : State) {d a x} : (s.setCreq d a x).freeCtr = s.freeCtr := rfl
@[simp] theorem State.setCreq_mtime (s : State) {d a x} : (s.setCreq d a x).mtime = s.mtime := rfl
@[simp] theorem State.setCreq_regs (s : State) {d a x} : (s.setCreq d a x).regs = s.regs := rfl
@[simp] theorem State.setCreq_shadows (s : State) {d a x} : (s.setCreq d a x).shadows = s.shadows := rfl
@[simp] theorem State.setCreq_mem (s : State) {d a x} : (s.setCreq d a x).mem = s.mem := rfl
@[simp] theorem State.setCreq_marks (s : State) {d a x} : (s.setCreq d a x).marks = s.marks := rfl
@[simp] theorem State.setCreq_arr (s : State) {d a x} : (s.setCreq d a x).arr = s.arr := rfl
@[simp] theorem State.setCreq_str (s : State) {d a x} : (s.setCreq d a x).str = s.str := rfl
@[simp] theorem State.setCreq_smmu (s : State) {d a x} : (s.setCreq d a x).smmu = s.smmu := rfl
@[simp] theorem State.setCreq_ws (s : State) {d a x} : (s.setCreq d a x).ws = s.ws := rfl
@[simp] theorem State.setCreq_lnk (s : State) {d a x} : (s.setCreq d a x).lnk = s.lnk := rfl
@[simp] theorem State.setCreq_org (s : State) {d a x} : (s.setCreq d a x).org = s.org := rfl
@[simp] theorem State.setCreq_slices (s : State) {d a x} : (s.setCreq d a x).slices = s.slices := rfl
@[simp] theorem State.setCreq_pavs (s : State) {d a x} : (s.setCreq d a x).pavs = s.pavs := rfl
@[simp] theorem State.setCreq_binds (s : State) {d a x} : (s.setCreq d a x).binds = s.binds := rfl
@[simp] theorem State.setCreq_raised (s : State) {d a x} : (s.setCreq d a x).raised = s.raised := rfl
@[simp] theorem State.setCreq_records (s : State) {d a x} : (s.setCreq d a x).records = s.records := rfl
@[simp] theorem State.setCreq_lodgeSeq (s : State) {d a x} : (s.setCreq d a x).lodgeSeq = s.lodgeSeq := rfl
@[simp] theorem State.setCreq_imsic (s : State) {d a x} : (s.setCreq d a x).imsic = s.imsic := rfl
@[simp] theorem State.setCreq_d2d (s : State) {d a x} : (s.setCreq d a x).d2d = s.d2d := rfl
@[simp] theorem State.setCreq_trl (s : State) {d a x} : (s.setCreq d a x).trl = s.trl := rfl
@[simp] theorem State.setCreq_tel (s : State) {d a x} : (s.setCreq d a x).tel = s.tel := rfl
@[simp] theorem State.setCreq_pwr (s : State) {d a x} : (s.setCreq d a x).pwr = s.pwr := rfl
@[simp] theorem State.setCreq_sys (s : State) {d a x} : (s.setCreq d a x).sys = s.sys := rfl
@[simp] theorem State.setCreq_kpr (s : State) {d a x} : (s.setCreq d a x).kpr = s.kpr := rfl
@[simp] theorem State.setCreq_hub (s : State) {d a x} : (s.setCreq d a x).hub = s.hub := rfl
@[simp] theorem State.setCreq_out (s : State) {d a x} : (s.setCreq d a x).out = s.out := rfl
@[simp] theorem State.setCreq_reg (s : State) {d a x} (z : Reg) (z1 z2 : Nat) : (s.setCreq d a x).reg z z1 z2 = s.reg z z1 z2 := rfl

/-! ### setCell -/

@[simp] theorem State.setCell_pending (s : State) {c x} : (s.setCell c x).pending = s.pending := rfl
@[simp] theorem State.setCell_freeCtr (s : State) {c x} : (s.setCell c x).freeCtr = s.freeCtr := rfl
@[simp] theorem State.setCell_mtime (s : State) {c x} : (s.setCell c x).mtime = s.mtime := rfl
@[simp] theorem State.setCell_regs (s : State) {c x} : (s.setCell c x).regs = s.regs := rfl
@[simp] theorem State.setCell_shadows (s : State) {c x} : (s.setCell c x).shadows = s.shadows := rfl
@[simp] theorem State.setCell_mem (s : State) {c x} : (s.setCell c x).mem = s.mem := rfl
@[simp] theorem State.setCell_marks (s : State) {c x} : (s.setCell c x).marks = s.marks := rfl
@[simp] theorem State.setCell_str (s : State) {c x} : (s.setCell c x).str = s.str := rfl
@[simp] theorem State.setCell_smmu (s : State) {c x} : (s.setCell c x).smmu = s.smmu := rfl
@[simp] theorem State.setCell_ws (s : State) {c x} : (s.setCell c x).ws = s.ws := rfl
@[simp] theorem State.setCell_lnk (s : State) {c x} : (s.setCell c x).lnk = s.lnk := rfl
@[simp] theorem State.setCell_org (s : State) {c x} : (s.setCell c x).org = s.org := rfl
@[simp] theorem State.setCell_coh (s : State) {c x} : (s.setCell c x).coh = s.coh := rfl
@[simp] theorem State.setCell_slices (s : State) {c x} : (s.setCell c x).slices = s.slices := rfl
@[simp] theorem State.setCell_pavs (s : State) {c x} : (s.setCell c x).pavs = s.pavs := rfl
@[simp] theorem State.setCell_binds (s : State) {c x} : (s.setCell c x).binds = s.binds := rfl
@[simp] theorem State.setCell_raised (s : State) {c x} : (s.setCell c x).raised = s.raised := rfl
@[simp] theorem State.setCell_records (s : State) {c x} : (s.setCell c x).records = s.records := rfl
@[simp] theorem State.setCell_lodgeSeq (s : State) {c x} : (s.setCell c x).lodgeSeq = s.lodgeSeq := rfl
@[simp] theorem State.setCell_imsic (s : State) {c x} : (s.setCell c x).imsic = s.imsic := rfl
@[simp] theorem State.setCell_d2d (s : State) {c x} : (s.setCell c x).d2d = s.d2d := rfl
@[simp] theorem State.setCell_trl (s : State) {c x} : (s.setCell c x).trl = s.trl := rfl
@[simp] theorem State.setCell_tel (s : State) {c x} : (s.setCell c x).tel = s.tel := rfl
@[simp] theorem State.setCell_pwr (s : State) {c x} : (s.setCell c x).pwr = s.pwr := rfl
@[simp] theorem State.setCell_sys (s : State) {c x} : (s.setCell c x).sys = s.sys := rfl
@[simp] theorem State.setCell_kpr (s : State) {c x} : (s.setCell c x).kpr = s.kpr := rfl
@[simp] theorem State.setCell_hub (s : State) {c x} : (s.setCell c x).hub = s.hub := rfl
@[simp] theorem State.setCell_out (s : State) {c x} : (s.setCell c x).out = s.out := rfl
@[simp] theorem State.setCell_disp (s : State) {c x} : (s.setCell c x).arr.disp = s.arr.disp := rfl
@[simp] theorem State.setCell_lanes (s : State) {c x} : (s.setCell c x).arr.lanes = s.arr.lanes := rfl
@[simp] theorem State.setCell_drains (s : State) {c x} : (s.setCell c x).arr.drains = s.arr.drains := rfl
@[simp] theorem State.setCell_vecs (s : State) {c x} : (s.setCell c x).arr.vecs = s.arr.vecs := rfl
@[simp] theorem State.setCell_tracks (s : State) {c x} : (s.setCell c x).arr.tracks = s.arr.tracks := rfl
@[simp] theorem State.setCell_rx (s : State) {c x} : (s.setCell c x).arr.rx = s.arr.rx := rfl
@[simp] theorem State.setCell_banks (s : State) {c x} : (s.setCell c x).arr.banks = s.arr.banks := rfl
@[simp] theorem State.setCell_mcast (s : State) {c x} : (s.setCell c x).arr.mcast = s.arr.mcast := rfl
@[simp] theorem State.setCell_nextX (s : State) {c x} : (s.setCell c x).arr.nextX = s.arr.nextX := rfl
@[simp] theorem State.setCell_reg (s : State) {c x} (z : Reg) (z1 z2 : Nat) : (s.setCell c x).reg z z1 z2 = s.reg z z1 z2 := rfl
@[simp] theorem State.setCell_self (s : State) {c x} : (s.setCell c x).cell c = x := tget_tset_self _ _ _ _

/-! ### setLane -/

@[simp] theorem State.setLane_pending (s : State) {c r k x} : (s.setLane c r k x).pending = s.pending := rfl
@[simp] theorem State.setLane_freeCtr (s : State) {c r k x} : (s.setLane c r k x).freeCtr = s.freeCtr := rfl
@[simp] theorem State.setLane_mtime (s : State) {c r k x} : (s.setLane c r k x).mtime = s.mtime := rfl
@[simp] theorem State.setLane_regs (s : State) {c r k x} : (s.setLane c r k x).regs = s.regs := rfl
@[simp] theorem State.setLane_shadows (s : State) {c r k x} : (s.setLane c r k x).shadows = s.shadows := rfl
@[simp] theorem State.setLane_mem (s : State) {c r k x} : (s.setLane c r k x).mem = s.mem := rfl
@[simp] theorem State.setLane_marks (s : State) {c r k x} : (s.setLane c r k x).marks = s.marks := rfl
@[simp] theorem State.setLane_str (s : State) {c r k x} : (s.setLane c r k x).str = s.str := rfl
@[simp] theorem State.setLane_smmu (s : State) {c r k x} : (s.setLane c r k x).smmu = s.smmu := rfl
@[simp] theorem State.setLane_ws (s : State) {c r k x} : (s.setLane c r k x).ws = s.ws := rfl
@[simp] theorem State.setLane_lnk (s : State) {c r k x} : (s.setLane c r k x).lnk = s.lnk := rfl
@[simp] theorem State.setLane_org (s : State) {c r k x} : (s.setLane c r k x).org = s.org := rfl
@[simp] theorem State.setLane_coh (s : State) {c r k x} : (s.setLane c r k x).coh = s.coh := rfl
@[simp] theorem State.setLane_slices (s : State) {c r k x} : (s.setLane c r k x).slices = s.slices := rfl
@[simp] theorem State.setLane_pavs (s : State) {c r k x} : (s.setLane c r k x).pavs = s.pavs := rfl
@[simp] theorem State.setLane_binds (s : State) {c r k x} : (s.setLane c r k x).binds = s.binds := rfl
@[simp] theorem State.setLane_raised (s : State) {c r k x} : (s.setLane c r k x).raised = s.raised := rfl
@[simp] theorem State.setLane_records (s : State) {c r k x} : (s.setLane c r k x).records = s.records := rfl
@[simp] theorem State.setLane_lodgeSeq (s : State) {c r k x} : (s.setLane c r k x).lodgeSeq = s.lodgeSeq := rfl
@[simp] theorem State.setLane_imsic (s : State) {c r k x} : (s.setLane c r k x).imsic = s.imsic := rfl
@[simp] theorem State.setLane_d2d (s : State) {c r k x} : (s.setLane c r k x).d2d = s.d2d := rfl
@[simp] theorem State.setLane_trl (s : State) {c r k x} : (s.setLane c r k x).trl = s.trl := rfl
@[simp] theorem State.setLane_tel (s : State) {c r k x} : (s.setLane c r k x).tel = s.tel := rfl
@[simp] theorem State.setLane_pwr (s : State) {c r k x} : (s.setLane c r k x).pwr = s.pwr := rfl
@[simp] theorem State.setLane_sys (s : State) {c r k x} : (s.setLane c r k x).sys = s.sys := rfl
@[simp] theorem State.setLane_kpr (s : State) {c r k x} : (s.setLane c r k x).kpr = s.kpr := rfl
@[simp] theorem State.setLane_hub (s : State) {c r k x} : (s.setLane c r k x).hub = s.hub := rfl
@[simp] theorem State.setLane_out (s : State) {c r k x} : (s.setLane c r k x).out = s.out := rfl
@[simp] theorem State.setLane_disp (s : State) {c r k x} : (s.setLane c r k x).arr.disp = s.arr.disp := rfl
@[simp] theorem State.setLane_cells (s : State) {c r k x} : (s.setLane c r k x).arr.cells = s.arr.cells := rfl
@[simp] theorem State.setLane_drains (s : State) {c r k x} : (s.setLane c r k x).arr.drains = s.arr.drains := rfl
@[simp] theorem State.setLane_vecs (s : State) {c r k x} : (s.setLane c r k x).arr.vecs = s.arr.vecs := rfl
@[simp] theorem State.setLane_tracks (s : State) {c r k x} : (s.setLane c r k x).arr.tracks = s.arr.tracks := rfl
@[simp] theorem State.setLane_rx (s : State) {c r k x} : (s.setLane c r k x).arr.rx = s.arr.rx := rfl
@[simp] theorem State.setLane_banks (s : State) {c r k x} : (s.setLane c r k x).arr.banks = s.arr.banks := rfl
@[simp] theorem State.setLane_mcast (s : State) {c r k x} : (s.setLane c r k x).arr.mcast = s.arr.mcast := rfl
@[simp] theorem State.setLane_nextX (s : State) {c r k x} : (s.setLane c r k x).arr.nextX = s.arr.nextX := rfl
@[simp] theorem State.setLane_reg (s : State) {c r k x} (z : Reg) (z1 z2 : Nat) : (s.setLane c r k x).reg z z1 z2 = s.reg z z1 z2 := rfl
@[simp] theorem State.setLane_self (s : State) {c r k x} : (s.setLane c r k x).lane c r k = x := tget_tset_self _ _ _ _

/-! ### setDrain -/

@[simp] theorem State.setDrain_pending (s : State) {c x} : (s.setDrain c x).pending = s.pending := rfl
@[simp] theorem State.setDrain_freeCtr (s : State) {c x} : (s.setDrain c x).freeCtr = s.freeCtr := rfl
@[simp] theorem State.setDrain_mtime (s : State) {c x} : (s.setDrain c x).mtime = s.mtime := rfl
@[simp] theorem State.setDrain_regs (s : State) {c x} : (s.setDrain c x).regs = s.regs := rfl
@[simp] theorem State.setDrain_shadows (s : State) {c x} : (s.setDrain c x).shadows = s.shadows := rfl
@[simp] theorem State.setDrain_mem (s : State) {c x} : (s.setDrain c x).mem = s.mem := rfl
@[simp] theorem State.setDrain_marks (s : State) {c x} : (s.setDrain c x).marks = s.marks := rfl
@[simp] theorem State.setDrain_str (s : State) {c x} : (s.setDrain c x).str = s.str := rfl
@[simp] theorem State.setDrain_smmu (s : State) {c x} : (s.setDrain c x).smmu = s.smmu := rfl
@[simp] theorem State.setDrain_ws (s : State) {c x} : (s.setDrain c x).ws = s.ws := rfl
@[simp] theorem State.setDrain_lnk (s : State) {c x} : (s.setDrain c x).lnk = s.lnk := rfl
@[simp] theorem State.setDrain_org (s : State) {c x} : (s.setDrain c x).org = s.org := rfl
@[simp] theorem State.setDrain_coh (s : State) {c x} : (s.setDrain c x).coh = s.coh := rfl
@[simp] theorem State.setDrain_slices (s : State) {c x} : (s.setDrain c x).slices = s.slices := rfl
@[simp] theorem State.setDrain_pavs (s : State) {c x} : (s.setDrain c x).pavs = s.pavs := rfl
@[simp] theorem State.setDrain_binds (s : State) {c x} : (s.setDrain c x).binds = s.binds := rfl
@[simp] theorem State.setDrain_raised (s : State) {c x} : (s.setDrain c x).raised = s.raised := rfl
@[simp] theorem State.setDrain_records (s : State) {c x} : (s.setDrain c x).records = s.records := rfl
@[simp] theorem State.setDrain_lodgeSeq (s : State) {c x} : (s.setDrain c x).lodgeSeq = s.lodgeSeq := rfl
@[simp] theorem State.setDrain_imsic (s : State) {c x} : (s.setDrain c x).imsic = s.imsic := rfl
@[simp] theorem State.setDrain_d2d (s : State) {c x} : (s.setDrain c x).d2d = s.d2d := rfl
@[simp] theorem State.setDrain_trl (s : State) {c x} : (s.setDrain c x).trl = s.trl := rfl
@[simp] theorem State.setDrain_tel (s : State) {c x} : (s.setDrain c x).tel = s.tel := rfl
@[simp] theorem State.setDrain_pwr (s : State) {c x} : (s.setDrain c x).pwr = s.pwr := rfl
@[simp] theorem State.setDrain_sys (s : State) {c x} : (s.setDrain c x).sys = s.sys := rfl
@[simp] theorem State.setDrain_kpr (s : State) {c x} : (s.setDrain c x).kpr = s.kpr := rfl
@[simp] theorem State.setDrain_hub (s : State) {c x} : (s.setDrain c x).hub = s.hub := rfl
@[simp] theorem State.setDrain_out (s : State) {c x} : (s.setDrain c x).out = s.out := rfl
@[simp] theorem State.setDrain_disp (s : State) {c x} : (s.setDrain c x).arr.disp = s.arr.disp := rfl
@[simp] theorem State.setDrain_cells (s : State) {c x} : (s.setDrain c x).arr.cells = s.arr.cells := rfl
@[simp] theorem State.setDrain_lanes (s : State) {c x} : (s.setDrain c x).arr.lanes = s.arr.lanes := rfl
@[simp] theorem State.setDrain_vecs (s : State) {c x} : (s.setDrain c x).arr.vecs = s.arr.vecs := rfl
@[simp] theorem State.setDrain_tracks (s : State) {c x} : (s.setDrain c x).arr.tracks = s.arr.tracks := rfl
@[simp] theorem State.setDrain_rx (s : State) {c x} : (s.setDrain c x).arr.rx = s.arr.rx := rfl
@[simp] theorem State.setDrain_banks (s : State) {c x} : (s.setDrain c x).arr.banks = s.arr.banks := rfl
@[simp] theorem State.setDrain_mcast (s : State) {c x} : (s.setDrain c x).arr.mcast = s.arr.mcast := rfl
@[simp] theorem State.setDrain_nextX (s : State) {c x} : (s.setDrain c x).arr.nextX = s.arr.nextX := rfl
@[simp] theorem State.setDrain_reg (s : State) {c x} (z : Reg) (z1 z2 : Nat) : (s.setDrain c x).reg z z1 z2 = s.reg z z1 z2 := rfl
@[simp] theorem State.setDrain_self (s : State) {c x} : (s.setDrain c x).drain c = x := tget_tset_self _ _ _ _

/-! ### setVec -/

@[simp] theorem State.setVec_pending (s : State) {b x} : (s.setVec b x).pending = s.pending := rfl
@[simp] theorem State.setVec_freeCtr (s : State) {b x} : (s.setVec b x).freeCtr = s.freeCtr := rfl
@[simp] theorem State.setVec_mtime (s : State) {b x} : (s.setVec b x).mtime = s.mtime := rfl
@[simp] theorem State.setVec_regs (s : State) {b x} : (s.setVec b x).regs = s.regs := rfl
@[simp] theorem State.setVec_shadows (s : State) {b x} : (s.setVec b x).shadows = s.shadows := rfl
@[simp] theorem State.setVec_mem (s : State) {b x} : (s.setVec b x).mem = s.mem := rfl
@[simp] theorem State.setVec_marks (s : State) {b x} : (s.setVec b x).marks = s.marks := rfl
@[simp] theorem State.setVec_str (s : State) {b x} : (s.setVec b x).str = s.str := rfl
@[simp] theorem State.setVec_smmu (s : State) {b x} : (s.setVec b x).smmu = s.smmu := rfl
@[simp] theorem State.setVec_ws (s : State) {b x} : (s.setVec b x).ws = s.ws := rfl
@[simp] theorem State.setVec_lnk (s : State) {b x} : (s.setVec b x).lnk = s.lnk := rfl
@[simp] theorem State.setVec_org (s : State) {b x} : (s.setVec b x).org = s.org := rfl
@[simp] theorem State.setVec_coh (s : State) {b x} : (s.setVec b x).coh = s.coh := rfl
@[simp] theorem State.setVec_slices (s : State) {b x} : (s.setVec b x).slices = s.slices := rfl
@[simp] theorem State.setVec_pavs (s : State) {b x} : (s.setVec b x).pavs = s.pavs := rfl
@[simp] theorem State.setVec_binds (s : State) {b x} : (s.setVec b x).binds = s.binds := rfl
@[simp] theorem State.setVec_raised (s : State) {b x} : (s.setVec b x).raised = s.raised := rfl
@[simp] theorem State.setVec_records (s : State) {b x} : (s.setVec b x).records = s.records := rfl
@[simp] theorem State.setVec_lodgeSeq (s : State) {b x} : (s.setVec b x).lodgeSeq = s.lodgeSeq := rfl
@[simp] theorem State.setVec_imsic (s : State) {b x} : (s.setVec b x).imsic = s.imsic := rfl
@[simp] theorem State.setVec_d2d (s : State) {b x} : (s.setVec b x).d2d = s.d2d := rfl
@[simp] theorem State.setVec_trl (s : State) {b x} : (s.setVec b x).trl = s.trl := rfl
@[simp] theorem State.setVec_tel (s : State) {b x} : (s.setVec b x).tel = s.tel := rfl
@[simp] theorem State.setVec_pwr (s : State) {b x} : (s.setVec b x).pwr = s.pwr := rfl
@[simp] theorem State.setVec_sys (s : State) {b x} : (s.setVec b x).sys = s.sys := rfl
@[simp] theorem State.setVec_kpr (s : State) {b x} : (s.setVec b x).kpr = s.kpr := rfl
@[simp] theorem State.setVec_hub (s : State) {b x} : (s.setVec b x).hub = s.hub := rfl
@[simp] theorem State.setVec_out (s : State) {b x} : (s.setVec b x).out = s.out := rfl
@[simp] theorem State.setVec_disp (s : State) {b x} : (s.setVec b x).arr.disp = s.arr.disp := rfl
@[simp] theorem State.setVec_cells (s : State) {b x} : (s.setVec b x).arr.cells = s.arr.cells := rfl
@[simp] theorem State.setVec_lanes (s : State) {b x} : (s.setVec b x).arr.lanes = s.arr.lanes := rfl
@[simp] theorem State.setVec_drains (s : State) {b x} : (s.setVec b x).arr.drains = s.arr.drains := rfl
@[simp] theorem State.setVec_tracks (s : State) {b x} : (s.setVec b x).arr.tracks = s.arr.tracks := rfl
@[simp] theorem State.setVec_rx (s : State) {b x} : (s.setVec b x).arr.rx = s.arr.rx := rfl
@[simp] theorem State.setVec_banks (s : State) {b x} : (s.setVec b x).arr.banks = s.arr.banks := rfl
@[simp] theorem State.setVec_mcast (s : State) {b x} : (s.setVec b x).arr.mcast = s.arr.mcast := rfl
@[simp] theorem State.setVec_nextX (s : State) {b x} : (s.setVec b x).arr.nextX = s.arr.nextX := rfl
@[simp] theorem State.setVec_reg (s : State) {b x} (z : Reg) (z1 z2 : Nat) : (s.setVec b x).reg z z1 z2 = s.reg z z1 z2 := rfl
@[simp] theorem State.setVec_self (s : State) {b x} : (s.setVec b x).vec b = x := tget_tset_self _ _ _ _

/-! ### setQueue -/

@[simp] theorem State.setQueue_pending (s : State) {k q} : (s.setQueue k q).pending = s.pending := rfl
@[simp] theorem State.setQueue_freeCtr (s : State) {k q} : (s.setQueue k q).freeCtr = s.freeCtr := rfl
@[simp] theorem State.setQueue_mtime (s : State) {k q} : (s.setQueue k q).mtime = s.mtime := rfl
@[simp] theorem State.setQueue_regs (s : State) {k q} : (s.setQueue k q).regs = s.regs := rfl
@[simp] theorem State.setQueue_shadows (s : State) {k q} : (s.setQueue k q).shadows = s.shadows := rfl
@[simp] theorem State.setQueue_mem (s : State) {k q} : (s.setQueue k q).mem = s.mem := rfl
@[simp] theorem State.setQueue_marks (s : State) {k q} : (s.setQueue k q).marks = s.marks := rfl
@[simp] theorem State.setQueue_str (s : State) {k q} : (s.setQueue k q).str = s.str := rfl
@[simp] theorem State.setQueue_smmu (s : State) {k q} : (s.setQueue k q).smmu = s.smmu := rfl
@[simp] theorem State.setQueue_ws (s : State) {k q} : (s.setQueue k q).ws = s.ws := rfl
@[simp] theorem State.setQueue_lnk (s : State) {k q} : (s.setQueue k q).lnk = s.lnk := rfl
@[simp] theorem State.setQueue_org (s : State) {k q} : (s.setQueue k q).org = s.org := rfl
@[simp] theorem State.setQueue_coh (s : State) {k q} : (s.setQueue k q).coh = s.coh := rfl
@[simp] theorem State.setQueue_slices (s : State) {k q} : (s.setQueue k q).slices = s.slices := rfl
@[simp] theorem State.setQueue_pavs (s : State) {k q} : (s.setQueue k q).pavs = s.pavs := rfl
@[simp] theorem State.setQueue_binds (s : State) {k q} : (s.setQueue k q).binds = s.binds := rfl
@[simp] theorem State.setQueue_raised (s : State) {k q} : (s.setQueue k q).raised = s.raised := rfl
@[simp] theorem State.setQueue_records (s : State) {k q} : (s.setQueue k q).records = s.records := rfl
@[simp] theorem State.setQueue_lodgeSeq (s : State) {k q} : (s.setQueue k q).lodgeSeq = s.lodgeSeq := rfl
@[simp] theorem State.setQueue_imsic (s : State) {k q} : (s.setQueue k q).imsic = s.imsic := rfl
@[simp] theorem State.setQueue_d2d (s : State) {k q} : (s.setQueue k q).d2d = s.d2d := rfl
@[simp] theorem State.setQueue_trl (s : State) {k q} : (s.setQueue k q).trl = s.trl := rfl
@[simp] theorem State.setQueue_tel (s : State) {k q} : (s.setQueue k q).tel = s.tel := rfl
@[simp] theorem State.setQueue_pwr (s : State) {k q} : (s.setQueue k q).pwr = s.pwr := rfl
@[simp] theorem State.setQueue_sys (s : State) {k q} : (s.setQueue k q).sys = s.sys := rfl
@[simp] theorem State.setQueue_kpr (s : State) {k q} : (s.setQueue k q).kpr = s.kpr := rfl
@[simp] theorem State.setQueue_hub (s : State) {k q} : (s.setQueue k q).hub = s.hub := rfl
@[simp] theorem State.setQueue_out (s : State) {k q} : (s.setQueue k q).out = s.out := rfl
@[simp] theorem State.setQueue_cells (s : State) {k q} : (s.setQueue k q).arr.cells = s.arr.cells := rfl
@[simp] theorem State.setQueue_lanes (s : State) {k q} : (s.setQueue k q).arr.lanes = s.arr.lanes := rfl
@[simp] theorem State.setQueue_drains (s : State) {k q} : (s.setQueue k q).arr.drains = s.arr.drains := rfl
@[simp] theorem State.setQueue_vecs (s : State) {k q} : (s.setQueue k q).arr.vecs = s.arr.vecs := rfl
@[simp] theorem State.setQueue_tracks (s : State) {k q} : (s.setQueue k q).arr.tracks = s.arr.tracks := rfl
@[simp] theorem State.setQueue_rx (s : State) {k q} : (s.setQueue k q).arr.rx = s.arr.rx := rfl
@[simp] theorem State.setQueue_banks (s : State) {k q} : (s.setQueue k q).arr.banks = s.arr.banks := rfl
@[simp] theorem State.setQueue_mcast (s : State) {k q} : (s.setQueue k q).arr.mcast = s.arr.mcast := rfl
@[simp] theorem State.setQueue_nextX (s : State) {k q} : (s.setQueue k q).arr.nextX = s.arr.nextX := rfl
@[simp] theorem State.setQueue_reg (s : State) {k q} (z : Reg) (z1 z2 : Nat) : (s.setQueue k q).reg z z1 z2 = s.reg z z1 z2 := rfl
@[simp] theorem State.setQueue_self (s : State) {k q} : (s.setQueue k q).queue k = q := tget_tset_self _ _ _ _

/-! ### setSlice -/

@[simp] theorem State.setSlice_pending (s : State) {p d x} : (s.setSlice p d x).pending = s.pending := rfl
@[simp] theorem State.setSlice_freeCtr (s : State) {p d x} : (s.setSlice p d x).freeCtr = s.freeCtr := rfl
@[simp] theorem State.setSlice_mtime (s : State) {p d x} : (s.setSlice p d x).mtime = s.mtime := rfl
@[simp] theorem State.setSlice_regs (s : State) {p d x} : (s.setSlice p d x).regs = s.regs := rfl
@[simp] theorem State.setSlice_shadows (s : State) {p d x} : (s.setSlice p d x).shadows = s.shadows := rfl
@[simp] theorem State.setSlice_mem (s : State) {p d x} : (s.setSlice p d x).mem = s.mem := rfl
@[simp] theorem State.setSlice_marks (s : State) {p d x} : (s.setSlice p d x).marks = s.marks := rfl
@[simp] theorem State.setSlice_arr (s : State) {p d x} : (s.setSlice p d x).arr = s.arr := rfl
@[simp] theorem State.setSlice_str (s : State) {p d x} : (s.setSlice p d x).str = s.str := rfl
@[simp] theorem State.setSlice_smmu (s : State) {p d x} : (s.setSlice p d x).smmu = s.smmu := rfl
@[simp] theorem State.setSlice_ws (s : State) {p d x} : (s.setSlice p d x).ws = s.ws := rfl
@[simp] theorem State.setSlice_lnk (s : State) {p d x} : (s.setSlice p d x).lnk = s.lnk := rfl
@[simp] theorem State.setSlice_org (s : State) {p d x} : (s.setSlice p d x).org = s.org := rfl
@[simp] theorem State.setSlice_coh (s : State) {p d x} : (s.setSlice p d x).coh = s.coh := rfl
@[simp] theorem State.setSlice_pavs (s : State) {p d x} : (s.setSlice p d x).pavs = s.pavs := rfl
@[simp] theorem State.setSlice_binds (s : State) {p d x} : (s.setSlice p d x).binds = s.binds := rfl
@[simp] theorem State.setSlice_raised (s : State) {p d x} : (s.setSlice p d x).raised = s.raised := rfl
@[simp] theorem State.setSlice_records (s : State) {p d x} : (s.setSlice p d x).records = s.records := rfl
@[simp] theorem State.setSlice_lodgeSeq (s : State) {p d x} : (s.setSlice p d x).lodgeSeq = s.lodgeSeq := rfl
@[simp] theorem State.setSlice_imsic (s : State) {p d x} : (s.setSlice p d x).imsic = s.imsic := rfl
@[simp] theorem State.setSlice_d2d (s : State) {p d x} : (s.setSlice p d x).d2d = s.d2d := rfl
@[simp] theorem State.setSlice_trl (s : State) {p d x} : (s.setSlice p d x).trl = s.trl := rfl
@[simp] theorem State.setSlice_tel (s : State) {p d x} : (s.setSlice p d x).tel = s.tel := rfl
@[simp] theorem State.setSlice_pwr (s : State) {p d x} : (s.setSlice p d x).pwr = s.pwr := rfl
@[simp] theorem State.setSlice_sys (s : State) {p d x} : (s.setSlice p d x).sys = s.sys := rfl
@[simp] theorem State.setSlice_kpr (s : State) {p d x} : (s.setSlice p d x).kpr = s.kpr := rfl
@[simp] theorem State.setSlice_hub (s : State) {p d x} : (s.setSlice p d x).hub = s.hub := rfl
@[simp] theorem State.setSlice_out (s : State) {p d x} : (s.setSlice p d x).out = s.out := rfl
@[simp] theorem State.setSlice_reg (s : State) {p d x} (z : Reg) (z1 z2 : Nat) : (s.setSlice p d x).reg z z1 z2 = s.reg z z1 z2 := rfl
@[simp] theorem State.setSlice_self (s : State) {p d x} : (s.setSlice p d x).slice p d = x := tget_tset_self _ _ _ _

/-! ### setPav -/

@[simp] theorem State.setPav_pending (s : State) {p x} : (s.setPav p x).pending = s.pending := rfl
@[simp] theorem State.setPav_freeCtr (s : State) {p x} : (s.setPav p x).freeCtr = s.freeCtr := rfl
@[simp] theorem State.setPav_mtime (s : State) {p x} : (s.setPav p x).mtime = s.mtime := rfl
@[simp] theorem State.setPav_regs (s : State) {p x} : (s.setPav p x).regs = s.regs := rfl
@[simp] theorem State.setPav_shadows (s : State) {p x} : (s.setPav p x).shadows = s.shadows := rfl
@[simp] theorem State.setPav_mem (s : State) {p x} : (s.setPav p x).mem = s.mem := rfl
@[simp] theorem State.setPav_marks (s : State) {p x} : (s.setPav p x).marks = s.marks := rfl
@[simp] theorem State.setPav_arr (s : State) {p x} : (s.setPav p x).arr = s.arr := rfl
@[simp] theorem State.setPav_str (s : State) {p x} : (s.setPav p x).str = s.str := rfl
@[simp] theorem State.setPav_smmu (s : State) {p x} : (s.setPav p x).smmu = s.smmu := rfl
@[simp] theorem State.setPav_ws (s : State) {p x} : (s.setPav p x).ws = s.ws := rfl
@[simp] theorem State.setPav_lnk (s : State) {p x} : (s.setPav p x).lnk = s.lnk := rfl
@[simp] theorem State.setPav_org (s : State) {p x} : (s.setPav p x).org = s.org := rfl
@[simp] theorem State.setPav_coh (s : State) {p x} : (s.setPav p x).coh = s.coh := rfl
@[simp] theorem State.setPav_slices (s : State) {p x} : (s.setPav p x).slices = s.slices := rfl
@[simp] theorem State.setPav_binds (s : State) {p x} : (s.setPav p x).binds = s.binds := rfl
@[simp] theorem State.setPav_raised (s : State) {p x} : (s.setPav p x).raised = s.raised := rfl
@[simp] theorem State.setPav_records (s : State) {p x} : (s.setPav p x).records = s.records := rfl
@[simp] theorem State.setPav_lodgeSeq (s : State) {p x} : (s.setPav p x).lodgeSeq = s.lodgeSeq := rfl
@[simp] theorem State.setPav_imsic (s : State) {p x} : (s.setPav p x).imsic = s.imsic := rfl
@[simp] theorem State.setPav_d2d (s : State) {p x} : (s.setPav p x).d2d = s.d2d := rfl
@[simp] theorem State.setPav_trl (s : State) {p x} : (s.setPav p x).trl = s.trl := rfl
@[simp] theorem State.setPav_tel (s : State) {p x} : (s.setPav p x).tel = s.tel := rfl
@[simp] theorem State.setPav_pwr (s : State) {p x} : (s.setPav p x).pwr = s.pwr := rfl
@[simp] theorem State.setPav_sys (s : State) {p x} : (s.setPav p x).sys = s.sys := rfl
@[simp] theorem State.setPav_kpr (s : State) {p x} : (s.setPav p x).kpr = s.kpr := rfl
@[simp] theorem State.setPav_hub (s : State) {p x} : (s.setPav p x).hub = s.hub := rfl
@[simp] theorem State.setPav_out (s : State) {p x} : (s.setPav p x).out = s.out := rfl
@[simp] theorem State.setPav_reg (s : State) {p x} (z : Reg) (z1 z2 : Nat) : (s.setPav p x).reg z z1 z2 = s.reg z z1 z2 := rfl
@[simp] theorem State.setPav_self (s : State) {p x} : (s.setPav p x).pav p = x := tget_tset_self _ _ _ _

/-! ### setSession -/

@[simp] theorem State.setSession_pending (s : State) {n k} : (s.setSession n k).pending = s.pending := rfl
@[simp] theorem State.setSession_freeCtr (s : State) {n k} : (s.setSession n k).freeCtr = s.freeCtr := rfl
@[simp] theorem State.setSession_mtime (s : State) {n k} : (s.setSession n k).mtime = s.mtime := rfl
@[simp] theorem State.setSession_regs (s : State) {n k} : (s.setSession n k).regs = s.regs := rfl
@[simp] theorem State.setSession_shadows (s : State) {n k} : (s.setSession n k).shadows = s.shadows := rfl
@[simp] theorem State.setSession_mem (s : State) {n k} : (s.setSession n k).mem = s.mem := rfl
@[simp] theorem State.setSession_marks (s : State) {n k} : (s.setSession n k).marks = s.marks := rfl
@[simp] theorem State.setSession_arr (s : State) {n k} : (s.setSession n k).arr = s.arr := rfl
@[simp] theorem State.setSession_str (s : State) {n k} : (s.setSession n k).str = s.str := rfl
@[simp] theorem State.setSession_smmu (s : State) {n k} : (s.setSession n k).smmu = s.smmu := rfl
@[simp] theorem State.setSession_ws (s : State) {n k} : (s.setSession n k).ws = s.ws := rfl
@[simp] theorem State.setSession_org (s : State) {n k} : (s.setSession n k).org = s.org := rfl
@[simp] theorem State.setSession_coh (s : State) {n k} : (s.setSession n k).coh = s.coh := rfl
@[simp] theorem State.setSession_slices (s : State) {n k} : (s.setSession n k).slices = s.slices := rfl
@[simp] theorem State.setSession_pavs (s : State) {n k} : (s.setSession n k).pavs = s.pavs := rfl
@[simp] theorem State.setSession_binds (s : State) {n k} : (s.setSession n k).binds = s.binds := rfl
@[simp] theorem State.setSession_raised (s : State) {n k} : (s.setSession n k).raised = s.raised := rfl
@[simp] theorem State.setSession_records (s : State) {n k} : (s.setSession n k).records = s.records := rfl
@[simp] theorem State.setSession_lodgeSeq (s : State) {n k} : (s.setSession n k).lodgeSeq = s.lodgeSeq := rfl
@[simp] theorem State.setSession_imsic (s : State) {n k} : (s.setSession n k).imsic = s.imsic := rfl
@[simp] theorem State.setSession_d2d (s : State) {n k} : (s.setSession n k).d2d = s.d2d := rfl
@[simp] theorem State.setSession_trl (s : State) {n k} : (s.setSession n k).trl = s.trl := rfl
@[simp] theorem State.setSession_tel (s : State) {n k} : (s.setSession n k).tel = s.tel := rfl
@[simp] theorem State.setSession_pwr (s : State) {n k} : (s.setSession n k).pwr = s.pwr := rfl
@[simp] theorem State.setSession_sys (s : State) {n k} : (s.setSession n k).sys = s.sys := rfl
@[simp] theorem State.setSession_kpr (s : State) {n k} : (s.setSession n k).kpr = s.kpr := rfl
@[simp] theorem State.setSession_hub (s : State) {n k} : (s.setSession n k).hub = s.hub := rfl
@[simp] theorem State.setSession_out (s : State) {n k} : (s.setSession n k).out = s.out := rfl
@[simp] theorem State.setSession_reg (s : State) {n k} (z : Reg) (z1 z2 : Nat) : (s.setSession n k).reg z z1 z2 = s.reg z z1 z2 := rfl
@[simp] theorem State.setSession_self (s : State) {n k} : (s.setSession n k).session n = some k := tfind_tset_self _ _ _

/-! ### setPort -/

@[simp] theorem State.setPort_pending (s : State) {n x} : (s.setPort n x).pending = s.pending := rfl
@[simp] theorem State.setPort_freeCtr (s : State) {n x} : (s.setPort n x).freeCtr = s.freeCtr := rfl
@[simp] theorem State.setPort_mtime (s : State) {n x} : (s.setPort n x).mtime = s.mtime := rfl
@[simp] theorem State.setPort_regs (s : State) {n x} : (s.setPort n x).regs = s.regs := rfl
@[simp] theorem State.setPort_shadows (s : State) {n x} : (s.setPort n x).shadows = s.shadows := rfl
@[simp] theorem State.setPort_mem (s : State) {n x} : (s.setPort n x).mem = s.mem := rfl
@[simp] theorem State.setPort_marks (s : State) {n x} : (s.setPort n x).marks = s.marks := rfl
@[simp] theorem State.setPort_arr (s : State) {n x} : (s.setPort n x).arr = s.arr := rfl
@[simp] theorem State.setPort_str (s : State) {n x} : (s.setPort n x).str = s.str := rfl
@[simp] theorem State.setPort_smmu (s : State) {n x} : (s.setPort n x).smmu = s.smmu := rfl
@[simp] theorem State.setPort_ws (s : State) {n x} : (s.setPort n x).ws = s.ws := rfl
@[simp] theorem State.setPort_org (s : State) {n x} : (s.setPort n x).org = s.org := rfl
@[simp] theorem State.setPort_coh (s : State) {n x} : (s.setPort n x).coh = s.coh := rfl
@[simp] theorem State.setPort_slices (s : State) {n x} : (s.setPort n x).slices = s.slices := rfl
@[simp] theorem State.setPort_pavs (s : State) {n x} : (s.setPort n x).pavs = s.pavs := rfl
@[simp] theorem State.setPort_binds (s : State) {n x} : (s.setPort n x).binds = s.binds := rfl
@[simp] theorem State.setPort_raised (s : State) {n x} : (s.setPort n x).raised = s.raised := rfl
@[simp] theorem State.setPort_records (s : State) {n x} : (s.setPort n x).records = s.records := rfl
@[simp] theorem State.setPort_lodgeSeq (s : State) {n x} : (s.setPort n x).lodgeSeq = s.lodgeSeq := rfl
@[simp] theorem State.setPort_imsic (s : State) {n x} : (s.setPort n x).imsic = s.imsic := rfl
@[simp] theorem State.setPort_d2d (s : State) {n x} : (s.setPort n x).d2d = s.d2d := rfl
@[simp] theorem State.setPort_trl (s : State) {n x} : (s.setPort n x).trl = s.trl := rfl
@[simp] theorem State.setPort_tel (s : State) {n x} : (s.setPort n x).tel = s.tel := rfl
@[simp] theorem State.setPort_pwr (s : State) {n x} : (s.setPort n x).pwr = s.pwr := rfl
@[simp] theorem State.setPort_sys (s : State) {n x} : (s.setPort n x).sys = s.sys := rfl
@[simp] theorem State.setPort_kpr (s : State) {n x} : (s.setPort n x).kpr = s.kpr := rfl
@[simp] theorem State.setPort_hub (s : State) {n x} : (s.setPort n x).hub = s.hub := rfl
@[simp] theorem State.setPort_out (s : State) {n x} : (s.setPort n x).out = s.out := rfl
@[simp] theorem State.setPort_reg (s : State) {n x} (z : Reg) (z1 z2 : Nat) : (s.setPort n x).reg z z1 z2 = s.reg z z1 z2 := rfl
@[simp] theorem State.setPort_self (s : State) {n x} : (s.setPort n x).port n = x := tget_tset_self _ _ _ _

/-! ### setRun -/

@[simp] theorem State.setRun_pending (s : State) {e c x} : (s.setRun e c x).pending = s.pending := rfl
@[simp] theorem State.setRun_freeCtr (s : State) {e c x} : (s.setRun e c x).freeCtr = s.freeCtr := rfl
@[simp] theorem State.setRun_mtime (s : State) {e c x} : (s.setRun e c x).mtime = s.mtime := rfl
@[simp] theorem State.setRun_regs (s : State) {e c x} : (s.setRun e c x).regs = s.regs := rfl
@[simp] theorem State.setRun_shadows (s : State) {e c x} : (s.setRun e c x).shadows = s.shadows := rfl
@[simp] theorem State.setRun_mem (s : State) {e c x} : (s.setRun e c x).mem = s.mem := rfl
@[simp] theorem State.setRun_marks (s : State) {e c x} : (s.setRun e c x).marks = s.marks := rfl
@[simp] theorem State.setRun_arr (s : State) {e c x} : (s.setRun e c x).arr = s.arr := rfl
@[simp] theorem State.setRun_smmu (s : State) {e c x} : (s.setRun e c x).smmu = s.smmu := rfl
@[simp] theorem State.setRun_ws (s : State) {e c x} : (s.setRun e c x).ws = s.ws := rfl
@[simp] theorem State.setRun_lnk (s : State) {e c x} : (s.setRun e c x).lnk = s.lnk := rfl
@[simp] theorem State.setRun_org (s : State) {e c x} : (s.setRun e c x).org = s.org := rfl
@[simp] theorem State.setRun_coh (s : State) {e c x} : (s.setRun e c x).coh = s.coh := rfl
@[simp] theorem State.setRun_slices (s : State) {e c x} : (s.setRun e c x).slices = s.slices := rfl
@[simp] theorem State.setRun_pavs (s : State) {e c x} : (s.setRun e c x).pavs = s.pavs := rfl
@[simp] theorem State.setRun_binds (s : State) {e c x} : (s.setRun e c x).binds = s.binds := rfl
@[simp] theorem State.setRun_raised (s : State) {e c x} : (s.setRun e c x).raised = s.raised := rfl
@[simp] theorem State.setRun_records (s : State) {e c x} : (s.setRun e c x).records = s.records := rfl
@[simp] theorem State.setRun_lodgeSeq (s : State) {e c x} : (s.setRun e c x).lodgeSeq = s.lodgeSeq := rfl
@[simp] theorem State.setRun_imsic (s : State) {e c x} : (s.setRun e c x).imsic = s.imsic := rfl
@[simp] theorem State.setRun_d2d (s : State) {e c x} : (s.setRun e c x).d2d = s.d2d := rfl
@[simp] theorem State.setRun_trl (s : State) {e c x} : (s.setRun e c x).trl = s.trl := rfl
@[simp] theorem State.setRun_tel (s : State) {e c x} : (s.setRun e c x).tel = s.tel := rfl
@[simp] theorem State.setRun_pwr (s : State) {e c x} : (s.setRun e c x).pwr = s.pwr := rfl
@[simp] theorem State.setRun_sys (s : State) {e c x} : (s.setRun e c x).sys = s.sys := rfl
@[simp] theorem State.setRun_kpr (s : State) {e c x} : (s.setRun e c x).kpr = s.kpr := rfl
@[simp] theorem State.setRun_hub (s : State) {e c x} : (s.setRun e c x).hub = s.hub := rfl
@[simp] theorem State.setRun_out (s : State) {e c x} : (s.setRun e c x).out = s.out := rfl
@[simp] theorem State.setRun_reg (s : State) {e c x} (z : Reg) (z1 z2 : Nat) : (s.setRun e c x).reg z z1 z2 = s.reg z z1 z2 := rfl

/-! ### setCline -/

@[simp] theorem State.setCline_pending (s : State) {d a x} : (s.setCline d a x).pending = s.pending := rfl
@[simp] theorem State.setCline_freeCtr (s : State) {d a x} : (s.setCline d a x).freeCtr = s.freeCtr := rfl
@[simp] theorem State.setCline_mtime (s : State) {d a x} : (s.setCline d a x).mtime = s.mtime := rfl
@[simp] theorem State.setCline_regs (s : State) {d a x} : (s.setCline d a x).regs = s.regs := rfl
@[simp] theorem State.setCline_shadows (s : State) {d a x} : (s.setCline d a x).shadows = s.shadows := rfl
@[simp] theorem State.setCline_mem (s : State) {d a x} : (s.setCline d a x).mem = s.mem := rfl
@[simp] theorem State.setCline_marks (s : State) {d a x} : (s.setCline d a x).marks = s.marks := rfl
@[simp] theorem State.setCline_arr (s : State) {d a x} : (s.setCline d a x).arr = s.arr := rfl
@[simp] theorem State.setCline_str (s : State) {d a x} : (s.setCline d a x).str = s.str := rfl
@[simp] theorem State.setCline_smmu (s : State) {d a x} : (s.setCline d a x).smmu = s.smmu := rfl
@[simp] theorem State.setCline_ws (s : State) {d a x} : (s.setCline d a x).ws = s.ws := rfl
@[simp] theorem State.setCline_lnk (s : State) {d a x} : (s.setCline d a x).lnk = s.lnk := rfl
@[simp] theorem State.setCline_org (s : State) {d a x} : (s.setCline d a x).org = s.org := rfl
@[simp] theorem State.setCline_slices (s : State) {d a x} : (s.setCline d a x).slices = s.slices := rfl
@[simp] theorem State.setCline_pavs (s : State) {d a x} : (s.setCline d a x).pavs = s.pavs := rfl
@[simp] theorem State.setCline_binds (s : State) {d a x} : (s.setCline d a x).binds = s.binds := rfl
@[simp] theorem State.setCline_raised (s : State) {d a x} : (s.setCline d a x).raised = s.raised := rfl
@[simp] theorem State.setCline_records (s : State) {d a x} : (s.setCline d a x).records = s.records := rfl
@[simp] theorem State.setCline_lodgeSeq (s : State) {d a x} : (s.setCline d a x).lodgeSeq = s.lodgeSeq := rfl
@[simp] theorem State.setCline_imsic (s : State) {d a x} : (s.setCline d a x).imsic = s.imsic := rfl
@[simp] theorem State.setCline_d2d (s : State) {d a x} : (s.setCline d a x).d2d = s.d2d := rfl
@[simp] theorem State.setCline_trl (s : State) {d a x} : (s.setCline d a x).trl = s.trl := rfl
@[simp] theorem State.setCline_tel (s : State) {d a x} : (s.setCline d a x).tel = s.tel := rfl
@[simp] theorem State.setCline_pwr (s : State) {d a x} : (s.setCline d a x).pwr = s.pwr := rfl
@[simp] theorem State.setCline_sys (s : State) {d a x} : (s.setCline d a x).sys = s.sys := rfl
@[simp] theorem State.setCline_kpr (s : State) {d a x} : (s.setCline d a x).kpr = s.kpr := rfl
@[simp] theorem State.setCline_hub (s : State) {d a x} : (s.setCline d a x).hub = s.hub := rfl
@[simp] theorem State.setCline_out (s : State) {d a x} : (s.setCline d a x).out = s.out := rfl
@[simp] theorem State.setCline_reg (s : State) {d a x} (z : Reg) (z1 z2 : Nat) : (s.setCline d a x).reg z z1 z2 = s.reg z z1 z2 := rfl

/-! ### setPline -/

@[simp] theorem State.setPline_pending (s : State) {d w k x} : (s.setPline d w k x).pending = s.pending := rfl
@[simp] theorem State.setPline_freeCtr (s : State) {d w k x} : (s.setPline d w k x).freeCtr = s.freeCtr := rfl
@[simp] theorem State.setPline_mtime (s : State) {d w k x} : (s.setPline d w k x).mtime = s.mtime := rfl
@[simp] theorem State.setPline_regs (s : State) {d w k x} : (s.setPline d w k x).regs = s.regs := rfl
@[simp] theorem State.setPline_shadows (s : State) {d w k x} : (s.setPline d w k x).shadows = s.shadows := rfl
@[simp] theorem State.setPline_mem (s : State) {d w k x} : (s.setPline d w k x).mem = s.mem := rfl
@[simp] theorem State.setPline_marks (s : State) {d w k x} : (s.setPline d w k x).marks = s.marks := rfl
@[simp] theorem State.setPline_arr (s : State) {d w k x} : (s.setPline d w k x).arr = s.arr := rfl
@[simp] theorem State.setPline_str (s : State) {d w k x} : (s.setPline d w k x).str = s.str := rfl
@[simp] theorem State.setPline_smmu (s : State) {d w k x} : (s.setPline d w k x).smmu = s.smmu := rfl
@[simp] theorem State.setPline_ws (s : State) {d w k x} : (s.setPline d w k x).ws = s.ws := rfl
@[simp] theorem State.setPline_lnk (s : State) {d w k x} : (s.setPline d w k x).lnk = s.lnk := rfl
@[simp] theorem State.setPline_coh (s : State) {d w k x} : (s.setPline d w k x).coh = s.coh := rfl
@[simp] theorem State.setPline_slices (s : State) {d w k x} : (s.setPline d w k x).slices = s.slices := rfl
@[simp] theorem State.setPline_pavs (s : State) {d w k x} : (s.setPline d w k x).pavs = s.pavs := rfl
@[simp] theorem State.setPline_binds (s : State) {d w k x} : (s.setPline d w k x).binds = s.binds := rfl
@[simp] theorem State.setPline_raised (s : State) {d w k x} : (s.setPline d w k x).raised = s.raised := rfl
@[simp] theorem State.setPline_records (s : State) {d w k x} : (s.setPline d w k x).records = s.records := rfl
@[simp] theorem State.setPline_lodgeSeq (s : State) {d w k x} : (s.setPline d w k x).lodgeSeq = s.lodgeSeq := rfl
@[simp] theorem State.setPline_imsic (s : State) {d w k x} : (s.setPline d w k x).imsic = s.imsic := rfl
@[simp] theorem State.setPline_d2d (s : State) {d w k x} : (s.setPline d w k x).d2d = s.d2d := rfl
@[simp] theorem State.setPline_trl (s : State) {d w k x} : (s.setPline d w k x).trl = s.trl := rfl
@[simp] theorem State.setPline_tel (s : State) {d w k x} : (s.setPline d w k x).tel = s.tel := rfl
@[simp] theorem State.setPline_pwr (s : State) {d w k x} : (s.setPline d w k x).pwr = s.pwr := rfl
@[simp] theorem State.setPline_sys (s : State) {d w k x} : (s.setPline d w k x).sys = s.sys := rfl
@[simp] theorem State.setPline_kpr (s : State) {d w k x} : (s.setPline d w k x).kpr = s.kpr := rfl
@[simp] theorem State.setPline_hub (s : State) {d w k x} : (s.setPline d w k x).hub = s.hub := rfl
@[simp] theorem State.setPline_out (s : State) {d w k x} : (s.setPline d w k x).out = s.out := rfl
@[simp] theorem State.setPline_reg (s : State) {d w k x} (z : Reg) (z1 z2 : Nat) : (s.setPline d w k x).reg z z1 z2 = s.reg z z1 z2 := rfl
@[simp] theorem State.setPline_self (s : State) {d w k x} : (s.setPline d w k x).pline d w k = some x := tfind_tset_self _ _ _

/-! ### setD2d -/

@[simp] theorem State.setD2d_pending (s : State) {d n x} : (s.setD2d d n x).pending = s.pending := rfl
@[simp] theorem State.setD2d_freeCtr (s : State) {d n x} : (s.setD2d d n x).freeCtr = s.freeCtr := rfl
@[simp] theorem State.setD2d_mtime (s : State) {d n x} : (s.setD2d d n x).mtime = s.mtime := rfl
@[simp] theorem State.setD2d_regs (s : State) {d n x} : (s.setD2d d n x).regs = s.regs := rfl
@[simp] theorem State.setD2d_shadows (s : State) {d n x} : (s.setD2d d n x).shadows = s.shadows := rfl
@[simp] theorem State.setD2d_mem (s : State) {d n x} : (s.setD2d d n x).mem = s.mem := rfl
@[simp] theorem State.setD2d_marks (s : State) {d n x} : (s.setD2d d n x).marks = s.marks := rfl
@[simp] theorem State.setD2d_arr (s : State) {d n x} : (s.setD2d d n x).arr = s.arr := rfl
@[simp] theorem State.setD2d_str (s : State) {d n x} : (s.setD2d d n x).str = s.str := rfl
@[simp] theorem State.setD2d_smmu (s : State) {d n x} : (s.setD2d d n x).smmu = s.smmu := rfl
@[simp] theorem State.setD2d_ws (s : State) {d n x} : (s.setD2d d n x).ws = s.ws := rfl
@[simp] theorem State.setD2d_lnk (s : State) {d n x} : (s.setD2d d n x).lnk = s.lnk := rfl
@[simp] theorem State.setD2d_org (s : State) {d n x} : (s.setD2d d n x).org = s.org := rfl
@[simp] theorem State.setD2d_coh (s : State) {d n x} : (s.setD2d d n x).coh = s.coh := rfl
@[simp] theorem State.setD2d_slices (s : State) {d n x} : (s.setD2d d n x).slices = s.slices := rfl
@[simp] theorem State.setD2d_pavs (s : State) {d n x} : (s.setD2d d n x).pavs = s.pavs := rfl
@[simp] theorem State.setD2d_binds (s : State) {d n x} : (s.setD2d d n x).binds = s.binds := rfl
@[simp] theorem State.setD2d_raised (s : State) {d n x} : (s.setD2d d n x).raised = s.raised := rfl
@[simp] theorem State.setD2d_records (s : State) {d n x} : (s.setD2d d n x).records = s.records := rfl
@[simp] theorem State.setD2d_lodgeSeq (s : State) {d n x} : (s.setD2d d n x).lodgeSeq = s.lodgeSeq := rfl
@[simp] theorem State.setD2d_imsic (s : State) {d n x} : (s.setD2d d n x).imsic = s.imsic := rfl
@[simp] theorem State.setD2d_trl (s : State) {d n x} : (s.setD2d d n x).trl = s.trl := rfl
@[simp] theorem State.setD2d_tel (s : State) {d n x} : (s.setD2d d n x).tel = s.tel := rfl
@[simp] theorem State.setD2d_pwr (s : State) {d n x} : (s.setD2d d n x).pwr = s.pwr := rfl
@[simp] theorem State.setD2d_sys (s : State) {d n x} : (s.setD2d d n x).sys = s.sys := rfl
@[simp] theorem State.setD2d_kpr (s : State) {d n x} : (s.setD2d d n x).kpr = s.kpr := rfl
@[simp] theorem State.setD2d_hub (s : State) {d n x} : (s.setD2d d n x).hub = s.hub := rfl
@[simp] theorem State.setD2d_out (s : State) {d n x} : (s.setD2d d n x).out = s.out := rfl
@[simp] theorem State.setD2d_reg (s : State) {d n x} (z : Reg) (z1 z2 : Nat) : (s.setD2d d n x).reg z z1 z2 = s.reg z z1 z2 := rfl
@[simp] theorem State.setD2d_self (s : State) {d n x} : (s.setD2d d n x).d2dPort d n = x := tget_tset_self _ _ _ _

/-! ### setHart -/

@[simp] theorem State.setHart_pending (s : State) {n x} : (s.setHart n x).pending = s.pending := rfl
@[simp] theorem State.setHart_freeCtr (s : State) {n x} : (s.setHart n x).freeCtr = s.freeCtr := rfl
@[simp] theorem State.setHart_mtime (s : State) {n x} : (s.setHart n x).mtime = s.mtime := rfl
@[simp] theorem State.setHart_regs (s : State) {n x} : (s.setHart n x).regs = s.regs := rfl
@[simp] theorem State.setHart_shadows (s : State) {n x} : (s.setHart n x).shadows = s.shadows := rfl
@[simp] theorem State.setHart_mem (s : State) {n x} : (s.setHart n x).mem = s.mem := rfl
@[simp] theorem State.setHart_marks (s : State) {n x} : (s.setHart n x).marks = s.marks := rfl
@[simp] theorem State.setHart_arr (s : State) {n x} : (s.setHart n x).arr = s.arr := rfl
@[simp] theorem State.setHart_str (s : State) {n x} : (s.setHart n x).str = s.str := rfl
@[simp] theorem State.setHart_smmu (s : State) {n x} : (s.setHart n x).smmu = s.smmu := rfl
@[simp] theorem State.setHart_ws (s : State) {n x} : (s.setHart n x).ws = s.ws := rfl
@[simp] theorem State.setHart_lnk (s : State) {n x} : (s.setHart n x).lnk = s.lnk := rfl
@[simp] theorem State.setHart_org (s : State) {n x} : (s.setHart n x).org = s.org := rfl
@[simp] theorem State.setHart_coh (s : State) {n x} : (s.setHart n x).coh = s.coh := rfl
@[simp] theorem State.setHart_slices (s : State) {n x} : (s.setHart n x).slices = s.slices := rfl
@[simp] theorem State.setHart_pavs (s : State) {n x} : (s.setHart n x).pavs = s.pavs := rfl
@[simp] theorem State.setHart_binds (s : State) {n x} : (s.setHart n x).binds = s.binds := rfl
@[simp] theorem State.setHart_raised (s : State) {n x} : (s.setHart n x).raised = s.raised := rfl
@[simp] theorem State.setHart_records (s : State) {n x} : (s.setHart n x).records = s.records := rfl
@[simp] theorem State.setHart_lodgeSeq (s : State) {n x} : (s.setHart n x).lodgeSeq = s.lodgeSeq := rfl
@[simp] theorem State.setHart_imsic (s : State) {n x} : (s.setHart n x).imsic = s.imsic := rfl
@[simp] theorem State.setHart_d2d (s : State) {n x} : (s.setHart n x).d2d = s.d2d := rfl
@[simp] theorem State.setHart_trl (s : State) {n x} : (s.setHart n x).trl = s.trl := rfl
@[simp] theorem State.setHart_tel (s : State) {n x} : (s.setHart n x).tel = s.tel := rfl
@[simp] theorem State.setHart_pwr (s : State) {n x} : (s.setHart n x).pwr = s.pwr := rfl
@[simp] theorem State.setHart_sys (s : State) {n x} : (s.setHart n x).sys = s.sys := rfl
@[simp] theorem State.setHart_kpr (s : State) {n x} : (s.setHart n x).kpr = s.kpr := rfl
@[simp] theorem State.setHart_out (s : State) {n x} : (s.setHart n x).out = s.out := rfl
@[simp] theorem State.setHart_reg (s : State) {n x} (z : Reg) (z1 z2 : Nat) : (s.setHart n x).reg z z1 z2 = s.reg z z1 z2 := rfl

/-! ### setLodge -/

@[simp] theorem State.setLodge_pending (s : State) {d l} : (s.setLodge d l).pending = s.pending := rfl
@[simp] theorem State.setLodge_freeCtr (s : State) {d l} : (s.setLodge d l).freeCtr = s.freeCtr := rfl
@[simp] theorem State.setLodge_mtime (s : State) {d l} : (s.setLodge d l).mtime = s.mtime := rfl
@[simp] theorem State.setLodge_regs (s : State) {d l} : (s.setLodge d l).regs = s.regs := rfl
@[simp] theorem State.setLodge_shadows (s : State) {d l} : (s.setLodge d l).shadows = s.shadows := rfl
@[simp] theorem State.setLodge_mem (s : State) {d l} : (s.setLodge d l).mem = s.mem := rfl
@[simp] theorem State.setLodge_marks (s : State) {d l} : (s.setLodge d l).marks = s.marks := rfl
@[simp] theorem State.setLodge_arr (s : State) {d l} : (s.setLodge d l).arr = s.arr := rfl
@[simp] theorem State.setLodge_str (s : State) {d l} : (s.setLodge d l).str = s.str := rfl
@[simp] theorem State.setLodge_smmu (s : State) {d l} : (s.setLodge d l).smmu = s.smmu := rfl
@[simp] theorem State.setLodge_ws (s : State) {d l} : (s.setLodge d l).ws = s.ws := rfl
@[simp] theorem State.setLodge_lnk (s : State) {d l} : (s.setLodge d l).lnk = s.lnk := rfl
@[simp] theorem State.setLodge_org (s : State) {d l} : (s.setLodge d l).org = s.org := rfl
@[simp] theorem State.setLodge_coh (s : State) {d l} : (s.setLodge d l).coh = s.coh := rfl
@[simp] theorem State.setLodge_slices (s : State) {d l} : (s.setLodge d l).slices = s.slices := rfl
@[simp] theorem State.setLodge_pavs (s : State) {d l} : (s.setLodge d l).pavs = s.pavs := rfl
@[simp] theorem State.setLodge_binds (s : State) {d l} : (s.setLodge d l).binds = s.binds := rfl
@[simp] theorem State.setLodge_raised (s : State) {d l} : (s.setLodge d l).raised = s.raised := rfl
@[simp] theorem State.setLodge_records (s : State) {d l} : (s.setLodge d l).records = s.records := rfl
@[simp] theorem State.setLodge_lodgeSeq (s : State) {d l} : (s.setLodge d l).lodgeSeq = s.lodgeSeq := rfl
@[simp] theorem State.setLodge_imsic (s : State) {d l} : (s.setLodge d l).imsic = s.imsic := rfl
@[simp] theorem State.setLodge_d2d (s : State) {d l} : (s.setLodge d l).d2d = s.d2d := rfl
@[simp] theorem State.setLodge_trl (s : State) {d l} : (s.setLodge d l).trl = s.trl := rfl
@[simp] theorem State.setLodge_pwr (s : State) {d l} : (s.setLodge d l).pwr = s.pwr := rfl
@[simp] theorem State.setLodge_sys (s : State) {d l} : (s.setLodge d l).sys = s.sys := rfl
@[simp] theorem State.setLodge_kpr (s : State) {d l} : (s.setLodge d l).kpr = s.kpr := rfl
@[simp] theorem State.setLodge_hub (s : State) {d l} : (s.setLodge d l).hub = s.hub := rfl
@[simp] theorem State.setLodge_out (s : State) {d l} : (s.setLodge d l).out = s.out := rfl
@[simp] theorem State.setLodge_reg (s : State) {d l} (z : Reg) (z1 z2 : Nat) : (s.setLodge d l).reg z z1 z2 = s.reg z z1 z2 := rfl
@[simp] theorem State.setLodge_self (s : State) {d l} : (s.setLodge d l).lodgeHeld d = l := tget_tset_self _ _ _ _

/-! ### setKqueue -/

@[simp] theorem State.setKqueue_pending (s : State) {q} : (s.setKqueue q).pending = s.pending := rfl
@[simp] theorem State.setKqueue_freeCtr (s : State) {q} : (s.setKqueue q).freeCtr = s.freeCtr := rfl
@[simp] theorem State.setKqueue_mtime (s : State) {q} : (s.setKqueue q).mtime = s.mtime := rfl
@[simp] theorem State.setKqueue_regs (s : State) {q} : (s.setKqueue q).regs = s.regs := rfl
@[simp] theorem State.setKqueue_shadows (s : State) {q} : (s.setKqueue q).shadows = s.shadows := rfl
@[simp] theorem State.setKqueue_mem (s : State) {q} : (s.setKqueue q).mem = s.mem := rfl
@[simp] theorem State.setKqueue_marks (s : State) {q} : (s.setKqueue q).marks = s.marks := rfl
@[simp] theorem State.setKqueue_arr (s : State) {q} : (s.setKqueue q).arr = s.arr := rfl
@[simp] theorem State.setKqueue_str (s : State) {q} : (s.setKqueue q).str = s.str := rfl
@[simp] theorem State.setKqueue_smmu (s : State) {q} : (s.setKqueue q).smmu = s.smmu := rfl
@[simp] theorem State.setKqueue_ws (s : State) {q} : (s.setKqueue q).ws = s.ws := rfl
@[simp] theorem State.setKqueue_lnk (s : State) {q} : (s.setKqueue q).lnk = s.lnk := rfl
@[simp] theorem State.setKqueue_org (s : State) {q} : (s.setKqueue q).org = s.org := rfl
@[simp] theorem State.setKqueue_coh (s : State) {q} : (s.setKqueue q).coh = s.coh := rfl
@[simp] theorem State.setKqueue_slices (s : State) {q} : (s.setKqueue q).slices = s.slices := rfl
@[simp] theorem State.setKqueue_pavs (s : State) {q} : (s.setKqueue q).pavs = s.pavs := rfl
@[simp] theorem State.setKqueue_binds (s : State) {q} : (s.setKqueue q).binds = s.binds := rfl
@[simp] theorem State.setKqueue_raised (s : State) {q} : (s.setKqueue q).raised = s.raised := rfl
@[simp] theorem State.setKqueue_records (s : State) {q} : (s.setKqueue q).records = s.records := rfl
@[simp] theorem State.setKqueue_lodgeSeq (s : State) {q} : (s.setKqueue q).lodgeSeq = s.lodgeSeq := rfl
@[simp] theorem State.setKqueue_imsic (s : State) {q} : (s.setKqueue q).imsic = s.imsic := rfl
@[simp] theorem State.setKqueue_d2d (s : State) {q} : (s.setKqueue q).d2d = s.d2d := rfl
@[simp] theorem State.setKqueue_trl (s : State) {q} : (s.setKqueue q).trl = s.trl := rfl
@[simp] theorem State.setKqueue_tel (s : State) {q} : (s.setKqueue q).tel = s.tel := rfl
@[simp] theorem State.setKqueue_pwr (s : State) {q} : (s.setKqueue q).pwr = s.pwr := rfl
@[simp] theorem State.setKqueue_sys (s : State) {q} : (s.setKqueue q).sys = s.sys := rfl
@[simp] theorem State.setKqueue_hub (s : State) {q} : (s.setKqueue q).hub = s.hub := rfl
@[simp] theorem State.setKqueue_out (s : State) {q} : (s.setKqueue q).out = s.out := rfl
@[simp] theorem State.setKqueue_reg (s : State) {q} (z : Reg) (z1 z2 : Nat) : (s.setKqueue q).reg z z1 z2 = s.reg z z1 z2 := rfl

/-! ### setJtag -/

@[simp] theorem State.setJtag_pending (s : State) {x} : (s.setJtag x).pending = s.pending := rfl
@[simp] theorem State.setJtag_freeCtr (s : State) {x} : (s.setJtag x).freeCtr = s.freeCtr := rfl
@[simp] theorem State.setJtag_mtime (s : State) {x} : (s.setJtag x).mtime = s.mtime := rfl
@[simp] theorem State.setJtag_regs (s : State) {x} : (s.setJtag x).regs = s.regs := rfl
@[simp] theorem State.setJtag_shadows (s : State) {x} : (s.setJtag x).shadows = s.shadows := rfl
@[simp] theorem State.setJtag_mem (s : State) {x} : (s.setJtag x).mem = s.mem := rfl
@[simp] theorem State.setJtag_marks (s : State) {x} : (s.setJtag x).marks = s.marks := rfl
@[simp] theorem State.setJtag_arr (s : State) {x} : (s.setJtag x).arr = s.arr := rfl
@[simp] theorem State.setJtag_str (s : State) {x} : (s.setJtag x).str = s.str := rfl
@[simp] theorem State.setJtag_smmu (s : State) {x} : (s.setJtag x).smmu = s.smmu := rfl
@[simp] theorem State.setJtag_ws (s : State) {x} : (s.setJtag x).ws = s.ws := rfl
@[simp] theorem State.setJtag_lnk (s : State) {x} : (s.setJtag x).lnk = s.lnk := rfl
@[simp] theorem State.setJtag_org (s : State) {x} : (s.setJtag x).org = s.org := rfl
@[simp] theorem State.setJtag_coh (s : State) {x} : (s.setJtag x).coh = s.coh := rfl
@[simp] theorem State.setJtag_slices (s : State) {x} : (s.setJtag x).slices = s.slices := rfl
@[simp] theorem State.setJtag_pavs (s : State) {x} : (s.setJtag x).pavs = s.pavs := rfl
@[simp] theorem State.setJtag_binds (s : State) {x} : (s.setJtag x).binds = s.binds := rfl
@[simp] theorem State.setJtag_raised (s : State) {x} : (s.setJtag x).raised = s.raised := rfl
@[simp] theorem State.setJtag_records (s : State) {x} : (s.setJtag x).records = s.records := rfl
@[simp] theorem State.setJtag_lodgeSeq (s : State) {x} : (s.setJtag x).lodgeSeq = s.lodgeSeq := rfl
@[simp] theorem State.setJtag_imsic (s : State) {x} : (s.setJtag x).imsic = s.imsic := rfl
@[simp] theorem State.setJtag_d2d (s : State) {x} : (s.setJtag x).d2d = s.d2d := rfl
@[simp] theorem State.setJtag_trl (s : State) {x} : (s.setJtag x).trl = s.trl := rfl
@[simp] theorem State.setJtag_tel (s : State) {x} : (s.setJtag x).tel = s.tel := rfl
@[simp] theorem State.setJtag_pwr (s : State) {x} : (s.setJtag x).pwr = s.pwr := rfl
@[simp] theorem State.setJtag_sys (s : State) {x} : (s.setJtag x).sys = s.sys := rfl
@[simp] theorem State.setJtag_hub (s : State) {x} : (s.setJtag x).hub = s.hub := rfl
@[simp] theorem State.setJtag_out (s : State) {x} : (s.setJtag x).out = s.out := rfl
@[simp] theorem State.setJtag_reg (s : State) {x} (z : Reg) (z1 z2 : Nat) : (s.setJtag x).reg z z1 z2 = s.reg z z1 z2 := rfl

/-! ### setSpdm -/

@[simp] theorem State.setSpdm_pending (s : State) {x} : (s.setSpdm x).pending = s.pending := rfl
@[simp] theorem State.setSpdm_freeCtr (s : State) {x} : (s.setSpdm x).freeCtr = s.freeCtr := rfl
@[simp] theorem State.setSpdm_mtime (s : State) {x} : (s.setSpdm x).mtime = s.mtime := rfl
@[simp] theorem State.setSpdm_regs (s : State) {x} : (s.setSpdm x).regs = s.regs := rfl
@[simp] theorem State.setSpdm_shadows (s : State) {x} : (s.setSpdm x).shadows = s.shadows := rfl
@[simp] theorem State.setSpdm_mem (s : State) {x} : (s.setSpdm x).mem = s.mem := rfl
@[simp] theorem State.setSpdm_marks (s : State) {x} : (s.setSpdm x).marks = s.marks := rfl
@[simp] theorem State.setSpdm_arr (s : State) {x} : (s.setSpdm x).arr = s.arr := rfl
@[simp] theorem State.setSpdm_str (s : State) {x} : (s.setSpdm x).str = s.str := rfl
@[simp] theorem State.setSpdm_smmu (s : State) {x} : (s.setSpdm x).smmu = s.smmu := rfl
@[simp] theorem State.setSpdm_ws (s : State) {x} : (s.setSpdm x).ws = s.ws := rfl
@[simp] theorem State.setSpdm_lnk (s : State) {x} : (s.setSpdm x).lnk = s.lnk := rfl
@[simp] theorem State.setSpdm_org (s : State) {x} : (s.setSpdm x).org = s.org := rfl
@[simp] theorem State.setSpdm_coh (s : State) {x} : (s.setSpdm x).coh = s.coh := rfl
@[simp] theorem State.setSpdm_slices (s : State) {x} : (s.setSpdm x).slices = s.slices := rfl
@[simp] theorem State.setSpdm_pavs (s : State) {x} : (s.setSpdm x).pavs = s.pavs := rfl
@[simp] theorem State.setSpdm_binds (s : State) {x} : (s.setSpdm x).binds = s.binds := rfl
@[simp] theorem State.setSpdm_raised (s : State) {x} : (s.setSpdm x).raised = s.raised := rfl
@[simp] theorem State.setSpdm_records (s : State) {x} : (s.setSpdm x).records = s.records := rfl
@[simp] theorem State.setSpdm_lodgeSeq (s : State) {x} : (s.setSpdm x).lodgeSeq = s.lodgeSeq := rfl
@[simp] theorem State.setSpdm_imsic (s : State) {x} : (s.setSpdm x).imsic = s.imsic := rfl
@[simp] theorem State.setSpdm_d2d (s : State) {x} : (s.setSpdm x).d2d = s.d2d := rfl
@[simp] theorem State.setSpdm_trl (s : State) {x} : (s.setSpdm x).trl = s.trl := rfl
@[simp] theorem State.setSpdm_tel (s : State) {x} : (s.setSpdm x).tel = s.tel := rfl
@[simp] theorem State.setSpdm_pwr (s : State) {x} : (s.setSpdm x).pwr = s.pwr := rfl
@[simp] theorem State.setSpdm_sys (s : State) {x} : (s.setSpdm x).sys = s.sys := rfl
@[simp] theorem State.setSpdm_hub (s : State) {x} : (s.setSpdm x).hub = s.hub := rfl
@[simp] theorem State.setSpdm_out (s : State) {x} : (s.setSpdm x).out = s.out := rfl
@[simp] theorem State.setSpdm_reg (s : State) {x} (z : Reg) (z1 z2 : Nat) : (s.setSpdm x).reg z z1 z2 = s.reg z z1 z2 := rfl

end Sys2Proof.Machine
end

