-- ==== Sys2Proof/WellFormed.lean ====
section
/-! DEFINITION. Well-formed commands: each index names something that the device has (1, R5, R6). -/

namespace Sys2Proof

/-- A requester of a register access: one of the 96 harts, or the Keeper. -/
def wfActor : Actor → Bool
  | .keeper => true
  | .hart h _ => decide (h < 96)

/-- A requester at a home agent. -/
def wfRequester : Requester → Bool
  | .hart h _ _ => decide (h < 96)
  | .keeper => true
  | .window p => decide (p < 64)
  | .engine e p => decide (e < 256) && decide (p < 64)
  | .slice p => decide (p < 64)

/-- A translating unit. -/
def wfUnit : XlatUnit → Bool
  | .engine e => decide (e < 256)
  | .fetch d => decide (d < 8)

/-- A resource that upkeep serves. -/
def wfUpkeep : Upkeep → Bool
  | .gddr d => decide (d < 8)
  | .link n => decide (n < 16)
  | .bed d => decide (d < 8)

/-- Whether a word is of the custom-0 opcode and its funct3 one of those given (R427). -/
def wfKx (x : KxFetch) (fs : List Nat) : Bool :=
  decide (x.hart < 96) && x.word.toNat % 128 == 0x0B && fs.contains (x.word.toNat / 4096 % 8)

/-- An operation at a bed. -/
def wfBedOp (x : BedOp) : Bool := decide (x.bed < 64) && decide (x.op.pav < 64)

/-- Access sizes. -/
def wfSize (n : Nat) : Bool := n == 1 || n == 2 || n == 4 || n == 8

/-- Whether every index of a command names something that the device has. -/
def Instr.wf (i : Instr) : Bool :=
  match i with
  | .registerWrite a _ size _ => wfActor a && wfSize size
  | .d2dFlitReceive die port _ _ => decide (die < 11) && decide (port < 16)
  | .d2dFlitTransmit die port => decide (die < 11) && decide (port < 16)
  | .d2dFlitRetransmit die port _ => decide (die < 11) && decide (port < 16)
  | .d2dLaneFailover die port lane => decide (die < 11) && decide (port < 16) && decide (lane < 64)
  | .d2dLaneDegrade die port lane => decide (die < 11) && decide (port < 16) && decide (lane < 64)
  | .d2dPortDown die port => decide (die < 11) && decide (port < 16)
  | .d2dReroute src dst => decide (src < 11) && decide (dst < 11)
  | .lodgeBusFail die => decide (die < 11)
  | .referenceLost _ => true
  | .containedFault _ => true
  | .sharedFaultEvent _ => true
  | .laneStep cell row col => decide (cell < 512) && decide (row < 128) && decide (col < 128)
  | .cellStoreBankAccess cell _ => decide (cell < 512)
  | .feederDeliver cell _ => decide (cell < 512)
  | .drainRowAccept cell => decide (cell < 512)
  | .bedBusTransfer bed track _ => decide (bed < 64) && decide (track < 4)
  | .bedReset a bed => wfActor a && decide (bed < 64)
  | .trlStage a _ => wfActor a
  | .trlStageCopyEnd => true
  | .trlVerify a _ => wfActor a
  | .trlVerifyDone => true
  | .trlCommit a _ => wfActor a
  | .trlPavCommitDone => true
  | .trlAbort a _ => wfActor a
  | .digestRecomputeDone => true
  | .trlDigestCapture a => wfActor a
  | .trlAgdCapture a p => wfActor a && decide (p < 64)
  | .trlAgreeClear a n i => wfActor a && decide (n < 16) && decide (i < 8)
  | .beaconSend n i => decide (n < 16) && decide (i < 8)
  | .graceTimerExpire n i => decide (n < 16) && decide (i < 8)
  | .orgRgnCommitGo a => wfActor a
  | .orgRgnCommitApply die => decide (die < 8)
  | .smmuCtxCommitGo a p => wfActor a && decide (p < 64)
  | .smmuCtxCommitApply p => decide (p < 64)
  | .wsCommitGo a => wfActor a
  | .wsCommitApply => true
  | .wsOutCommitGo a => wfActor a
  | .wsOutCommitApply => true
  | .cohBiasCommitGo a => wfActor a
  | .cohBiasCommitApply => true
  | .pavProgCommitGo a p => wfActor a && decide (p < 64)
  | .pavProgCommitApply p => decide (p < 64)
  | .programRegistrationDone p => decide (p < 64)
  | .pavQpCommitGo a p => wfActor a && decide (p < 64)
  | .pavQpCommitApply p => decide (p < 64)
  | .wordIssue p die => decide (p < 64) && decide (die < 8)
  | .prefetchWord p die => decide (p < 64) && decide (die < 8)
  | .ctlRepeat p die _ => decide (p < 64) && decide (die < 8)
  | .ctlLoop p die _ _ => decide (p < 64) && decide (die < 8)
  | .ctlBrp p die bed _ _ _ => decide (p < 64) && decide (die < 8) && decide (bed < 64)
  | .branchOutcome p die _ _ => decide (p < 64) && decide (die < 8)
  | .ctlWait p die _ _ _ _ => decide (p < 64) && decide (die < 8)
  | .ctlHalt p die => decide (p < 64) && decide (die < 8)
  | .pavilionHalted p => decide (p < 64)
  | .ctlMark p die _ => decide (p < 64) && decide (die < 8)
  | .markComplete p => decide (p < 64)
  | .ctlQuiet p die _ _ => decide (p < 64) && decide (die < 8)
  | .quietClose p => decide (p < 64)
  | .ctlPfh p die _ _ => decide (p < 64) && decide (die < 8)
  | .signalPart p die _ => decide (p < 64) && decide (die < 8)
  | .replayRestore p => decide (p < 64)
  | .stlStateWrite a st _ => wfActor a && decide (st < 65536)
  | .stlGroupWrite a g _ => wfActor a && decide (g < 256)
  | .mmul ag x => decide (ag < 8) && wfBedOp x
  | .cvta x => wfBedOp x
  | .cvtm x => wfBedOp x
  | .cvtSeed x => wfBedOp x
  | .scld x => wfBedOp x
  | .rsld x => wfBedOp x
  | .rsadd x => wfBedOp x
  | .rsclr x => wfBedOp x
  | .stex x => wfBedOp x
  | .dld o => decide (o.pav < 64)
  | .run o => decide (o.pav < 64)
  | .streamRequestIssue eng ctx => decide (eng < 256) && decide (ctx < 16)
  | .streamResponse eng ctx _ => decide (eng < 256) && decide (ctx < 16)
  | .burstDeliver eng ctx => decide (eng < 256) && decide (ctx < 16)
  | .caravanBurstForward eng ctx stop => decide (eng < 256) && decide (ctx < 16) && decide (stop < 15)
  | .caravanStopConfirm eng ctx stop => decide (eng < 256) && decide (ctx < 16) && decide (stop < 15)
  | .runComplete eng ctx => decide (eng < 256) && decide (ctx < 16)
  | .contextStopped eng ctx => decide (eng < 256) && decide (ctx < 16)
  | .moveRelease p => decide (p < 64)
  | .vadd bed o => decide (bed < 64) && decide (o.pav < 64)
  | .vsub bed o => decide (bed < 64) && decide (o.pav < 64)
  | .vmul bed o => decide (bed < 64) && decide (o.pav < 64)
  | .vfma bed o => decide (bed < 64) && decide (o.pav < 64)
  | .vmin bed o => decide (bed < 64) && decide (o.pav < 64)
  | .vmax bed o => decide (bed < 64) && decide (o.pav < 64)
  | .vdiv bed o => decide (bed < 64) && decide (o.pav < 64)
  | .vsqrt bed o => decide (bed < 64) && decide (o.pav < 64)
  | .vexp2 bed o => decide (bed < 64) && decide (o.pav < 64)
  | .vlog2 bed o => decide (bed < 64) && decide (o.pav < 64)
  | .vcmp bed o => decide (bed < 64) && decide (o.pav < 64)
  | .vsel bed o => decide (bed < 64) && decide (o.pav < 64)
  | .vred bed o => decide (bed < 64) && decide (o.pav < 64)
  | .vbcs bed o => decide (bed < 64) && decide (o.pav < 64)
  | .vcvt bed o => decide (bed < 64) && decide (o.pav < 64)
  | .vld bed o => decide (bed < 64) && decide (o.pav < 64)
  | .vst bed o => decide (bed < 64) && decide (o.pav < 64)
  | .vrcv bed o => decide (bed < 64) && decide (o.pav < 64)
  | .vbsnd bed o => decide (bed < 64) && decide (o.pav < 64)
  | .vbrcv bed o => decide (bed < 64) && decide (o.pav < 64)
  | .plog bed o => decide (bed < 64) && decide (o.pav < 64)
  | .flclr bed o => decide (bed < 64) && decide (o.pav < 64)
  | .sli bed o => decide (bed < 64) && decide (o.pav < 64)
  | .sget bed o => decide (bed < 64) && decide (o.pav < 64)
  | .ordf o => decide (o.pav < 64)
  | .endf o => decide (o.pav < 64)
  | .xchSignal o => decide (o.pav < 64)
  | .xchSet o => decide (o.pav < 64)
  | .xchToken o => decide (o.pav < 64)
  | .xchBind o => decide (o.pav < 64)
  | .xchUnbind o => decide (o.pav < 64)
  | .xchSend o => decide (o.pav < 64)
  | .allred o => decide (o.pav < 64)
  | .rscat o => decide (o.pav < 64)
  | .agath o => decide (o.pav < 64)
  | .collectiveDone p eng _ => decide (p < 64) && decide (eng < 256)
  | .fpol o => decide (o.pav < 64)
  | .homeAgentAccess die => decide (die < 8)
  | .nextLinePrefetch die => decide (die < 8)
  | .orgFlush a die _ => wfActor a && decide (die < 8)
  | .orgFlushDone die => decide (die < 8)
  | .atomic r _ size _ _ _ => wfRequester r && wfSize size
  | .blkadd r _ _ _ => wfRequester r
  | .gddrAccess die => decide (die < 8)
  | .gddrTrackingRead die temps _ => decide (die < 8) && temps.length == 3
  | .gddrRetrainDone die failed temps => decide (die < 8) && failed.all (· < 3) && temps.length == 3
  | .scrubGroup die comp => decide (die < 8) && decide (comp < 3)
  | .gdrPlotWrite a die plot _ => wfActor a && decide (die < 8) && decide (plot < 16)
  | .plotZeroFillDone die plot => decide (die < 8) && decide (plot < 16)
  | .translationWalk p _ _ u => decide (p < 64) && wfUnit u
  | .smmuInvRange a size _ => wfActor a && wfSize size
  | .smmuInvTag a size _ => wfActor a && wfSize size
  | .smmuInvAll a size _ => wfActor a && wfSize size
  | .smmuInvTakeEffect => true
  | .smmuInvComplete => true
  | .apertureAccess hart _ size _ _ => decide (hart < 96) && wfSize size
  | .retryResend port _ => decide (port < 16)
  | .commitStileApply _ => true
  | .coreLoad hart _ _ size _ _ => decide (hart < 96) && wfSize size
  | .coreStore hart _ _ size _ _ => decide (hart < 96) && wfSize size
  | .coreEviction cd _ => decide (cd < 2)
  | .readShared cd _ => decide (cd < 2)
  | .readOwn cd _ => decide (cd < 2)
  | .upgrade cd _ => decide (cd < 2)
  | .cleanEvict cd _ => decide (cd < 2)
  | .writeBack cd _ => decide (cd < 2)
  | .snpShared cd _ => decide (cd < 2)
  | .snpClean cd _ => decide (cd < 2)
  | .snpOwn cd _ => decide (cd < 2)
  | .snpInv cd _ => decide (cd < 2)
  | .backInvalidation cd _ => decide (cd < 2)
  | .promote cd _ => decide (cd < 2)
  | .snpQuery die cd => decide (die < 8) && decide (cd < 2)
  | .presenceRecord die cd _ _ => decide (die < 8) && decide (cd < 2)
  | .endRecord die cd => decide (die < 8) && decide (cd < 2)
  | .cohAck cd _ => decide (cd < 2)
  | .ackWb cd _ => decide (cd < 2)
  | .cohComplete cd _ => decide (cd < 2)
  | .coherenceData _ _ _ => true
  | .cohOoForce a die _ => wfActor a && decide (die < 8)
  | .ownerOrderDrained die => decide (die < 8)
  | .biasRelease a _ => wfActor a
  | .biasRecall a _ => wfActor a
  | .biasDone => true
  | .kxEfence x => wfKx x [0, 4, 5, 6, 7]
  | .kxLclean x _ _ _ => wfKx x [1]
  | .kxLflush x _ _ _ => wfKx x [2]
  | .kxLzero x _ _ _ => wfKx x [3]
  | .cboClean hart _ _ _ => decide (hart < 96)
  | .cboFlush hart _ _ _ => decide (hart < 96)
  | .cboInval hart _ _ _ => decide (hart < 96)
  | .cboZero hart _ _ _ => decide (hart < 96)
  | .msiWrite hart file _ => decide (hart < 96) && decide (file < 9)
  | .kxsRegWrite hart _ _ => decide (hart < 96)
  | .kxsRegRead hart _ => decide (hart < 96)
  | .kxsKeeper hart _ _ => decide (hart < 96)
  | .srstWarmReboot hart => decide (hart < 96)
  | .srstColdReboot hart => decide (hart < 96)
  | .pavReset a p _ => wfActor a && decide (p < 64)
  | .pavResetDone p => decide (p < 64)
  | .pavRelease a p _ => wfActor a && decide (p < 64)
  | .pavFenceWrite a p _ => wfActor a && decide (p < 64)
  | .sqEntryTake p => decide (p < 64)
  | .sqDoorbell a p q _ => wfActor a && decide (p < 64) && decide (q < 16)
  | .cqHeadWrite a p q _ => wfActor a && decide (p < 64) && decide (q < 16)
  | .pavQpTokenWrite a p q _ _ => wfActor a && decide (p < 64) && decide (q < 16)
  | .pavEvecWrite a p vec _ => wfActor a && decide (p < 64) && decide (vec < 64)
  | .pmdUp port => decide (port < 16)
  | .pmdTrainingFail port => decide (port < 16)
  | .hello port _ => decide (port < 17)
  | .finish port _ _ => decide (port < 17)
  | .handshakeTimeout port => decide (port < 17)
  | .handshakeRetry port => decide (port < 16)
  | .slpWrite port _ => decide (port < 16)
  | .slpRead port _ => decide (port < 16)
  | .slpAtomic port _ => decide (port < 16)
  | .slpToken port _ => decide (port < 16)
  | .slpColl port _ => decide (port < 16)
  | .slpAck port _ => decide (port < 16)
  | .slpRdata port _ => decide (port < 16)
  | .slpRefuse port _ => decide (port < 16)
  | .slpRetry port _ => decide (port < 16)
  | .slpBeacon port _ => decide (port < 16)
  | .slpCredit port _ => decide (port < 16)
  | .lack port _ => decide (port < 16)
  | .lnak port _ => decide (port < 16)
  | .linkIdle port _ => decide (port < 16)
  | .degrade port _ => decide (port < 16)
  | .failover port _ => decide (port < 16)
  | .portFrameSend port => decide (port < 16)
  | .lackTimer port => decide (port < 16)
  | .creditReturnTimer port => decide (port < 16)
  | .replayTimeout port => decide (port < 16)
  | .idleTimer port => decide (port < 16)
  | .partnerAbsenceTimeout port => decide (port < 16)
  | .creditTimeout port vc => decide (port < 16) && decide (vc < 6)
  | .slowTimeout port => decide (port < 16)
  | .lostHoldExpire port => decide (port < 16)
  | .fecDegrade port lane _ _ => decide (port < 16) && decide (lane < 8)
  | .unquar a port _ => wfActor a && decide (port < 16)
  | .lpRetrain a port _ => wfActor a && decide (port < 16)
  | .preset a port _ => wfActor a && decide (port < 16)
  | .portRetrainDone port => decide (port < 16)
  | .retrainTimeout port => decide (port < 16)
  | .endToEndTimeout _ => true
  | .lpDevlostWrite a i _ => wfActor a && decide (i < 8)
  | .lpDevclrWrite a i _ => wfActor a && decide (i < 8)
  | .kmtAttach port _ => decide (port < 17)
  | .kmtSubmit port _ => decide (port < 17)
  | .kmtCqAck port _ => decide (port < 17)
  | .kmtWrite port _ => decide (port < 17)
  | .kmtRead port _ => decide (port < 17)
  | .kmtRdata port _ => decide (port < 17)
  | .kmtToken port _ => decide (port < 17)
  | .kmtAck port _ => decide (port < 17)
  | .kmtRefuse port _ => decide (port < 17)
  | .kmtKeepalive port _ => decide (port < 17)
  | .kmtClose port _ => decide (port < 17)
  | .kmtRetransmitTimeout _ => true
  | .kmtAckTimer _ => true
  | .kmtKeepaliveTimer _ => true
  | .kmtSessionTimeout _ => true
  | .ibufParityError p die _ _ => decide (p < 64) && decide (die < 8)
  | .controlStateFault p die _ => decide (p < 64) && decide (die < 8)
  | .bedReplacement bed => decide (bed < 64)
  | .hangWindowExpire p => decide (p < 64)
  | .stallTimeout p => decide (p < 64)
  | .deviceLossDeclare _ die => decide (die < 11)
  | .keeperMismatch => true
  | .keeperSelftestDone _ => true
  | .keeperPeriodicSelftest _ => true
  | .keeperWatchdogExpire => true
  | .keeperResume _ _ => true
  | .lodgeAlarm die _ => decide (die < 11)
  | .lodgeSummarySend die => decide (die < 11)
  | .keeperAlarmEnqueue die _ => decide (die < 11)
  | .alarmSummaryEnqueue => true
  | .alarmSend => true
  | .alarmAck => true
  | .logRecord die _ _ => decide (die < 11)
  | .traceRecord r _ _ => decide (r.die < 11) && decide (r.unit < 256) && decide (r.pav < 256) && decide (r.ev < 256)
  | .telemetryRead _ => true
  | .governorTick _ => true
  | .paceRequestWrite a _ => wfActor a
  | .brakeLevelWrite a _ => wfActor a
  | .regulatorAlert _ => true
  | .aclr a _ => wfActor a
  | .droopDetect die _ => decide (die < 11)
  | .droopEnd die => decide (die < 11)
  | .droopHoldEnd _ => true
  | .sensorRead die _ => decide (die < 11)
  | .thermalPaceStep => true
  | .upkeepGrant r => wfUpkeep r
  | .upkeepDeadline r => wfUpkeep r
  | .spareSelftest die _ => decide (die < 8)
  | .rotationRequest die => decide (die < 8)
  | .sysResetN _ => true
  | .pwrGoodFall => true
  | .vauxOutOfRange => true
  | .warmResetNFall => true
  | .warmResetNRise => true
  | .kprResetCold a _ => wfActor a
  | .kprResetWarm a _ => wfActor a
  | .kprResetDie a _ => wfActor a
  | .kprResetKeeper a _ => wfActor a
  | .warmResetSequence => true
  | .dieReset die _ => decide (die < 11)
  | .coldBoot _ => true
  | .uartRecovery _ => true
  | .kprMbxSubmit a _ => wfActor a
  | .reqInfo _ => true
  | .reqWarmReset _ => true
  | .reqColdReset _ => true
  | .reqDieReset _ => true
  | .reqKeeperReset _ => true
  | .reqAssignId _ => true
  | .reqEpochFloor _ => true
  | .reqFlashWrite _ => true
  | .reqFlashActivate _ => true
  | .reqSvnCommit _ => true
  | .reqDeviceLoss _ => true
  | .reqSubscribe _ => true
  | .reqDebugUnlock _ => true
  | .spdmGetVersion _ _ => true
  | .spdmGetCapabilities _ _ => true
  | .spdmNegotiateAlgorithms _ _ => true
  | .spdmGetDigests _ _ => true
  | .spdmGetCertificate _ _ => true
  | .spdmChallenge _ _ => true
  | .spdmGetMeasurements _ _ => true
  | .spdmKeyExchange _ _ => true
  | .spdmFinish _ _ => true
  | .spdmHeartbeat _ _ => true
  | .spdmKeyUpdate _ _ => true
  | .spdmEndSession _ _ => true
  | .jtagBypass => true
  | .jtagIdcode => true
  | .jtagSamplePreload _ => true
  | .jtagExtest => true
  | .jtagClamp => true
  | .jtagHighz => true
  | .jtagDtmcs _ => true
  | .jtagDmi _ => true
  | .smbAlertN _ => true
  | .mtimecmpExpire hart _ => decide (hart < 96)
  | .arpRequest port _ _ => decide (port < 17)
  | .neighbourSolicitation port _ _ => decide (port < 17)

end Sys2Proof
end

