-- ==== Sys2Proof/Tests/Slice0.lean ====
section
/-! SUPPORT. Tests of the model: the worked examples of the spec, an ill-formed command for each check of WellFormed,
and for every obligation with premises a state and operands that meet them. -/

open Sys2Proof Sys2Proof.Machine

namespace Sys2Proof.Tests

set_option Elab.async false

/-- An operation of pavilion 0 with the modifier and the operands given. -/
def mkOp (m x : Nat) : UnitOp := ⟨0, BitVec.ofNat 8 m, BitVec.ofNat 48 x, 0, false, 5⟩

/-- Pavilion 0 runs; it owns bed 0, whose cell 0 is array group 0. -/
def run0 : State := ((State.reset.wr F.pavStatus_STATE 0 0 2).wr F.bedStatus_PAV_V 0 0 1).wr F.cellShape_AG_V 0 0 1

/-- That state with one operation at a unit's queue. -/
def atQ (k : UnitKey) (opc : Nat) (o : UnitOp) : State := run0.setQueue k [⟨opc, o⟩]

/-- An OS pass of one step in L8. -/
def osPass (id : Nat) : Pass := passOf State.reset 0 { mkOp 1 0 with seq := id } (List.replicate 32 0)

/-- A WS pass of one step in L8. -/
def wsPass (id : Nat) : Pass := passOf State.reset 0 { mkOp 0 0 with seq := id } (List.replicate 32 0)

/-- Cell 0 with a pass. -/
def withPass (p : Pass) : State := State.reset.setCell 0 { CellSt.init with passes := [p] }

/-- Lane (3, 5) with both operands of an OS pass there. -/
def osLane : State := (withPass (osPass 0)).setLane 0 3 5 { Lane.init with rowIn := [⟨1, false, true⟩], colIn := [⟨1, false, true⟩] }

/-- Row 127 with every sum of an OS pass in its drain latch. -/
def osDrain : State := (List.range 128).foldl (fun s k => s.setLane 0 127 k { Lane.init with pass := 1, latch := some Acc.zero }) (withPass (osPass 0))

/-- A drain with a sum of each column of a WS pass, and its CVTA at the converter. -/
def wsDrain : State := (atQ (.cvt 0) 1 (mkOp 0 0)).setCell 0 { CellSt.init with passes := [wsPass 0], drainIn := (List.range 128).map fun k => (k, [Acc.zero]) }

/-- A CVTA with the output of a finished pass before it. -/
def cvtaSt : State := (atQ (.cvt 0) 1 (mkOp 0 0)).setCell 0 { CellSt.init with outs := [⟨0, .l8, .os, 128, [], true, []⟩] }

/-- A control slot: its opcode and operand bits. -/
def ctl (op x : Nat) : Nat := op * 2 ^ 56 + x

/-- Pavilion 0 runs and its slice on die 0 stands at word 0, whose control slot is given and whose other slots are empty. -/
def onWord (c : Nat) : State := run0.setSlice 0 0 { SliceSt.init with run := true, buf := [(0, leBytes 8 c ++ List.replicate 120 0)] }

/-- The same, with the word issued and its control operation due. -/
def dueWord (c : Nat) : State := run0.setSlice 0 0 { SliceSt.init with run := true, post := some (BitVec.ofNat 64 c) }

/-- An exchange operation that every slice of the pavilion has issued. -/
def atXq (opc : Nat) (o : UnitOp) : State :=
  (run0.setPav 0 { PavSt.init with xq := [⟨opc, o⟩], xseen := 6 }).setSlice 0 0 { SliceSt.init with run := true, issued := 1 }

/-- GDDR7 of die 0 is up, its first plot is the system's, and die 0 has one way-group of the shared partition. -/
def gddrOn (s : State) : State :=
  ((((s.wr F.gdrStatus_STATE 0 0 3).wr F.gdrCap_USABLE 0 0 (2 ^ 34)).wr F.gdrPlot_OWNER 0 0 0xFE).wr
    F.orgWaymap_MODE 0 0 1).wr F.orgWaymap_OWNER 0 0 0xFE

/-- Reset with that memory. -/
def memSt : State := gddrOn State.reset

/-- A page of 1 GiB of tag 0 that maps address 0 to itself. -/
def page : TlbE := ⟨0, 0, 30, 0, true, true, true, false, false⟩

/-- The context of pavilion 0 is valid, reads have slots on die 0, and that page lies in the TLBs of engine 0 and of the fetch unit of die 0. -/
def mapped (s : State) : State :=
  { ((gddrOn s).wr F.smmuCtxTag_V 0 0 1).wr F.snSplit_READ 0 0 6 with smmu := { s.smmu with engTlb := [(0, [page])], fetTlb := [((0, 0), [page])] } }

/-- Messages of the coherence protocol in flight. -/
def withMsgs (ms : List CMsg) : State := { memSt with coh := { memSt.coh with msgs := ms } }

/-- Die `cd` with a request for line 0 and a message in flight. -/
def withReq (cd : Nat) (m : CMsg) : State :=
  { memSt with coh := { memSt.coh with msgs := [m], reqs := [((cd, 0), ⟨.readShared, none, none, []⟩)] } }

/-- A descriptor of 128 elements of one byte from GDDR7 at 0 to a cell store. -/
def descB : List Byte :=
  List.replicate 16 0 ++ [127] ++ List.replicate 9 0 ++ [1] ++ List.replicate 25 0 ++ [2, 0, 127] ++ List.replicate 9 0

/-- A descriptor of one A64L block from GDDR7 at 0 to a remote stile. -/
def descR : List Byte :=
  List.replicate 16 0 ++ [65] ++ List.replicate 9 0 ++ [8] ++ List.replicate 24 0 ++ [0x35, 0x32, 0x20, 15, 2] ++ List.replicate 8 0

/-- Context 0 of engine 0 loaded with a descriptor. -/
def loaded (s : State) (b : List Byte) : State := (s.storeDesc 0 0 b).wr F.seCtxStatus_STATE 0 0 1

/-- A run of pavilion 0 with nothing done. -/
def runX : RunSt := ⟨2, mkOp 0 0, 0, false, none, 0, 0, 0, 0, [], [], [], [], [], [], none, false, false⟩

/-- A run in progress on context 0 of engine 0. -/
def inRun (x : RunSt) : State :=
  { loaded (mapped run0) descB with str := { run0.str with runs := [((0, 0), x)] } }

/-- Its outstanding request, answered. -/
def answeredReq (write : Bool) : SReq := ⟨64, write, false, 0, 0, 0, 0, 1, 0, 1, 0, some (0, [some 7])⟩

/-- A plan stop of a ring of one. -/
def stop0 : PlanStop := ⟨0, 0, false, 0, 1, 0, none, 0, none, none, 0⟩

/-- A collective that every slice has issued, on a loaded context. -/
def atCol (opc : Nat) (o : UnitOp) : State :=
  { loaded (mapped (atXq opc o)) descR with lnk := { State.reset.lnk with plans := [stop0] } }

/-- A rule that admits everything of device 1. -/
def rule1 : GateRule := ⟨0, 0, 1, 0, 0x7F, 0, 63, 0, 0, []⟩

/-- Device 1 as a partner. -/
def partner1 : Partner := ⟨1, [], rule1, [], []⟩

/-- Port 3 in a mode and state, with what it holds; this device has ID 0 and port 3 leads to device 1. -/
def portSt (mode st : Nat) (x : PortSt) : State :=
  (((((run0.wr F.kprDevid_V 0 0 1).wr F.lpStatus_MODE 3 0 mode).wr F.lpStatus_STATE 3 0 st).wr F.lpRoute_V 1 0 1).wr
    F.lpRoute_DIR 1 0 1).setPort 3 x

/-- A port whose partner is device 1; it carries pavilion 0. -/
def port1 : PortSt := { PortSt.init with partner := some partner1, share := [(0, 1)] }

/-- A frame from device 1 with a payload. -/
def frame1 (bs : List Byte) : SlpFrame :=
  ⟨0, false, true, true, 0, 0, 1, 0, 0, 0, 0, 0, 0, 0, 0, 0, 0, 0, bs, true, true⟩

/-- A link frame with a payload. -/
def linkF (bs : List Byte) : SlpFrame := { frame1 bs with src := 0 }

/-- A request of hart 3 to device 1 that is not answered; its retry has arrived. -/
def asked : OutReq := ⟨⟨2, true, 1, 0, 0, 0, 0, 0, 0, 0, 0, 0, 0, 0, 0, [], false⟩, 3, .hart 3 8, true, none⟩

/-- Port 3 UP with that request. -/
def askedSt : State :=
  { portSt 2 3 port1 with lnk := { (portSt 2 3 port1).lnk with outst := [asked] } }

/-- KMT session 1 on port 3 with device 1. -/
def ses1 : KmtSt := ⟨3, some partner1, none, 0, 0, [], [(0, hsMsg 0x0F [])], 0, 100, true, 0, [], 0, 0⟩

/-- Ethernet port 3 with that session. -/
def kmtSt : State := (portSt 1 3 port1).setSession 1 ses1

/-- A message of that session. -/
def kmtM (bs : List Byte) : KmtMsg := ⟨1, 0, 0, 0, 0, 0, 0, 0, 0, bs, 0, true, true⟩

/-- A HELLO of no known partner. -/
def hello0 : HelloMsg := ⟨1, [], [], [], [], 1, 0⟩

/-- A handshake begun. -/
def hs0 : HsSt := ⟨[], [], [], none⟩

/-- Fault report of pavilion `p`. -/
def rep (p : Nat) : FaultReport := FaultReport.blank St.dataFault 1 0x0A 0 p

/-- An alarm. -/
def alarm0 : AlarmRec := ⟨1, 0, 1, 0, 0, rep 0xFF⟩

/-- A request of the management port with an operation and an argument. -/
def kMsg (op arg : Nat) : List Byte := leBytes 2 op ++ List.replicate 6 0 ++ leBytes 8 arg ++ List.replicate 16 0

/-- That request at the head of the Keeper's queue. -/
def atKeeper (op arg : Nat) : State := State.reset.setKqueue [.port 1 (kMsg op arg)]

/-- An SPDM responder that has come as far as a stage, with its session open or not. -/
def spdmSt (stage : Nat) (up : Bool) : State :=
  (State.reset.wr F.kprBoot_STEP 0 0 9).setSpdm ⟨stage, [], some 1, up, [], []⟩

/-- An SPDM request of a version and code. -/
def spdmMsg (v code p1 : Nat) (rest : List Byte) : List Byte := [BitVec.ofNat 8 v, BitVec.ofNat 8 code, BitVec.ofNat 8 p1, 0] ++ rest

/-- A state of the whole device. -/
def withSys (f : SysSt → SysSt) : State := { State.reset with sys := f State.reset.sys }

theorem some2_eq {α β : Type} {x : Option (α × β)} (h : x.isSome = true) : x = some ((x.get h).1, (x.get h).2) := by
  cases x <;> first | rfl | cases h

/-- The frame and the state of a frame that the gate takes. -/
def gateTake : GateRes → Option (OFrame × State)
  | .take a b => some (a, b)
  | _ => none

theorem gateTake_eq {x : GateRes} (h : (gateTake x).isSome = true) : x = .take ((gateTake x).get h).1 ((gateTake x).get h).2 := by
  cases x <;> first | rfl | cases h

/-- The partner and the state of a message that is taken. -/
def kmtTake : KmtRes → Option (Partner × State)
  | .take a b => some (a, b)
  | _ => none

theorem kmtTake_eq {x : KmtRes} (h : (kmtTake x).isSome = true) : x = .take ((kmtTake x).get h).1 ((kmtTake x).get h).2 := by
  cases x <;> first | rfl | cases h

/-- The parts of an atomic access that is done. -/
def atomDone : AtomRes → Option (List Byte × State)
  | .done a b => some (a, b)
  | _ => none

theorem atomDone_eq {x : AtomRes} (h : (atomDone x).isSome = true) :
    x = .done ((atomDone x).get h).1 ((atomDone x).get h).2 := by
  cases x <;> first | rfl | cases h

/-- The parts of a read that is done. -/
def memDone : MemRes → Option (List (Option Byte) × State)
  | .done a b => some (a, b)
  | _ => none

theorem memDone_eq {x : MemRes} (h : (memDone x).isSome = true) :
    x = .done ((memDone x).get h).1 ((memDone x).get h).2 := by
  cases x <;> first | rfl | cases h

/-- The parts of a register access that is done. -/
def regDone : RegRes → Option (Nat × State)
  | .done a b => some (a, b)
  | _ => none

theorem regDone_eq {x : RegRes} (h : (regDone x).isSome = true) :
    x = .done ((regDone x).get h).1 ((regDone x).get h).2 := by
  cases x <;> first | rfl | cases h

/-- What begins a run. -/
def beginGo : Begin → Option (List CarStop × State)
  | .go a b => some (a, b)
  | _ => none

theorem beginGo_eq {x : Begin} (h : (beginGo x).isSome = true) : x = .go ((beginGo x).get h).1 ((beginGo x).get h).2 := by
  cases x <;> first | rfl | cases h

/-- The state of an issue that succeeds. -/
def issueOk : Issue → Option State
  | .ok a => some a
  | _ => none

theorem issueOk_eq {x : Issue} (h : (issueOk x).isSome = true) : x = .ok ((issueOk x).get h) := by
  cases x <;> first | rfl | cases h

/-- The leaf of a walk. -/
def walkLeaf : Walk → Option (TlbE × State)
  | .leaf a b => some (a, b)
  | _ => none

theorem walkLeaf_eq {x : Walk} (h : (walkLeaf x).isSome = true) : x = .leaf ((walkLeaf x).get h).1 ((walkLeaf x).get h).2 := by
  cases x <;> first | rfl | cases h

/-- The parts of a translation that succeeds. -/
def xlatOk : Xlat → Option (Nat × Bool × Bool × State)
  | .ok a b c d => some (a, b, c, d)
  | _ => none

theorem xlatOk_eq {x : Xlat} (h : (xlatOk x).isSome = true) :
    x = .ok ((xlatOk x).get h).1 ((xlatOk x).get h).2.1 ((xlatOk x).get h).2.2.1 ((xlatOk x).get h).2.2.2 := by
  cases x <;> first | rfl | cases h

/-- The parts of a read by virtual address that is whole. -/
def virtOk : VRes → Option (List (Option Byte) × State)
  | .ok a b => some (a, b)
  | _ => none

theorem virtOk_eq {x : VRes} (h : (virtOk x).isSome = true) : x = .ok ((virtOk x).get h).1 ((virtOk x).get h).2 := by
  cases x <;> first | rfl | cases h


/-- An operation of the pavilion given, with no modifier and no operands. -/
def opOf (p : Nat) : UnitOp := ⟨p, 0, 0, 0, false, 0⟩

/-- A frame of zeros. -/
def noFrame : SlpFrame := ⟨0, false, false, true, 0, 0, 0, 0, 0, 0, 0, 0, 0, 0, 0, 0, 0, 0, [], true, true⟩

/-- A message of zeros. -/
def noMsg : KmtMsg := ⟨0, 0, 0, 0, 0, 0, 0, 0, 0, [], 0, true, true⟩

/-- A boot at which nothing fails. -/
def noBoot : BootInputs := ⟨true, true, true, [], [], [], [], 0, true⟩

/-- The first lines of a cell at hand for a reader, every byte of them the value given. -/
def withLines (s : State) (c tag n : Nat) (v : Byte) : State :=
  s.setCell c { s.cell c with lines := (s.cell c).lines ++ (List.range n).map fun k => ((tag, 128 * k), List.replicate 128 (some v)) }

/-- Engine 0 with a DLD at its queue and the line of its descriptor read. -/
def descSt : State :=
  let s := (atQ (.eng 0) 1 (mkOp 0 0)).wr F.pavQuota_GDDR 0 0 1
  s.setCell 0 { s.cell 0 with lines := [((engTag 0 0, 0), (descB ++ List.replicate 64 0).map some)] }

/-- The pair of an optional result and a state, where the result is there. -/
theorem some1_eq {α β : Type} {x : Option α × β} (h : x.1.isSome = true) : x = (some (x.1.get h), x.2) := by
  rcases x with ⟨_ | a, b⟩ <;> first | rfl | cases h

/-! ### The worked examples of the spec: the expected values stand in the chapters named -/

/-- 02.3, the first example. -/
theorem test_product_l8 : product .l8 0x45 0xB2 = -61538304 := by decide +kernel
/-- 02.3, the second example. -/
theorem test_product_l16 : product .l16 0x4200 0x4200 = 2 ^ 48 := by decide +kernel
/-- 02.4, the first example. -/
theorem test_accumulate : ((Acc.zero.combine .a64l ⟨product .l8 0x45 0xB2, false, false⟩).combine .a64l
    ⟨product .l8 0x45 0x45, false, false⟩) = ⟨257753088, false, false⟩ := by decide +kernel
/-- 02.4, the second example: the 1,247,087th product saturates. -/
theorem test_saturate : Acc.combine .a64l ⟨4294964184 * 2 ^ 31, false, false⟩ ⟨product .l8 0x7F 0x7F, false, false⟩ =
    ⟨2 ^ 63 - 1, false, true⟩ := by decide +kernel
/-- 02.7: L8 0xC5 in binary32 and in binary16. -/
theorem test_l8_to_bin : ((roundTo b32 false true false 3158 (-11)).1, (roundTo b16 false true false 3158 (-11)).1) =
    (0xBFC56000, 0xBE2B) ∧ l8Value 0xC5 = -(3158 * 2 ^ 16) := by decide +kernel
/-- 04.5: λ′ = 6,952 to L8, at random with the draw 0x93 and to nearest even. -/
theorem test_l8_rounding : (convElem .l8 .st none 0x93 false (.l16 (16384 + 6952))).code = 0x77 ∧
    (convElem .l8 .ne none 0x93 false (.l16 (16384 + 6952))).code = 0x76 := by decide +kernel
/-- 04.8, the example: four sums less their zero points. -/
theorem test_zero_point : (zeroPoint ((State.reset.wr F.drnZp_ZA 0 0 5).wr F.drnZp_ZW 0 0 2 |>.setDrain 0
    { Drain.init with rowsum := [(0, 100)] }) 0 [(0, 9)] 4 0 0 ⟨240, false, false⟩).val = 35 := by decide +kernel
/-- 09.3, the example of the home agents. -/
theorem test_hash : hashDie 0x1234567000 = 6 ∧ hashDie 0x1234568000 = 0 ∧ gddrDie 0x1234567000 = 4 := by decide +kernel
/-- 18, the example: the scale word of registers 20 to 23 of the drain of cell 315. -/
theorem test_address_scale : regAt (0x0030_0148_7728 - regBase) = some (.drnScale, 315, 5, 0) := by decide +kernel
/-- 01.5, the example of the addresses. -/
theorem test_address_cell : cellAddr 315 0 = 0x0028_4EC0_0000 ∧
    (regAt (0x0030_0709_D000 - regBase)).map (·.2.1) = some 157 := by decide +kernel
/-- 10.2, the example: the indices of a walk. -/
theorem test_walk_indices : (List.range 4).map (fun l => walkIndex l 0x0000_2000_1234_5678) = [64, 0, 145, 20] := by decide +kernel
/-- 01.2, the example: with port TD2–TD3 down, the path goes through the hub die. -/
theorem test_reroute : (((List.range 11).flatMap fun d => (List.range 11).map fun k => (d, k)).foldl (fun s (e : Nat × Nat) =>
    s.setD2dState e.1 e.2 (if peerOf e.1 e.2 = some 3 ∧ e.1 = 2 ∨ peerOf e.1 e.2 = some 2 ∧ e.1 = 3 then 3 else 1) 0) State.reset).bestPath 2 3
    = some [2, 10, 3] := by decide +kernel
/-- 09.4, the example: the ages 1, 0, 2, 1. -/
theorem test_victim : (([(0, 1), (1, 0), (2, 2), (3, 1)].foldl (fun (s : Machine.State) (e : Nat × Nat) =>
    s.setPline 0 e.1 0 ⟨partSets * (e.1 + 1), e.2, false, ⟨[], []⟩, [], none, .none⟩) State.reset).victim 0 0 [0, 1, 2, 3]).map
    (fun r => (r.1, [0, 1, 3].map fun w => (r.2.pline 0 w 0).map (·.age))) = some (2, [some 2, some 1, some 2]) := by decide +kernel
/-- 04.7, the example: ((autoScale ((State.reset.wr F.drnCtl_HISTORY 0 0 3).setDrain 0 { Drain.init with
    histIx := 4
    hist := [(0, List.replicate 5 none ++ [some 3100]), (1, List.replicate 5 none ++ [some 2950]),
      (2, List.replicate 5 none ++ [some 3300]), (3, List.replicate 5 none ++ [some 3050])] }) 0)|>.scaleReg 0 5) = 20252 with the codes 3,100; 2,950; 3,300; 3,050. -/
theorem test_auto_scale : ((autoScale ((State.reset.wr F.drnCtl_HISTORY 0 0 3).setDrain 0 { Drain.init with
    histIx := 4
    hist := [(0, List.replicate 5 none ++ [some 3100]), (1, List.replicate 5 none ++ [some 2950]),
      (2, List.replicate 5 none ++ [some 3300]), (3, List.replicate 5 none ++ [some 3050])] }) 0)|>.scaleReg 0 5) = 20252 := by decide +kernel
/-- 10.2, Table 10-3: the walk reads the leaf and answers the address. -/
theorem test_walk : (match ([(0x00100200, 0x0000000000101001), (0x00101000, 0x0000000000102001), (0x00102488, 0x0000000000103101),
      (0x001031A0, 0x000000201234000F)].foldl (fun (s : Machine.State) (e : Nat × Nat) => s.store e.1 (leBytes 8 e.2))
      (((memSt.wr F.smmuCtxTag_V 6 0 1).wr F.smmuCtxTag_AST 6 0 0x0105).wr F.smmuCtxRoot_ROOT 6 0 (0x100000 / 4096))).xlat 6 0x0000200012345678 .r (some 1) (.engine 5) with
    | .ok a _ _ _ => a
    | _ => 0) = 0x0000002012345678 := by decide +kernel

/-! ### Ill-formed commands are refused, one for each check -/

theorem test_illformed_1 : ([.registerWrite (.hart 96 .m) 0 1 0,
    .registerWrite .keeper 0 3 0,
    .d2dFlitReceive 11 0 ⟨.memory, 0, [], []⟩ 0,
    .d2dFlitReceive 0 16 ⟨.memory, 0, [], []⟩ 0,
    .d2dFlitTransmit 11 0,
    .d2dFlitTransmit 0 16,
    .d2dFlitRetransmit 11 0 0,
    .d2dFlitRetransmit 0 16 0,
    .d2dLaneFailover 11 0 0,
    .d2dLaneFailover 0 16 0,
    .d2dLaneFailover 0 0 64,
    .d2dLaneDegrade 11 0 0,
    .d2dLaneDegrade 0 16 0,
    .d2dLaneDegrade 0 0 64,
    .d2dPortDown 11 0,
    .d2dPortDown 0 16,
    .d2dReroute 11 0,
    .d2dReroute 0 11,
    .lodgeBusFail 11,
    .laneStep 512 0 0,
    .laneStep 0 128 0,
    .laneStep 0 0 128,
    .cellStoreBankAccess 512 0,
    .feederDeliver 512 false,
    .drainRowAccept 512] : List Instr).all (fun i => !i.wf) = true := by decide

theorem test_illformed_2 : ([.bedBusTransfer 64 0 false,
    .bedBusTransfer 0 4 false,
    .bedReset (.hart 96 .m) 0,
    .bedReset .keeper 64,
    .trlStage (.hart 96 .m) 0,
    .trlVerify (.hart 96 .m) 0,
    .trlCommit (.hart 96 .m) 0,
    .trlAbort (.hart 96 .m) 0,
    .trlDigestCapture (.hart 96 .m),
    .trlAgdCapture (.hart 96 .m) 0,
    .trlAgdCapture .keeper 64,
    .trlAgreeClear (.hart 96 .m) 0 0,
    .trlAgreeClear .keeper 16 0,
    .trlAgreeClear .keeper 0 8,
    .beaconSend 16 0,
    .beaconSend 0 8,
    .graceTimerExpire 16 0,
    .graceTimerExpire 0 8,
    .orgRgnCommitGo (.hart 96 .m),
    .orgRgnCommitApply 8,
    .smmuCtxCommitGo (.hart 96 .m) 0,
    .smmuCtxCommitGo .keeper 64,
    .smmuCtxCommitApply 64,
    .wsCommitGo (.hart 96 .m),
    .wsOutCommitGo (.hart 96 .m)] : List Instr).all (fun i => !i.wf) = true := by decide

theorem test_illformed_3 : ([.cohBiasCommitGo (.hart 96 .m),
    .pavProgCommitGo (.hart 96 .m) 0,
    .pavProgCommitGo .keeper 64,
    .pavProgCommitApply 64,
    .programRegistrationDone 64,
    .pavQpCommitGo (.hart 96 .m) 0,
    .pavQpCommitGo .keeper 64,
    .pavQpCommitApply 64,
    .wordIssue 64 0,
    .wordIssue 0 8,
    .prefetchWord 64 0,
    .prefetchWord 0 8,
    .ctlRepeat 64 0 0,
    .ctlRepeat 0 8 0,
    .ctlLoop 64 0 0 0,
    .ctlLoop 0 8 0 0,
    .ctlBrp 64 0 0 0 0 0,
    .ctlBrp 0 8 0 0 0 0,
    .ctlBrp 0 0 64 0 0 0,
    .branchOutcome 64 0 false 0,
    .branchOutcome 0 8 false 0,
    .ctlWait 64 0 0 0 0 0,
    .ctlWait 0 8 0 0 0 0,
    .ctlHalt 64 0,
    .ctlHalt 0 8] : List Instr).all (fun i => !i.wf) = true := by decide

theorem test_illformed_4 : ([.pavilionHalted 64,
    .ctlMark 64 0 false,
    .ctlMark 0 8 false,
    .markComplete 64,
    .ctlQuiet 64 0 0 0,
    .ctlQuiet 0 8 0 0,
    .quietClose 64,
    .ctlPfh 64 0 0 0,
    .ctlPfh 0 8 0 0,
    .signalPart 64 0 0,
    .signalPart 0 8 0,
    .replayRestore 64,
    .stlStateWrite (.hart 96 .m) 0 0,
    .stlStateWrite .keeper 65536 0,
    .stlGroupWrite (.hart 96 .m) 0 0,
    .stlGroupWrite .keeper 256 0,
    .mmul 0 ⟨64, opOf 0⟩,
    .mmul 8 ⟨0, opOf 0⟩,
    .mmul 0 ⟨0, opOf 64⟩,
    .cvta ⟨64, opOf 0⟩,
    .cvta ⟨0, opOf 64⟩,
    .cvtm ⟨64, opOf 0⟩,
    .cvtm ⟨0, opOf 64⟩,
    .cvtSeed ⟨64, opOf 0⟩,
    .cvtSeed ⟨0, opOf 64⟩,
    .scld ⟨64, opOf 0⟩,
    .scld ⟨0, opOf 64⟩,
    .rsld ⟨64, opOf 0⟩,
    .rsld ⟨0, opOf 64⟩,
    .rsadd ⟨64, opOf 0⟩,
    .rsadd ⟨0, opOf 64⟩,
    .rsclr ⟨64, opOf 0⟩,
    .rsclr ⟨0, opOf 64⟩] : List Instr).all (fun i => !i.wf) = true := by decide

theorem test_illformed_5 : ([.stex ⟨64, opOf 0⟩,
    .stex ⟨0, opOf 64⟩,
    .dld (opOf 64),
    .run (opOf 64),
    .streamRequestIssue 256 0,
    .streamRequestIssue 0 16,
    .streamResponse 256 0 0,
    .streamResponse 0 16 0,
    .burstDeliver 256 0,
    .burstDeliver 0 16,
    .caravanBurstForward 256 0 0,
    .caravanBurstForward 0 16 0,
    .caravanBurstForward 0 0 15,
    .caravanStopConfirm 256 0 0,
    .caravanStopConfirm 0 16 0,
    .caravanStopConfirm 0 0 15,
    .runComplete 256 0,
    .runComplete 0 16,
    .contextStopped 256 0,
    .contextStopped 0 16,
    .moveRelease 64,
    .vadd 64 (opOf 0),
    .vadd 0 (opOf 64),
    .vsub 64 (opOf 0),
    .vsub 0 (opOf 64),
    .vmul 64 (opOf 0)] : List Instr).all (fun i => !i.wf) = true := by decide

theorem test_illformed_6 : ([.vmul 0 (opOf 64),
    .vfma 64 (opOf 0),
    .vfma 0 (opOf 64),
    .vmin 64 (opOf 0),
    .vmin 0 (opOf 64),
    .vmax 64 (opOf 0),
    .vmax 0 (opOf 64),
    .vdiv 64 (opOf 0),
    .vdiv 0 (opOf 64),
    .vsqrt 64 (opOf 0),
    .vsqrt 0 (opOf 64),
    .vexp2 64 (opOf 0),
    .vexp2 0 (opOf 64),
    .vlog2 64 (opOf 0),
    .vlog2 0 (opOf 64),
    .vcmp 64 (opOf 0),
    .vcmp 0 (opOf 64),
    .vsel 64 (opOf 0),
    .vsel 0 (opOf 64),
    .vred 64 (opOf 0),
    .vred 0 (opOf 64),
    .vbcs 64 (opOf 0),
    .vbcs 0 (opOf 64),
    .vcvt 64 (opOf 0),
    .vcvt 0 (opOf 64)] : List Instr).all (fun i => !i.wf) = true := by decide

theorem test_illformed_7 : ([.vld 64 (opOf 0),
    .vld 0 (opOf 64),
    .vst 64 (opOf 0),
    .vst 0 (opOf 64),
    .vrcv 64 (opOf 0),
    .vrcv 0 (opOf 64),
    .vbsnd 64 (opOf 0),
    .vbsnd 0 (opOf 64),
    .vbrcv 64 (opOf 0),
    .vbrcv 0 (opOf 64),
    .plog 64 (opOf 0),
    .plog 0 (opOf 64),
    .flclr 64 (opOf 0),
    .flclr 0 (opOf 64),
    .sli 64 (opOf 0),
    .sli 0 (opOf 64),
    .sget 64 (opOf 0),
    .sget 0 (opOf 64),
    .ordf (opOf 64),
    .endf (opOf 64),
    .xchSignal (opOf 64),
    .xchSet (opOf 64),
    .xchToken (opOf 64),
    .xchBind (opOf 64),
    .xchUnbind (opOf 64)] : List Instr).all (fun i => !i.wf) = true := by decide

theorem test_illformed_8 : ([.xchSend (opOf 64),
    .allred (opOf 64),
    .rscat (opOf 64),
    .agath (opOf 64),
    .collectiveDone 64 0 0,
    .collectiveDone 0 256 0,
    .fpol (opOf 64),
    .homeAgentAccess 8,
    .nextLinePrefetch 8,
    .orgFlush (.hart 96 .m) 0 0,
    .orgFlush .keeper 8 0,
    .orgFlushDone 8,
    .atomic (.hart 96 .m false) 0 1 .lr 0 0,
    .atomic .keeper 0 3 .lr 0 0,
    .blkadd (.hart 96 .m false) 0 .a64l [],
    .gddrAccess 8,
    .gddrTrackingRead 8 [0, 0, 0] [],
    .gddrRetrainDone 8 none [0, 0, 0],
    .gddrRetrainDone 0 (some 3) [0, 0, 0],
    .gddrRetrainDone 0 none [],
    .gddrTrackingRead 0 [] [],
    .scrubGroup 8 0,
    .scrubGroup 0 3,
    .gdrPlotWrite (.hart 96 .m) 0 0 0,
    .gdrPlotWrite .keeper 8 0 0,
    .gdrPlotWrite .keeper 0 16 0,
    .plotZeroFillDone 8 0,
    .plotZeroFillDone 0 16] : List Instr).all (fun i => !i.wf) = true := by decide

theorem test_illformed_9 : ([.translationWalk 64 0 .r (.engine 0),
    .translationWalk 0 0 .r (.engine 256),
    .smmuInvRange (.hart 96 .m) 1 0,
    .smmuInvRange .keeper 3 0,
    .smmuInvTag (.hart 96 .m) 1 0,
    .smmuInvTag .keeper 3 0,
    .smmuInvAll (.hart 96 .m) 1 0,
    .smmuInvAll .keeper 3 0,
    .apertureAccess 96 0 1 .load 0,
    .apertureAccess 0 0 3 .load 0,
    .retryResend 16 0,
    .coreLoad 96 .m 0 1 false false,
    .coreLoad 0 .m 0 3 false false,
    .coreStore 96 .m 0 1 false 0,
    .coreStore 0 .m 0 3 false 0,
    .coreEviction 2 0,
    .readShared 2 0,
    .readOwn 2 0,
    .upgrade 2 0,
    .cleanEvict 2 0,
    .writeBack 2 0,
    .snpShared 2 0,
    .snpClean 2 0,
    .snpOwn 2 0,
    .snpInv 2 0] : List Instr).all (fun i => !i.wf) = true := by decide

theorem test_illformed_10 : ([.backInvalidation 2 0,
    .promote 2 0,
    .snpQuery 8 0,
    .snpQuery 0 2,
    .presenceRecord 8 0 0 .i,
    .presenceRecord 0 2 0 .i,
    .endRecord 8 0,
    .endRecord 0 2,
    .cohAck 2 0,
    .ackWb 2 0,
    .cohComplete 2 0,
    .cohOoForce (.hart 96 .m) 0 0,
    .cohOoForce .keeper 8 0,
    .ownerOrderDrained 8,
    .biasRelease (.hart 96 .m) 0,
    .biasRecall (.hart 96 .m) 0,
    .kxEfence ⟨96, 0x0B⟩,
    .kxEfence ⟨0, 0x100B⟩,
    .kxLclean ⟨96, 0x100B⟩ 0 .on .ok,
    .kxLclean ⟨0, 0x0B⟩ 0 .on .ok,
    .kxLflush ⟨96, 0x200B⟩ 0 .on .ok,
    .kxLflush ⟨0, 0x0B⟩ 0 .on .ok,
    .kxLzero ⟨96, 0x300B⟩ 0 .on .ok,
    .kxLzero ⟨0, 0x0B⟩ 0 .on .ok,
    .cboClean 96 0 .on .ok,
    .cboFlush 96 0 .on .ok,
    .cboInval 96 0 .on .ok,
    .cboZero 96 0 .on .ok,
    .msiWrite 96 0 0] : List Instr).all (fun i => !i.wf) = true := by decide

theorem test_illformed_11 : ([.msiWrite 0 9 0,
    .kxsRegWrite 96 0 0,
    .kxsRegRead 96 0,
    .kxsKeeper 96 0 0,
    .srstWarmReboot 96,
    .srstColdReboot 96,
    .pavReset (.hart 96 .m) 0 0,
    .pavReset .keeper 64 0,
    .pavResetDone 64,
    .pavRelease (.hart 96 .m) 0 0,
    .pavRelease .keeper 64 0,
    .pavFenceWrite (.hart 96 .m) 0 0,
    .pavFenceWrite .keeper 64 0,
    .sqEntryTake 64,
    .sqDoorbell (.hart 96 .m) 0 0 0,
    .sqDoorbell .keeper 64 0 0,
    .sqDoorbell .keeper 0 16 0,
    .cqHeadWrite (.hart 96 .m) 0 0 0,
    .cqHeadWrite .keeper 64 0 0,
    .cqHeadWrite .keeper 0 16 0,
    .pavQpTokenWrite (.hart 96 .m) 0 0 0 0,
    .pavQpTokenWrite .keeper 64 0 0 0,
    .pavQpTokenWrite .keeper 0 16 0 0,
    .pavEvecWrite (.hart 96 .m) 0 0 0,
    .pavEvecWrite .keeper 64 0 0] : List Instr).all (fun i => !i.wf) = true := by decide

theorem test_illformed_12 : ([.pavEvecWrite .keeper 0 64 0,
    .pmdUp 16,
    .pmdTrainingFail 16,
    .hello 17 ⟨0, [], [], [], [], 0, 0⟩,
    .finish 17 0 [],
    .handshakeTimeout 17,
    .handshakeRetry 16,
    .slpWrite 16 noFrame,
    .slpRead 16 noFrame,
    .slpAtomic 16 noFrame,
    .slpToken 16 noFrame,
    .slpColl 16 noFrame,
    .slpAck 16 noFrame,
    .slpRdata 16 noFrame,
    .slpRefuse 16 noFrame,
    .slpRetry 16 noFrame,
    .slpBeacon 16 noFrame,
    .slpCredit 16 noFrame,
    .lack 16 noFrame,
    .lnak 16 noFrame,
    .linkIdle 16 noFrame,
    .degrade 16 noFrame,
    .failover 16 noFrame,
    .portFrameSend 16,
    .lackTimer 16] : List Instr).all (fun i => !i.wf) = true := by decide

theorem test_illformed_13 : ([.creditReturnTimer 16,
    .replayTimeout 16,
    .idleTimer 16,
    .partnerAbsenceTimeout 16,
    .creditTimeout 16 0,
    .creditTimeout 0 6,
    .slowTimeout 16,
    .lostHoldExpire 16,
    .fecDegrade 16 0 [] false,
    .fecDegrade 0 8 [] false,
    .unquar (.hart 96 .m) 0 0,
    .unquar .keeper 16 0,
    .lpRetrain (.hart 96 .m) 0 0,
    .lpRetrain .keeper 16 0,
    .preset (.hart 96 .m) 0 0,
    .preset .keeper 16 0,
    .portRetrainDone 16,
    .retrainTimeout 16,
    .lpDevlostWrite (.hart 96 .m) 0 0,
    .lpDevlostWrite .keeper 8 0,
    .lpDevclrWrite (.hart 96 .m) 0 0,
    .lpDevclrWrite .keeper 8 0,
    .kmtAttach 17 noMsg,
    .kmtSubmit 17 noMsg,
    .kmtCqAck 17 noMsg] : List Instr).all (fun i => !i.wf) = true := by decide

theorem test_illformed_14 : ([.kmtWrite 17 noMsg,
    .kmtRead 17 noMsg,
    .kmtRdata 17 noMsg,
    .kmtToken 17 noMsg,
    .kmtAck 17 noMsg,
    .kmtRefuse 17 noMsg,
    .kmtKeepalive 17 noMsg,
    .kmtClose 17 noMsg,
    .ibufParityError 64 0 0 false,
    .ibufParityError 0 8 0 false,
    .controlStateFault 64 0 none,
    .controlStateFault 0 8 none,
    .bedReplacement 64,
    .hangWindowExpire 64,
    .stallTimeout 64,
    .deviceLossDeclare 0 11,
    .lodgeAlarm 11 ⟨0, 0, 0, 0, 0, ⟨0, 0, 0, 0, 0, 0, 0, 0, 0, 0, 0, 0⟩⟩,
    .lodgeSummarySend 11,
    .keeperAlarmEnqueue 11 ⟨0, 0, 0, 0, 0, ⟨0, 0, 0, 0, 0, 0, 0, 0, 0, 0, 0, 0⟩⟩,
    .logRecord 11 0 ⟨0, 0, 0, 0, 0, 0, 0, 0, 0, 0, 0, 0⟩,
    .paceRequestWrite (.hart 96 .m) 0,
    .brakeLevelWrite (.hart 96 .m) 0,
    .aclr (.hart 96 .m) 0,
    .droopDetect 11 0,
    .droopEnd 11] : List Instr).all (fun i => !i.wf) = true := by decide

theorem test_illformed_15 : ([.traceRecord ⟨11, 0, 0, 0⟩ 0 false,
    .traceRecord ⟨0, 256, 0, 0⟩ 0 false,
    .traceRecord ⟨0, 0, 256, 0⟩ 0 false,
    .traceRecord ⟨0, 0, 0, 256⟩ 0 false,
    .sensorRead 11 [],
    .upkeepGrant (.gddr 8),
    .upkeepDeadline (.gddr 8),
    .spareSelftest 8 false,
    .rotationRequest 8,
    .kprResetCold (.hart 96 .m) 0,
    .kprResetWarm (.hart 96 .m) 0,
    .kprResetDie (.hart 96 .m) 0,
    .kprResetKeeper (.hart 96 .m) 0,
    .dieReset 11 false,
    .kprMbxSubmit (.hart 96 .m) 0,
    .mtimecmpExpire 96 .mtimecmp,
    .arpRequest 17 0 0,
    .neighbourSolicitation 17 0 0] : List Instr).all (fun i => !i.wf) = true := by decide

/-- Beside them, a well-formed command of each shape passes. -/
theorem test_wellformed : ([.mmul 7 ⟨63, opOf 63⟩, .vadd 63 (opOf 0), .pavReset (.hart 95 .s) 63 0, .slpWrite 15 noFrame,
    .hello 16 ⟨0, [], [], [], [], 0, 0⟩, .stlStateWrite .keeper 65535 0, .coldBoot noBoot] : List Instr).all Instr.wf = true := by decide

/-! ### The premises of the obligations can be met -/

theorem wit_ArrayCommandsComplete :
  (∃ (bed : Nat) (ag : _) (o : UnitOp) (s : Machine.State) (es : _) (t : Machine.State),
    s.ready (.ag bed ag) 1 o = true ∧ (s.agCells bed ag).any (s.otherMode o) = false ∧ s.mmulEntries bed ag o = (some es, t) ∧ s.mmulCodes o es = []) ∧
  (∃ (cell : _) (row : _) (col : _) (s : Machine.State) (p : _) (t : Machine.State),
    ((laneReady s cell row col).cell cell).passAt ((laneReady s cell row col).lane cell row col).pass = some p ∧ (p.fmt = .l16 → col % 4 = 0) ∧ (if p.mode = .os then stepOS (laneReady s cell row col) cell row col p ((laneReady s cell row col).lane cell row col)
      else stepWS (laneReady s cell row col) cell row col p ((laneReady s cell row col).lane cell row col)) = some t) ∧
  (∃ (s : Machine.State),
    s.pwr.shut = false) ∧
  (∃ (cell : Nat) (s : Machine.State) (p : _) (js : _),
    (s.cell cell).passes.find? (fun p => decide (p.rows < p.drainRows)) = some p ∧ s.drainOpen cell p = true ∧ js = ((List.range (perRow p.fmt)).map (physCol p.fmt)).flatMap (valueCols p.fmt) ∧ (∀ j ∈ js, tget (s.cell cell).drainIn j [] ≠ [])) ∧
  (∃ (cell : Nat) (bank : Nat) (s : Machine.State) (r : _) (off : _) (bs : _),
    nextReq ((tget s.arr.banks (cell, bank) []).filter fun r => !s.bankHeld (cell / 8) r) = some r ∧ r.write = some (off, bs)) ∧
  (∃ (cell : Nat) (bank : Nat) (s : Machine.State) (r : _) (bs : _) (t : Machine.State),
    nextReq ((tget s.arr.banks (cell, bank) []).filter fun r => !s.bankHeld (cell / 8) r) = some r ∧ r.write = none ∧ ({ s with arr := { s.arr with banks := tset s.arr.banks (cell, bank) ((tget s.arr.banks (cell, bank) []).erase r) } } : State).eccRead cell r.line 128 = (bs, t)) ∧
  (∃ (bed : Nat) (track : _) (s : Machine.State) (x : _) (rest : _),
    tget s.arr.tracks (bed, track) [] = x :: rest ∧ (∀ d ∈ x.dsts, s.roomAt bed track x d = true)) ∧
  (∃ (bed : Nat) (s : Machine.State),
    s.sys.warmOn = false ∧ (s.rd F.bedStatus_STATE bed 0 = 3 ∨ s.rd F.bedStatus_STATE bed 0 = 0)) := by
  refine ⟨?_, ?_, ?_, ?_, ?_, ?_, ?_, ?_⟩
  · exact ⟨0, 0, mkOp 1 0, withLines (atQ (.ag 0 0) 1 (mkOp 1 0)) 0 3 1 0, _, _, by decide +kernel, by decide +kernel, some1_eq (by decide +kernel), by decide +kernel⟩
  · exact ⟨0, 3, 5, osLane, osPass 0, _, by decide +kernel, by decide +kernel, rfl⟩
  · exact ⟨State.reset, by decide +kernel⟩
  · exact ⟨0, wsDrain, wsPass 0, _, by decide +kernel, by decide +kernel, rfl, by decide +kernel⟩
  · exact ⟨0, 0, { State.reset with arr := { State.reset.arr with banks := [((0, 0), [⟨2, 0, some (0, [1]), 0, 0, 0⟩])] } }, ⟨2, 0, some (0, [1]), 0, 0, 0⟩, 0, [1], by decide +kernel, rfl⟩
  · exact ⟨0, 0, { State.reset with arr := { State.reset.arr with banks := [((0, 0), [⟨2, 0, none, 0, 0, 0⟩])] } }, ⟨2, 0, none, 0, 0, 0⟩, _, _, by decide +kernel, rfl, (Prod.eta _).symm⟩
  · exact ⟨0, 1, { State.reset with arr := { State.reset.arr with tracks := [((0, 1), [⟨0, 0, [1, 2], [.vec, .west 2], [], 0, false, 0⟩])] } }, ⟨0, 0, [1, 2], [.vec, .west 2], [], 0, false, 0⟩, [], by decide +kernel, by decide +kernel⟩
  · exact ⟨0, State.reset, by decide +kernel, Or.inr (by decide +kernel)⟩

theorem wit_ConverterCommandsComplete :
  (∃ (bed : Nat) (o : UnitOp) (s : Machine.State) (es : _) (t : Machine.State),
    s.cvtReady bed 1 o = true ∧ s.outsFull bed o = true ∧ s.readEntries bed o = (some es, t) ∧ entriesGood es = true ∧ (∀ e ∈ s.cvtaPlan o es, e.2.isSome = true) ∧ (∀ e ∈ s.cvtaPlan o es, ∀ v ∈ e.2, s.convHeld e.1 v.1 o = false)) ∧
  (∃ (bed : Nat) (o : UnitOp) (s : Machine.State) (es : _) (t : Machine.State) (ds : _) (u : Machine.State) (fs : _) (w : Machine.State),
    s.cvtReady bed 2 o = true ∧ (∀ c ∈ s.cvtCells bed o, s.drainWrites c = false) ∧ s.readEntries bed o = (some es, t) ∧ entriesGood es = true ∧ (∀ e ∈ s.cvtmPlan o es, e.2.isSome = true) ∧ (∀ e ∈ s.cvtmPlan o es, ∀ v ∈ e.2, s.convHeld e.1 v o = false) ∧ bankReads s 2 5 (cvtmPlaces (s.cvtmPlan o es)) = (some ds, u) ∧ u.readEntries bed o = (fs, w) ∧ (o.poison = false → ∀ e ∈ ds, allSome e.2 = true)) ∧
  (∃ (bed : Nat) (o : UnitOp) (s : Machine.State),
    s.cvtReady bed 3 o = true) ∧
  (∃ (bed : Nat) (o : UnitOp) (s : Machine.State) (ds : _) (t : Machine.State),
    s.cvtReady bed 4 o = true ∧ (∀ c ∈ s.cvtCells bed o, s.drainWrites c = false) ∧ s.loadBytes bed o 256 = (some ds, t) ∧ (∀ e ∈ ds, allSome e.2 = true) ∧ (∀ e ∈ ds, scalesOk (plain e.2) = true)) ∧
  (∃ (bed : Nat) (o : UnitOp) (s : Machine.State) (ds : _) (t : Machine.State),
    s.cvtReady bed 5 o = true ∧ (∀ c ∈ s.cvtCells bed o, s.drainWrites c = false) ∧ s.loadBytes bed o 1024 = (some ds, t) ∧ (∀ e ∈ ds, allSome e.2 = true)) ∧
  (∃ (bed : Nat) (o : UnitOp) (s : Machine.State) (ds : _) (t : Machine.State),
    s.cvtReady bed 6 o = true ∧ (∀ c ∈ s.cvtCells bed o, s.drainWrites c = false) ∧ s.loadBytes bed o (if opBit o 0 then 4096 else 1024) = (some ds, t) ∧ (∀ e ∈ ds, allSome e.2 = true)) ∧
  (∃ (bed : Nat) (o : UnitOp) (s : Machine.State),
    s.cvtReady bed 7 o = true) ∧
  (∃ (bed : Nat) (o : UnitOp) (s : Machine.State),
    s.cvtReady bed 8 o = true) := by
  refine ⟨?_, ?_, ?_, ?_, ?_, ?_, ?_, ?_⟩
  · exact ⟨0, mkOp 0 0, withLines cvtaSt 0 4 1 0, _, _, by decide +kernel, by decide +kernel, some1_eq (by decide +kernel), by decide +kernel, by decide +kernel, by decide +kernel⟩
  · exact ⟨0, mkOp 0 (2 ^ 42), withLines (withLines (atQ (.cvt 0) 2 (mkOp 0 (2 ^ 42))) 0 4 1 0) 0 5 1 0, _, _, _, _, _, _, by decide +kernel, by decide +kernel, some1_eq (by decide +kernel), by decide +kernel, by decide +kernel, by decide +kernel, some1_eq (by decide +kernel), some1_eq (by decide +kernel), by decide +kernel⟩
  · exact ⟨0, mkOp 0 0, atQ (.cvt 0) 3 (mkOp 0 0), by decide +kernel⟩
  · exact ⟨0, mkOp 0 0, withLines (atQ (.cvt 0) 4 (mkOp 0 0)) 0 5 2 1, _, _, by decide +kernel, by decide +kernel, some1_eq (by decide +kernel), by decide +kernel, by decide +kernel⟩
  · exact ⟨0, mkOp 0 0, withLines (atQ (.cvt 0) 5 (mkOp 0 0)) 0 5 8 0, _, _, by decide +kernel, by decide +kernel, some1_eq (by decide +kernel), by decide +kernel⟩
  · exact ⟨0, mkOp 0 0, withLines (atQ (.cvt 0) 6 (mkOp 0 0)) 0 5 8 0, _, _, by decide +kernel, by decide +kernel, some1_eq (by decide +kernel), by decide +kernel⟩
  · exact ⟨0, mkOp 0 0, atQ (.cvt 0) 7 (mkOp 0 0), by decide +kernel⟩
  · exact ⟨0, mkOp 0 0, atQ (.cvt 0) 8 (mkOp 0 0), by decide +kernel⟩

theorem wit_VectorArithmeticCompletes :
  (∃ (bed : Nat) (o : UnitOp) (s : Machine.State),
    VecGo bed 0x01 o s ⟨[vA o, vB o], [], [vPred o]⟩) ∧
  (∃ (bed : Nat) (o : UnitOp) (s : Machine.State),
    VecGo bed 0x02 o s ⟨[vA o, vB o], [], [vPred o]⟩) ∧
  (∃ (bed : Nat) (o : UnitOp) (s : Machine.State),
    VecGo bed 0x03 o s ⟨[vA o, vB o], [], [vPred o]⟩) ∧
  (∃ (bed : Nat) (o : UnitOp) (s : Machine.State),
    VecGo bed 0x04 o s ⟨[vA o, vB o, vC o], [], [vPred o]⟩) ∧
  (∃ (bed : Nat) (o : UnitOp) (s : Machine.State),
    VecGo bed 0x05 o s ⟨[vA o, vB o], [], [vPred o]⟩) ∧
  (∃ (bed : Nat) (o : UnitOp) (s : Machine.State),
    VecGo bed 0x06 o s ⟨[vA o, vB o], [], [vPred o]⟩) ∧
  (∃ (bed : Nat) (o : UnitOp) (s : Machine.State),
    VecGo bed 0x07 o s ⟨[vA o, vB o], [], [vPred o]⟩) ∧
  (∃ (bed : Nat) (o : UnitOp) (s : Machine.State),
    VecGo bed 0x08 o s ⟨[vA o], [], [vPred o]⟩) ∧
  (∃ (bed : Nat) (o : UnitOp) (s : Machine.State),
    VecGo bed 0x09 o s ⟨[vA o], [], [vPred o]⟩) ∧
  (∃ (bed : Nat) (o : UnitOp) (s : Machine.State),
    VecGo bed 0x0A o s ⟨[vA o], [], [vPred o]⟩) ∧
  (∃ (bed : Nat) (o : UnitOp) (s : Machine.State),
    VecGo bed 0x0F o s ⟨[vA o], [], [vPred o]⟩) := by
  refine ⟨?_, ?_, ?_, ?_, ?_, ?_, ?_, ?_, ?_, ?_, ?_⟩
  · exact ⟨0, mkOp 0 0, atQ (.vec 0) 1 (mkOp 0 0), ⟨by decide +kernel, by decide +kernel⟩⟩
  · exact ⟨0, mkOp 0 0, atQ (.vec 0) 2 (mkOp 0 0), ⟨by decide +kernel, by decide +kernel⟩⟩
  · exact ⟨0, mkOp 0 0, atQ (.vec 0) 3 (mkOp 0 0), ⟨by decide +kernel, by decide +kernel⟩⟩
  · exact ⟨0, mkOp 0 0, atQ (.vec 0) 4 (mkOp 0 0), ⟨by decide +kernel, by decide +kernel⟩⟩
  · exact ⟨0, mkOp 0 0, atQ (.vec 0) 5 (mkOp 0 0), ⟨by decide +kernel, by decide +kernel⟩⟩
  · exact ⟨0, mkOp 0 0, atQ (.vec 0) 6 (mkOp 0 0), ⟨by decide +kernel, by decide +kernel⟩⟩
  · exact ⟨0, mkOp 0 0, atQ (.vec 0) 7 (mkOp 0 0), ⟨by decide +kernel, by decide +kernel⟩⟩
  · exact ⟨0, mkOp 0 0, atQ (.vec 0) 8 (mkOp 0 0), ⟨by decide +kernel, by decide +kernel⟩⟩
  · exact ⟨0, mkOp 0 0, atQ (.vec 0) 9 (mkOp 0 0), ⟨by decide +kernel, by decide +kernel⟩⟩
  · exact ⟨0, mkOp 0 0, atQ (.vec 0) 10 (mkOp 0 0), ⟨by decide +kernel, by decide +kernel⟩⟩
  · exact ⟨0, mkOp 0 0, atQ (.vec 0) 15 (mkOp 0 0), ⟨by decide +kernel, by decide +kernel⟩⟩

theorem wit_VectorMovesComplete :
  (∃ (bed : Nat) (o : UnitOp) (s : Machine.State),
    VecGo bed 0x0B o s ⟨[vA o, vB o], [], [vPred o]⟩) ∧
  (∃ (bed : Nat) (o : UnitOp) (s : Machine.State),
    VecGo bed 0x0C o s ⟨[vA o, vB o], [], [vPred o]⟩) ∧
  (∃ (bed : Nat) (o : UnitOp) (s : Machine.State),
    VecGo bed 0x0D o s ⟨[vA o], [], [vPred o]⟩) ∧
  (∃ (bed : Nat) (o : UnitOp) (s : Machine.State),
    VecGo bed 0x0E o s ⟨[], [vA o % 32], [vPred o]⟩) ∧
  (∃ (bed : Nat) (o : UnitOp) (s : Machine.State),
    VecGo bed 0x15 o s ⟨[], [], [vA o % 8, vB o % 8]⟩) ∧
  (∃ (bed : Nat) (o : UnitOp) (s : Machine.State),
    VecGo bed 0x16 o s ⟨[], [], []⟩) ∧
  (∃ (bed : Nat) (o : UnitOp) (s : Machine.State),
    VecGo bed 0x17 o s ⟨[], [], []⟩) ∧
  (∃ (bed : Nat) (o : UnitOp) (s : Machine.State),
    VecGo bed 0x18 o s ⟨[vA o], [], []⟩) := by
  refine ⟨?_, ?_, ?_, ?_, ?_, ?_, ?_, ?_⟩
  · exact ⟨0, mkOp 0 0, atQ (.vec 0) 11 (mkOp 0 0), ⟨by decide +kernel, by decide +kernel⟩⟩
  · exact ⟨0, mkOp 0 0, atQ (.vec 0) 12 (mkOp 0 0), ⟨by decide +kernel, by decide +kernel⟩⟩
  · exact ⟨0, mkOp 0 0, atQ (.vec 0) 13 (mkOp 0 0), ⟨by decide +kernel, by decide +kernel⟩⟩
  · exact ⟨0, mkOp 0 0, atQ (.vec 0) 14 (mkOp 0 0), ⟨by decide +kernel, by decide +kernel⟩⟩
  · exact ⟨0, mkOp 0 0, atQ (.vec 0) 21 (mkOp 0 0), ⟨by decide +kernel, by decide +kernel⟩⟩
  · exact ⟨0, mkOp 0 0, atQ (.vec 0) 22 (mkOp 0 0), ⟨by decide +kernel, by decide +kernel⟩⟩
  · exact ⟨0, mkOp 0 0, atQ (.vec 0) 23 (mkOp 0 0), ⟨by decide +kernel, by decide +kernel⟩⟩
  · exact ⟨0, mkOp 0 0, atQ (.vec 0) 24 (mkOp 0 0), ⟨by decide +kernel, by decide +kernel⟩⟩

theorem wit_VectorTransfersComplete :
  (∃ (bed : Nat) (o : UnitOp) (s : Machine.State) (bs : _) (t : Machine.State),
    VecGo bed 0x10 o s ⟨[], [], [vPred o]⟩ ∧ s.vecStores (vecAddr bed o).1 = false ∧ bankRead s (vecAddr bed o).1 4 6 (vecAddr bed o).2 512 = (some bs, t) ∧ (o.poison = false → allSome bs = true)) ∧
  (∃ (bed : Nat) (o : UnitOp) (s : Machine.State),
    VecGo bed 0x11 o s ⟨[vD o], [], [vPred o]⟩) ∧
  (∃ (bed : Nat) (o : UnitOp) (s : Machine.State) (r : _),
    VecGo bed 0x12 o s ⟨[], [], [vPred o]⟩ ∧ (s.vec bed).rows.find? (fun r => r.1 == opField o 32 30) = some r) ∧
  (∃ (bed : Nat) (o : UnitOp) (s : Machine.State) (ds : _),
    VecGo bed 0x13 o s ⟨[vD o], [], []⟩ ∧ s.trackHeld bed (opField o 32 31) o = false ∧ s.group bed (opField o 30 27) = some ds) ∧
  (∃ (bed : Nat) (o : UnitOp) (s : Machine.State) (x : _) (ts : _),
    VecGo bed 0x14 o s ⟨[], [], [vPred o]⟩ ∧ tget s.arr.rx (bed, opField o 32 31, BusDst.vec) [] = x :: ts) := by
  refine ⟨?_, ?_, ?_, ?_, ?_⟩
  · exact ⟨0, mkOp 0 0, withLines (atQ (.vec 0) 16 (mkOp 0 0)) 0 6 4 0, _, _, ⟨by decide +kernel, by decide +kernel⟩, by decide +kernel, some1_eq (by decide +kernel), by decide +kernel⟩
  · exact ⟨0, mkOp 0 0, atQ (.vec 0) 17 (mkOp 0 0), ⟨by decide +kernel, by decide +kernel⟩⟩
  · exact ⟨0, mkOp 0 0, (atQ (.vec 0) 18 (mkOp 0 0)).setVec 0 { VecUnit.init with rows := [(0, [7])] }, (0, [7]), ⟨by decide +kernel, by decide +kernel⟩, by decide +kernel⟩
  · exact ⟨0, mkOp 0 0, { atQ (.vec 0) 19 (mkOp 0 0) with arr := { (atQ (.vec 0) 19 (mkOp 0 0)).arr with mcast := [((0, 0), 1)] } }, _, ⟨by decide +kernel, by decide +kernel⟩, by decide +kernel, rfl⟩
  · exact ⟨0, mkOp 0 0, { atQ (.vec 0) 20 (mkOp 0 0) with arr := { (atQ (.vec 0) 20 (mkOp 0 0)).arr with rx := [((0, 0, BusDst.vec), [[1]])] } }, [1], [], ⟨by decide +kernel, by decide +kernel⟩, by decide +kernel⟩

theorem wit_IssueCommandsComplete :
  (∃ (p : _) (die : Nat) (s : Machine.State) (b : _) (bs : _),
    s.sliceWord p die = some (b :: bs) ∧ s.wordFault p (s.slice p die) (b :: bs) = none ∧ (s.slice p die).permits (wordSlot (b :: bs) 0) = true ∧ s.placesFor (s.deliveries p die (s.slice p die) (b :: bs)) = true) ∧
  (∃ (p : _) (die : Nat) (n : _) (s : Machine.State),
    s.atCtl p die 1 (fun w => slotField w 31 0 == n) = true ∧ (s.slice p die).rep = none) ∧
  (∃ (p : _) (die : Nat) (n : _) (last : _) (s : Machine.State),
    s.dueCtl p die 2 (fun w => slotField w 47 24 == n && slotField w 23 0 == last) = true ∧ (s.slice p die).loops.length < 8 ∧ (s.slice p die).pc < last ∧ (∀ e ∈ (s.slice p die).loops.getLast?, last ≤ e.last) ∧ last < s.progLen p) ∧
  (∃ (p : _) (die : Nat) (bed : Nat) (pred : _) (cond : _) (target : _) (s : Machine.State),
    s.dueCtl p die 3 (fun w => slotField w 47 42 == bed && slotField w 41 39 == pred &&
      slotField w 38 37 == cond && slotField w 23 0 == target) = true ∧ dieOfBed bed = die ∧ (∀ q ∈ s.queue (.vec bed), writesPred pred q = false) ∧ (s.vec bed).unwritten ⟨[], [], [pred]⟩ = false ∧ target < s.progLen p) ∧
  (∃ (p : _) (die : Nat) (bed : Nat) (pred : _) (cond : _) (target : _) (s : Machine.State) (k : _) (a : Nat) (rest : _),
    s.dueCtl p die 3 (fun w => slotField w 47 42 == bed && slotField w 41 39 == pred &&
      slotField w 38 37 == cond && slotField w 23 0 == target) = true ∧ dieOfBed bed ≠ die ∧ (s.slice p die).outcomes = (k, a) :: rest) ∧
  (∃ (p : Nat) (die : Nat) (taken : _) (target : _) (s : Machine.State) (rest : _),
    (s.slice p die).coming = (taken, target) :: rest) ∧
  (∃ (p : _) (die : Nat) (stile : _) (t : Nat) (sc : _) (level : _) (s : Machine.State),
    s.atCtl p die 4 (fun w => slotField w 47 32 == stile && slotField w 31 8 == t && slotField w 7 4 == sc
      && slotField w 3 1 == level) = true ∧ (s.slice p die).permit = false ∧ s.flag F.stlState_BROKEN stile 0 = false ∧ waitTarget (s.slice p die) t sc level ≤ s.rd F.stlState_COUNT stile 0) ∧
  (∃ (p : _) (die : Nat) (s : Machine.State),
    s.dueCtl p die 5 (fun _ => true) = true) ∧
  (∃ (p : _) (die : Nat) (s : Machine.State) (k : _),
    s.atCtl p die 6 (fun _ => true) = true ∧ (s.slice p die).marked = false ∧ s.sliceBusy p die = false ∧ k = s.snapPart p die ((s.pav p).snapNew.getD ((s.slice p die).snapshot (boolNat ((s.pav p).snap.any fun k => k.slot == 0))))) ∧
  (∃ (p : _) (s : Machine.State) (t : Machine.State),
    s.pavState p = 2 ∧ (s.pav p).moves = [] ∧ s.dies p ≠ [] ∧ (∀ d ∈ s.dies p, d ∈ (s.pav p).parts ∧ (s.slice p d).held = true) ∧ t = (s.setPav p { s.pav p with snap := if (s.pav p).snapFail then none else (s.pav p).snapNew, snapNew := none, snapFail := false, parts := [], confirmed := 0, suppress := 0 }).armMark p) := by
  refine ⟨?_, ?_, ?_, ?_, ?_, ?_, ?_, ?_, ?_, ?_⟩
  · exact ⟨0, 0, onWord 0, 0, List.replicate 127 0, by decide +kernel, by decide +kernel, by decide +kernel, by decide +kernel⟩
  · exact ⟨0, 0, 3, onWord (ctl 1 3), by decide +kernel, by decide +kernel⟩
  · exact ⟨0, 0, 2, 4, (dueWord (ctl 2 (2 * 2 ^ 24 + 4))).wr F.pavProgLen_LEN 0 0 8, by decide +kernel, by decide +kernel, by decide +kernel, by decide +kernel, by decide +kernel⟩
  · exact ⟨0, 0, 0, 0, 1, 4, (dueWord (ctl 3 (1 * 2 ^ 37 + 4))).wr F.pavProgLen_LEN 0 0 8, by decide +kernel, by decide +kernel, by decide +kernel, by decide +kernel, by decide +kernel⟩
  · exact ⟨0, 0, 8, 0, 0, 4, dueWord (ctl 3 (8 * 2 ^ 42 + 4)) |>.setSlice 0 0 { (dueWord (ctl 3 (8 * 2 ^ 42 + 4))).slice 0 0 with outcomes := [(true, 4)] }, true, 4, [], by decide +kernel, by decide +kernel, by decide +kernel⟩
  · exact ⟨0, 0, true, 4, run0.setSlice 0 0 { SliceSt.init with coming := [(true, 4)] }, [], by decide +kernel⟩
  · exact ⟨0, 0, 7, 0, 0, 0, (onWord (ctl 4 (7 * 2 ^ 32))).wr F.stlGroup_V 0 0 1, by decide +kernel, by decide +kernel, by decide +kernel, by decide +kernel⟩
  · exact ⟨0, 0, dueWord (ctl 5 0), by decide +kernel⟩
  · exact ⟨0, 0, onWord (ctl 6 0), _, by decide +kernel, by decide +kernel, by decide +kernel, rfl⟩
  · exact ⟨0, (run0.setPav 0 { PavSt.init with parts := [0] }).setSlice 0 0 { SliceSt.init with held := true }, _, by decide +kernel, by decide +kernel, by decide +kernel, by decide +kernel, rfl⟩

theorem wit_ExchangeCommandsComplete :
  (∃ (p : _) (die : Nat) (sig : _) (s : Machine.State) (g : _),
    (s.pav p).sigs.find? (fun g => g.op.seq == sig) = some g ∧ die ∈ g.need ∧ die ∉ g.have_ ∧ s.issuedPast p die sig = true ∧ s.xchHeld p sig = false ∧ s.busy p (opField g.op 11 0) sig (fun b => b / 8 == die) = false) ∧
  (∃ (o : UnitOp) (s : Machine.State) (g : _),
    (s.pav o.pav).sigs.find? (fun g => g.op == o && g.dev.isNone) = some g ∧ g.whole = true) ∧
  (∃ (o : UnitOp) (s : Machine.State),
    s.xchReady (s.lead o.pav) 4 o = true ∧ s.stileEarlier o = false ∧ s.stileInUse o.pav (opField o 47 32) = false) ∧
  (∃ (o : UnitOp) (s : Machine.State),
    s.xchReady (s.lead o.pav) 6 o = true ∧ opBit o 0 = false ∧ s.stileEarlier o = false ∧ (∀ d ∈ s.boundTo (opField o 47 32), d = opField o 31 23)) ∧
  (∃ (o : UnitOp) (s : Machine.State),
    s.xchReady (s.lead o.pav) 6 o = true ∧ opBit o 0 = true ∧ s.stileEarlier o = false) ∧
  (∃ (o : UnitOp) (s : Machine.State),
    ⟨1, o⟩ ∈ (s.pav o.pav).xq ∧ (∀ d ∈ s.scopeDies o.pav (opField o 11 0), s.issuedPast o.pav d o.seq = true)) ∧
  (∃ (o : UnitOp) (s : Machine.State),
    ⟨2, o⟩ ∈ (s.pav o.pav).xq ∧ (∀ d ∈ s.scopeDies o.pav (opField o 11 0), s.issuedPast o.pav d o.seq = true) ∧ s.busy o.pav (opField o 11 0) o.seq (fun _ => true) = false) ∧
  (∃ (o : UnitOp) (s : Machine.State),
    s.xchReady (s.lead o.pav) 11 o = true ∧ (∀ q ∈ (s.pav o.pav).xq, q.opc = 11 → o.seq ≤ q.op.seq)) := by
  refine ⟨?_, ?_, ?_, ?_, ?_, ?_, ?_, ?_⟩
  · exact ⟨0, 0, 5, (run0.setPav 0 { PavSt.init with sigs := [⟨mkOp 0 1, 7, 1, none, [0], [], false⟩] }).setSlice 0 0 { SliceSt.init with issued := 1, last := 0 }, ⟨mkOp 0 1, 7, 1, none, [0], [], false⟩, by decide +kernel, by decide +kernel, by decide +kernel, by decide +kernel, by decide +kernel, by decide +kernel⟩
  · exact ⟨mkOp 0 1, run0.setPav 0 { PavSt.init with sigs := [⟨mkOp 0 1, 7, 1, none, [0], [0], false⟩] }, ⟨mkOp 0 1, 7, 1, none, [0], [0], false⟩, by decide +kernel, by decide +kernel⟩
  · exact ⟨mkOp 0 (7 * 2 ^ 32), atXq 4 (mkOp 0 (7 * 2 ^ 32)), by decide +kernel, by decide +kernel, by decide +kernel⟩
  · exact ⟨mkOp 0 (7 * 2 ^ 32), atXq 6 (mkOp 0 (7 * 2 ^ 32)), by decide +kernel, by decide +kernel, by decide +kernel, by decide +kernel⟩
  · exact ⟨mkOp 1 (7 * 2 ^ 32), atXq 6 (mkOp 1 (7 * 2 ^ 32)), by decide +kernel, by decide +kernel, by decide +kernel⟩
  · exact ⟨mkOp 0 (7 * 2 ^ 32), atXq 1 (mkOp 0 (7 * 2 ^ 32)), by decide +kernel, by decide +kernel⟩
  · exact ⟨mkOp 0 1, atXq 2 (mkOp 0 1), by decide +kernel, by decide +kernel, by decide +kernel⟩
  · exact ⟨mkOp 0 (7 * 2 ^ 32), atXq 11 (mkOp 0 (7 * 2 ^ 32)), by decide +kernel, by decide +kernel⟩

theorem wit_StileRegistersComplete :
  (∃ (a : Actor) (st : _) (s : Machine.State),
    machineActor a = true ∧ (∀ p ∈ s.stileOwner st, s.pavQuiet p = true)) ∧
  (∃ (a : Actor) (g : _) (v : BitVec 64) (s : Machine.State),
    machineActor a = true ∧ (s.flag F.stlGroup_V g 0 = true → s.pavQuiet (s.rd F.stlGroup_PAV g 0) = true) ∧ (v.toNat.testBit 6 = true → s.pavQuiet (natField v.toNat 5 0) = true ∧
      ((s.groupsOf (natField v.toNat 5 0)).filter (· != g)).length + 1 ≤ s.rd F.pavQuota_STILES (natField v.toNat 5 0) 0)) ∧
  (∃ (a : Actor),
    machineActor a = false) := by
  refine ⟨?_, ?_, ?_⟩
  · exact ⟨.hart 3 .m, 7, State.reset, by decide +kernel, by decide +kernel⟩
  · exact ⟨.keeper, 2, 0x40, State.reset.wr F.pavQuota_STILES 0 0 4, by decide +kernel, by decide +kernel, by decide +kernel⟩
  · exact ⟨.hart 3 .s, by decide +kernel⟩

theorem wit_CommitRequestsComplete :
  (∃ (a : Actor),
    machineActor a = true) ∧
  (∃ (a : Actor),
    machineActor a = false) := by
  refine ⟨?_, ?_⟩
  · exact ⟨.keeper, by decide +kernel⟩
  · exact ⟨.hart 0 .u, by decide +kernel⟩

theorem wit_CommitsApply :
  (∃ (die : Nat) (s : Machine.State),
    s.commitDue .orgRgnCommit 0 = true ∧ die ∉ s.org.rgnDone ∧ die < 8 ∧ s.regionsOk = true) ∧
  (∃ (die : Nat) (s : Machine.State),
    s.commitDue .orgRgnCommit 0 = true ∧ die ∉ s.org.rgnDone ∧ die < 8 ∧ s.regionsOk = false) ∧
  (∃ (p : Nat) (s : Machine.State),
    s.commitDue .smmuCtxCommit p = true ∧ s.pavQuiet p = true ∧ s.ctxOk p = true) ∧
  (∃ (p : Nat) (s : Machine.State),
    s.commitDue .smmuCtxCommit p = true ∧ s.pavQuiet p = true ∧ s.ctxOk p = false) ∧
  (∃ (s : Machine.State),
    s.commitDue .wsCommit 0 = true ∧ s.wsCommitOk = true) ∧
  (∃ (s : Machine.State),
    s.commitDue .wsCommit 0 = true ∧ s.wsCommitOk = false) ∧
  (∃ (s : Machine.State),
    s.commitDue .wsOutCommit 0 = true) ∧
  (∃ (s : Machine.State) (t : Machine.State),
    s.commitDue .cohBiasCommit 0 = true ∧ s.flag F.cohBiasCtl_BUSY 0 0 = false ∧ t = (if s.biasRangeOk then ((s.commitField F.cohBiasBase_BASE 0 0 0 0).commitField F.cohBiasSize_LOG2 0 0 0 0).commitEnd .cohBiasCommit 0 0 else s.commitEnd .cohBiasCommit 0 1)) := by
  refine ⟨?_, ?_, ?_, ?_, ?_, ?_, ?_, ?_⟩
  · exact ⟨3, (((List.range 16).foldl (fun s n => s.setShadow .orgRgnSize 0 n 16) State.reset)).commitGo .orgRgnCommit 0, by decide +kernel, by decide +kernel, by decide +kernel, by decide +kernel⟩
  · exact ⟨3, (State.reset.setShadow .orgRgnSize 0 4 50).commitGo .orgRgnCommit 0, by decide +kernel, by decide +kernel, by decide +kernel, by decide +kernel⟩
  · exact ⟨3, State.reset.commitGo .smmuCtxCommit 3, by decide +kernel, by decide +kernel, by decide +kernel⟩
  · exact ⟨3, (State.reset.setShadow .smmuCtxTag 3 0 (-1)).commitGo .smmuCtxCommit 3, by decide +kernel, by decide +kernel, by decide +kernel⟩
  · exact ⟨State.reset.commitGo .wsCommit 0, by decide +kernel, by decide +kernel⟩
  · exact ⟨(State.reset.setShadow .wsEntry3 5 0 0x100).commitGo .wsCommit 0, by decide +kernel, by decide +kernel⟩
  · exact ⟨State.reset.commitGo .wsOutCommit 0, by decide +kernel⟩
  · exact ⟨State.reset.commitGo .cohBiasCommit 0, _, by decide +kernel, by decide +kernel, rfl⟩

theorem wit_OrangeryCommandsComplete :
  (∃ (die : Nat) (s : Machine.State) (owner : _) (la : _) (rest : _) (d : _) (t : Machine.State) (u : Machine.State),
    tget s.org.pfq die [] = (owner, la) :: rest ∧ s.partFind die owner la = none ∧ (s.ways die owner la).isEmpty = false ∧ s.gddrServes (la * 256) 256 = .ok ∧ (owner = 0xFE → s.lineBusy la = false) ∧ s.gddrOpen la = true ∧ s.gddrFetch la = (d, t) ∧ t.fill die owner la 2 false d .none = some u) ∧
  (∃ (a : Actor) (v : BitVec 64),
    machineActor a = true ∧ isOwner (natField v.toNat 15 8) = true ∧ v.toNat % 2 = 1) ∧
  (∃ (die : Nat) (s : Machine.State),
    s.flag F.orgFlush_GO die 0 = true ∧ (∀ e ∈ s.flushLines die, s.gddrOpen e.2.la = true)) ∧
  (∃ (die : Nat) (temps : List Nat) (margins : List Nat) (s : Machine.State),
    s.rd F.gdrStatus_STATE die 0 = 3 ∧ ((∃ m ∈ margins, m < s.rd F.gdrTrain_MARGIN die 0) ∨ (∃ e ∈ temps.zipIdx, tget s.org.trained (die, e.2) 0 + 20 < e.1 ∨ e.1 + 20 < tget s.org.trained (die, e.2) 0))) ∧
  (∃ (die : Nat) (s : Machine.State),
    s.rd F.gdrStatus_STATE die 0 = 4) ∧
  (∃ (die : Nat) (comp : _) (s : Machine.State),
    s.rd F.gdrStatus_STATE die 0 = 3 ∧ s.rd F.gdrScrub_INTERVAL die 0 ≠ 0 ∧ comp < 3) ∧
  (∃ (a : Actor) (die : Nat) (plot : _) (v : BitVec 64) (s : Machine.State),
    machineActor a = true ∧ (natField v.toNat 7 0 < 64 ∨ 0xFE ≤ natField v.toNat 7 0) ∧ plot * 2 ^ 30 < s.rd F.gdrCap_USABLE die 0 ∧ s.ownerQuiet (s.rd F.gdrPlot_OWNER die plot) = true ∧ s.ownerQuiet (natField v.toNat 7 0) = true ∧ s.flag F.gdrPlot_ZFILL die plot = false ∧ (natField v.toNat 7 0 < 64 → ((s.plotsOf (natField v.toNat 7 0)).filter fun e => e != (die, plot)).length + 1 ≤
      s.rd F.pavQuota_GDDR (natField v.toNat 7 0) 0) ∧ natField v.toNat 7 0 ≠ s.rd F.gdrPlot_OWNER die plot) ∧
  (∃ (die : Nat) (plot : _) (s : Machine.State),
    s.flag F.gdrPlot_ZFILL die plot = true) := by
  refine ⟨?_, ?_, ?_, ?_, ?_, ?_, ?_, ?_⟩
  · exact ⟨0, { memSt with org := { memSt.org with pfq := [(0, [(0xFE, 1)])] } }, 0xFE, 1, [], _, _, _, by decide +kernel, by decide +kernel, by decide +kernel, by decide +kernel, by decide +kernel, by decide +kernel, (Prod.eta _).symm, (Option.some_get (by decide +kernel)).symm⟩
  · exact ⟨.keeper, 0xFE01, by decide +kernel, by decide +kernel, by decide +kernel⟩
  · exact ⟨2, State.reset.wr F.orgFlush_GO 2 0 1, by decide +kernel, by decide +kernel⟩
  · exact ⟨2, [], [0], (State.reset.wr F.gdrStatus_STATE 2 0 3).wr F.gdrTrain_MARGIN 2 0 9, by decide +kernel, Or.inl ⟨0, by decide, by decide +kernel⟩⟩
  · exact ⟨2, State.reset.wr F.gdrStatus_STATE 2 0 4, by decide +kernel⟩
  · exact ⟨2, 1, (State.reset.wr F.gdrStatus_STATE 2 0 3).wr F.gdrScrub_INTERVAL 2 0 9, by decide +kernel, by decide +kernel, by decide +kernel⟩
  · exact ⟨.keeper, 2, 1, 3, ((State.reset.wr F.gdrCap_USABLE 2 0 (2 ^ 34)).wr F.gdrPlot_OWNER 2 1 0xFF).wr F.pavQuota_GDDR 3 0 2, by decide +kernel, Or.inl (by decide +kernel), by decide +kernel, by decide +kernel, by decide +kernel, by decide +kernel, by decide +kernel, by decide +kernel⟩
  · exact ⟨2, 1, State.reset.wr F.gdrPlot_ZFILL 2 1 1, by decide +kernel⟩

theorem wit_AtomicsComplete :
  (∃ (r : _) (addr : _) (size : _) (op : _) (v : BitVec 64) (cmp : BitVec 64) (s : Machine.State) (old : _) (t : Machine.State),
    (size = 4 ∨ size = 8) ∧ s.atomicAt r addr size size (fun old => leBytes size
      (atomicValue op size (leNat old) (v.toNat % 2 ^ (8 * size)) (cmp.toNat % 2 ^ (8 * size)))) = .done old t) ∧
  (∃ (r : _) (addr : _) (fmt : _) (data : _) (s : Machine.State) (old : _) (t : Machine.State),
    s.atomicAt r addr 528 16 (fun old => blockCombine fmt old data) = .done old t) ∧
  (∃ (h : _) (m : Mode) (addr : _) (size : _) (s : Machine.State) (bs : _) (t : Machine.State),
    (size = 4 ∨ size = 8) ∧ reservable (.hart h m false) addr size = true ∧ s.buffered (.hart h m false) addr size = false ∧ s.readAs (.hart h m false) true true addr size = .done bs t ∧ allReadable bs = true) ∧
  (∃ (h : _) (m : Mode) (addr : _) (size : _) (s : Machine.State),
    (size = 4 ∨ size = 8) ∧ reservable (.hart h m false) addr size = true ∧ tfind s.coh.resv h ≠ some (addr / 64 * 64)) ∧
  (∃ (h : _) (m : Mode) (addr : _) (size : _) (v : BitVec 64) (s : Machine.State) (old : _) (t : Machine.State),
    (size = 4 ∨ size = 8) ∧ reservable (.hart h m false) addr size = true ∧ tfind s.coh.resv h = some (addr / 64 * 64) ∧ s.atomicAt (.hart h m false) addr size size (fun _ => leBytes size (v.toNat % 2 ^ (8 * size))) = .done old t) ∧
  (∃ (size : _),
    size ≠ 4 ∧ size ≠ 8) := by
  refine ⟨?_, ?_, ?_, ?_, ?_, ?_⟩
  · exact ⟨.keeper, 0, 8, .add, 1, 0, memSt, _, _, Or.inr rfl, atomDone_eq (by decide +kernel)⟩
  · exact ⟨.keeper, 0, .a64l, [], memSt, _, _, atomDone_eq (by decide +kernel)⟩
  · exact ⟨3, .m, 0, 8, memSt, _, _, Or.inr rfl, by decide +kernel, by decide +kernel, memDone_eq (by decide +kernel), by decide +kernel⟩
  · exact ⟨3, .m, 0, 8, memSt, Or.inr rfl, by decide +kernel, by decide +kernel⟩
  · exact ⟨3, .m, 0, 8, 0, { memSt with coh := { memSt.coh with resv := [(3, 0)] } }, _, _, Or.inr rfl, by decide +kernel, by decide +kernel, atomDone_eq (by decide +kernel)⟩
  · exact ⟨2, by decide +kernel, by decide +kernel⟩

theorem wit_TranslationCommandsComplete :
  (∃ (p : _) (va : _) (need : _) (u : XlatUnit) (s : Machine.State) (e : _) (t : Machine.State) (pa : _) (b : _) (c : _) (t' : _),
    s.xlatEarly p va = none ∧ s.walk p va (xlatDie u) = .leaf e t ∧ ((t.putDieTlb p (xlatDie u) e).putUnitTlb p u e).useLeaf e va need none = .ok pa b c t') ∧
  (∃ (a : Actor) (v : BitVec 64) (s : Machine.State),
    machineActor a = true ∧ (s.smmu.invq.filter fun c => !c.own).length < invPlaces ∧ s.smmu.waiting = [] ∧ invReserved (putBits v 63 62 0) = false) ∧
  (∃ (a : Actor) (v : BitVec 64) (s : Machine.State),
    machineActor a = true ∧ (s.smmu.invq.filter fun c => !c.own).length < invPlaces ∧ s.smmu.waiting = [] ∧ invReserved (putBits v 63 62 1) = false) ∧
  (∃ (a : Actor) (v : BitVec 64) (s : Machine.State),
    machineActor a = true ∧ (s.smmu.invq.filter fun c => !c.own).length < invPlaces ∧ s.smmu.waiting = [] ∧ invReserved (putBits v 63 62 2) = false) ∧
  (∃ (s : Machine.State) (c : _) (q : _),
    s.smmu.invq = c :: q ∧ c.taken = false ∧ c.kind = 0) ∧
  (∃ (s : Machine.State) (c : _) (q : _),
    s.smmu.invq = c :: q ∧ c.taken = false ∧ c.kind ≠ 0) ∧
  (∃ (s : Machine.State) (c : _) (q : _),
    s.smmu.invq = c :: q ∧ c.taken = true ∧ c.drain = []) := by
  refine ⟨?_, ?_, ?_, ?_, ?_, ?_, ?_⟩
  · exact ⟨0, 2 ^ 30, .r, .engine 0, (((memSt.store 0 (leBytes 8 1)).store 8 (leBytes 8 0x1f)).wr F.smmuCtxTag_V 0 0 1), _, _, _, _, _, _, by decide +kernel, walkLeaf_eq (by decide +kernel), xlatOk_eq (by decide +kernel)⟩
  · exact ⟨.keeper, (16 * 2 ^ 56), State.reset, by decide +kernel, by decide +kernel, by decide +kernel, by decide +kernel⟩
  · exact ⟨.keeper, 0, State.reset, by decide +kernel, by decide +kernel, by decide +kernel, by decide +kernel⟩
  · exact ⟨.keeper, 0, State.reset, by decide +kernel, by decide +kernel, by decide +kernel, by decide +kernel⟩
  · exact ⟨{ State.reset with smmu := { State.reset.smmu with invq := [⟨0, 0, 0, 65536, false, false, []⟩] } }, ⟨0, 0, 0, 65536, false, false, []⟩, [], by decide +kernel, by decide +kernel, by decide +kernel⟩
  · exact ⟨{ State.reset with smmu := { State.reset.smmu with invq := [⟨1, 0, 0, 65536, false, false, []⟩] } }, ⟨1, 0, 0, 65536, false, false, []⟩, [], by decide +kernel, by decide +kernel, by decide +kernel⟩
  · exact ⟨{ State.reset with smmu := { State.reset.smmu with invq := [⟨0, 0, 0, 65536, false, true, []⟩] } }, ⟨0, 0, 0, 65536, false, true, []⟩, [], by decide +kernel, by decide +kernel, by decide +kernel⟩

theorem wit_CoherenceRequestsComplete :
  (∃ (cd : _) (la : _) (s : Machine.State) (d : _),
    s.firstReq la = some (.readShared, cd, d) ∧ s.txn la = none) ∧
  (∃ (cd : _) (la : _) (s : Machine.State) (d : _),
    s.firstReq la = some (.readOwn, cd, d) ∧ s.txn la = none) ∧
  (∃ (cd : _) (la : _) (s : Machine.State) (d : _),
    s.firstReq la = some (.upgrade, cd, d) ∧ s.txn la = none) ∧
  (∃ (cd : _) (la : _) (s : Machine.State) (d : _),
    s.firstReq la = some (.cleanEvict, cd, d) ∧ s.txn la = none) ∧
  (∃ (cd : _) (la : _) (s : Machine.State) (d : _) (t : Machine.State),
    s.firstReq la = some (.writeBack, cd, some d) ∧ s.txn la = none ∧ (s.take (.req .writeBack cd la (some d))).homePut la d = some t) := by
  refine ⟨?_, ?_, ?_, ?_, ?_⟩
  · exact ⟨1, 0, withMsgs [.req .readShared 1 0 none], none, by decide +kernel, by decide +kernel⟩
  · exact ⟨1, 0, withMsgs [.req .readOwn 1 0 none], none, by decide +kernel, by decide +kernel⟩
  · exact ⟨1, 0, withMsgs [.req .upgrade 1 0 none], none, by decide +kernel, by decide +kernel⟩
  · exact ⟨1, 0, withMsgs [.req .cleanEvict 1 0 none], none, by decide +kernel, by decide +kernel⟩
  · exact ⟨1, 0, withMsgs [.req .writeBack 1 0 (some ⟨[], []⟩)], ⟨[], []⟩, _, by decide +kernel, by decide +kernel, (Option.some_get (by decide +kernel)).symm⟩

theorem wit_SnoopsComplete :
  (∃ (cd : _) (la : _) (s : Machine.State),
    s.coh.msgs.contains (.snp .shared cd la) = true) ∧
  (∃ (cd : _) (la : _) (s : Machine.State),
    s.coh.msgs.contains (.snp .clean cd la) = true) ∧
  (∃ (cd : _) (la : _) (s : Machine.State),
    s.coh.msgs.contains (.snp .own cd la) = true) ∧
  (∃ (cd : _) (la : _) (s : Machine.State),
    s.coh.msgs.contains (.snp .inv cd la) = true) ∧
  (∃ (cd : _) (la : _) (s : Machine.State),
    s.coh.msgs.contains (.snp .back cd la) = true) ∧
  (∃ (cd : _) (la : _) (s : Machine.State),
    s.coh.msgs.contains (.snp .promote cd la) = true) := by
  refine ⟨?_, ?_, ?_, ?_, ?_, ?_⟩
  · exact ⟨1, 0, withMsgs [.snp .shared 1 0], by decide +kernel⟩
  · exact ⟨1, 0, withMsgs [.snp .clean 1 0], by decide +kernel⟩
  · exact ⟨1, 0, withMsgs [.snp .own 1 0], by decide +kernel⟩
  · exact ⟨1, 0, withMsgs [.snp .inv 1 0], by decide +kernel⟩
  · exact ⟨1, 0, withMsgs [.snp .back 1 0], by decide +kernel⟩
  · exact ⟨1, 0, withMsgs [.snp .promote 1 0], by decide +kernel⟩

theorem wit_CoherenceAnswersComplete :
  (∃ (cd : _) (la : _) (s : Machine.State) (was : _),
    s.coh.msgs.findSome? (CMsg.ackOf cd la) = some was) ∧
  (∃ (cd : _) (la : _) (s : Machine.State),
    s.coh.msgs.contains (.ackWb cd la) = true) ∧
  (∃ (cd : _) (la : _) (s : Machine.State) (st : _) (r : _),
    s.coh.msgs.findSome? (CMsg.completeOf cd la) = some st ∧ (s.take (.complete cd la st)).creq cd la = some r) ∧
  (∃ (cd : _) (la : _) (s : Machine.State) (d : _) (r : _),
    s.coh.msgs.findSome? (CMsg.dataOf (.cd cd) la) = some d ∧ (s.take (.data (.cd cd) la d)).creq cd la = some r) ∧
  (∃ (la : _) (s : Machine.State) (d : _) (t : Machine.State) (x : _),
    s.coh.msgs.findSome? (CMsg.dataOf .home la) = some d ∧ (s.take (.data .home la d)).homePut la d = some t ∧ t.txn la = some x) ∧
  (∃ (cd : _) (la : _) (s : Machine.State),
    (s.creq cd la).isSome = false ∧ cd < 2 ∧ (s.cline cd la).st = .d) ∧
  (∃ (cd : _) (la : _) (s : Machine.State),
    (s.creq cd la).isSome = false ∧ cd < 2 ∧ (s.cline cd la).st ≠ .d ∧ (s.cline cd la).st ≠ .i) := by
  refine ⟨?_, ?_, ?_, ?_, ?_, ?_, ?_⟩
  · exact ⟨1, 0, withMsgs [.ack 1 0 .d], .d, by decide +kernel⟩
  · exact ⟨1, 0, withMsgs [.ackWb 1 0], by decide +kernel⟩
  · exact ⟨1, 0, withReq 1 (.complete 1 0 .s), .s, _, by decide +kernel, (Option.some_get (by decide +kernel)).symm⟩
  · exact ⟨1, 0, withReq 1 (.data (.cd 1) 0 ⟨[], []⟩), ⟨[], []⟩, _, by decide +kernel, (Option.some_get (by decide +kernel)).symm⟩
  · exact ⟨0, { withMsgs [.data .home 0 ⟨[], []⟩] with coh := { (withMsgs [.data .home 0 ⟨[], []⟩]).coh with txns := [⟨0, .readShared, 1, [], [], true, none, false, false⟩] } }, ⟨[], []⟩, _, _, by decide +kernel, (Option.some_get (by decide +kernel)).symm, (Option.some_get (by decide +kernel)).symm⟩
  · exact ⟨1, 0, memSt.setCline 1 0 ⟨.d, ⟨[], []⟩, 0, 0, []⟩, by decide +kernel, by decide +kernel, by decide +kernel⟩
  · exact ⟨1, 0, memSt.setCline 1 0 ⟨.s, ⟨[], []⟩, 0, 0, []⟩, by decide +kernel, by decide +kernel, by decide +kernel, by decide +kernel⟩

theorem wit_DirectoryRepairCompletes :
  (∃ (a : Actor),
    machineActor a = true) ∧
  (∃ (die : Nat) (cd : _) (s : Machine.State) (set : _),
    s.coh.msgs.findSome? (CMsg.queryOf die cd) = some set) ∧
  (∃ (die : Nat) (cd : _) (la : _) (st : _) (s : Machine.State) (w : _) (x : _),
    s.coh.msgs.contains (.presence die cd la st) = true ∧ (s.take (.presence die cd la st)).homeLine la = some (w, x) ∧ x.dir.unknown = true) ∧
  (∃ (die : Nat) (cd : _) (la : _) (st : _) (s : Machine.State) (d : _) (t : Machine.State),
    s.coh.msgs.contains (.presence die cd la st) = true ∧ (s.take (.presence die cd la st)).homeLine la = none ∧ (s.take (.presence die cd la st)).homeFetch la = some (d, t)) ∧
  (∃ (die : Nat) (cd : _) (set : _) (s : Machine.State),
    s.coh.msgs.findSome? (CMsg.endOf die cd) = some set ∧ s.coh.msgs.any (CMsg.isPresence die cd) = false) ∧
  (∃ (die : Nat) (s : Machine.State),
    s.flag F.cohStatus_DRAIN die 0 = true ∧ (∀ t ∈ s.coh.txns, homeDie t.la = die → t.owner = false)) ∧
  (∃ (s : Machine.State) (t : Machine.State),
    s.flag F.cohBiasCtl_BUSY 0 0 = true ∧ s.biasWaits = false ∧ t = (List.range 8).foldl (fun t die => t.visitTags die (if s.biasCalls then sharedOwner else s.rd F.cohBiasCtl_OWNER 0 0) (s.biasPasses die)) (s.biasHeld.foldl State.recallLine s)) := by
  refine ⟨?_, ?_, ?_, ?_, ?_, ?_, ?_⟩
  · exact ⟨.keeper, by decide +kernel⟩
  · exact ⟨0, 1, withMsgs [.query 0 1 none], none, by decide +kernel⟩
  · exact ⟨0, 1, 0, .d, (withMsgs [.presence 0 1 0 .d]).setPline 0 0 0 ⟨0, 0, false, ⟨[], []⟩, [], .none, ⟨false, false, none, .i, true⟩⟩, 0, ⟨0, 0, false, ⟨[], []⟩, [], .none, ⟨false, false, none, .i, true⟩⟩, by decide +kernel, by decide +kernel, by decide +kernel⟩
  · exact ⟨0, 1, 0, .d, withMsgs [.presence 0 1 0 .d], _, _, by decide +kernel, by decide +kernel, (Option.some_get (by decide +kernel)).symm⟩
  · exact ⟨0, 1, none, withMsgs [.endRec 0 1 none], by decide +kernel, by decide +kernel⟩
  · exact ⟨0, State.reset.wr F.cohStatus_DRAIN 0 0 1, by decide +kernel, by decide +kernel⟩
  · exact ⟨State.reset.wr F.cohBiasCtl_BUSY 0 0 1, _, by decide +kernel, by decide +kernel, rfl⟩

theorem wit_LineManagementCompletes :
  (∃ (w : BitVec 32),
    kxOf w = some .efence) ∧
  (∃ (w : BitVec 32),
    kxOf w ≠ some .efence) ∧
  (∃ (w : BitVec 32) (pa : _) (s : Machine.State),
    inGddr pa = true ∧ s.cacheable pa = true ∧ kxOf w = some .lclean) ∧
  (∃ (w : BitVec 32) (pa : _) (s : Machine.State),
    inGddr pa = true ∧ s.cacheable pa = true ∧ kxOf w = some .lflush) ∧
  (∃ (w : BitVec 32) (pa : _),
    inGddr pa = true ∧ kxOf w = some .lzero) ∧
  (∃ (w : BitVec 32),
    kxOf w ≠ some .lclean) ∧
  (∃ (w : BitVec 32),
    kxOf w ≠ some .lflush) ∧
  (∃ (w : BitVec 32),
    kxOf w ≠ some .lzero) ∧
  (∃ (pa : _) (s : Machine.State),
    inGddr pa = true ∧ s.cacheable pa = true) ∧
  (∃ (pa : _),
    inGddr pa = true) ∧
  (∃ (g : CboGate) (m : CboPerm) (c : _),
    (g = .illegal ∧ c = 2 ∨ g = .virt ∧ c = 22 ∨ g = .on ∧ m = .page ∧ c = 15 ∨ g = .on ∧ m = .access ∧ c = 7)) := by
  refine ⟨?_, ?_, ?_, ?_, ?_, ?_, ?_, ?_, ?_, ?_, ?_⟩
  · exact ⟨kxWord .efence 0, by decide +kernel⟩
  · exact ⟨kxWord .lclean 5, by decide +kernel⟩
  · exact ⟨kxWord .lclean 5, 0, memSt, by decide +kernel, by decide +kernel, by decide +kernel⟩
  · exact ⟨kxWord .lflush 5, 0, memSt, by decide +kernel, by decide +kernel, by decide +kernel⟩
  · exact ⟨kxWord .lzero 5, 0, by decide +kernel, by decide +kernel⟩
  · exact ⟨kxWord .efence 0, by decide +kernel⟩
  · exact ⟨kxWord .efence 0, by decide +kernel⟩
  · exact ⟨kxWord .efence 0, by decide +kernel⟩
  · exact ⟨0, memSt, by decide +kernel, by decide +kernel⟩
  · exact ⟨0, by decide +kernel⟩
  · exact ⟨.virt, .page, 22, Or.inr (Or.inl ⟨rfl, rfl⟩)⟩

theorem wit_HartAccessesComplete :
  (∃ (hart : _) (mode : _) (pa : _) (size : _) (io : _) (s : Machine.State) (bs : _) (t : Machine.State),
    inAperture pa = false ∧ inRegs pa = false ∧ inMemory pa size = true ∧ inCells pa = false ∧ s.throughCache io pa size = false ∧ s.readAs (.hart hart mode io) false false pa size = .done bs t) ∧
  (∃ (hart : _) (mode : _) (pa : _) (size : _) (io : _) (s : Machine.State),
    inAperture pa = false ∧ inRegs pa = false ∧ inMemory pa size = true ∧ inCells pa = false ∧ s.throughCache io pa size = true ∧ s.admitHart (.hart hart mode io) false pa size = .ok) ∧
  (∃ (hart : _) (mode : _) (pa : _) (size : _) (io : _) (v : BitVec 64) (s : Machine.State) (bs : _) (t : Machine.State),
    inAperture pa = false ∧ inRegs pa = false ∧ inMemory pa size = true ∧ inCells pa = false ∧ s.throughCache io pa (leBytes size v.toNat).length = false ∧ s.writeAs (.hart hart mode io) false false pa (leBytes size v.toNat) = .done bs t) ∧
  (∃ (hart : _) (mode : _) (pa : _) (size : _) (io : _) (v : BitVec 64) (s : Machine.State),
    inAperture pa = false ∧ inRegs pa = false ∧ inMemory pa size = true ∧ inCells pa = false ∧ s.throughCache io pa (leBytes size v.toNat).length = true ∧ s.admitHart (.hart hart mode io) true pa (leBytes size v.toNat).length = .ok) ∧
  (∃ (hart : _) (file : _),
    hart < 96 ∧ file < 9) ∧
  (∃ (hart : _) (pa : _) (v : BitVec 64) (s : Machine.State) (d : _) (t : Machine.State),
    pa % 8 = 0 ∧ s.kxsAllows pa = true ∧ s.spaceWrite (.hart hart .m) pa 8 v.toNat = .done d t ∧ t.smmu.waiting.length ≤ s.smmu.waiting.length) ∧
  (∃ (pa : _) (s : Machine.State) (d : _) (t : Machine.State),
    pa % 8 = 0 ∧ s.kxsAllows pa = true ∧ s.spaceRead pa 8 = .done d t) ∧
  (∃ (pa : _) (len : _) (s : Machine.State) (t : Machine.State),
    pa % 16 = 0 ∧ s.kpr.queue.length < kPlaces ∧ pa < 2 ^ 52 ∧ len % 16 = 0 ∧ len ≤ 4096 ∧ s.mbxWrite (BitVec.ofNat 64 (len / 16 * 2 ^ 52 + pa)) = (true, t)) := by
  refine ⟨?_, ?_, ?_, ?_, ?_, ?_, ?_, ?_⟩
  · exact ⟨3, .m, 0, 8, true, memSt, _, _, by decide +kernel, by decide +kernel, by decide +kernel, by decide +kernel, by decide +kernel, memDone_eq (by decide +kernel)⟩
  · exact ⟨3, .m, 0, 8, false, memSt, by decide +kernel, by decide +kernel, by decide +kernel, by decide +kernel, by decide +kernel, by decide +kernel⟩
  · exact ⟨3, .m, 0, 8, true, 7, memSt, _, _, by decide +kernel, by decide +kernel, by decide +kernel, by decide +kernel, by decide +kernel, memDone_eq (by decide +kernel)⟩
  · exact ⟨3, .m, 0, 8, false, 7, memSt, by decide +kernel, by decide +kernel, by decide +kernel, by decide +kernel, by decide +kernel, by decide +kernel⟩
  · exact ⟨95, 8, by decide +kernel, by decide +kernel⟩
  · exact ⟨3, regBase + 0xB000000, 5, State.reset, _, _, by decide +kernel, by decide +kernel, regDone_eq (by decide +kernel), by decide +kernel⟩
  · exact ⟨regBase + 0xB000000, State.reset, _, _, by decide +kernel, by decide +kernel, regDone_eq (by decide +kernel)⟩
  · exact ⟨0, 64, memSt, (memSt.mbxWrite (BitVec.ofNat 64 (64 / 16 * 2 ^ 52 + 0))).2, by decide +kernel, by decide +kernel, by decide +kernel, by decide +kernel, by decide +kernel, Prod.ext (by decide +kernel) rfl⟩

theorem wit_StreamStartsComplete :
  (∃ (o : UnitOp) (s : Machine.State) (bs : _) (t : Machine.State),
    s.ready (.eng (opField o 47 40)) 1 o = true ∧ s.ctxFree (opField o 47 40) (opField o 39 36) = true ∧ s.rd F.seCtxStatus_STATE (opField o 47 40) (opField o 39 36) ≠ 3 ∧ s.descBytes o = (some bs, t) ∧ allReadable bs = true ∧ s.loadCheck o.pav (opField o 47 40) (descOf (plain bs)) = 0) ∧
  (∃ (o : UnitOp) (s : Machine.State) (stops : _) (t : Machine.State),
    s.ready (.eng (opField o 47 40)) 2 o = true ∧ s.ctxFree (opField o 47 40) (opField o 39 36) = true ∧ (s.rd F.seCtxStatus_STATE (opField o 47 40) (opField o 39 36) = 1 ∨ s.rd F.seCtxStatus_STATE (opField o 47 40) (opField o 39 36) = 4) ∧ (s.desc (opField o 47 40) (opField o 39 36)).src ≠ 3 ∧ (s.desc (opField o 47 40) (opField o 39 36)).tgt ≠ 3 ∧ s.bufUsed (opField o 47 40) + (s.desc (opField o 47 40) (opField o 39 36)).reserve ≤ 65536 ∧ s.beginChecks (opField o 47 40) o (s.desc (opField o 47 40) (opField o 39 36))
      ((s.desc (opField o 47 40) (opField o 39 36)).start (toSigned 32 (opField o 31 0) * o.index)) (opBit o 0) = .go stops t) ∧
  (∃ (o : UnitOp) (s : Machine.State) (stops : _) (t : Machine.State),
    s.pavState o.pav = 2 ∧ s.xchReady (opField o 47 40 / 32) 7 o = true ∧ s.ctxFree (opField o 47 40) (opField o 39 36) = true ∧ s.bedsClosed o = false ∧ ((s.desc (opField o 47 40) (opField o 39 36)).car = true ∨ s.portForeign o.pav (natField (s.desc (opField o 47 40) (opField o 39 36)).aux 60 52) = false) ∧ (s.rd F.seCtxStatus_STATE (opField o 47 40) (opField o 39 36) = 1 ∨ s.rd F.seCtxStatus_STATE (opField o 47 40) (opField o 39 36) = 4) ∧ (s.desc (opField o 47 40) (opField o 39 36)).tgt = 3 ∧ s.bufUsed (opField o 47 40) + (s.desc (opField o 47 40) (opField o 39 36)).reserve ≤ 65536 ∧ s.beginChecks (opField o 47 40) o (s.desc (opField o 47 40) (opField o 39 36)) ((s.desc (opField o 47 40) (opField o 39 36)).start (toSigned 12 (opField o 11 0) * 4096 * o.index)) false = .go stops t) ∧
  (∃ (eng : _) (ctx : _) (s : Machine.State) (x : _) (t : Machine.State),
    tfind s.str.runs (eng, ctx) = some x ∧ s.runHeld x = false ∧ s.pwr.shut = false ∧ (s.nextIssue eng ctx x (s.desc eng ctx) = .ok t ∨ s.nextIssue eng ctx x (s.desc eng ctx) = .ask t)) ∧
  (∃ (eng : _) (ctx : _) (tag : _) (s : Machine.State) (x : _) (q : _) (bs : _),
    tfind s.str.runs (eng, ctx) = some x ∧ x.reqs.find? (fun q => q.tag == tag && q.resp.isSome) = some q ∧ q.resp = some (St.success, bs) ∧ x.dead = false ∧ s.pavState x.op.pav = 2 ∧ q.write = false ∧ allReadable bs = true) ∧
  (∃ (eng : _) (ctx : _) (tag : _) (s : Machine.State) (x : _) (q : _) (bs : _),
    tfind s.str.runs (eng, ctx) = some x ∧ x.reqs.find? (fun q => q.tag == tag && q.resp.isSome) = some q ∧ q.resp = some (St.success, bs) ∧ x.dead = false ∧ s.pavState x.op.pav = 2 ∧ q.write = true) := by
  refine ⟨?_, ?_, ?_, ?_, ?_, ?_⟩
  · exact ⟨mkOp 0 0, descSt, _, _, by decide +kernel, by decide +kernel, by decide +kernel, some1_eq (by decide +kernel), by decide +kernel, by decide +kernel⟩
  · exact ⟨mkOp 0 0, loaded (atQ (.eng 0) 2 (mkOp 0 0)) descB, _, _, by decide +kernel, by decide +kernel, Or.inl (by decide +kernel), by decide +kernel, by decide +kernel, by decide +kernel, beginGo_eq (by decide +kernel)⟩
  · exact ⟨mkOp 0 0, (loaded (atXq 7 (mkOp 0 0)) descR).wr F.kprDevid_V 0 0 1, _, _, by decide +kernel, by decide +kernel, by decide +kernel, by decide +kernel, Or.inr (by decide +kernel), Or.inl (by decide +kernel), by decide +kernel, by decide +kernel, beginGo_eq (by decide +kernel)⟩
  · exact ⟨0, 0, inRun runX, runX, _, by decide +kernel, by decide +kernel, by decide +kernel, Or.inl (issueOk_eq (by decide +kernel))⟩
  · exact ⟨0, 0, 64, inRun { runX with reqs := [answeredReq false] }, { runX with reqs := [answeredReq false] }, answeredReq false, [some 7], by decide +kernel, by decide +kernel, by decide +kernel, by decide +kernel, by decide +kernel, by decide +kernel, by decide +kernel⟩
  · exact ⟨0, 0, 64, inRun { runX with reqs := [answeredReq true] }, { runX with reqs := [answeredReq true] }, answeredReq true, [some 7], by decide +kernel, by decide +kernel, by decide +kernel, by decide +kernel, by decide +kernel, by decide +kernel⟩

theorem wit_StreamStepsComplete :
  (∃ (eng : _) (ctx : _) (s : Machine.State) (x : _) (t : Machine.State),
    tfind s.str.runs (eng, ctx) = some x ∧ s.runHeld x = false ∧ x.col = none ∧ x.burstReady (s.desc eng ctx) = true ∧ s.deliver eng ctx x (s.desc eng ctx) x.sent (x.nextLen (s.desc eng ctx)) = .ok t) ∧
  (∃ (eng : _) (ctx : _) (stop : _) (s : Machine.State) (x : _) (u : _) (i : _) (t : Machine.State),
    tfind s.str.runs (eng, ctx) = some x ∧ s.runHeld x = false ∧ stop < x.stops.length ∧ (tget x.at_ stop .init).bursts.zipIdx.find? (fun u => !u.1.passed) = some (u, i) ∧ s.stopStep eng ctx stop i x u = .ok t) ∧
  (∃ (eng : _) (ctx : _) (stop : _) (s : Machine.State) (x : _),
    tfind s.str.runs (eng, ctx) = some x ∧ x.dead = false ∧ stop < x.stops.length ∧ (tget x.at_ stop .init).confirmed = false ∧ s.stopDone eng ctx stop x = true) ∧
  (∃ (eng : _) (ctx : _) (s : Machine.State) (x : _),
    tfind s.str.runs (eng, ctx) = some x ∧ x.dead = false ∧ x.lost = false ∧ x.col = none ∧ s.pavState x.op.pav = 2 ∧ s.runWhole eng x (s.desc eng ctx) = true) ∧
  (∃ (eng : _) (ctx : _) (s : Machine.State) (x : _) (u : Machine.State),
    tfind s.str.runs (eng, ctx) = some x ∧ (s.pavState x.op.pav = 3 ∨ s.pavState x.op.pav = 4) ∧ x.reqs = [] ∧ u = (if x.dead then s else s.wr F.seCtxStatus_STATE eng ctx 3) ∧ s.runApplied eng ctx x (s.desc eng ctx) = false) ∧
  (∃ (eng : _) (ctx : _) (s : Machine.State) (x : _) (u : Machine.State),
    tfind s.str.runs (eng, ctx) = some x ∧ (s.pavState x.op.pav = 3 ∨ s.pavState x.op.pav = 4) ∧ x.reqs = [] ∧ u = (if x.dead then s else s.wr F.seCtxStatus_STATE eng ctx 3) ∧ s.runApplied eng ctx x (s.desc eng ctx) = true ∧ x.col = none) ∧
  (∃ (eng : _) (ctx : _) (s : Machine.State) (x : _) (u : Machine.State) (k : _),
    tfind s.str.runs (eng, ctx) = some x ∧ (s.pavState x.op.pav = 3 ∨ s.pavState x.op.pav = 4) ∧ x.reqs = [] ∧ u = (if x.dead then s else s.wr F.seCtxStatus_STATE eng ctx 3) ∧ s.runApplied eng ctx x (s.desc eng ctx) = true ∧ x.col = some k) := by
  refine ⟨?_, ?_, ?_, ?_, ?_, ?_, ?_⟩
  · exact ⟨0, 0, inRun { runX with buf := (List.range 128).map fun i => (i, (7, false)) }, { runX with buf := (List.range 128).map fun i => (i, (7, false)) }, _, by decide +kernel, by decide +kernel, by decide +kernel, by decide +kernel, issueOk_eq (by decide +kernel)⟩
  · exact ⟨0, 0, 0, inRun { runX with stops := [⟨false, 0, 64, 64, 0, 0, 0⟩], at_ := [(0, ⟨[⟨0, [1, 2], 0, false, (0, 0)⟩], 0, true, false, false⟩)] }, { runX with stops := [⟨false, 0, 64, 64, 0, 0, 0⟩], at_ := [(0, ⟨[⟨0, [1, 2], 0, false, (0, 0)⟩], 0, true, false, false⟩)] }, ⟨0, [1, 2], 0, false, (0, 0)⟩, 0, _, by decide +kernel, by decide +kernel, by decide +kernel, by decide +kernel, issueOk_eq (by decide +kernel)⟩
  · exact ⟨0, 0, 0, inRun { runX with stops := [⟨false, 0, 0, 0, 0, 0, 0⟩], sent := 128 }, { runX with stops := [⟨false, 0, 0, 0, 0, 0, 0⟩], sent := 128 }, by decide +kernel, by decide +kernel, by decide +kernel, by decide +kernel, by decide +kernel⟩
  · exact ⟨0, 0, inRun { runX with sent := 128 }, { runX with sent := 128 }, by decide +kernel, by decide +kernel, by decide +kernel, by decide +kernel, by decide +kernel, by decide +kernel⟩
  · exact ⟨0, 0, (inRun runX).wr F.pavStatus_STATE 0 0 3, runX, _, by decide +kernel, Or.inl (by decide +kernel), by decide +kernel, rfl, by decide +kernel⟩
  · exact ⟨0, 0, (inRun { runX with opc := 7, sent := 128 }).wr F.pavStatus_STATE 0 0 3, { runX with opc := 7, sent := 128 }, _, by decide +kernel, Or.inl (by decide +kernel), by decide +kernel, rfl, by decide +kernel, by decide +kernel⟩
  · exact ⟨0, 0, { (inRun { runX with opc := 8, col := some ⟨8, stop0, 0, [], 528, false⟩ }).wr F.pavStatus_STATE 0 0 3 with regs := ((atCol 8 (mkOp 0 0)).wr F.pavStatus_STATE 0 0 3).regs }, { runX with opc := 8, col := some ⟨8, stop0, 0, [], 528, false⟩ }, _, ⟨8, stop0, 0, [], 528, false⟩, by decide +kernel, Or.inl (by decide +kernel), by decide +kernel, rfl, by decide +kernel, by decide +kernel⟩

theorem wit_CollectivesComplete :
  (∃ (o : UnitOp) (s : Machine.State) (x : _) (stops : _) (t : Machine.State),
    s.pavState o.pav = 2 ∧ s.xchReady (opField o 47 40 / 32) 8 o = true ∧ s.bedsClosed o = false ∧ s.ctxFree (opField o 47 40) (opField o 39 36) = true ∧ s.planStop o.pav (opField o 35 28) (opField o 47 40) = some x ∧ (s.rd F.seCtxStatus_STATE (opField o 47 40) (opField o 39 36) = 1 ∨ s.rd F.seCtxStatus_STATE (opField o 47 40) (opField o 39 36) = 4) ∧ colFits 8 (opField o 27 26) (s.desc (opField o 47 40) (opField o 39 36)) x = true ∧ s.bufUsed (opField o 47 40) + (s.desc (opField o 47 40) (opField o 39 36)).reserve ≤ 65536 ∧ s.beginChecks (opField o 47 40) o (s.desc (opField o 47 40) (opField o 39 36)) ((s.desc (opField o 47 40) (opField o 39 36)).start 0) false = .go stops t) ∧
  (∃ (o : UnitOp) (s : Machine.State) (x : _) (stops : _) (t : Machine.State),
    s.pavState o.pav = 2 ∧ s.xchReady (opField o 47 40 / 32) 9 o = true ∧ s.bedsClosed o = false ∧ s.ctxFree (opField o 47 40) (opField o 39 36) = true ∧ s.planStop o.pav (opField o 35 28) (opField o 47 40) = some x ∧ (s.rd F.seCtxStatus_STATE (opField o 47 40) (opField o 39 36) = 1 ∨ s.rd F.seCtxStatus_STATE (opField o 47 40) (opField o 39 36) = 4) ∧ colFits 9 (opField o 27 26) (s.desc (opField o 47 40) (opField o 39 36)) x = true ∧ s.bufUsed (opField o 47 40) + (s.desc (opField o 47 40) (opField o 39 36)).reserve ≤ 65536 ∧ s.beginChecks (opField o 47 40) o (s.desc (opField o 47 40) (opField o 39 36)) ((s.desc (opField o 47 40) (opField o 39 36)).start 0) false = .go stops t) ∧
  (∃ (o : UnitOp) (s : Machine.State) (x : _) (stops : _) (t : Machine.State),
    s.pavState o.pav = 2 ∧ s.xchReady (opField o 47 40 / 32) 10 o = true ∧ s.bedsClosed o = false ∧ s.ctxFree (opField o 47 40) (opField o 39 36) = true ∧ s.planStop o.pav (opField o 35 28) (opField o 47 40) = some x ∧ (s.rd F.seCtxStatus_STATE (opField o 47 40) (opField o 39 36) = 1 ∨ s.rd F.seCtxStatus_STATE (opField o 47 40) (opField o 39 36) = 4) ∧ colFits 10 (opField o 27 26) (s.desc (opField o 47 40) (opField o 39 36)) x = true ∧ s.bufUsed (opField o 47 40) + (s.desc (opField o 47 40) (opField o 39 36)).reserve ≤ 65536 ∧ s.beginChecks (opField o 47 40) o (s.desc (opField o 47 40) (opField o 39 36)) ((s.desc (opField o 47 40) (opField o 39 36)).start 0) false = .go stops t) ∧
  (∃ (p : _) (eng : _) (plan : _) (s : Machine.State) (e : _) (c : _) (x : _) (t : ColSt),
    s.colRun p eng plan = some ((e, c), x) ∧ x.col = some t ∧ x.dead = false ∧ x.lost = false ∧ s.pavState p = 2 ∧ x.reqs = [] ∧ t.result (s.desc eng c) ≤ t.wr ∧ t.sentAll (s.desc eng c) = true) := by
  refine ⟨?_, ?_, ?_, ?_⟩
  · exact ⟨mkOp 0 0, atCol 8 (mkOp 0 0), stop0, _, _, by decide +kernel, by decide +kernel, by decide +kernel, by decide +kernel, by decide +kernel, Or.inl (by decide +kernel), by decide +kernel, by decide +kernel, beginGo_eq (by decide +kernel)⟩
  · exact ⟨mkOp 0 0, atCol 9 (mkOp 0 0), stop0, _, _, by decide +kernel, by decide +kernel, by decide +kernel, by decide +kernel, by decide +kernel, Or.inl (by decide +kernel), by decide +kernel, by decide +kernel, beginGo_eq (by decide +kernel)⟩
  · exact ⟨mkOp 0 0, atCol 10 (mkOp 0 0), stop0, _, _, by decide +kernel, by decide +kernel, by decide +kernel, by decide +kernel, by decide +kernel, Or.inl (by decide +kernel), by decide +kernel, by decide +kernel, beginGo_eq (by decide +kernel)⟩
  · exact ⟨0, 0, 0, { inRun { runX with col := some ⟨8, stop0, 0, [], 528, false⟩ } with regs := (atCol 8 (mkOp 0 0)).regs }, 0, 0, { runX with col := some ⟨8, stop0, 0, [], 528, false⟩ }, ⟨8, stop0, 0, [], 528, false⟩, by decide +kernel, by decide +kernel, by decide +kernel, by decide +kernel, by decide +kernel, by decide +kernel, by decide +kernel, by decide +kernel⟩

theorem wit_ProgramsRegister :
  (∃ (s : Machine.State),
    s.sys.warmOn = false) ∧
  (∃ (p : _) (s : Machine.State),
    s.commitDue .pavProgCommit p = true ∧ s.pavQuiet p = true ∧ s.rdShadow F.pavProgLen_LEN p 0 ≤ 2 ^ 24) ∧
  (∃ (p : _) (s : Machine.State) (bs : _) (t : Machine.State),
    s.flag F.pavStatus_PROG_BUSY p 0 = true ∧ s.progLen p ≠ 0 ∧ s.programBytes p = .ok bs t ∧ allReadable bs = true) ∧
  (∃ (p : _) (s : Machine.State),
    s.commitDue .pavQpCommit p = true ∧ (∀ q < 16, s.qpChanged p q = true → s.qpOk p q = true)) := by
  refine ⟨?_, ?_, ?_, ?_⟩
  · exact ⟨State.reset, by decide +kernel⟩
  · exact ⟨3, State.reset.commitGo .pavProgCommit 3, by decide +kernel, by decide +kernel, by decide +kernel⟩
  · exact ⟨0, ((mapped run0).wr F.pavStatus_PROG_BUSY 0 0 1).wr F.pavProgLen_LEN 0 0 1, _, _, by decide +kernel, by decide +kernel, virtOk_eq (by decide +kernel), by decide +kernel⟩
  · exact ⟨3, State.reset.commitGo .pavQpCommit 3, by decide +kernel, by decide +kernel⟩

theorem wit_QueuePairsAct :
  (∃ (p : _) (s : Machine.State) (q : _) (bs : _) (t : Machine.State),
    s.nextQp p = some q ∧ s.pavState p = 1 ∧ s.progLen p ≠ 0 ∧ s.flag F.pavStatus_PROG_BUSY p 0 = false ∧ s.sqRead p q = .ok bs t ∧ allReadable bs = true ∧ fieldLe (plain bs) 0 1 = 1 ∧ fieldLe (plain bs) 1 1 < 2 ∧ fieldLe (plain bs) 4 4 < s.progLen p) ∧
  (∃ (p : _) (q : _) (v : BitVec 64) (s : Machine.State),
    s.sys.warmOn = false ∧ s.flag F.pavQpSq_REMOTE p q = false ∧ s.tailOk p q (natField v.toNat 15 0) = true) ∧
  (∃ (p : _) (q : _) (v : BitVec 64) (s : Machine.State),
    s.sys.warmOn = false ∧ s.flag F.pavQpSq_REMOTE p q = false ∧ s.headOk p q (natField v.toNat 15 0) = true) ∧
  (∃ (p : _) (q : _) (v : BitVec 64) (s : Machine.State),
    s.sys.warmOn = false ∧ (s.setReg .pavQpToken0 p q v).qpState p q ≠ 4) ∧
  (∃ (p : _) (q : _) (v : BitVec 64) (s : Machine.State),
    s.sys.warmOn = false ∧ (s.setReg .pavQpToken1 p q v).qpState p q = 4 ∧ tget ((s.setReg .pavQpToken1 p q v).pav p).lastTok q 0 = 1) ∧
  (∃ (p : _) (vec : _) (v : BitVec 64) (s : Machine.State),
    s.sys.warmOn = false ∧ s.flag F.pavEvec_MASK p vec = false ∧ natField v.toNat 24 18 < 96 ∧ natField v.toNat 17 14 < 9 ∧ 1 ≤ natField v.toNat F.pavEvec_ID.hi F.pavEvec_ID.lo ∧ natField v.toNat F.pavEvec_ID.hi F.pavEvec_ID.lo ≤ 511 ∧ v.toNat.testBit 61 = false) ∧
  (∃ (p : _) (v : BitVec 64) (s : Machine.State),
    s.sys.warmOn = false ∧ v.toNat.testBit 0 = true ∧ (s.pavState p = 1 ∨ s.pavState p = 2)) := by
  refine ⟨?_, ?_, ?_, ?_, ?_, ?_, ?_⟩
  · exact ⟨0, (((((mapped run0).wr F.pavStatus_STATE 0 0 1).wr F.pavProgLen_LEN 0 0 1).wr F.pavQpState_STATE 0 0 1).wr F.pavSqTail_TAIL 0 0 1).store 0 [1], 0, _, _, by decide +kernel, by decide +kernel, by decide +kernel, by decide +kernel, virtOk_eq (by decide +kernel), by decide +kernel, by decide +kernel, by decide +kernel, by decide +kernel⟩
  · exact ⟨0, 0, 0, State.reset, by decide +kernel, by decide +kernel, by decide +kernel⟩
  · exact ⟨0, 0, 0, State.reset, by decide +kernel, by decide +kernel, by decide +kernel⟩
  · exact ⟨0, 0, 5, State.reset, by decide +kernel, by decide +kernel⟩
  · exact ⟨0, 0, 5, (State.reset.wr F.pavQpState_STATE 0 0 4).setPav 0 { PavSt.init with lastTok := [(0, 1)] }, by decide +kernel, by decide +kernel, by decide +kernel⟩
  · exact ⟨0, 0, 1, State.reset, by decide +kernel, by decide +kernel, by decide +kernel, by decide +kernel, by decide +kernel, by decide +kernel, by decide +kernel⟩
  · exact ⟨0, 1, run0, by decide +kernel, by decide +kernel, Or.inr (by decide +kernel)⟩

theorem wit_PavilionsEndAndRestart :
  (∃ (p : _) (s : Machine.State) (r : Request) (t : Machine.State),
    s.pavState p = 2 ∧ s.allHalted p = true ∧ s.anyBusy p = false ∧ (s.pav p).moves = [] ∧ s.moveInv p = false ∧ (s.pav p).req = some r ∧ s.writeRecord p r St.success (s.lastWord p) = some t) ∧
  (∃ (p : _) (s : Machine.State) (m : MovePage) (rest : _) (t : Machine.State),
    (s.pav p).moves = m :: rest ∧ s.releaseDue p = true ∧ State.releasePages p (m.size / 65536) m.srcVa m.va m.size (s.setPav p { s.pav p with moves := rest }) = some t) ∧
  (∃ (p : _) (v : BitVec 64) (s : Machine.State) (t : Machine.State),
    s.sys.warmOn = false ∧ v.toNat.testBit 1 = false ∧ t = (s.wr F.pavCtl_SCRUB p 0 (natField v.toNat 10 8)).wr F.pavCtl_AUTOREL p 0 (natField v.toNat 2 2) ∧ t.pavState p = 3) ∧
  (∃ (p : _) (v : BitVec 64) (s : Machine.State) (t : Machine.State),
    s.sys.warmOn = false ∧ v.toNat.testBit 0 = false ∧ t = (s.wr F.pavCtl_SCRUB p 0 (natField v.toNat 10 8)).wr F.pavCtl_AUTOREL p 0 (natField v.toNat 2 2) ∧ t.pavState p = 3 ∧ t.flag F.pavStatus_CLEAN p 0 = true ∧ t.releasable p = true) ∧
  (∃ (p : _) (s : Machine.State) (r : Machine.State) (t : Machine.State) (u : Machine.State),
    s.pavState p = 4 ∧ s.drainedPav p = true ∧ (∀ d ∈ s.dies p, d ∉ s.sys.dieReq) ∧ s.drainRecord p = some r ∧ r.discardMoves p = some t ∧ u = (((t.clearPav p).scrubPav p).wr F.pavStatus_CLEAN p 0 (boolNat !(s.pav p).soiled)).setPavState p 3) ∧
  (∃ (p : _) (s : Machine.State) (k : Snapshot),
    (s.pav p).snap = some k ∧ s.pavState p = 3 ∧ (s.pav p).replay = true ∧ s.xchSettled p = true ∧ s.committing p = false) := by
  refine ⟨?_, ?_, ?_, ?_, ?_, ?_⟩
  · exact ⟨0, ((mapped run0).setSlice 0 0 { SliceSt.init with run := true, halted := true }).setPav 0 { PavSt.init with req := some ⟨0, false, 0, 0, 1⟩ }, ⟨0, false, 0, 0, 1⟩, _, by decide +kernel, by decide +kernel, by decide +kernel, by decide +kernel, by decide +kernel, by decide +kernel, (Option.some_get (by decide +kernel)).symm⟩
  · exact ⟨0, (run0.setSlice 0 0 { SliceSt.init with run := true, halted := true }).setPav 0 { PavSt.init with moves := [⟨5, 0, 65536, 65536, false⟩] }, ⟨5, 0, 65536, 65536, false⟩, [], _, by decide +kernel, by decide +kernel, (Option.some_get (by decide +kernel)).symm⟩
  · exact ⟨0, 1, run0.wr F.pavStatus_STATE 0 0 3, _, by decide +kernel, by decide +kernel, rfl, by decide +kernel⟩
  · exact ⟨0, 2, (run0.wr F.pavStatus_STATE 0 0 3).wr F.pavStatus_CLEAN 0 0 1, _, by decide +kernel, by decide +kernel, rfl, by decide +kernel, by decide +kernel, by decide +kernel⟩
  · exact ⟨0, run0.wr F.pavStatus_STATE 0 0 4, _, _, _, by decide +kernel, by decide +kernel, by decide +kernel, (Option.some_get (by decide +kernel)).symm, (Option.some_get (by decide +kernel)).symm, rfl⟩
  · exact ⟨0, (run0.wr F.pavStatus_STATE 0 0 3).setPav 0 { PavSt.init with snap := some ⟨3, [], 0, false, [], [], 0⟩, replay := true }, ⟨3, [], 0, false, [], [], 0⟩, by decide +kernel, by decide +kernel, by decide +kernel, by decide +kernel, by decide +kernel⟩

theorem wit_SliceHelpersComplete :
  (∃ (p : _) (die : Nat) (s : Machine.State) (w : _) (bs : _) (t : Machine.State),
    s.nextMissing p (s.slice p die) = some w ∧ s.pavState p = 2 ∧ (s.slice p die).run = true ∧ (s.slice p die).halted = false ∧ s.fetchWord p die w = some (bs, t)) ∧
  (∃ (p : _) (die : Nat) (target : _) (count : _) (s : Machine.State) (t : Machine.State),
    s.dueCtl p die 8 (fun w => slotField w 23 0 == target && slotField w 29 24 == count) = true ∧ t = s.setSlice p die (s.slice p die).advance) ∧
  (∃ (p : _) (die : Nat) (classes : _) (len : _) (s : Machine.State) (t : Machine.State),
    s.quietDue p die classes len = true ∧ t = s.openQuiet p classes len (s.slice p die).issued ∧ (t.quietUse p classes = true ∨ t.quietGranted p ≠ [])) ∧
  (∃ (p : _) (s : Machine.State) (q : Quiet),
    (s.pav p).quiet = some q ∧ q.granted = []) ∧
  (∃ (p : _) (s : Machine.State) (q : Quiet),
    (s.pav p).quiet = some q ∧ q.granted ≠ []) ∧
  (∃ (o : UnitOp) (s : Machine.State) (g : SigSt) (d : _) (n : _) (k : _) (es : _) (t : Machine.State),
    (s.pav o.pav).sigs.find? (fun g => g.op == o) = some g ∧ g.dev = some d ∧ g.whole = true ∧ g.sent = false ∧ s.route d o.pav (some o.pav) = .port n ∧ s.closedTo o.pav (.link n) = false ∧ s.freeSlot = some k ∧ s.nextEseq 1001 o.pav = (es, t)) := by
  refine ⟨?_, ?_, ?_, ?_, ?_, ?_⟩
  · exact ⟨0, 0, ((mapped run0).wr F.pavProgLen_LEN 0 0 2).setSlice 0 0 { SliceSt.init with run := true }, 0, _, _, by decide +kernel, by decide +kernel, by decide +kernel, by decide +kernel, some2_eq (by decide +kernel)⟩
  · exact ⟨0, 0, 3, 5, dueWord (ctl 8 (5 * 2 ^ 24 + 3)), _, by decide +kernel, rfl⟩
  · exact ⟨0, 0, 1, 9, ((dueWord (ctl 7 9 + 2 ^ 48)).wr F.gdrTrain_PENDING 0 0 1).wr F.pavQuota_GDDR 0 0 1, _, by decide +kernel, rfl, Or.inl (by decide +kernel)⟩
  · exact ⟨0, run0.setPav 0 { PavSt.init with quiet := some ⟨1, 9, 0, false, [], []⟩ }, ⟨1, 9, 0, false, [], []⟩, by decide +kernel, by decide +kernel⟩
  · exact ⟨0, run0.setPav 0 { PavSt.init with quiet := some ⟨1, 9, 0, false, [.gddr 0], []⟩ }, ⟨1, 9, 0, false, [.gddr 0], []⟩, by decide +kernel, by decide +kernel⟩
  · exact ⟨mkOp 0 1, (portSt 2 3 port1).setPav 0 { PavSt.init with sigs := [⟨mkOp 0 1, 7, 1, some 1, [0], [0], false⟩] }, ⟨mkOp 0 1, 7, 1, some 1, [0], [0], false⟩, 1, 3, 0, _, _, by decide +kernel, by decide +kernel, by decide +kernel, by decide +kernel, by decide +kernel, by decide +kernel, by decide +kernel, (Prod.eta _).symm⟩

theorem wit_LinkUpCompletes :
  (∃ (port : _) (s : Machine.State),
    s.lpState port = 1 ∧ port < 16 ∧ s.sys.r156 = true) ∧
  (∃ (port : _) (s : Machine.State) (k : _),
    s.lpMode port = 2 ∧ s.lpState port = 2 ∧ (s.port port).hs = some k ∧ k.hello = none) ∧
  (∃ (port : _) (s : Machine.State),
    s.lpMode port = 1 ∧ (s.lpState port = 2 ∨ s.lpState port = 3) ∧ s.sessionRoom port = true) ∧
  (∃ (port : _) (s : Machine.State) (k : _) (h : _) (g : _),
    s.lpMode port = 2 ∧ s.lpState port = 2 ∧ (s.port port).hs = some k ∧ k.hello = some (h, g)) ∧
  (∃ (port : _) (session : _) (s : Machine.State) (k : _) (hs : _) (h : _) (g : _) (t : Machine.State),
    s.lpMode port ≠ 2 ∧ s.session session = some k ∧ k.port = port ∧ k.hs = some hs ∧ hs.hello = some (h, g) ∧ t = s.setSession session { k with partner := some (s.partnerOf hs h g "KX-KMT-1"), hs := none }) ∧
  (∃ (port : _) (s : Machine.State),
    s.lpState port = 2) ∧
  (∃ (port : _) (s : Machine.State),
    s.lpState port = 1 ∧ (s.port port).waiting = true) := by
  refine ⟨?_, ?_, ?_, ?_, ?_, ?_, ?_⟩
  · exact ⟨3, portSt 2 1 PortSt.init, by decide +kernel, by decide +kernel, by decide +kernel⟩
  · exact ⟨3, portSt 2 2 { PortSt.init with hs := some hs0 }, hs0, by decide +kernel, by decide +kernel, by decide +kernel, by decide +kernel⟩
  · exact ⟨3, portSt 1 3 PortSt.init, by decide +kernel, Or.inr (by decide +kernel), by decide +kernel⟩
  · exact ⟨3, portSt 2 2 { PortSt.init with hs := some { hs0 with hello := some (hello0, rule1) } }, { hs0 with hello := some (hello0, rule1) }, hello0, rule1, by decide +kernel, by decide +kernel, by decide +kernel, by decide +kernel⟩
  · exact ⟨3, 1, (portSt 1 3 PortSt.init).setSession 1 { ses1 with hs := some { hs0 with hello := some (hello0, rule1) } }, { ses1 with hs := some { hs0 with hello := some (hello0, rule1) } }, { hs0 with hello := some (hello0, rule1) }, hello0, rule1, _, by decide +kernel, by decide +kernel, by decide +kernel, by decide +kernel, by decide +kernel, rfl⟩
  · exact ⟨3, portSt 2 2 PortSt.init, by decide +kernel⟩
  · exact ⟨3, portSt 2 1 { PortSt.init with waiting := true }, by decide +kernel, by decide +kernel⟩

theorem wit_LinkFramesComplete :
  (∃ (port : _) (f : _) (s : Machine.State) (t : Machine.State),
    s.linkGate port 0x21 f = (t, true)) ∧
  (∃ (port : _) (f : _) (s : Machine.State) (t : Machine.State),
    s.linkGate port 0x22 f = (t, true)) ∧
  (∃ (port : _) (f : _) (s : Machine.State) (t : Machine.State),
    s.linkGate port 0x23 f = (t, true)) ∧
  (∃ (port : _) (f : _) (s : Machine.State) (t : Machine.State),
    s.linkGate port 0x24 f = (t, true)) ∧
  (∃ (port : _) (f : _) (s : Machine.State) (t : Machine.State),
    s.linkGate port 0x25 f = (t, true)) ∧
  (∃ (port : _) (f : _) (s : Machine.State) (t : Machine.State),
    s.linkGate port 0x27 f = (t, true)) := by
  refine ⟨?_, ?_, ?_, ?_, ?_, ?_⟩
  · exact ⟨3, linkF (List.replicate 16 0), portSt 2 3 port1, _, Prod.ext rfl (by decide +kernel)⟩
  · exact ⟨3, linkF (List.replicate 12 0), portSt 2 3 port1, _, Prod.ext rfl (by decide +kernel)⟩
  · exact ⟨3, linkF (List.replicate 8 0), portSt 2 3 port1, _, Prod.ext rfl (by decide +kernel)⟩
  · exact ⟨3, linkF (List.replicate 0 0), portSt 2 3 port1, _, Prod.ext rfl (by decide +kernel)⟩
  · exact ⟨3, linkF (List.replicate 8 0), portSt 2 3 port1, _, Prod.ext rfl (by decide +kernel)⟩
  · exact ⟨3, linkF (List.replicate 8 0), portSt 2 3 port1, _, Prod.ext rfl (by decide +kernel)⟩

theorem wit_PortTimersComplete :
  (∃ (port : _) (s : Machine.State),
    s.sys.lost = false ∧ s.lpMode port = 2 ∧ s.lpOpen port = true) ∧
  (∃ (port : _) (s : Machine.State),
    s.sys.lost = false ∧ s.lpMode port = 1 ∧ s.lpState port = 3) ∧
  (∃ (port : _) (s : Machine.State),
    s.listens port = true ∧ (s.port port).lackDue = true) ∧
  (∃ (port : _) (s : Machine.State),
    s.listens port = true) ∧
  (∃ (port : _) (s : Machine.State),
    s.lpOpen port = true) ∧
  (∃ (port : _) (vc : _) (s : Machine.State),
    s.lpState port = 3 ∧ s.lpMode port = 2 ∧ s.creditStuck port vc = true) ∧
  (∃ (port : _) (s : Machine.State),
    s.lpState port = 4) ∧
  (∃ (port : _) (s : Machine.State),
    s.lpState port = 6) := by
  refine ⟨?_, ?_, ?_, ?_, ?_, ?_, ?_, ?_⟩
  · exact ⟨3, portSt 2 3 port1, by decide +kernel, by decide +kernel, by decide +kernel⟩
  · exact ⟨3, portSt 1 3 port1, by decide +kernel, by decide +kernel, by decide +kernel⟩
  · exact ⟨3, portSt 2 3 { port1 with lackDue := true }, by decide +kernel, by decide +kernel⟩
  · exact ⟨3, portSt 2 3 port1, by decide +kernel⟩
  · exact ⟨3, portSt 2 3 port1, by decide +kernel⟩
  · exact ⟨3, 0, portSt 2 3 { port1 with txq := [asked.frame] }, by decide +kernel, by decide +kernel, by decide +kernel⟩
  · exact ⟨3, portSt 2 4 port1, by decide +kernel⟩
  · exact ⟨3, portSt 2 6 port1, by decide +kernel⟩

theorem wit_PortControlCompletes :
  (∃ (port : _) (lane : _) (counts : _) (bad : _) (s : Machine.State) (t : Machine.State),
    s.fecCount port counts bad = t ∧ t.fecFails port lane counts bad = true ∧ t.lpMode port = 2 ∧ 4 < t.rd F.lpStatus_LANES port 0) ∧
  (∃ (a : Actor),
    machineActor a = true) ∧
  (∃ (port : _) (s : Machine.State),
    s.lpState port = 5) ∧
  (∃ (a : Actor) (ix : _),
    machineActor a = true ∧ ix < 8) ∧
  (∃ (port : _) (ip : _) (s : Machine.State),
    s.answersFor port false = true ∧ s.rd F.lpIpv4_ADDR port 0 = ip) ∧
  (∃ (port : _) (ip : _) (s : Machine.State),
    s.answersFor port true = true ∧ s.rd F.lpIpv6Hi_ADDR port 0 * 2 ^ 64 + s.rd F.lpIpv6Lo_ADDR port 0 = ip) := by
  refine ⟨?_, ?_, ?_, ?_, ?_, ?_⟩
  · exact ⟨3, 2, [0, 0, 9], true, (portSt 2 3 { port1 with lanes := 0xFF }).wr F.lpStatus_LANES 3 0 8, _, rfl, by decide +kernel, by decide +kernel, by decide +kernel⟩
  · exact ⟨.keeper, by decide +kernel⟩
  · exact ⟨3, portSt 2 5 port1, by decide +kernel⟩
  · exact ⟨.keeper, 7, by decide +kernel, by decide +kernel⟩
  · exact ⟨3, 0, portSt 1 3 port1, by decide +kernel, by decide +kernel⟩
  · exact ⟨16, 0, State.reset, by decide +kernel, by decide +kernel⟩

theorem wit_InboundRequestsComplete :
  (∃ (port : _) (f : _) (s : Machine.State) (g : _) (u : Machine.State) (t : Machine.State),
    s.gate port 0x01 f = .take g u ∧ g.dst = u.devId ∧ u.agrees port (u.destPav g) = true ∧ u.lnk.inb.any (fun w => w.port == port) = false ∧ u.perform port none g = some t) ∧
  (∃ (port : _) (f : _) (s : Machine.State) (g : _) (u : Machine.State) (t : Machine.State),
    s.gate port 0x02 f = .take g u ∧ g.dst = u.devId ∧ u.agrees port (u.destPav g) = true ∧ u.lnk.inb.any (fun w => w.port == port) = false ∧ u.perform port none g = some t) ∧
  (∃ (port : _) (f : _) (s : Machine.State) (g : _) (u : Machine.State) (t : Machine.State),
    s.gate port 0x03 f = .take g u ∧ g.dst = u.devId ∧ u.agrees port (u.destPav g) = true ∧ u.lnk.inb.any (fun w => w.port == port) = false ∧ u.perform port none g = some t) ∧
  (∃ (port : _) (f : _) (s : Machine.State) (g : _) (u : Machine.State) (t : Machine.State),
    s.gate port 0x04 f = .take g u ∧ g.dst = u.devId ∧ u.agrees port (u.destPav g) = true ∧ u.lnk.inb.any (fun w => w.port == port) = false ∧ u.perform port none g = some t) ∧
  (∃ (port : _) (f : _) (s : Machine.State) (g : _) (u : Machine.State) (t : Machine.State),
    s.gate port 0x05 f = .take g u ∧ g.dst = u.devId ∧ u.agrees port (u.destPav g) = true ∧ u.lnk.inb.any (fun w => w.port == port) = false ∧ u.perform port none g = some t) ∧
  (∃ (die : Nat) (s : Machine.State) (t : Machine.State),
    s.homeTurn die = some t) ∧
  (∃ (die : Nat) (s : Machine.State) (t : Machine.State),
    s.homeTurn die = none ∧ s.serveIn = some t) ∧
  (∃ (die : Nat) (s : Machine.State) (t : Machine.State),
    s.gddrTurn die = some t) ∧
  (∃ (k : Nat) (s : Machine.State) (st : _) (inc : _),
    s.lnk.commits[k]? = some (st, inc)) := by
  refine ⟨?_, ?_, ?_, ?_, ?_, ?_, ?_, ?_, ?_⟩
  · exact ⟨3, frame1 [], portSt 2 3 port1, _, _, _, gateTake_eq (by decide +kernel), by decide +kernel, by decide +kernel, by decide +kernel, (Option.some_get (by decide +kernel)).symm⟩
  · exact ⟨3, frame1 [], portSt 2 3 port1, _, _, _, gateTake_eq (by decide +kernel), by decide +kernel, by decide +kernel, by decide +kernel, (Option.some_get (by decide +kernel)).symm⟩
  · exact ⟨3, frame1 [0, 0, 0, 0], portSt 2 3 port1, _, _, _, gateTake_eq (by decide +kernel), by decide +kernel, by decide +kernel, by decide +kernel, (Option.some_get (by decide +kernel)).symm⟩
  · exact ⟨3, frame1 [], portSt 2 3 port1, _, _, _, gateTake_eq (by decide +kernel), by decide +kernel, by decide +kernel, by decide +kernel, (Option.some_get (by decide +kernel)).symm⟩
  · exact ⟨3, frame1 [], portSt 2 3 port1, _, _, _, gateTake_eq (by decide +kernel), by decide +kernel, by decide +kernel, by decide +kernel, (Option.some_get (by decide +kernel)).symm⟩
  · exact ⟨0, { memSt with org := { memSt.org with hq := [(0, [⟨0, 0, 0, 64, .part 0 0xFE, false, 0, 128, []⟩])] } }, _, (Option.some_get (by decide +kernel)).symm⟩
  · exact ⟨0, { portSt 2 3 port1 with lnk := { (portSt 2 3 port1).lnk with inb := [⟨asked.frame, 3, none⟩] } }, _, by decide +kernel, (Option.some_get (by decide +kernel)).symm⟩
  · exact ⟨0, { memSt with org := { memSt.org with gq := [(0, [⟨0, 0, 0, 64, .direct 0, false, 0, 128, []⟩])] } }, _, (Option.some_get (by decide +kernel)).symm⟩
  · exact ⟨0, { State.reset with lnk := { State.reset.lnk with commits := [(7, 1)] } }, 7, 1, by decide +kernel⟩

theorem wit_ResponsesComplete :
  (∃ (port : _) (f : _) (s : Machine.State) (g : _) (u : Machine.State) (r : _),
    s.gate port 0x11 f = .take g u ∧ g.dst = u.devId ∧ u.reqOf g = some r ∧ u.agrees port r.frame.srcpav = true) ∧
  (∃ (port : _) (f : _) (s : Machine.State) (g : _) (u : Machine.State) (r : _),
    s.gate port 0x12 f = .take g u ∧ g.dst = u.devId ∧ u.reqOf g = some r ∧ u.agrees port r.frame.srcpav = true) ∧
  (∃ (port : _) (f : _) (s : Machine.State) (g : _) (u : Machine.State) (r : _),
    s.gate port 0x13 f = .take g u ∧ g.dst = u.devId ∧ u.reqOf g = some r ∧ u.agrees port r.frame.srcpav = true) ∧
  (∃ (port : _) (f : _) (s : Machine.State) (g : _) (u : Machine.State) (r : _),
    s.gate port 0x14 f = .take g u ∧ g.dst = u.devId ∧ u.reqOf g = some r ∧ u.agrees port r.frame.srcpav = true) ∧
  (∃ (port : _) (tag : _) (s : Machine.State) (r : _) (n : _),
    s.retryReq port tag = some r ∧ s.route r.frame.dst r.frame.srcpav (askerPav r) = .port n) ∧
  (∃ (k : Nat) (s : Machine.State) (r : _),
    s.lnk.outst[k]? = some r) ∧
  (∃ (hart : _) (addr : _) (size : _) (kind : ApertureKind) (s : Machine.State) (m : _) (k : _) (es : _) (t : Machine.State),
    s.flag F.wsOut_V (apertureSlot addr) 0 = true ∧ apertureOk addr size kind = true ∧ s.lnk.outst.any (askedBy hart) = false ∧ s.route (s.rd F.wsOut_DEV (apertureSlot addr) 0) (s.rd F.wsOut_SRCPAV (apertureSlot addr) 0) none = .port m ∧ s.freeSlot = some k ∧ s.nextEseq 1000 0 = (es, t)) := by
  refine ⟨?_, ?_, ?_, ?_, ?_, ?_, ?_⟩
  · exact ⟨3, frame1 [], askedSt, _, _, _, gateTake_eq (by decide +kernel), by decide +kernel, (Option.some_get (by decide +kernel)).symm, by decide +kernel⟩
  · exact ⟨3, frame1 [], askedSt, _, _, _, gateTake_eq (by decide +kernel), by decide +kernel, (Option.some_get (by decide +kernel)).symm, by decide +kernel⟩
  · exact ⟨3, frame1 [], askedSt, _, _, _, gateTake_eq (by decide +kernel), by decide +kernel, (Option.some_get (by decide +kernel)).symm, by decide +kernel⟩
  · exact ⟨3, frame1 [], askedSt, _, _, _, gateTake_eq (by decide +kernel), by decide +kernel, (Option.some_get (by decide +kernel)).symm, by decide +kernel⟩
  · exact ⟨3, 0, askedSt, asked, 3, by decide +kernel, by decide +kernel⟩
  · exact ⟨0, askedSt, asked, by decide +kernel⟩
  · exact ⟨3, apertureBase, 8, .load, ((portSt 2 3 port1).wr F.wsOut_V 0 0 1).wr F.wsOut_DEV 0 0 1, 3, 0, _, _, by decide +kernel, by decide +kernel, by decide +kernel, by decide +kernel, by decide +kernel, (Prod.eta _).symm⟩

theorem wit_KmtMessagesComplete :
  (∃ (port : _) (m : _) (s : Machine.State) (p : Partner) (t : Machine.State) (u : Machine.State),
    s.kmtGate port 0x03 m = .take p t ∧ t.attachIn m = some u) ∧
  (∃ (port : _) (m : _) (s : Machine.State) (p : Partner) (t : Machine.State) (u : Machine.State),
    s.kmtGate port 0x05 m = .take p t ∧ t.submitIn m = some u) ∧
  (∃ (port : _) (m : _) (s : Machine.State) (p : Partner) (t : Machine.State),
    s.kmtGate port 0x06 m = .take p t) ∧
  (∃ (port : _) (m : _) (s : Machine.State) (p : Partner) (t : Machine.State),
    s.kmtGate port 0x09 m = .take p t) ∧
  (∃ (port : _) (m : _) (s : Machine.State) (p : Partner) (t : Machine.State),
    s.kmtGate port 0x0A m = .take p t) ∧
  (∃ (port : _) (m : _) (s : Machine.State) (p : Partner) (t : Machine.State),
    s.kmtGate port 0x0B m = .take p t) ∧
  (∃ (port : _) (m : _) (s : Machine.State) (p : Partner) (t : Machine.State),
    s.kmtGate port 0x0C m = .take p t) ∧
  (∃ (port : _) (m : _) (s : Machine.State) (p : Partner) (t : Machine.State),
    s.kmtGate port 0x0E m = .take p t) ∧
  (∃ (port : _) (m : _) (s : Machine.State) (p : Partner) (t : Machine.State),
    s.kmtGate port kmtAckKind m = .take p t) ∧
  (∃ (port : _) (m : _) (s : Machine.State) (p : Partner) (t : Machine.State),
    s.kmtGate port 0x0F m = .take p t) ∧
  (∃ (port : _) (m : _) (s : Machine.State) (p : Partner) (t : Machine.State),
    s.kmtGate port 0x10 m = .take p t) ∧
  (∃ (n : _) (s : Machine.State) (k : _) (q : _) (m : _) (rest : _),
    s.session n = some k ∧ k.unacked = (q, m) :: rest ∧ k.tries < 16 ∧ s.mute k = false) ∧
  (∃ (n : _) (s : Machine.State) (k : _),
    s.session n = some k ∧ k.ackDue = true ∧ s.mute k = false) ∧
  (∃ (n : _) (s : Machine.State) (k : _),
    s.session n = some k) := by
  refine ⟨?_, ?_, ?_, ?_, ?_, ?_, ?_, ?_, ?_, ?_, ?_, ?_, ?_, ?_⟩
  · exact ⟨3, kmtM (List.replicate 16 0), kmtSt, _, _, _, kmtTake_eq (by decide +kernel), (Option.some_get (by decide +kernel)).symm⟩
  · exact ⟨3, kmtM (List.replicate 64 0), kmtSt, _, _, _, kmtTake_eq (by decide +kernel), (Option.some_get (by decide +kernel)).symm⟩
  · exact ⟨3, kmtM ([0, 0]), kmtSt, _, _, kmtTake_eq (by decide +kernel)⟩
  · exact ⟨3, kmtM ([]), kmtSt, _, _, kmtTake_eq (by decide +kernel)⟩
  · exact ⟨3, kmtM ([]), kmtSt, _, _, kmtTake_eq (by decide +kernel)⟩
  · exact ⟨3, kmtM ([]), kmtSt, _, _, kmtTake_eq (by decide +kernel)⟩
  · exact ⟨3, kmtM ([0, 0, 0, 0]), kmtSt, _, _, kmtTake_eq (by decide +kernel)⟩
  · exact ⟨3, kmtM ([]), kmtSt, _, _, kmtTake_eq (by decide +kernel)⟩
  · exact ⟨3, kmtM ([]), kmtSt, _, _, kmtTake_eq (by decide +kernel)⟩
  · exact ⟨3, kmtM ([]), kmtSt, _, _, kmtTake_eq (by decide +kernel)⟩
  · exact ⟨3, kmtM ([]), kmtSt, _, _, kmtTake_eq (by decide +kernel)⟩
  · exact ⟨1, kmtSt, ses1, 0, hsMsg 0x0F [], [], by decide +kernel, by decide +kernel, by decide +kernel, by decide +kernel⟩
  · exact ⟨1, kmtSt, ses1, by decide +kernel, by decide +kernel, by decide +kernel⟩
  · exact ⟨1, kmtSt, ses1, by decide +kernel⟩

theorem wit_TrellisCommandsComplete :
  (∃ (a : Actor) (v : BitVec 64) (s : Machine.State),
    machineActor a = true ∧ (v ||| 1).toNat % 16 = 1 ∧ (s.trlState = 0 ∨ s.trlState = 2 ∨ s.trlState = 4 ∨ s.trlState = 5)) ∧
  (∃ (a : Actor) (v : BitVec 64) (s : Machine.State),
    machineActor a = true ∧ (v ||| 2).toNat % 16 = 2 ∧ s.trlState = 2) ∧
  (∃ (a : Actor) (v : BitVec 64) (s : Machine.State) (b : List Byte),
    machineActor a = true ∧ (v ||| 4).toNat % 16 = 4 ∧ s.trlState = 4 ∧ s.trl.image = some b) ∧
  (∃ (a : Actor) (v : BitVec 64) (s : Machine.State),
    machineActor a = true ∧ (v ||| 8).toNat % 16 = 8 ∧ (s.trlState = 2 ∨ s.trlState = 4 ∨ s.trlState = 5 ∨ s.trlState = 6)) ∧
  (∃ (s : Machine.State) (bs : _) (t : Machine.State),
    s.trlState = 1 ∧ s.readAs .keeper true true s.trl.stage.1 s.trl.stage.2 = .done bs t ∧ allReadable bs = true) ∧
  (∃ (s : Machine.State),
    s.trlState = 3 ∧ s.keeperUp = true) ∧
  (∃ (s : Machine.State) (b : List Byte),
    s.trl.image = some b ∧ s.trlState = 7 ∧ s.keeperUp = true ∧ (s.fitCheck (imageSecs b) (s.afterImage b) false).1 = 0) := by
  refine ⟨?_, ?_, ?_, ?_, ?_, ?_, ?_⟩
  · exact ⟨.keeper, 1, State.reset, by decide +kernel, by decide +kernel, Or.inl (by decide +kernel)⟩
  · exact ⟨.keeper, 2, State.reset.setTrl 2, by decide +kernel, by decide +kernel, by decide +kernel⟩
  · exact ⟨.keeper, 4, { State.reset.setTrl 4 with trl := { State.reset.trl with image := some [] } }, [], by decide +kernel, by decide +kernel, by decide +kernel, by decide +kernel⟩
  · exact ⟨.keeper, 8, State.reset.setTrl 2, by decide +kernel, by decide +kernel, Or.inl (by decide +kernel)⟩
  · exact ⟨{ memSt.setTrl 1 with trl := { State.reset.trl with stage := (0, 256) } }, _, _, by decide +kernel, memDone_eq (by decide +kernel), by decide +kernel⟩
  · exact ⟨State.reset.setTrl 3, by decide +kernel, by decide +kernel⟩
  · exact ⟨{ State.reset.setTrl 7 with trl := { State.reset.trl with image := some [] } }, [], by decide +kernel, by decide +kernel, by decide +kernel, by decide +kernel⟩

theorem wit_AgreementCommandsComplete :
  (∃ (s : Machine.State),
    s.flag F.trlStatus_DIGEST_BUSY 0 0 = true) ∧
  (∃ (a : Actor) (n : _) (ix : _) (s : Machine.State),
    machineActor a = true ∧ s.rd F.trlAgree_STATE n ix = 3) ∧
  (∃ (n : _) (ix : _) (s : Machine.State),
    (n, ix) ∈ s.lnk.beacons) ∧
  (∃ (n : _) (ix : _) (s : Machine.State),
    s.rd F.trlAgree_STATE n ix = 1) := by
  refine ⟨?_, ?_, ?_, ?_⟩
  · exact ⟨State.reset.wr F.trlStatus_DIGEST_BUSY 0 0 1, by decide +kernel⟩
  · exact ⟨.keeper, 3, 2, State.reset.wr F.trlAgree_STATE 3 2 3, by decide +kernel, by decide +kernel⟩
  · exact ⟨3, 2, { State.reset with lnk := { State.reset.lnk with beacons := [(3, 2)] } }, by decide +kernel⟩
  · exact ⟨3, 2, State.reset.wr F.trlAgree_STATE 3 2 1, by decide +kernel⟩

theorem wit_FaultCommandsComplete :
  (∃ (f : FaultReport),
    f.pav < 64) ∧
  (∃ (f : FaultReport),
    64 ≤ f.pav) ∧
  (∃ (p : _) (die : Nat) (word : _) (s : Machine.State) (t : Machine.State) (bs : _) (u : Machine.State),
    t = (s.setSlice p die { s.slice p die with buf := terase (s.slice p die).buf word }).record
      { FaultReport.blank St.success 0 0x0A die p with info := word } ∧ t.fetchWord p die word = some (bs, u)) ∧
  (∃ (die : Nat) (b : _) (s : Machine.State),
    s.withinS (tfind s.tel.slotHit (die * 9 + s.slotOf b)) = false) ∧
  (∃ (p : _) (die : Nat) (s : Machine.State),
    s.withinS (tfind s.tel.sliceHit (die * 8 + s.sliceNo p die)) = true) ∧
  (∃ (bed : Nat) (s : Machine.State),
    s.slotOf bed ≠ 0xF) ∧
  (∃ (p : _) (s : Machine.State) (d : _) (kind : _) (obj : _) (edges : _),
    s.pavState p = 2 ∧ s.hung p = some (d, kind, obj, edges)) ∧
  (∃ (p : _) (s : Machine.State) (d : _),
    s.pavState p = 2 ∧ s.hung p = none ∧ (s.pav p).stalled = false ∧ (s.waitingSlices p).head? = some d) ∧
  (∃ (cause : _),
    1 ≤ cause ∧ cause ≤ 7 ∧ cause ≠ 6) := by
  refine ⟨?_, ?_, ?_, ?_, ?_, ?_, ?_, ?_, ?_⟩
  · exact ⟨rep 0, by decide +kernel⟩
  · exact ⟨rep 0xFE, by decide +kernel⟩
  · exact ⟨0, 0, 0, mapped run0, _, _, _, rfl, some2_eq (by decide +kernel)⟩
  · exact ⟨0, 0, State.reset, by decide +kernel⟩
  · exact ⟨0, 0, { State.reset with tel := { State.reset.tel with sliceHit := [(0, 0)] } }, by decide +kernel⟩
  · exact ⟨0, run0, by decide +kernel⟩
  · exact ⟨0, run0.setSlice 0 0 { SliceSt.init with run := true, waiting := some 7 }, _, _, _, _, by decide +kernel, (Option.some_get (by decide +kernel)).symm⟩
  · exact ⟨0, { run0.setSlice 0 0 { SliceSt.init with run := true, waiting := some 7 } with binds := [(7, 1)] }, 0, by decide +kernel, by decide +kernel, by decide +kernel, by decide +kernel⟩
  · exact ⟨7, by decide +kernel, by decide +kernel, by decide +kernel⟩

theorem wit_KeeperStatesMove :
  (∃ (s : Machine.State),
    s.keeper = 0) ∧
  (∃ (s : Machine.State),
    s.keeper = 1 ∧ s.noteMismatch.tel.mism.length < 3) ∧
  (∃ (s : Machine.State),
    s.keeper = 1 ∧ 3 ≤ s.noteMismatch.tel.mism.length) ∧
  (∃ (s : Machine.State),
    s.keeper = 1) ∧
  (∃ (d : _) (r : _) (s : Machine.State),
    s.keeper = 2 ∧ (d || r) = true) := by
  refine ⟨?_, ?_, ?_, ?_, ?_⟩
  · exact ⟨State.reset, by decide +kernel⟩
  · exact ⟨State.reset.wr F.telKeeper_STATE 0 0 1, by decide +kernel, by decide +kernel⟩
  · exact ⟨{ State.reset.wr F.telKeeper_STATE 0 0 1 with tel := { State.reset.tel with mism := [0, 0] } }, by decide +kernel, by decide +kernel⟩
  · exact ⟨State.reset.wr F.telKeeper_STATE 0 0 1, by decide +kernel⟩
  · exact ⟨true, false, State.reset.wr F.telKeeper_STATE 0 0 2, by decide +kernel, by decide +kernel⟩

theorem wit_AlarmsTravel :
  (∃ (die : Nat) (r : _) (s : Machine.State) (t : Machine.State),
    t = { s with raised := s.raised.erase (die, r) } ∧ (t.lodgeHeld die).length < lodgePlaces ∧ t.keeper ≠ 2) ∧
  (∃ (die : Nat) (r : _) (s : Machine.State) (t : Machine.State),
    t = { s with raised := s.raised.erase (die, r) } ∧ lodgePlaces ≤ (t.lodgeHeld die).length) ∧
  (∃ (die : Nat) (s : Machine.State),
    (s.lodgeHeld die).length ≤ lodgePlaces - 8 ∧ s.keeper ≠ 2) ∧
  (∃ (die : Nat) (r : _) (s : Machine.State) (t : Machine.State),
    s.keeperUp = true ∧ t = (s.setLodge die ((s.lodgeHeld die).erase r)).manage die true (s.alarmBytes r) ∧ t.tel.queue.length < alarmPlaces) ∧
  (∃ (die : Nat) (r : _) (s : Machine.State) (t : Machine.State),
    s.keeperUp = true ∧ t = (s.setLodge die ((s.lodgeHeld die).erase r)).manage die true (s.alarmBytes r) ∧ alarmPlaces ≤ t.tel.queue.length) ∧
  (∃ (s : Machine.State),
    s.tel.queue.length ≤ alarmPlaces - 16 ∧ s.keeperUp = true) ∧
  (∃ (s : Machine.State) (n : _) (i : Nat) (e : Nat × Option (Nat × Nat) × AlarmRec) (k : _),
    s.subscriber = some n ∧ s.unsent = some i ∧ s.tel.queue[i]? = some e ∧ s.session n = some k ∧ s.keeperUp = true) ∧
  (∃ (s : Machine.State) (i : Nat),
    s.ackedAlarm = some i) ∧
  (∃ (die : Nat) (unit : _) (s : Machine.State),
    100000 ≤ s.logTokens die unit) ∧
  (∃ (die : Nat) (unit : _) (s : Machine.State),
    s.logTokens die unit < 100000) ∧
  (∃ (r : TraceSrc) (data : BitVec 64) (s : Machine.State) (t : Machine.State),
    s.subscriber.isSome = true ∧ t = s.carry .debug r.die hubDie (s.traceBytes r data)) ∧
  (∃ (c : Bool) (s : Machine.State),
    c = false ∨ s.subscriber = none) := by
  refine ⟨?_, ?_, ?_, ?_, ?_, ?_, ?_, ?_, ?_, ?_, ?_, ?_⟩
  · exact ⟨0, alarm0, State.reset, _, rfl, by decide +kernel, by decide +kernel⟩
  · exact ⟨0, alarm0, { State.reset with tel := { State.reset.tel with lodge := [(0, List.replicate 32 alarm0)] } }, _, rfl, by decide +kernel⟩
  · exact ⟨0, State.reset, by decide +kernel, by decide +kernel⟩
  · exact ⟨0, alarm0, State.reset, _, by decide +kernel, rfl, by decide +kernel⟩
  · exact ⟨0, alarm0, { State.reset with tel := { State.reset.tel with queue := List.replicate 64 (0, none, alarm0) } }, _, by decide +kernel, rfl, by decide +kernel⟩
  · exact ⟨State.reset, by decide +kernel, by decide +kernel⟩
  · exact ⟨{ kmtSt with tel := { kmtSt.tel with subs := [1], queue := [(0, none, alarm0)] } }, 1, 0, (0, none, alarm0), ses1, by decide +kernel, by decide +kernel, by decide +kernel, by decide +kernel, by decide +kernel⟩
  · exact ⟨{ kmtSt with tel := { kmtSt.tel with queue := [(0, some (1, 9), alarm0)] } }, 0, by decide +kernel⟩
  · exact ⟨0, 0x0A, (State.reset.wr F.telCtl_LOGBURST 0 0 4), by decide +kernel⟩
  · exact ⟨0, 0x0A, { State.reset with tel := { State.reset.tel with buckets := [((0, 0x0A), (0, 0))] } }, by decide +kernel⟩
  · exact ⟨⟨0, 0x0A, 0, 1⟩, 7, { kmtSt with tel := { kmtSt.tel with subs := [1] } }, _, by decide +kernel, rfl⟩
  · exact ⟨true, State.reset, Or.inr (by decide +kernel)⟩

theorem wit_PowerCommandsComplete :
  (∃ (s : Machine.State),
    s.keeperUp = true) ∧
  (∃ (paces : _) (s : Machine.State),
    (s.showPaces paces).keeperUp = true) ∧
  (∃ (a : Actor) (v : BitVec 64) (s : Machine.State) (t : Machine.State),
    machineActor a = true ∧ 400 ≤ natField v.toNat 10 0 ∧ natField v.toNat 10 0 ≤ 1450 ∧ t = s.wr F.pwrPaceReq_REQ 0 0 (natField v.toNat 10 0)) ∧
  (∃ (a : Actor),
    machineActor a = true) ∧
  (∃ (die : Nat) (s : Machine.State) (t : Machine.State),
    s.pwr.inDroop.contains die = true ∧ t = (s.droopOver die (s.droopsNow die)).bump F.pwrDie_DROOPS die 0 1) ∧
  (∃ (ts : List Nat),
    (∀ x ∈ ts, x < 115)) ∧
  (∃ (ts : List Nat) (x : _),
    x ∈ ts ∧ 115 ≤ x) := by
  refine ⟨?_, ?_, ?_, ?_, ?_, ?_, ?_⟩
  · exact ⟨State.reset, by decide +kernel⟩
  · exact ⟨[], State.reset, by decide +kernel⟩
  · exact ⟨.keeper, 1000, State.reset, _, by decide +kernel, by decide +kernel, by decide +kernel, rfl⟩
  · exact ⟨.keeper, by decide +kernel⟩
  · exact ⟨0, { State.reset with pwr := { State.reset.pwr with inDroop := [0] } }, _, by decide +kernel, rfl⟩
  · exact ⟨[40, 114], by decide +kernel⟩
  · exact ⟨[40, 115], 115, by decide +kernel, by decide +kernel⟩

theorem wit_UpkeepCompletes :
  (∃ (r : Upkeep) (s : Machine.State),
    s.grantNow r = true) ∧
  (∃ (r : Upkeep) (s : Machine.State) (t : Machine.State),
    s.upkeepPending r = true ∧ s.pwr.deferred.contains r = false ∧ t = { s with pwr := { s.pwr with deferred := s.pwr.deferred ++ [r] } }) ∧
  (∃ (die : Nat) (s : Machine.State),
    s.goodSpare die ≠ 0xF ∧ s.rd F.pwrCal_BT_PERIOD 0 0 ≠ 0) ∧
  (∃ (die : Nat) (s : Machine.State) (t : Machine.State),
    s.goodSpare die ≠ 0xF ∧ s.rd F.pwrCal_BT_PERIOD 0 0 ≠ 0 ∧ t = (s.markBad die (s.goodSpare die)).setSlots die (s.slotsOf die)) ∧
  (∃ (die : Nat) (s : Machine.State) (b : _),
    s.mayRotate die = true ∧ s.rotationBed die = some b) := by
  refine ⟨?_, ?_, ?_, ?_, ?_⟩
  · exact ⟨.gddr 0, State.reset.wr F.gdrTrain_PENDING 0 0 1, by decide +kernel⟩
  · exact ⟨.gddr 0, State.reset.wr F.gdrTrain_PENDING 0 0 1, _, by decide +kernel, by decide +kernel, rfl⟩
  · exact ⟨0, ((State.reset.wr F.trlSpareLive_SPARE 0 0 8).wr F.pwrCal_BT_PERIOD 0 0 1), by decide +kernel, by decide +kernel⟩
  · exact ⟨0, ((State.reset.wr F.trlSpareLive_SPARE 0 0 8).wr F.pwrCal_BT_PERIOD 0 0 1), _, by decide +kernel, by decide +kernel, rfl⟩
  · exact ⟨0, { ((State.reset.wr F.trlSpareLive_SPARE 0 0 8).wr F.pwrCal_BT_PERIOD 0 0 1).wr F.trlSpareLive_SLOT 0 0 0x76543210 with trl := { State.reset.trl with force := [⟨[10, 0, 0, 0, 0, 0], [0, 0, 0, 0, 0, 0, 0, 0, 1]⟩] }, pwr := { State.reset.pwr with tested := [0] } }, _, by decide +kernel, (Option.some_get (by decide +kernel)).symm⟩

theorem wit_DieLinksComplete :
  (∃ (die : Nat) (port : _) (s : Machine.State) (x : _) (f : Flit) (g : Flit),
    x = s.d2dPort die port ∧ s.d2dUp die port = true ∧ x.replay.length < replayFlits ∧ (x.nextClass.bind fun c => x.txq.find? fun f => f.cls == c) = some f ∧ g = { f with seq := x.txSeq }) ∧
  (∃ (die : Nat) (port : _) (f : Flit) (crc : _) (s : Machine.State),
    s.d2dUp die port = true ∧ flitGood f crc = true ∧ f.seq = (s.d2dPort die port).rxSeq) ∧
  (∃ (die : Nat) (port : _) (f : Flit) (crc : _) (s : Machine.State),
    s.d2dUp die port = true ∧ (flitGood f crc = false ∨ seqBefore (s.d2dPort die port).rxSeq f.seq = true)) ∧
  (∃ (die : Nat) (port : _) (f : Flit) (crc : _) (s : Machine.State),
    s.d2dUp die port = true ∧ flitGood f crc = true ∧ seqBefore (s.d2dPort die port).rxSeq f.seq = false ∧ f.seq ≠ (s.d2dPort die port).rxSeq) ∧
  (∃ (die : Nat) (port : _) (s : Machine.State),
    s.d2dUp die port = true) ∧
  (∃ (die : Nat) (port : _) (s : Machine.State),
    (peerOf die port).isSome = true ∧ s.d2dState die port ≠ 3) ∧
  (∃ (src : _) (dst : _) (s : Machine.State) (n : _) (path : _) (m : _),
    portTo src dst = some n ∧ s.d2dUp src n = false ∧ s.keeperUp = true ∧ s.bestPath src dst = some path ∧ portTo src (path.getD 1 0) = some m) ∧
  (∃ (die : Nat) (s : Machine.State),
    die < 10 ∧ s.flag F.ldgStatus_LBUS die 0 = true) ∧
  (∃ (s : Machine.State),
    s.sys.r156 = true) ∧
  (∃ (s : Machine.State),
    s.sys.r100 = true) := by
  refine ⟨?_, ?_, ?_, ?_, ?_, ?_, ?_, ?_, ?_, ?_⟩
  · exact ⟨0, 0, (State.reset.wr F.ldgD2d_STATE 0 0 1).setD2d 0 0 { D2dPort.init with txq := [⟨.memory, 0, [0], [1]⟩] }, _, ⟨.memory, 0, [0], [1]⟩, _, rfl, by decide +kernel, by decide +kernel, by decide +kernel, rfl⟩
  · exact ⟨0, 0, ⟨.memory, 0, [0], [1]⟩, flitSum ⟨.memory, 0, [0], [1]⟩, State.reset.wr F.ldgD2d_STATE 0 0 1, by decide +kernel, by decide +kernel, by decide +kernel⟩
  · exact ⟨0, 0, ⟨.memory, 0, [0], [1]⟩, 0, State.reset.wr F.ldgD2d_STATE 0 0 1, by decide +kernel, Or.inl (by decide +kernel)⟩
  · exact ⟨0, 0, ⟨.memory, 5, [0], [1]⟩, flitSum ⟨.memory, 5, [0], [1]⟩, (State.reset.wr F.ldgD2d_STATE 0 0 1).setD2d 0 0 { D2dPort.init with rxSeq := 6 }, by decide +kernel, by decide +kernel, by decide +kernel, by decide +kernel⟩
  · exact ⟨0, 0, State.reset.wr F.ldgD2d_STATE 0 0 1, by decide +kernel⟩
  · exact ⟨0, 0, State.reset.wr F.ldgD2d_STATE 0 0 1, by decide +kernel, by decide +kernel⟩
  · exact ⟨0, 1, (List.range 11).foldl (fun s d => (List.range 10).foldl (fun s p => s.wr F.ldgD2d_STATE d p (if d = 0 ∧ p = 0 then 3 else 1)) s) State.reset, 0, _, _, by decide +kernel, by decide +kernel, by decide +kernel, (Option.some_get (by decide +kernel)).symm, (Option.some_get (by decide +kernel)).symm⟩
  · exact ⟨9, State.reset.wr F.ldgStatus_LBUS 9 0 1, by decide +kernel, by decide +kernel⟩
  · exact ⟨State.reset, by decide +kernel⟩
  · exact ⟨State.reset, by decide +kernel⟩

theorem wit_ColdResetCommandsComplete :
  (∃ (s : Machine.State) (t : Machine.State),
    s.sys.phase ≠ .inReset ∧ t = { s with sys := { s.sys with pwrGood := false } }.deviceLoss 5 0) ∧
  (∃ (s : Machine.State) (t : Machine.State),
    t = (s.deviceLoss 5 0).coldState 1 s.sys.coldHold) ∧
  (∃ (a : Actor) (v : BitVec 64),
    machineActor a = true ∧ (v ||| 1).toNat % 16 = 1) ∧
  (∃ (a : Actor) (v : BitVec 64),
    machineActor a = true ∧ (v ||| 2).toNat % 16 = 2) ∧
  (∃ (a : Actor) (v : BitVec 64),
    machineActor a = true ∧ (v ||| 4).toNat % 16 = 4 ∧ natField (v ||| 4).toNat 11 8 ≤ 9) ∧
  (∃ (a : Actor) (v : BitVec 64),
    machineActor a = true ∧ (v ||| 8).toNat % 16 = 8) ∧
  (∃ (s : Machine.State),
    s.keeperUp = true) ∧
  (∃ (b : BootInputs) (s : Machine.State),
    s.sys.coldAt = none ∧ s.sys.phase = .booting ∧ s.sys.resetN = true ∧ b.ordered = true ∧ s.hotShut = false) ∧
  (∃ (s : Machine.State),
    s.awaitsBundle = true) := by
  refine ⟨?_, ?_, ?_, ?_, ?_, ?_, ?_, ?_, ?_⟩
  · exact ⟨State.reset, _, by decide +kernel, rfl⟩
  · exact ⟨State.reset, _, rfl⟩
  · exact ⟨.keeper, 1, by decide +kernel, by decide +kernel⟩
  · exact ⟨.keeper, 2, by decide +kernel, by decide +kernel⟩
  · exact ⟨.keeper, 0x904, by decide +kernel, by decide +kernel, by decide +kernel⟩
  · exact ⟨.keeper, 8, by decide +kernel, by decide +kernel⟩
  · exact ⟨State.reset, by decide +kernel⟩
  · exact ⟨noBoot, State.reset, by decide +kernel, by decide +kernel, by decide +kernel, by decide +kernel, by decide +kernel⟩
  · exact ⟨(withSys fun x => { x with phase := .stopped }).wr F.kprBoot_CAUSE 0 0 1, by decide +kernel⟩

theorem wit_WarmAndDieResetsComplete :
  (∃ (s : Machine.State),
    s.rd F.kprBoot_STEP 0 0 = 9 ∧ s.sys.warmN = true) ∧
  (∃ (s : Machine.State),
    s.sys.warmHeld = true) ∧
  (∃ (s : Machine.State) (f : Machine.State) (t : Machine.State),
    s.sys.warmReq.isSome = true ∧ s.sys.warmHeld = false ∧ s.keeperUp = true ∧ s.sys.phase = .running ∧ s.sys.lost = false ∧ f = { s.warmFence with sys := { s.warmFence.sys with warmOn := true } } ∧ (∀ p ∈ f.assigned, f.drainedPav p = true) ∧ f.warmRecords = some t) ∧
  (∃ (s : Machine.State) (f : Machine.State),
    s.sys.warmReq.isSome = true ∧ s.sys.warmHeld = false ∧ s.keeperUp = true ∧ s.sys.phase = .running ∧ s.sys.lost = false ∧ f = { s.warmFence with sys := { s.warmFence.sys with warmOn := true } } ∧ (∃ p ∈ f.assigned, f.drainedPav p = false)) ∧
  (∃ (die : Nat) (s : Machine.State) (f : Machine.State),
    s.sys.dieReq.contains die = true ∧ s.keeperUp = true ∧ die < 8 ∧ s.sys.warmReq = none ∧ s.dieCut die = false ∧ f = (s.diePavilions die).foldl (fun s p => (s.fence p St.dieReset).needReset p) s) ∧
  (∃ (die : Nat) (s : Machine.State),
    s.sys.dieReq.contains die = true ∧ s.keeperUp = true ∧ (die = 8 ∨ die = 9) ∧ s.sys.warmReq = none ∧ s.dieCut die = false) := by
  refine ⟨?_, ?_, ?_, ?_, ?_, ?_⟩
  · exact ⟨State.reset.wr F.kprBoot_STEP 0 0 9, by decide +kernel, by decide +kernel⟩
  · exact ⟨withSys fun x => { x with warmHeld := true }, by decide +kernel⟩
  · exact ⟨withSys fun x => { x with warmReq := some 4, phase := .running }, _, _, by decide +kernel, by decide +kernel, by decide +kernel, by decide +kernel, by decide +kernel, rfl, by decide +kernel, (Option.some_get (by decide +kernel)).symm⟩
  · exact ⟨{ (inRun { runX with reqs := [answeredReq false] }) with sys := { State.reset.sys with warmReq := some 4, phase := .running } }, _, by decide +kernel, by decide +kernel, by decide +kernel, by decide +kernel, by decide +kernel, rfl, ⟨0, by decide +kernel, by decide +kernel⟩⟩
  · exact ⟨7, withSys fun x => { x with dieReq := [7] }, _, by decide +kernel, by decide +kernel, by decide +kernel, by decide +kernel, by decide +kernel, rfl⟩
  · exact ⟨9, withSys fun x => { x with dieReq := [9] }, by decide +kernel, by decide +kernel, Or.inr rfl, by decide +kernel, by decide +kernel⟩

theorem wit_KeeperRequestsComplete :
  (∃ (s : Machine.State) (r : KReq) (rest : _) (via : _) (m : List Byte) (t : Machine.State) (u : Machine.State),
    s.kpr.queue = r :: rest ∧ s.keeperUp = true ∧ s.kFetch r = some (via, m, true, t) ∧ kOp m = 1 ∧ kForm m = true ∧ t.kFinish rest r m (⟨St.success, t.infoBytes, id⟩) = some u) ∧
  (∃ (s : Machine.State) (r : KReq) (rest : _) (via : _) (m : List Byte) (t : Machine.State) (u : Machine.State),
    s.kpr.queue = r :: rest ∧ s.keeperUp = true ∧ s.kFetch r = some (via, m, true, t) ∧ kOp m = 2 ∧ kForm m = true ∧ t.kFinish rest r m (kDo fun s => s.warmRequest 4) = some u) ∧
  (∃ (s : Machine.State) (r : KReq) (rest : _) (via : _) (m : List Byte) (t : Machine.State) (u : Machine.State),
    s.kpr.queue = r :: rest ∧ s.keeperUp = true ∧ s.kFetch r = some (via, m, true, t) ∧ kOp m = 3 ∧ kForm m = true ∧ t.kFinish rest r m (kDo fun s => s.coldRequest 2) = some u) ∧
  (∃ (s : Machine.State) (r : KReq) (rest : _) (via : _) (m : List Byte) (t : Machine.State) (u : Machine.State),
    s.kpr.queue = r :: rest ∧ s.keeperUp = true ∧ s.kFetch r = some (via, m, true, t) ∧ kOp m = 4 ∧ kForm m = true ∧ resetsDie (kArg m) = true ∧ t.kFinish rest r m (kDo fun s => s.dieRequest (kArg m)) = some u) ∧
  (∃ (s : Machine.State) (r : KReq) (rest : _) (via : _) (m : List Byte) (t : Machine.State) (u : Machine.State),
    s.kpr.queue = r :: rest ∧ s.keeperUp = true ∧ s.kFetch r = some (via, m, true, t) ∧ kOp m = 5 ∧ kForm m = true ∧ t.kFinish rest r m (kDo State.keeperReset) = some u) ∧
  (∃ (s : Machine.State) (r : KReq) (rest : _) (via : _) (m : List Byte) (t : Machine.State) (u : Machine.State),
    s.kpr.queue = r :: rest ∧ s.keeperUp = true ∧ s.kFetch r = some (via, m, true, t) ∧ kOp m = 6 ∧ kForm m = true ∧ via.isSome = true ∧ t.kFinish rest r m (t.assignId (kArg m)) = some u) ∧
  (∃ (s : Machine.State) (r : KReq) (rest : _) (via : _) (m : List Byte) (t : Machine.State) (u : Machine.State),
    s.kpr.queue = r :: rest ∧ s.keeperUp = true ∧ s.kFetch r = some (via, m, true, t) ∧ kOp m = 7 ∧ kForm m = true ∧ via.isSome = true ∧ t.kFinish rest r m (kDo fun s => s.epochFloor (kArg m)) = some u) ∧
  (∃ (s : Machine.State) (r : KReq) (rest : _) (via : _) (m : List Byte) (t : Machine.State) (u : Machine.State),
    s.kpr.queue = r :: rest ∧ s.keeperUp = true ∧ s.kFetch r = some (via, m, true, t) ∧ kOp m = 8 ∧ kForm m = true ∧ t.mayFlash (kArg m) (kPay m).length = true ∧ t.kFinish rest r m (kDo fun s => s.flashWrite (kArg m) (kPay m)) = some u) ∧
  (∃ (s : Machine.State) (r : KReq) (rest : _) (via : _) (m : List Byte) (t : Machine.State) (u : Machine.State),
    s.kpr.queue = r :: rest ∧ s.keeperUp = true ∧ s.kFetch r = some (via, m, true, t) ∧ kOp m = 9 ∧ kForm m = true ∧ t.kFinish rest r m (t.flashActivate (kArg m)) = some u) ∧
  (∃ (s : Machine.State) (r : KReq) (rest : _) (via : _) (m : List Byte) (t : Machine.State) (u : Machine.State),
    s.kpr.queue = r :: rest ∧ s.keeperUp = true ∧ s.kFetch r = some (via, m, true, t) ∧ kOp m = 10 ∧ kForm m = true ∧ via.isSome = true ∧ t.kFinish rest r m (kDo State.svnCommit) = some u) ∧
  (∃ (s : Machine.State) (r : KReq) (rest : _) (via : _) (m : List Byte) (t : Machine.State) (u : Machine.State),
    s.kpr.queue = r :: rest ∧ s.keeperUp = true ∧ s.kFetch r = some (via, m, true, t) ∧ kOp m = 11 ∧ kForm m = true ∧ via.isSome = true ∧ t.kFinish rest r m (kDo fun s => s.deviceLoss 7 0) = some u) ∧
  (∃ (s : Machine.State) (r : KReq) (rest : _) (via : _) (m : List Byte) (t : Machine.State) (u : Machine.State),
    s.kpr.queue = r :: rest ∧ s.keeperUp = true ∧ s.kFetch r = some (via, m, true, t) ∧ kOp m = 12 ∧ kForm m = true ∧ via.isSome = true ∧ t.kFinish rest r m (kDo fun s => s.subscribe via) = some u) ∧
  (∃ (s : Machine.State) (r : KReq) (rest : _) (via : _) (m : List Byte) (t : Machine.State) (u : Machine.State),
    s.kpr.queue = r :: rest ∧ s.keeperUp = true ∧ s.kFetch r = some (via, m, true, t) ∧ kOp m = 13 ∧ kForm m = true ∧ via.isSome = true ∧ t.kFinish rest r m (t.debugUnlock (kPay m)) = some u) ∧
  (∃ (a : Actor),
    machineActor a = true) := by
  refine ⟨?_, ?_, ?_, ?_, ?_, ?_, ?_, ?_, ?_, ?_, ?_, ?_, ?_, ?_⟩
  · exact ⟨atKeeper 1 0, .port 1 (kMsg 1 0), [], some 1, kMsg 1 0, atKeeper 1 0, _, by decide +kernel, by decide +kernel, rfl, by decide +kernel, by decide +kernel, rfl⟩
  · exact ⟨atKeeper 2 0, .port 1 (kMsg 2 0), [], some 1, kMsg 2 0, atKeeper 2 0, _, by decide +kernel, by decide +kernel, rfl, by decide +kernel, by decide +kernel, rfl⟩
  · exact ⟨atKeeper 3 0, .port 1 (kMsg 3 0), [], some 1, kMsg 3 0, atKeeper 3 0, _, by decide +kernel, by decide +kernel, rfl, by decide +kernel, by decide +kernel, rfl⟩
  · exact ⟨atKeeper 4 9, .port 1 (kMsg 4 9), [], some 1, kMsg 4 9, atKeeper 4 9, _, by decide +kernel, by decide +kernel, rfl, by decide +kernel, by decide +kernel, by decide +kernel, rfl⟩
  · exact ⟨atKeeper 5 0, .port 1 (kMsg 5 0), [], some 1, kMsg 5 0, atKeeper 5 0, _, by decide +kernel, by decide +kernel, rfl, by decide +kernel, by decide +kernel, rfl⟩
  · exact ⟨atKeeper 6 511, .port 1 (kMsg 6 511), [], some 1, kMsg 6 511, atKeeper 6 511, _, by decide +kernel, by decide +kernel, rfl, by decide +kernel, by decide +kernel, by decide +kernel, rfl⟩
  · exact ⟨atKeeper 7 9, .port 1 (kMsg 7 9), [], some 1, kMsg 7 9, atKeeper 7 9, _, by decide +kernel, by decide +kernel, rfl, by decide +kernel, by decide +kernel, by decide +kernel, rfl⟩
  · exact ⟨atKeeper 8 freeRegion, .port 1 (kMsg 8 freeRegion), [], some 1, kMsg 8 freeRegion, atKeeper 8 freeRegion, _, by decide +kernel, by decide +kernel, rfl, by decide +kernel, by decide +kernel, by decide +kernel, rfl⟩
  · exact ⟨atKeeper 9 0, .port 1 (kMsg 9 0), [], some 1, kMsg 9 0, atKeeper 9 0, _, by decide +kernel, by decide +kernel, rfl, by decide +kernel, by decide +kernel, rfl⟩
  · exact ⟨atKeeper 10 0, .port 1 (kMsg 10 0), [], some 1, kMsg 10 0, atKeeper 10 0, _, by decide +kernel, by decide +kernel, rfl, by decide +kernel, by decide +kernel, by decide +kernel, rfl⟩
  · exact ⟨atKeeper 11 0, .port 1 (kMsg 11 0), [], some 1, kMsg 11 0, atKeeper 11 0, _, by decide +kernel, by decide +kernel, rfl, by decide +kernel, by decide +kernel, by decide +kernel, rfl⟩
  · exact ⟨atKeeper 12 0, .port 1 (kMsg 12 0), [], some 1, kMsg 12 0, atKeeper 12 0, _, by decide +kernel, by decide +kernel, rfl, by decide +kernel, by decide +kernel, by decide +kernel, rfl⟩
  · exact ⟨atKeeper 13 0, .port 1 (kMsg 13 0), [], some 1, kMsg 13 0, atKeeper 13 0, _, by decide +kernel, by decide +kernel, rfl, by decide +kernel, by decide +kernel, by decide +kernel, rfl⟩
  · exact ⟨.keeper, by decide +kernel⟩

theorem wit_SpdmRequestsComplete :
  (∃ (via : _) (msg : List Byte) (s : Machine.State) (t : Machine.State) (r : List Byte) (u : Machine.State),
    s.spdmOn = true ∧ byteAt msg 1 = 0x84 ∧ 4 ≤ msg.length ∧ s.spdmTake via = some t ∧ byteAt msg 0 = 0x10 ∧ 0 ≤ t.kpr.spdm.stage ∧ t.versionReply msg = (r, u)) ∧
  (∃ (via : _) (msg : List Byte) (s : Machine.State) (t : Machine.State) (r : List Byte) (u : Machine.State),
    s.spdmOn = true ∧ byteAt msg 1 = 0xE1 ∧ 4 ≤ msg.length ∧ s.spdmTake via = some t ∧ byteAt msg 0 = 0x12 ∧ 1 ≤ t.kpr.spdm.stage ∧ t.kpr.spdm.stage = 1 ∧ t.capsReply msg = (r, u)) ∧
  (∃ (via : _) (msg : List Byte) (s : Machine.State) (t : Machine.State) (r : List Byte) (u : Machine.State),
    s.spdmOn = true ∧ byteAt msg 1 = 0xE3 ∧ 4 ≤ msg.length ∧ s.spdmTake via = some t ∧ byteAt msg 0 = 0x12 ∧ 2 ≤ t.kpr.spdm.stage ∧ t.kpr.spdm.stage = 2 ∧ (fieldAt msg 8 4).testBit 7 = true ∧ (fieldAt msg 12 4).testBit 1 = true ∧ t.algsReply msg = (r, u)) ∧
  (∃ (via : _) (msg : List Byte) (s : Machine.State) (t : Machine.State) (r : List Byte) (u : Machine.State),
    s.spdmOn = true ∧ byteAt msg 1 = 0x81 ∧ 4 ≤ msg.length ∧ s.spdmTake via = some t ∧ byteAt msg 0 = 0x12 ∧ 3 ≤ t.kpr.spdm.stage ∧ t.digestsReply msg = (r, u)) ∧
  (∃ (via : _) (msg : List Byte) (s : Machine.State) (t : Machine.State) (r : List Byte) (u : Machine.State),
    s.spdmOn = true ∧ byteAt msg 1 = 0x82 ∧ 4 ≤ msg.length ∧ s.spdmTake via = some t ∧ byteAt msg 0 = 0x12 ∧ 3 ≤ t.kpr.spdm.stage ∧ byteAt msg 2 % 16 = 0 ∧ 8 ≤ msg.length ∧ fieldAt msg 4 2 ≤ t.slotChain.length ∧ t.certReply msg = (r, u)) ∧
  (∃ (via : _) (msg : List Byte) (s : Machine.State) (t : Machine.State) (r : List Byte) (u : Machine.State),
    s.spdmOn = true ∧ byteAt msg 1 = 0xE0 ∧ 4 ≤ msg.length ∧ s.spdmTake via = some t ∧ byteAt msg 0 = 0x12 ∧ 3 ≤ t.kpr.spdm.stage ∧ measOk msg = true ∧ t.measReply msg = (r, u)) ∧
  (∃ (via : _) (msg : List Byte) (s : Machine.State) (t : Machine.State) (r : List Byte) (u : Machine.State),
    s.spdmOn = true ∧ byteAt msg 1 = 0x83 ∧ 4 ≤ msg.length ∧ s.spdmTake via = some t ∧ byteAt msg 0 = 0x12 ∧ 3 ≤ t.kpr.spdm.stage ∧ byteAt msg 2 % 16 = 0 ∧ 36 ≤ msg.length ∧ t.challengeReply msg = (r, u)) ∧
  (∃ (via : _) (msg : List Byte) (s : Machine.State) (t : Machine.State) (r : List Byte) (u : Machine.State),
    s.spdmOn = true ∧ byteAt msg 1 = 0xE4 ∧ 4 ≤ msg.length ∧ s.spdmTake via = some t ∧ byteAt msg 0 = 0x12 ∧ 3 ≤ t.kpr.spdm.stage ∧ byteAt msg 3 % 16 = 0 ∧ 138 ≤ msg.length ∧ t.keyReply msg = (r, u)) ∧
  (∃ (via : _) (msg : List Byte) (s : Machine.State) (t : Machine.State) (r : List Byte) (u : Machine.State),
    s.spdmOn = true ∧ byteAt msg 1 = 0xE5 ∧ 4 ≤ msg.length ∧ s.spdmTake via = some t ∧ byteAt msg 0 = 0x12 ∧ 3 ≤ t.kpr.spdm.stage ∧ t.kpr.spdm.ses.isSome = true ∧ t.kpr.spdm.up = false ∧ (if (msg.drop 4).take 48 = t.kpr.spdm.verifyData msg then (spdmHead 0x65 0 0, t.setSpdm { t.kpr.spdm with up := true, trans := t.kpr.spdm.trans ++ msg, key := t.kpr.spdm.master }) else (errDecrypt, t)) = (r, u)) ∧
  (∃ (via : _) (msg : List Byte) (s : Machine.State) (t : Machine.State) (r : List Byte) (u : Machine.State),
    s.spdmOn = true ∧ byteAt msg 1 = 0xE8 ∧ 4 ≤ msg.length ∧ s.spdmTake via = some t ∧ byteAt msg 0 = 0x12 ∧ 3 ≤ t.kpr.spdm.stage ∧ t.kpr.spdm.up = true ∧ (spdmHead 0x68 0 0, t.setSpdm t.kpr.spdm) = (r, u)) ∧
  (∃ (via : _) (msg : List Byte) (s : Machine.State) (t : Machine.State) (r : List Byte) (u : Machine.State),
    s.spdmOn = true ∧ byteAt msg 1 = 0xE9 ∧ 4 ≤ msg.length ∧ s.spdmTake via = some t ∧ byteAt msg 0 = 0x12 ∧ 3 ≤ t.kpr.spdm.stage ∧ t.kpr.spdm.up = true ∧ 1 ≤ byteAt msg 2 ∧ byteAt msg 2 ≤ 3 ∧ (spdmHead 0x69 (byteAt msg 2) (byteAt msg 3), t.setSpdm (if byteAt msg 2 = 3 then t.kpr.spdm else { t.kpr.spdm with key := spdmExpand t.kpr.spdm.key "traffic upd" [] })) = (r, u)) ∧
  (∃ (via : _) (msg : List Byte) (s : Machine.State) (t : Machine.State) (r : List Byte) (u : Machine.State),
    s.spdmOn = true ∧ byteAt msg 1 = 0xEC ∧ 4 ≤ msg.length ∧ s.spdmTake via = some t ∧ byteAt msg 0 = 0x12 ∧ 3 ≤ t.kpr.spdm.stage ∧ t.kpr.spdm.up = true ∧ (spdmHead 0x6C 0 0, t.setSpdm { t.kpr.spdm with ses := none, up := false, trans := [], key := [] }) = (r, u)) := by
  refine ⟨?_, ?_, ?_, ?_, ?_, ?_, ?_, ?_, ?_, ?_, ?_, ?_⟩
  · exact ⟨none, spdmMsg 16 132 0 ([]), spdmSt 0 false, _, _, _, by decide +kernel, by decide +kernel, by decide +kernel, rfl, by decide +kernel, by decide +kernel, (Prod.eta _).symm⟩
  · exact ⟨none, spdmMsg 18 225 0 ([]), spdmSt 1 false, _, _, _, by decide +kernel, by decide +kernel, by decide +kernel, rfl, by decide +kernel, by decide +kernel, by decide +kernel, (Prod.eta _).symm⟩
  · exact ⟨none, spdmMsg 18 227 0 (List.replicate 28 0xFF), spdmSt 2 false, _, _, _, by decide +kernel, by decide +kernel, by decide +kernel, rfl, by decide +kernel, by decide +kernel, by decide +kernel, by decide +kernel, by decide +kernel, (Prod.eta _).symm⟩
  · exact ⟨none, spdmMsg 18 129 0 ([]), spdmSt 3 false, _, _, _, by decide +kernel, by decide +kernel, by decide +kernel, rfl, by decide +kernel, by decide +kernel, (Prod.eta _).symm⟩
  · exact ⟨none, spdmMsg 18 130 0 ([0, 0, 0, 1]), spdmSt 3 false, _, _, _, by decide +kernel, by decide +kernel, by decide +kernel, rfl, by decide +kernel, by decide +kernel, by decide +kernel, by decide +kernel, by decide +kernel, (Prod.eta _).symm⟩
  · exact ⟨none, spdmMsg 18 224 0 ([]), spdmSt 3 false, _, _, _, by decide +kernel, by decide +kernel, by decide +kernel, rfl, by decide +kernel, by decide +kernel, by decide +kernel, (Prod.eta _).symm⟩
  · exact ⟨none, spdmMsg 18 131 0 (List.replicate 32 0), spdmSt 3 false, _, _, _, by decide +kernel, by decide +kernel, by decide +kernel, rfl, by decide +kernel, by decide +kernel, by decide +kernel, by decide +kernel, (Prod.eta _).symm⟩
  · exact ⟨none, spdmMsg 18 228 0 (List.replicate 134 0), spdmSt 3 false, _, _, _, by decide +kernel, by decide +kernel, by decide +kernel, rfl, by decide +kernel, by decide +kernel, by decide +kernel, by decide +kernel, (Prod.eta _).symm⟩
  · exact ⟨none, spdmMsg 18 229 0 (List.replicate 48 0), spdmSt 3 false, _, _, _, by decide +kernel, by decide +kernel, by decide +kernel, rfl, by decide +kernel, by decide +kernel, by decide +kernel, by decide +kernel, (Prod.eta _).symm⟩
  · exact ⟨none, spdmMsg 18 232 0 ([]), spdmSt 3 true, _, _, _, by decide +kernel, by decide +kernel, by decide +kernel, rfl, by decide +kernel, by decide +kernel, by decide +kernel, (Prod.eta _).symm⟩
  · exact ⟨none, spdmMsg 18 233 1 ([]), spdmSt 3 true, _, _, _, by decide +kernel, by decide +kernel, by decide +kernel, rfl, by decide +kernel, by decide +kernel, by decide +kernel, by decide +kernel, by decide +kernel, (Prod.eta _).symm⟩
  · exact ⟨none, spdmMsg 18 236 0 ([]), spdmSt 3 true, _, _, _, by decide +kernel, by decide +kernel, by decide +kernel, rfl, by decide +kernel, by decide +kernel, by decide +kernel, (Prod.eta _).symm⟩

theorem wit_TestAccessCompletes :
  (∃ (s : Machine.State) (t : Machine.State),
    s.sys.phase = .inReset ∧ t = (s.jtagIr 0x03).setJtag { (s.jtagIr 0x03).kpr.jtag with drive := 1 }) ∧
  (∃ (s : Machine.State),
    s.sys.phase = .inReset) ∧
  (∃ (s : Machine.State),
    s.unlocked = false) ∧
  (∃ (v : BitVec 32) (s : Machine.State) (w : _) (t : Machine.State),
    s.unlocked = true ∧ (s.jtagIr 0x10).free = (w, t) ∧ v.toNat.testBit 16 = false ∧ v.toNat.testBit 17 = false) ∧
  (∃ (v : BitVec 64) (s : Machine.State) (w : _) (t : Machine.State),
    s.unlocked = true ∧ (s.jtagIr 0x11).free = (w, t) ∧ v.toNat % 4 ≠ 0) ∧
  (∃ (s : Machine.State),
    s.sys.smbN = true ∧ s.sys.smbOwn = false) ∧
  (∃ (hart : _) (which : _) (s : Machine.State),
    (s.timeCmp hart which).toNat ≤ s.mtime ∧ s.hub.timer.contains (hart, which) = false) ∧
  (∃ (a : Actor) (addr : _) (size : _) (v : BitVec 64) (s : Machine.State) (d : _) (t : Machine.State),
    inRegs addr = true ∧ s.spaceWrite a addr size v.toNat = .done d t) := by
  refine ⟨?_, ?_, ?_, ?_, ?_, ?_, ?_, ?_⟩
  · exact ⟨withSys fun x => { x with phase := .inReset }, _, by decide +kernel, rfl⟩
  · exact ⟨withSys fun x => { x with phase := .inReset }, by decide +kernel⟩
  · exact ⟨State.reset, by decide +kernel⟩
  · exact ⟨0, State.reset.wr F.kprDbg_UNLOCKED 0 0 1, _, _, by decide +kernel, (Prod.eta _).symm, by decide +kernel, by decide +kernel⟩
  · exact ⟨1, State.reset.wr F.kprDbg_UNLOCKED 0 0 1, _, _, by decide +kernel, (Prod.eta _).symm, by decide +kernel⟩
  · exact ⟨State.reset, by decide +kernel, by decide +kernel⟩
  · exact ⟨3, .mtimecmp, State.reset, by decide +kernel, by decide +kernel⟩
  · exact ⟨.keeper, regBase + 0xB000000, 8, 5, State.reset, _, _, by decide +kernel, regDone_eq (by decide +kernel)⟩

theorem wit_IdleStepTicks :
  ∃ (s : Machine.State),
    s.pending = [] :=
  ⟨State.reset, by decide +kernel⟩

theorem wit_ResetLeavesRegistersAtTheirValues :
  ∃ (r : Reg),
    r ∉ [Machine.Reg.kprId, .pwrClass, .trlKeys, .kprFw, .kprStrap, .ldgStatus, .gdrCfg, .lpMac] :=
  ⟨.stlState, by decide +kernel⟩

theorem wit_EveryStepKeepsTheMemoryForm :
  ∃ (s t : Machine.State), State.MemOk s ∧ s.pending = [.orgFlushDone 0] ∧ Machine.step s = .next t :=
  ⟨{ State.reset with pending := [.orgFlushDone 0] }, _, ⟨by decide +kernel, by decide +kernel⟩, rfl, rfl⟩

theorem wit_CommandsKeepTheQueue :
  ∃ (c : Instr) (s t : Machine.State), s.pending = [.stlStateWrite .keeper 7 5] ∧ Machine.exec c s = .next t :=
  ⟨.stlStateWrite .keeper 7 5, { State.reset with pending := [.stlStateWrite .keeper 7 5] }, _, rfl, rfl⟩

theorem wit_CountersSaturate :
  (∃ (f : Fld) (g : Fld),
    f.lo ≤ f.hi ∧ f.hi < 64 ∧ g.lo ≤ g.hi ∧ g.hi < 64) ∧
  (∃ (f g : Fld) (i j i' j' : Nat), f.lo ≤ f.hi ∧ f.hi < 64 ∧ g.lo ≤ g.hi ∧ g.hi < 64 ∧
    (¬ (g.r = f.r ∧ i' = i ∧ j' = j) ∨ g.hi < f.lo ∨ f.hi < g.lo)) := by
  refine ⟨?_, ?_⟩
  · exact ⟨F.wsCnt_REFUSED, F.cellEcc_UE_COUNT, by decide +kernel, by decide +kernel, by decide +kernel, by decide +kernel⟩
  · exact ⟨F.wsCnt_REFUSED, F.cellEcc_UE_COUNT, 0, 0, 0, 0, by decide +kernel, by decide +kernel, by decide +kernel, by decide +kernel, Or.inl (by decide +kernel)⟩

theorem wit_OneNaN :
  ∃ f ∈ [b32, b16], ∃ (tz : Bool) (a b : IVal), f.infBits < (ieeeDiv f tz a b).1 % f.signW :=
  ⟨b16, by decide, false, .fin false 0 0, .fin false 0 0, by decide +kernel⟩

theorem wit_CellStoresChangeTheirBytes :
  (∃ (s : Machine.State) (bs : List Byte) (k : _),
    State.MemOk s ∧ bs.length ≤ cellSize ∧ k < bs.length) ∧
  (∃ (s : Machine.State) (c off : Nat) (bs : List Byte) (x : Nat), State.MemOk s ∧ (∀ k, k < bs.length → x ≠ cellAddr c (off + k)) ∧ bs.length ≤ cellSize) ∧
  (∃ (s : Machine.State) (cell : Nat) (bank : Nat) (r : _) (off : _) (bs : _) (x : Nat) (t : Machine.State),
    State.MemOk s ∧ nextReq ((tget s.arr.banks (cell, bank) []).filter fun r => !s.bankHeld (cell / 8) r) = some r ∧ r.write = some (off, bs) ∧ bs.length ≤ cellSize ∧ Machine.exec (.cellStoreBankAccess cell bank) s = .next t ∧ (∀ k, k < bs.length → x ≠ cellAddr cell (off + k))) ∧
  (∃ (s : Machine.State) (cell : Nat) (bank : Nat) (r : _) (t : Machine.State),
    nextReq ((tget s.arr.banks (cell, bank) []).filter fun r => !s.bankHeld (cell / 8) r) = some r ∧ r.write = none ∧ Machine.exec (.cellStoreBankAccess cell bank) s = .next t) := by
  refine ⟨?_, ?_, ?_, ?_⟩
  · exact ⟨State.reset, [1, 2], 1, ⟨by decide +kernel, by decide +kernel⟩, by decide +kernel, by decide +kernel⟩
  · exact ⟨State.reset, 511, cellSize - 1, [1, 2], 0, ⟨by decide +kernel, by decide +kernel⟩, by decide +kernel, by decide +kernel⟩
  · exact ⟨{ State.reset with arr := { State.reset.arr with banks := [((0, 0), [⟨2, 0, some (0, [1]), 0, 0, 0⟩])] } }, 0, 0, ⟨2, 0, some (0, [1]), 0, 0, 0⟩, 0, [1], 0, _, ⟨by decide +kernel, by decide +kernel⟩, by decide +kernel, rfl, by decide +kernel, rfl, by decide +kernel⟩
  · exact ⟨{ State.reset with arr := { State.reset.arr with banks := [((0, 0), [⟨2, 0, none, 0, 0, 0⟩])] } }, 0, 0, ⟨2, 0, none, 0, 0, 0⟩, _, by decide +kernel, rfl, rfl⟩

theorem wit_StileOverflowFences :
  (∃ (s : Machine.State) (st inc p : Nat), 0xFFFFFFFF < s.rd F.stlState_COUNT st 0 + inc ∧ s.stileOwner st = some p ∧ (s.pavState p = 1 ∨ s.pavState p = 2)) ∧
  (∃ (o : UnitOp) (s : Machine.State) (g : SigSt),
    (s.pav o.pav).sigs.find? (fun g => g.op == o && g.dev.isNone) = some g ∧ g.whole = true) ∧
  (∃ (k : Nat) (s : Machine.State) (st : _) (inc : _),
    s.lnk.commits[k]? = some (st, inc)) := by
  refine ⟨?_, ?_, ?_⟩
  · exact ⟨(run0.wr F.stlGroup_V 0 0 1).wr F.stlState_COUNT 7 0 0xFFFFFFFF, 7, 1, 0, by decide +kernel, by decide +kernel, Or.inr (by decide +kernel)⟩
  · exact ⟨mkOp 0 1, run0.setPav 0 { PavSt.init with sigs := [⟨mkOp 0 1, 7, 1, none, [0], [0], false⟩] }, ⟨mkOp 0 1, 7, 1, none, [0], [0], false⟩, by decide +kernel, by decide +kernel⟩
  · exact ⟨0, { State.reset with lnk := { State.reset.lnk with commits := [(7, 1)] } }, 7, 1, by decide +kernel⟩

theorem wit_NaRContributesPoisonOnly :
  (∃ (f : ArrFmt) (a : Acc) (x : Nat) (w : _),
    AccOk f.acc a ∧ (x = f.nar ∨ w = f.nar)) ∧
  (∃ (f : ArrFmt) (a : Acc) (x : Nat) (w : Nat),
    AccOk f.acc a ∧ x ≠ f.nar ∧ w ≠ f.nar ∧ (x = 0 ∨ w = 0)) := by
  refine ⟨?_, ?_⟩
  · exact ⟨.l8, Acc.zero, ArrFmt.l8.nar, 0, ⟨by decide, by decide⟩, Or.inl rfl⟩
  · exact ⟨.l8, Acc.zero, 0, 5, ⟨by decide, by decide⟩, by decide, by decide, Or.inl rfl⟩

theorem wit_RefusedWritesChangeNothing :
  ∃ (a : Actor),
    machineActor a = false :=
  ⟨.hart 95 .s, by decide +kernel⟩

/-- The words of Table 12-4, its example KX.LFLUSH x12, and three words of custom-0 that are reserved. -/
theorem test_kx_words : kxOf 0x0000000B = some .efence ∧ kxOf 0x0000100B = some .lclean ∧ kxOf 0x0000200B = some .lflush ∧
    kxOf 0x0000300B = some .lzero ∧ kxOf 0x0006200B = some .lflush ∧ kxOf 0x0000400B = none ∧ kxOf 0x0000108B = none ∧
    kxOf 0x0000800B = none := by decide +kernel

theorem test_kx_round : ∀ (r : BitVec 5), kxOf (kxWord .lclean r) = some .lclean ∧ kxOf (kxWord .lflush r) = some .lflush ∧
    kxOf (kxWord .lzero r) = some .lzero := by decide +kernel

end Sys2Proof.Tests
end

section
/-! SUPPORT. Every command answers a next state. A meaning is a tree of guards and case distinctions with next states at its leaves:
one lemma for each meaning, or operation that meanings share, with a case distinction beyond its guards, unit by unit. Then the
commands. -/

namespace Sys2Proof.Machine

/-- The outcome is a next state. -/
def Answers (o : Out) : Prop := ∃ t, o = .next t

theorem Answers.next {t : State} : Answers (.next t) := ⟨t, rfl⟩

theorem Answers.ite {c : Prop} [Decidable c] {a b : Out} (ha : Answers a) (hb : Answers b) : Answers (if c then a else b) := by
  split <;> assumption

/-- A command whose guard answers at once: what stands behind the guard decides. -/
theorem Answers.guard {c : Prop} [Decidable c] {t : State} {b : Out} (hb : Answers b) : Answers (if c then .next t else b) :=
  .ite .next hb

/-! ### The arrays (03, 07.4) -/

theorem execMmul_answers (ag : Nat) (x : BedOp) (s : State) : Answers (execMmul ag x s) := by
  refine .guard ?_
  split
  · exact .next
  · dsimp only
    split <;> exact .next

theorem execCellStoreBankAccess_answers (cell bank : Nat) (s : State) : Answers (execCellStoreBankAccess cell bank s) := by
  dsimp only [execCellStoreBankAccess]
  split
  · exact .next
  · split <;> exact .next

theorem execDrainRowAccept_answers (cell : Nat) (s : State) : Answers (execDrainRowAccept cell s) := by
  dsimp only [execDrainRowAccept]
  split
  · exact .next
  · exact .guard .next

theorem execBedBusTransfer_answers (bed track : Nat) (parityOk : Bool) (s : State) :
    Answers (execBedBusTransfer bed track parityOk s) := by
  unfold execBedBusTransfer
  split
  · exact .next
  · exact .guard (.guard .next)

/-! ### The converter (04, 07.5) -/

theorem execCvta_answers (x : BedOp) (s : State) : Answers (execCvta x s) := by
  refine .guard ?_
  split
  · exact .next
  · exact .guard (.guard (.guard .next))

theorem cvtmWith_answers (bed : Nat) (o : UnitOp) (es : List (Nat × List (Option Byte))) (s t : State) :
    Answers (cvtmWith bed o es s t) := by
  refine .guard (.guard (.guard ?_))
  split
  · exact .next
  · exact .guard .next

theorem execCvtm_answers (x : BedOp) (s : State) : Answers (execCvtm x s) := by
  refine .guard ?_
  split
  · exact .next
  · exact cvtmWith_answers ..

theorem loadOp_answers (bed opc n : Nat) (o : UnitOp) (s : State) (ok : List Byte → Bool)
    (f : State → Nat → List Byte → State) : Answers (loadOp bed opc n o s ok f) := by
  refine .guard ?_
  split
  · exact .next
  · exact .guard (.guard .next)

/-! ### The vector unit (03.9, 07.7) -/

theorem vecOp_answers (bed opc : Nat) (o : UnitOp) (s : State) (r : Reads) (f : State → State) :
    Answers (vecOp bed opc o s r f) :=
  .guard (.guard .next)

theorem execVrcv_answers (bed : Nat) (o : UnitOp) (s : State) : Answers (execVrcv bed o s) := by
  dsimp only [execVrcv]
  split
  · exact .next
  · exact vecOp_answers ..

theorem execVbrcv_answers (bed : Nat) (o : UnitOp) (s : State) : Answers (execVbrcv bed o s) := by
  dsimp only [execVbrcv]
  split
  · exact .next
  · exact vecOp_answers ..

/-! ### Issue and the control slot (06) -/

theorem execWordIssue_answers (p die : Nat) (s : State) : Answers (execWordIssue p die s) := by
  dsimp only [execWordIssue]
  split
  · exact .next
  · exact .next
  · split
    · exact .next
    · exact .guard .next

theorem execPrefetchWord_answers (p die : Nat) (s : State) : Answers (execPrefetchWord p die s) := by
  dsimp only [execPrefetchWord]
  split
  · exact .next
  · refine .guard ?_
    split <;> exact .next

theorem execCtlBrp_answers (p die bed pred cond target : Nat) (s : State) :
    Answers (execCtlBrp p die bed pred cond target s) := by
  refine .guard (.ite (.guard (.guard (.guard .next))) ?_)
  split <;> exact .next

theorem execBranchOutcome_answers (p die : Nat) (taken : Bool) (target : Nat) (s : State) :
    Answers (execBranchOutcome p die taken target s) := by
  dsimp only [execBranchOutcome]
  split
  · exact .next
  · exact .guard .next

theorem execCtlWait_answers (p die stile t sc level : Nat) (s : State) :
    Answers (execCtlWait p die stile t sc level s) :=
  .guard (.ite (.guard .next) (.guard .next))

theorem execCtlLoop_answers (p die n last : Nat) (s : State) : Answers (execCtlLoop p die n last s) :=
  .ite (.guard .next) .next

theorem execQuietClose_answers (p : Nat) (s : State) : Answers (execQuietClose p s) := by
  unfold execQuietClose
  split
  · exact .next
  · exact .guard .next

theorem execReplayRestore_answers (p : Nat) (s : State) : Answers (execReplayRestore p s) := by
  dsimp only [execReplayRestore]
  split
  · exact .next
  · exact .guard .next

/-! ### Stiles and the exchange slot (06.5, 07.8) -/

theorem execSignalPart_answers (p die sig : Nat) (s : State) : Answers (execSignalPart p die sig s) := by
  dsimp only [execSignalPart]
  split
  · exact .next
  · exact .guard .next

theorem execXchSignal_answers (o : UnitOp) (s : State) : Answers (execXchSignal o s) := by
  unfold execXchSignal
  split
  · exact .next
  · exact .guard .next

theorem execXchToken_answers (o : UnitOp) (s : State) : Answers (execXchToken o s) := by
  unfold execXchToken
  split
  · exact .next
  · split
    · exact .next
    · refine .guard ?_
      split
      · exact .next
      · refine .guard ?_
        split <;> exact .next

theorem execXchSend_answers (o : UnitOp) (s : State) : Answers (execXchSend o s) := by
  refine .guard (.guard (.guard (.guard ?_)))
  dsimp only
  split <;> exact .next

/-! ### Stream engines and collectives (08, 14.9) -/

theorem execDld_answers (o : UnitOp) (s : State) : Answers (execDld o s) := by
  refine .guard ?_
  split
  · exact .next
  · exact .guard (.guard .next)

theorem execRun_answers (o : UnitOp) (s : State) : Answers (execRun o s) := by
  refine .guard (.guard (.guard (.guard ?_)))
  dsimp only
  split <;> exact .next

theorem execStreamRequestIssue_answers (eng ctx : Nat) (s : State) : Answers (execStreamRequestIssue eng ctx s) := by
  unfold execStreamRequestIssue
  split
  · exact .next
  · refine .guard ?_
    split
    · exact .next
    · exact .next
    · exact .next
    · exact .guard .next

theorem execStreamResponse_answers (eng ctx tag : Nat) (s : State) : Answers (execStreamResponse eng ctx tag s) := by
  unfold execStreamResponse
  split
  · exact .next
  · split
    · exact .next
    · exact .guard (.guard (.guard (.guard (.guard .next))))

theorem execBurstDeliver_answers (eng ctx : Nat) (s : State) : Answers (execBurstDeliver eng ctx s) := by
  dsimp only [execBurstDeliver]
  split
  · exact .next
  · refine .guard ?_
    split <;> exact .next

theorem execCaravanBurstForward_answers (eng ctx stop : Nat) (s : State) :
    Answers (execCaravanBurstForward eng ctx stop s) := by
  unfold execCaravanBurstForward
  split
  · exact .next
  · refine .guard ?_
    split
    · exact .next
    · split
      · exact .next
      · exact .next
      · exact .next
      · exact .guard .next

theorem execCaravanStopConfirm_answers (eng ctx stop : Nat) (s : State) :
    Answers (execCaravanStopConfirm eng ctx stop s) := by
  dsimp only [execCaravanStopConfirm]
  split
  · exact .next
  · exact .guard .next

theorem execRunComplete_answers (eng ctx : Nat) (s : State) : Answers (execRunComplete eng ctx s) := by
  dsimp only [execRunComplete]
  split
  · exact .next
  · exact .guard .next

theorem execContextStopped_answers (eng ctx : Nat) (s : State) : Answers (execContextStopped eng ctx s) := by
  unfold execContextStopped
  split
  · exact .next
  · exact .guard .next

theorem execCollectiveDone_answers (p eng plan : Nat) (s : State) : Answers (execCollectiveDone p eng plan s) := by
  dsimp only [execCollectiveDone]
  split
  · exact .next
  · split
    · exact .next
    · refine .guard (.ite ?_ (.guard (.guard .next)))
      split <;> exact .next

/-! ### Programs, queue pairs and MOVEs of a pavilion (06, 13) -/

theorem execProgramRegistrationDone_answers (p : Nat) (s : State) : Answers (execProgramRegistrationDone p s) := by
  refine .guard (.guard ?_)
  split
  · exact .next
  · exact .next
  · exact .guard .next

theorem execSqEntryTake_answers (p : Nat) (s : State) : Answers (execSqEntryTake p s) := by
  dsimp only [execSqEntryTake]
  split
  · exact .next
  · refine .guard ?_
    split
    · exact .next
    · exact .next
    · exact .guard (.guard .next)

theorem execPavilionHalted_answers (p : Nat) (s : State) : Answers (execPavilionHalted p s) := by
  refine .guard ?_
  split
  · exact .next
  · split <;> exact .next

theorem execMoveRelease_answers (p : Nat) (s : State) : Answers (execMoveRelease p s) := by
  unfold execMoveRelease
  split
  · exact .next
  · refine .guard ?_
    split <;> exact .next

theorem execPavResetDone_answers (p : Nat) (s : State) : Answers (execPavResetDone p s) := by
  refine .guard ?_
  split <;> exact .next

/-! ### Memory, its home agents and translation (09, 10) -/

theorem execNextLinePrefetch_answers (die : Nat) (s : State) : Answers (execNextLinePrefetch die s) := by
  unfold execNextLinePrefetch
  split
  · exact .next
  · refine .guard (.guard (.guard ?_))
    dsimp only
    split <;> exact .next

theorem execAtomic_answers (r : Requester) (addr size : Nat) (op : HomeOp) (v cmp : BitVec 64) (s : State) :
    Answers (execAtomic r addr size op v cmp s) := by
  refine .guard ?_
  split <;> exact .next

theorem gdrPlotWriteOp_answers (a : Actor) (die plot : Nat) (v : BitVec 64) (s : State) :
    Answers (gdrPlotWriteOp a die plot v s) :=
  .guard (.guard (.ite .next (.guard (.guard .next))))

theorem execTranslationWalk_answers (p va : Nat) (need : PermNeed) (u : XlatUnit) (s : State) :
    Answers (execTranslationWalk p va need u s) := by
  unfold execTranslationWalk
  split
  · exact .next
  · split
    · exact .next
    · exact .next
    · split <;> exact .next

theorem execSmmuInvTakeEffect_answers (s : State) : Answers (execSmmuInvTakeEffect s) := by
  unfold execSmmuInvTakeEffect
  split
  · exact .next
  · exact .guard (.guard .next)

theorem execSmmuInvComplete_answers (s : State) : Answers (execSmmuInvComplete s) := by
  unfold execSmmuInvComplete
  split
  · exact .next
  · exact .guard .next

/-! ### Coherence (11) -/

theorem execCleanEvict_answers (cd la : Nat) (s : State) : Answers (execCleanEvict cd la s) := by
  dsimp only [execCleanEvict]
  split
  · exact .guard (.guard .next)
  · exact .next

theorem execWriteBack_answers (cd la : Nat) (s : State) : Answers (execWriteBack cd la s) := by
  dsimp only [execWriteBack]
  split
  · refine .guard ?_
    split <;> exact .next
  · exact .next

theorem execCohAck_answers (cd la : Nat) (s : State) : Answers (execCohAck cd la s) := by
  unfold execCohAck
  split <;> exact .next

theorem execCohComplete_answers (cd la : Nat) (s : State) : Answers (execCohComplete cd la s) := by
  dsimp only [execCohComplete]
  split
  · exact .next
  · split <;> exact .next

theorem execCoherenceData_answers (dst : CohDst) (la : Nat) (_data : List Byte) (s : State) :
    Answers (execCoherenceData dst la _data s) := by
  dsimp only [execCoherenceData]
  split
  · exact .next
  · split
    · split <;> exact .next
    · split
      · exact .next
      · split <;> exact .next

theorem execSnpQuery_answers (die cd : Nat) (s : State) : Answers (execSnpQuery die cd s) := by
  unfold execSnpQuery
  split <;> exact .next

theorem execPresenceRecord_answers (die cd la : Nat) (st : LineState) (s : State) :
    Answers (execPresenceRecord die cd la st s) := by
  refine .guard ?_
  dsimp only
  split
  · exact .next
  · split <;> exact .next

theorem execEndRecord_answers (die cd : Nat) (s : State) : Answers (execEndRecord die cd s) := by
  dsimp only [execEndRecord]
  split
  · exact .next
  · exact .guard .next

/-! ### Links and sessions (14) -/

theorem execHello_answers (port : Nat) (h : HelloMsg) (s : State) : Answers (execHello port h s) := by
  dsimp only [execHello]
  refine .ite ?_ (.ite (.guard ?_) .next)
  · split
    · refine .guard ?_
      split <;> exact .next
    · exact .next
  · split <;> exact .next

theorem execFinish_answers (port session : Nat) (sig : List Byte) (s : State) :
    Answers (execFinish port session sig s) := by
  unfold execFinish
  refine .ite ?_ ?_
  · split
    · split
      · exact .next
      · exact .guard .next
    · exact .next
  · split
    · exact .next
    · split
      · exact .next
      · split
        · exact .next
        · exact .guard .next

theorem execCommitStileApply_answers (k : Nat) (s : State) : Answers (execCommitStileApply k s) := by
  unfold execCommitStileApply
  split <;> exact .next

theorem execRetryResend_answers (port tag : Nat) (s : State) : Answers (execRetryResend port tag s) := by
  unfold execRetryResend
  split
  · exact .next
  · split <;> exact .next

theorem execEndToEndTimeout_answers (k : Nat) (s : State) : Answers (execEndToEndTimeout k s) := by
  unfold execEndToEndTimeout
  split <;> exact .next

theorem apertureAccessOp_answers (hart addr size : Nat) (kind : ApertureKind) (v : BitVec 64) (s : State) :
    Answers (apertureAccessOp hart addr size kind v s) := by
  refine .guard (.guard ?_)
  dsimp only
  split
  · exact .next
  · split <;> exact .next

theorem execPortFrameSend_answers (port : Nat) (s : State) : Answers (execPortFrameSend port s) := by
  refine .guard (.ite (.guard (.ite ?_ .next)) (.guard .next))
  split <;> exact .next

theorem State.kmtIn_answers (s : State) (n kind : Nat) (m : KmtMsg) : Answers (s.kmtIn n kind m) := by
  unfold State.kmtIn
  split
  · exact .next
  · split <;> exact .next

theorem execKmtRetransmitTimeout_answers (session : Nat) (s : State) : Answers (execKmtRetransmitTimeout session s) := by
  unfold execKmtRetransmitTimeout
  split
  · exact .next
  · split
    · exact .next
    · exact .guard (.guard .next)

theorem execKmtAckTimer_answers (session : Nat) (s : State) : Answers (execKmtAckTimer session s) := by
  unfold execKmtAckTimer
  split
  · exact .next
  · exact .guard .next

/-! ### The Trellis, faults, recovery and alarms (05, 15) -/

theorem execIbufParityError_answers (p die word : Nat) (again : Bool) (s : State) :
    Answers (execIbufParityError p die word again s) := by
  refine .guard ?_
  dsimp only
  split <;> exact .next

theorem execControlStateFault_answers (p die : Nat) (bed : Option Nat) (s : State) :
    Answers (execControlStateFault p die bed s) := by
  dsimp only [execControlStateFault]
  split <;> exact .next

theorem execHangWindowExpire_answers (p : Nat) (s : State) : Answers (execHangWindowExpire p s) := by
  refine .guard ?_
  split <;> exact .next

theorem execStallTimeout_answers (p : Nat) (s : State) : Answers (execStallTimeout p s) := by
  refine .guard ?_
  split <;> exact .next

theorem execTrlStageCopyEnd_answers (s : State) : Answers (execTrlStageCopyEnd s) := by
  refine .guard ?_
  dsimp only
  split
  · exact .next
  · exact .next
  · exact .guard .next

theorem execTrlPavCommitDone_answers (s : State) : Answers (execTrlPavCommitDone s) := by
  unfold execTrlPavCommitDone
  split
  · exact .next
  · exact .guard .next

theorem execAlarmSend_answers (s : State) : Answers (execAlarmSend s) := by
  unfold execAlarmSend
  split
  · split
    · exact .guard .next
    · exact .next
  · exact .next

theorem execAlarmAck_answers (s : State) : Answers (execAlarmAck s) := by
  unfold execAlarmAck
  split <;> exact .next

/-! ### Die-to-die ports, references, upkeep and reset (01, 16, 17) -/

theorem execRotationRequest_answers (die : Nat) (s : State) : Answers (execRotationRequest die s) := by
  refine .guard ?_
  split <;> exact .next

theorem execD2dFlitTransmit_answers (die port : Nat) (s : State) : Answers (execD2dFlitTransmit die port s) := by
  refine .guard ?_
  dsimp only
  split <;> exact .next

theorem execD2dReroute_answers (src dst : Nat) (s : State) : Answers (execD2dReroute src dst s) := by
  dsimp only [execD2dReroute]
  split
  · exact .next
  · refine .guard ?_
    split
    · exact .next
    · split <;> exact .next

theorem execReferenceLost_answers (ref : RefClock) (s : State) : Answers (execReferenceLost ref s) := by
  cases ref with
  | r156 => exact .guard .next
  | r100 => exact .guard .next

theorem execWarmResetSequence_answers (s : State) : Answers (execWarmResetSequence s) := by
  refine .guard (.guard ?_)
  split <;> exact .next

/-! ### The Keeper (17) -/

theorem State.kRow_answers (s : State) (op : Nat) (k : KSrc) : Answers (s.kRow op k) := by
  cases k with
  | head => exact .next
  | port n m => exact .next

theorem State.spdmRow_answers (s : State) (via : Option Nat) (m : List Byte) (code version stage : Nat)
    (go : State → List Byte × State) : Answers (s.spdmRow via m code version stage go) := by
  refine .guard ?_
  split
  · exact .next
  · exact .guard (.guard .next)

/-! ### Register space and harts (12, 18) -/

theorem execRegisterWrite_answers (a : Actor) (addr size : Nat) (v : BitVec 64) (s : State) :
    Answers (execRegisterWrite a addr size v s) := by
  refine .guard ?_
  split <;> exact .next

theorem execCoreLoad_answers (hart : Nat) (mode : Mode) (pa size : Nat) (io fetch : Bool) (s : State) :
    Answers (execCoreLoad hart mode pa size io fetch s) := by
  refine .ite (apertureAccessOp_answers ..) (.ite ?_ (.guard .next))
  split <;> exact .next

theorem execCoreStore_answers (hart : Nat) (mode : Mode) (pa size : Nat) (io : Bool) (v : BitVec 64) (s : State) :
    Answers (execCoreStore hart mode pa size io v s) := by
  refine .ite (apertureAccessOp_answers ..) (.ite ?_ (.guard .next))
  split <;> exact .next

theorem execKxsRegWrite_answers (hart pa : Nat) (v : BitVec 64) (s : State) : Answers (execKxsRegWrite hart pa v s) := by
  refine .guard (.guard ?_)
  split <;> exact .next

theorem execKxsRegRead_answers (hart pa : Nat) (s : State) : Answers (execKxsRegRead hart pa s) := by
  refine .guard (.guard ?_)
  split <;> exact .next

/-! ### The commands -/

/-- Every command answers. The commands stand by the shape of their meaning: one effect, then an effect behind one to four
guards, then those whose meaning or whose shared operation has a lemma above. -/
theorem exec_answers (c : Instr) (s : State) : Answers (exec c s) := by
  cases c with
  | d2dFlitRetransmit | d2dLaneFailover | d2dLaneDegrade | d2dPortDown | containedFault | sharedFaultEvent | laneStep
  | trlStage | trlVerify | trlCommit | trlAbort | trlDigestCapture | trlAgdCapture | trlAgreeClear | beaconSend
  | graceTimerExpire | smmuCtxCommitGo | wsCommitGo | wsOutCommitGo | pavProgCommitGo | pavQpCommitGo | allred | rscat
  | agath | homeAgentAccess | blkadd | gddrAccess | smmuInvRange | smmuInvTag | smmuInvAll | coreEviction | readShared
  | readOwn | upgrade | snpShared | snpClean | snpOwn | snpInv | backInvalidation | promote | cohOoForce | kxEfence
  | kxLclean | kxLflush | kxLzero | cboClean | cboFlush | cboInval | cboZero | msiWrite | srstWarmReboot | srstColdReboot
  | pavReset | pavRelease | pavFenceWrite | sqDoorbell | cqHeadWrite | pavQpTokenWrite | pavEvecWrite | pmdTrainingFail
  | slpWrite | slpRead | slpAtomic | slpToken | slpColl | slpAck | slpRdata | slpRefuse | slpRetry | slpBeacon | slpCredit
  | lack | lnak | linkIdle | degrade | failover | kmtKeepaliveTimer | bedReplacement | keeperMismatch
  | keeperPeriodicSelftest | keeperWatchdogExpire | brakeLevelWrite | regulatorAlert | droopDetect | droopHoldEnd
  | sensorRead | thermalPaceStep | upkeepGrant | vauxOutOfRange | warmResetNFall | warmResetNRise | kprResetCold
  | kprResetWarm | kprResetDie | kprResetKeeper | kprMbxSubmit | jtagBypass | jtagIdcode | jtagSamplePreload | jtagExtest
  | jtagClamp | jtagHighz | smbAlertN => exact .next
  | lodgeBusFail | bedReset | trlVerifyDone | digestRecomputeDone | orgRgnCommitGo | wsOutCommitApply | cohBiasCommitGo
  | cohBiasCommitApply | ctlRepeat | ctlHalt | ctlMark | markComplete | ctlPfh | stlStateWrite | stlGroupWrite | cvtSeed
  | rsclr | stex | ordf | endf | xchUnbind | fpol | orgFlush | orgFlushDone | gddrTrackingRead | gddrRetrainDone
  | scrubGroup | plotZeroFillDone | ackWb | ownerOrderDrained | biasRelease | biasRecall | biasDone | pmdUp
  | handshakeTimeout | handshakeRetry | lackTimer | creditReturnTimer | replayTimeout | idleTimer | partnerAbsenceTimeout
  | creditTimeout | slowTimeout | lostHoldExpire | unquar | lpRetrain | preset | portRetrainDone | retrainTimeout
  | lpDevlostWrite | lpDevclrWrite | kmtSessionTimeout | lodgeAlarm | lodgeSummarySend | alarmSummaryEnqueue | logRecord
  | traceRecord | telemetryRead | governorTick | aclr | droopEnd | upkeepDeadline | sysResetN | pwrGoodFall | coldBoot
  | jtagDtmcs | jtagDmi | mtimecmpExpire | arpRequest | neighbourSolicitation => exact .guard .next
  | feederDeliver | orgRgnCommitApply | smmuCtxCommitApply | wsCommitApply | pavProgCommitApply | pavQpCommitApply
  | ctlQuiet | xchSet | xchBind | fecDegrade | deviceLossDeclare | keeperResume | keeperAlarmEnqueue | paceRequestWrite
  | spareSelftest | dieReset | uartRecovery => exact .guard (.guard .next)
  | d2dFlitReceive | keeperSelftestDone => exact .guard (.guard (.guard .next))
  | kxsKeeper => exact .guard (.guard (.guard (.guard .next)))
  | registerWrite => exact execRegisterWrite_answers ..
  | d2dFlitTransmit => exact execD2dFlitTransmit_answers ..
  | d2dReroute => exact execD2dReroute_answers ..
  | referenceLost => exact execReferenceLost_answers ..
  | cellStoreBankAccess => exact execCellStoreBankAccess_answers ..
  | drainRowAccept => exact execDrainRowAccept_answers ..
  | bedBusTransfer => exact execBedBusTransfer_answers ..
  | trlStageCopyEnd => exact execTrlStageCopyEnd_answers ..
  | trlPavCommitDone => exact execTrlPavCommitDone_answers ..
  | programRegistrationDone => exact execProgramRegistrationDone_answers ..
  | wordIssue => exact execWordIssue_answers ..
  | prefetchWord => exact execPrefetchWord_answers ..
  | ctlLoop => exact execCtlLoop_answers ..
  | ctlBrp => exact execCtlBrp_answers ..
  | branchOutcome => exact execBranchOutcome_answers ..
  | ctlWait => exact execCtlWait_answers ..
  | pavilionHalted => exact execPavilionHalted_answers ..
  | quietClose => exact execQuietClose_answers ..
  | signalPart => exact execSignalPart_answers ..
  | replayRestore => exact execReplayRestore_answers ..
  | mmul => exact execMmul_answers ..
  | cvta => exact execCvta_answers ..
  | cvtm => exact execCvtm_answers ..
  | scld | rsld | rsadd => unfold exec; apply loadOp_answers
  | dld => exact execDld_answers ..
  | run => exact execRun_answers ..
  | streamRequestIssue => exact execStreamRequestIssue_answers ..
  | streamResponse => exact execStreamResponse_answers ..
  | burstDeliver => exact execBurstDeliver_answers ..
  | caravanBurstForward => exact execCaravanBurstForward_answers ..
  | caravanStopConfirm => exact execCaravanStopConfirm_answers ..
  | runComplete => exact execRunComplete_answers ..
  | contextStopped => exact execContextStopped_answers ..
  | moveRelease => exact execMoveRelease_answers ..
  | vadd | vsub | vmul | vfma | vmin | vmax | vdiv | vsqrt | vexp2 | vlog2 | vcmp | vsel | vred | vbcs | vcvt | vst | plog
  | flclr | sli | sget => unfold exec; apply vecOp_answers
  | vld | vbsnd => exact .guard (vecOp_answers ..)
  | vrcv => exact execVrcv_answers ..
  | vbrcv => exact execVbrcv_answers ..
  | xchSignal => exact execXchSignal_answers ..
  | xchToken => exact execXchToken_answers ..
  | xchSend => exact execXchSend_answers ..
  | collectiveDone => exact execCollectiveDone_answers ..
  | nextLinePrefetch => exact execNextLinePrefetch_answers ..
  | atomic => exact execAtomic_answers ..
  | gdrPlotWrite => exact gdrPlotWriteOp_answers ..
  | translationWalk => exact execTranslationWalk_answers ..
  | smmuInvTakeEffect => exact execSmmuInvTakeEffect_answers ..
  | smmuInvComplete => exact execSmmuInvComplete_answers ..
  | apertureAccess => exact apertureAccessOp_answers ..
  | retryResend => exact execRetryResend_answers ..
  | commitStileApply => exact execCommitStileApply_answers ..
  | coreLoad => exact execCoreLoad_answers ..
  | coreStore => exact execCoreStore_answers ..
  | cleanEvict => exact execCleanEvict_answers ..
  | writeBack => exact execWriteBack_answers ..
  | snpQuery => exact execSnpQuery_answers ..
  | presenceRecord => exact execPresenceRecord_answers ..
  | endRecord => exact execEndRecord_answers ..
  | cohAck => exact execCohAck_answers ..
  | cohComplete => exact execCohComplete_answers ..
  | coherenceData dst la data => exact execCoherenceData_answers dst la data s
  | kxsRegWrite => exact execKxsRegWrite_answers ..
  | kxsRegRead => exact execKxsRegRead_answers ..
  | pavResetDone => exact execPavResetDone_answers ..
  | sqEntryTake => exact execSqEntryTake_answers ..
  | hello => exact execHello_answers ..
  | finish => exact execFinish_answers ..
  | portFrameSend => exact execPortFrameSend_answers ..
  | endToEndTimeout => exact execEndToEndTimeout_answers ..
  | kmtAttach | kmtSubmit | kmtCqAck | kmtWrite | kmtRead | kmtRdata | kmtToken | kmtAck | kmtRefuse | kmtKeepalive
  | kmtClose => exact State.kmtIn_answers ..
  | kmtRetransmitTimeout => exact execKmtRetransmitTimeout_answers ..
  | kmtAckTimer => exact execKmtAckTimer_answers ..
  | ibufParityError => exact execIbufParityError_answers ..
  | controlStateFault => exact execControlStateFault_answers ..
  | hangWindowExpire => exact execHangWindowExpire_answers ..
  | stallTimeout => exact execStallTimeout_answers ..
  | alarmSend => exact execAlarmSend_answers ..
  | alarmAck => exact execAlarmAck_answers ..
  | rotationRequest => exact execRotationRequest_answers ..
  | warmResetSequence => exact execWarmResetSequence_answers ..
  | reqInfo | reqWarmReset | reqColdReset | reqDieReset | reqKeeperReset | reqAssignId | reqEpochFloor | reqFlashWrite
  | reqFlashActivate | reqSvnCommit | reqDeviceLoss | reqSubscribe | reqDebugUnlock => exact State.kRow_answers ..
  | spdmGetVersion | spdmGetCapabilities | spdmNegotiateAlgorithms | spdmGetDigests | spdmGetCertificate | spdmChallenge
  | spdmGetMeasurements | spdmKeyExchange | spdmFinish | spdmHeartbeat | spdmKeyUpdate | spdmEndSession
    => unfold exec; apply State.spdmRow_answers

/-- Settles O52: the case analysis of `exec_answers`. -/
theorem everyCommandAnswers : Obligations.EveryCommandAnswers := by
  unfold Obligations.EveryCommandAnswers
  exact exec_answers

end Sys2Proof.Machine
end

section
/-! SUPPORT. Event counters, the state after reset, and the commands of test access. -/

namespace Sys2Proof.Machine

/-! ### Counters (R13) -/

/-- Settles O54: a bump writes the smaller of the sum and the all-ones value, which the field holds whole. -/
theorem countersSaturate : Obligations.CountersSaturate := by
  unfold Obligations.CountersSaturate
  intro s f g i j n i' j' hf hf64 _ _
  refine ⟨?_, rd_wr_ne s f g hf hf64 i j i' j' _⟩
  have hfit : min f.top (s.rd f i j + n) < 2 ^ (f.hi + 1 - f.lo) :=
    lt_of_le_of_lt (min_le_left _ _) (Nat.sub_lt (Nat.two_pow_pos _) Nat.one_pos)
  rw [State.bump, rd_wr_self s f hf hf64, Nat.mod_eq_of_lt hfit, Fld.top]

/-! ### The state after reset (R12) -/

/-- The registers that take fields from fuses or straps. -/
def fuseRegNames : List Reg := [.kprId, .pwrClass, .trlKeys, .kprFw, .kprStrap, .ldgStatus, .gdrCfg, .lpMac]

/-- Fuses and straps set no other register than those of `fuseRegNames`. -/
theorem mem_fuseRegNames_of_mem_fuseRegs {f : Fuses} {st : Straps} {e : RegKey × BitVec 64} (h : e ∈ fuseRegs f st) :
    e.1.r ∈ fuseRegNames := by
  simp only [fuseRegs, List.mem_append, List.mem_cons, List.mem_map, List.not_mem_nil, or_false] at h
  obtain ((((rfl | rfl | rfl | rfl | rfl) | ⟨d, -, rfl⟩) | ⟨d, -, rfl⟩) | ⟨m, -, rfl⟩) := h <;> simp [fuseRegNames]

/-- A table without an entry for a key does not find it. -/
theorem tfind_eq_none_of_forall_ne {κ α : Type} [DecidableEq κ] {k : κ} {t : Tab κ α} (h : ∀ e ∈ t, e.1 ≠ k) :
    tfind t k = none := by
  induction t with
  | nil => rfl
  | cons e t ih =>
    obtain ⟨he, ht⟩ := List.forall_mem_cons.mp h
    rw [tfind, if_neg he, ih ht]

/-- Every other register holds the values of its Reset column once fuses and straps are loaded. -/
theorem reg_of_regs_eq_fuseRegs {s : State} {f : Fuses} {st : Straps} (hs : s.regs = fuseRegs f st) {r : Reg}
    (hr : r ∉ fuseRegNames) (i j : Nat) : s.reg r i j = resetValue r := by
  have hfree : ∀ e ∈ s.regs, e.1 ≠ ⟨r, i, j⟩ := by
    intro e he hk
    have hmem : e.1.r ∈ fuseRegNames := mem_fuseRegNames_of_mem_fuseRegs (hs ▸ he)
    exact hr (by rwa [hk] at hmem)
  rw [State.reg, tget, tfind_eq_none_of_forall_ne hfree, Option.getD_none]

/-- Settles O49: the table of registers after reset lists those of the fuses and straps alone, and the memory
lists no cell. That memory is zero and that the phase is before the boot are the model's choices (log entries 9 and 11). -/
theorem resetLeavesRegistersAtTheirValues : Obligations.ResetLeavesRegistersAtTheirValues := by
  unfold Obligations.ResetLeavesRegistersAtTheirValues
  exact ⟨fun r i j hr => reg_of_regs_eq_fuseRegs rfl hr i j, rfl, fun _ => rfl, rfl, rfl⟩

/-! ### Test access (R432, R605, R618) -/

/-- The TAP instructions that drive the pins act while cold reset holds. -/
theorem jtagDrive_of_inReset {s : State} (h : s.sys.phase = .inReset) (ir mode : Nat) (act : State → State) :
    s.jtagDrive ir mode act = act ((s.jtagIr ir).setJtag { (s.jtagIr ir).kpr.jtag with drive := mode }) :=
  if_pos h

/-- The instruction register of the TAP says nothing about the debug lock. -/
@[simp] theorem jtagIr_unlocked (s : State) (ir : Nat) : (s.jtagIr ir).unlocked = s.unlocked := rfl

theorem execJtagDtmcs_locked {s : State} (h : s.unlocked = false) (v : BitVec 32) :
    execJtagDtmcs v s = .next ((s.jtagIr 0x10).send (.tdo 32 0)) := by
  simp [execJtagDtmcs, h]

theorem execJtagDtmcs_unlocked {s t : State} {v : BitVec 32} {w : BitVec 64} (h : s.unlocked = true)
    (hw : (s.jtagIr 0x10).free = (w, t)) (h16 : v.toNat.testBit 16 = false) (h17 : v.toNat.testBit 17 = false) :
    execJtagDtmcs v s = .next (t.send (.tdo 32 (w.toNat % 2 ^ 32 / 16 * 16 + 1))) := by
  simp [execJtagDtmcs, h, hw, h16, h17]

theorem execJtagDmi_locked {s : State} (h : s.unlocked = false) (v : BitVec 64) :
    execJtagDmi v s = .next ((s.jtagIr 0x11).send (.tdo 64 0)) := by
  simp [execJtagDmi, h]

theorem execJtagDmi_unlocked {s t : State} {v w : BitVec 64} (h : s.unlocked = true)
    (hw : (s.jtagIr 0x11).free = (w, t)) (hop : v.toNat % 4 ≠ 0) :
    execJtagDmi v s = .next ((t.setJtag { t.kpr.jtag with dmi := w }).send (.tdo 64 s.kpr.jtag.dmi.toNat)) := by
  have hdmi : (s.jtagIr 0x11).kpr.jtag.dmi = s.kpr.jtag.dmi := rfl
  simp [execJtagDmi, h, hw, hop, hdmi]

/-- The falling of the level sensed raises the source of the alert. -/
theorem execSmbAlertN_falls {s : State} (hpin : s.sys.smbN = true) (hown : s.sys.smbOwn = false) :
    execSmbAlertN false s = .next ({ s with sys := { s.sys with smbN := false } }.aplicSource 3) := by
  simp [execSmbAlertN, hpin, hown]

theorem execMtimecmpExpire_reached {s : State} {hart : Nat} {which : TimerSel} (hle : (s.timeCmp hart which).toNat ≤ s.mtime)
    (hnew : s.hub.timer.contains (hart, which) = false) :
    execMtimecmpExpire hart which s = .next { s with hub := { s.hub with timer := s.hub.timer ++ [(hart, which)] } } :=
  if_pos ⟨hle, by rw [hnew]; rfl⟩

theorem execRegisterWrite_done {s t : State} {a : Actor} {addr size d : Nat} {v : BitVec 64} (hin : inRegs addr = true)
    (hw : s.spaceWrite a addr size v.toNat = .done d t) : execRegisterWrite a addr size v s = .next t := by
  simp [execRegisterWrite, hin, hw]

/-- Settles O46, command by command. What DTMCS, DMI and the alert give beside R605 and R618 is the model's choice (log entries
125 and 126). -/
theorem testAccessCompletes : Obligations.TestAccessCompletes := by
  unfold Obligations.TestAccessCompletes
  refine ⟨fun _ => rfl, fun _ => rfl, fun _ _ => rfl, ?extest, ?clamp, ?highz, ?dtmcsLocked, ?dtmcs, ?dmiLocked, ?dmi, ?alert,
    ?timer, ?write⟩
  case extest =>
    rintro s t h rfl
    exact congrArg Host.Outcome.next (jtagDrive_of_inReset h ..)
  case clamp => exact fun s h => congrArg Host.Outcome.next (jtagDrive_of_inReset h ..)
  case highz => exact fun s h => congrArg Host.Outcome.next (jtagDrive_of_inReset h ..)
  case dtmcsLocked => exact fun v s h => execJtagDtmcs_locked h v
  case dtmcs => exact fun v s w t h hw h16 h17 => execJtagDtmcs_unlocked h hw h16 h17
  case dmiLocked => exact fun v s h => execJtagDmi_locked h v
  case dmi => exact fun v s w t h hw hop => execJtagDmi_unlocked h hw hop
  case alert => exact fun s hpin hown => execSmbAlertN_falls hpin hown
  case timer => exact fun hart which s hle hnew => execMtimecmpExpire_reached hle hnew
  case write => exact fun a addr size v s d t hin hw => execRegisterWrite_done hin hw

end Sys2Proof.Machine
end

section
/-! SUPPORT. The idle step, die-to-die ports and the references, and the handshakes of link ports. -/

namespace Sys2Proof.Machine

/-! ### The idle step (R26, R432) -/

theorem step_of_no_command {s : State} (h : s.pending = []) : step s = .next s.tick := by
  rw [step, h]

/-- The clock runs from the 100 MHz reference and stands without it. -/
theorem State.clock_mtime (s : State) : s.clock.mtime = if s.sys.r100 then (s.mtime + 1) % 2 ^ 64 else s.mtime := by
  unfold State.clock
  split <;> rfl

/-- Settles O48. That a step on an empty queue is a tick is the model's choice (log entry 1). -/
theorem idleStepTicks : Obligations.IdleStepTicks := by
  unfold Obligations.IdleStepTicks
  exact ⟨fun _ => step_of_no_command, State.clock_mtime⟩

/-! ### Die-to-die ports (R17 to R21) -/

/-! Arbitration counts a flit of a class; what waits, what may be sent again and the numbering stay. -/

@[simp] theorem D2dPort.count_txq (x : D2dPort) (c : D2dClass) : (x.count c).txq = x.txq := rfl
@[simp] theorem D2dPort.count_replay (x : D2dPort) (c : D2dClass) : (x.count c).replay = x.replay := rfl
@[simp] theorem D2dPort.count_txSeq (x : D2dPort) (c : D2dClass) : (x.count c).txSeq = x.txSeq := rfl

/-- A port that is up and has room to replay sends the flit whose turn it is, under its next sequence number. -/
theorem execD2dFlitTransmit_sends {s : State} {die port : Nat} {x : D2dPort} {f g : Flit} (hx : x = s.d2dPort die port)
    (hup : s.d2dUp die port = true) (hroom : x.replay.length < replayFlits)
    (hf : (x.nextClass.bind fun c => x.txq.find? fun f => f.cls == c) = some f) (hg : g = { f with seq := x.txSeq }) :
    execD2dFlitTransmit die port s = .next ((s.setD2d die port { x.count f.cls with
      txq := (x.count f.cls).txq.erase f, replay := (x.count f.cls).replay ++ [g],
      txSeq := ((x.count f.cls).txSeq + 1) % 2 ^ 32 }).send (.flit die port g (flitSum g))) := by
  subst hx hg
  simp [execD2dFlitTransmit, hup, Nat.not_le.mpr hroom, hf]

/-- No sequence number is before itself. -/
@[simp] theorem seqBefore_self (a : Nat) : seqBefore a a = false := by
  simp [seqBefore]

section Receive

variable {s : State} {die port crc : Nat} {f : Flit}

/-- A good flit that comes in its turn is delivered once. -/
theorem execD2dFlitReceive_inTurn (hup : s.d2dUp die port = true) (hgood : flitGood f crc = true)
    (hseq : f.seq = (s.d2dPort die port).rxSeq) :
    execD2dFlitReceive die port f crc s = .next (((s.setD2d die port { s.d2dPort die port with
      rxSeq := ((s.d2dPort die port).rxSeq + 1) % 2 ^ 32 }).arrive die port f).flitDelivered die port f) := by
  simp [execD2dFlitReceive, hup, hgood, hseq]

/-- A flit that fails its check, or comes early, is asked for again. -/
theorem execD2dFlitReceive_badOrEarly (hup : s.d2dUp die port = true)
    (hbad : flitGood f crc = false ∨ seqBefore (s.d2dPort die port).rxSeq f.seq = true) :
    execD2dFlitReceive die port f crc s = .next (s.send (.flitNak die port (s.d2dPort die port).rxSeq)) := by
  simp [execD2dFlitReceive, hup, hbad]

/-- A good flit that was delivered before changes nothing. -/
theorem execD2dFlitReceive_again (hup : s.d2dUp die port = true) (hgood : flitGood f crc = true)
    (hnotEarly : seqBefore (s.d2dPort die port).rxSeq f.seq = false) (hseq : f.seq ≠ (s.d2dPort die port).rxSeq) :
    execD2dFlitReceive die port f crc s = .next s := by
  simp [execD2dFlitReceive, hup, hgood, hnotEarly, hseq]

end Receive

theorem execD2dFlitRetransmit_up {s : State} {die port : Nat} (hup : s.d2dUp die port = true) (seq : Nat) :
    execD2dFlitRetransmit die port seq s = .next (s.resendFlits die port seq) := by
  rw [execD2dFlitRetransmit, if_pos hup]

theorem execD2dPortDown_notDown {s : State} {die port : Nat} (hpeer : (peerOf die port).isSome = true)
    (hst : s.d2dState die port ≠ 3) : execD2dPortDown die port s = .next (s.d2dDown die port) := by
  simp [execD2dPortDown, hpeer, hst]

/-- The Keeper routes a pair whose port is down over the best path that remains. -/
theorem execD2dReroute_reroutes {s : State} {src dst n m : Nat} {path : List Nat} (hport : portTo src dst = some n)
    (hdown : s.d2dUp src n = false) (hkpr : s.keeperUp = true) (hpath : s.bestPath src dst = some path)
    (hm : portTo src (path.getD 1 0) = some m) :
    execD2dReroute src dst s =
      .next ({ s with d2d := { s.d2d with routes := tset s.d2d.routes (src, dst) path } }.moveFlits src n m path) := by
  simp only [execD2dReroute, hport, hdown, hkpr, hpath, hm, Bool.not_true, Bool.or_self, Bool.false_eq_true, if_false]

/-! ### The Lodge bus and the references (R23, R27) -/

theorem execLodgeBusFail_working {s : State} {die : Nat} (hdie : die < 10) (hbus : s.flag F.ldgStatus_LBUS die 0 = true) :
    execLodgeBusFail die s = .next
      ((((s.wr F.ldgStatus_LBUS die 0 0).wr F.ldgStatus_FALLBACK die 0 1).alarm hubDie 0x02
        (FaultReport.blank St.success 1 0x0F die 0xFE)).dieReach die) := by
  simp [execLodgeBusFail, Nat.not_le.mpr hdie, hbus]

theorem execReferenceLost_r156 {s : State} (h : s.sys.r156 = true) : execReferenceLost .r156 s = .next s.lose156 := by
  simp [execReferenceLost, h]

theorem execReferenceLost_r100 {s : State} (h : s.sys.r100 = true) :
    execReferenceLost .r100 s = .next (s.lose100.deviceLoss 2 hubDie) := by
  simp [execReferenceLost, h]

/-- Settles O41, command by command. The layout and check of a flit and the bounds of failing lanes, the order of equal paths,
and the states that a lost reference leaves are the model's choices (log entries 101, 102 and 103). -/
theorem dieLinksComplete : Obligations.DieLinksComplete := by
  unfold Obligations.DieLinksComplete
  refine ⟨?transmit, ?inTurn, ?badOrEarly, ?again, ?retransmit, fun _ _ _ _ => rfl, fun _ _ _ _ => rfl, ?portDown, ?reroute,
    ?lodgeBus, ?r156, ?r100⟩
  case transmit => exact fun die port s x f g hx hup hroom hf hg => execD2dFlitTransmit_sends hx hup hroom hf hg
  case inTurn => exact fun die port f crc s hup hgood hseq => execD2dFlitReceive_inTurn hup hgood hseq
  case badOrEarly => exact fun die port f crc s hup hbad => execD2dFlitReceive_badOrEarly hup hbad
  case again => exact fun die port f crc s hup hgood hnotEarly hseq => execD2dFlitReceive_again hup hgood hnotEarly hseq
  case retransmit => exact fun die port q s hup => execD2dFlitRetransmit_up hup q
  case portDown => exact fun die port s hpeer hst => execD2dPortDown_notDown hpeer hst
  case reroute =>
    exact fun src dst s n path m hport hdown hkpr hpath hm => execD2dReroute_reroutes hport hdown hkpr hpath hm
  case lodgeBus => exact fun die s hdie hbus => execLodgeBusFail_working hdie hbus
  case r156 => exact fun s h => execReferenceLost_r156 h
  case r100 => exact fun s h => execReferenceLost_r100 h

/-! ### Handshakes of link ports (R467 to R471, R486, R495) -/

theorem execPmdUp_down {s : State} {port : Nat} (hst : s.lpState port = 1) (hport : port < 16) (href : s.sys.r156 = true) :
    execPmdUp port s = .next (s.startAuth port) :=
  if_pos ⟨hst, hport, href⟩

section Hello

variable {s : State} {port : Nat} {h : HelloMsg} {g : GateRule} {rest : List GateRule} {k : HsSt}

/-- A partner that no admission rule matches fails the handshake of a scheduled port. -/
theorem execHello_scheduled_noRule (hmode : s.lpMode port = 2) (hst : s.lpState port = 2) (hhs : (s.port port).hs = some k)
    (hnew : k.hello = none) (hrules : s.rulesFor port h = []) : execHello port h s = .next (s.hsFail port true) := by
  simp [execHello, hmode, hst, hhs, hnew, hrules]

/-- A scheduled port answers the HELLO of a partner that it admits with its signature. -/
theorem execHello_scheduled_rule (hmode : s.lpMode port = 2) (hst : s.lpState port = 2) (hhs : (s.port port).hs = some k)
    (hnew : k.hello = none) (hrules : s.rulesFor port h = g :: rest) :
    execHello port h s = .next
      (((s.multiRule port rest).onPort port fun x => { x with hs := some { k with hello := some (h, g) } }).putLink port
        ⟨0x26, true, ((s.multiRule port rest).onPort port fun x =>
          { x with hs := some { k with hello := some (h, g) } }).finishBytes k h⟩) := by
  simp [execHello, hmode, hst, hhs, hnew, hrules]

/-- The session that the HELLO of an admitted partner opens on Ethernet: it waits for the FINISH, under the rule selected and
with the addresses of that time. -/
def State.openSession (s : State) (port : Nat) (h : HelloMsg) (g : GateRule) (k : HsSt) (n : Nat) : State :=
  s.setSession n ⟨port, none, some { k with hello := some (h, g) }, 0, 0, [], [], 0, s.rd F.lpKmt_RTO 0 0, false, h.mac, [],
    s.reg .lpEth port 0, s.ownIp port⟩

/-- This device's HELLO and FINISH, sent in a session. -/
def State.sendHandshake (s : State) (h : HelloMsg) (k : HsSt) (n : Nat) : State :=
  (s.send (.kmt n 0 0 (hsMsg 0x01 k.own))).send (.kmt n 0 0 (hsMsg 0x02 (s.finishBytes k h)))

/-- A partner that no admission rule matches fails the handshake of an Ethernet port. -/
theorem execHello_ethernet_noRule (hmode : s.lpMode port = 1) (hst : s.lpState port = 2 ∨ s.lpState port = 3)
    (hroom : s.sessionRoom port = true) (hrules : s.rulesFor port h = []) :
    execHello port h s = .next (s.hsFail port true) := by
  simp [execHello, hmode, hst, hroom, hrules]

/-- An Ethernet port with room opens a session for a partner that it admits and answers with HELLO and FINISH. -/
theorem execHello_ethernet_rule {t u : State} {n : Nat} (hmode : s.lpMode port = 1)
    (hst : s.lpState port = 2 ∨ s.lpState port = 3) (hroom : s.sessionRoom port = true)
    (hrules : s.rulesFor port h = g :: rest) (hbegin : (s.multiRule port rest).beginHs = (k, t))
    (hnum : t.newSession = (n, u)) :
    execHello port h s = .next ((u.openSession port h g k n).sendHandshake h k n) := by
  simp [execHello, hmode, hst, hroom, hrules, hbegin, hnum, State.openSession, State.sendHandshake]

end Hello

section Finish

variable {s : State} {port session : Nat} {sig : List Byte} {h : HelloMsg} {g : GateRule}

/-- The signature decides whether a scheduled port comes UP. -/
theorem execFinish_scheduled {k : HsSt} (hmode : s.lpMode port = 2) (hst : s.lpState port = 2)
    (hhs : (s.port port).hs = some k) (hhello : k.hello = some (h, g)) :
    execFinish port session sig s = .next (if Config.ecdsaVerify h.pubKey (s.transcript k h) sig then
      s.enterUp port (s.partnerOf k h g "KX-SLP-1") else s.hsFail port true) := by
  simp only [execFinish, hmode, hst, hhs, hhello, if_true]
  split <;> rfl

/-- The signature decides whether a session opens, and with the first of an Ethernet port the port comes UP. -/
theorem execFinish_session {k : KmtSt} {hs : HsSt} {t : State} (hmode : s.lpMode port ≠ 2)
    (hses : s.session session = some k) (hport : k.port = port) (hhs : k.hs = some hs) (hhello : hs.hello = some (h, g))
    (ht : t = s.setSession session { k with partner := some (s.partnerOf hs h g "KX-KMT-1"), hs := none }) :
    execFinish port session sig s = .next (if Config.ecdsaVerify h.pubKey (s.transcript hs h) sig then
      (if t.lpState port = 2 then
        (t.showPartner port (s.partnerOf hs h g "KX-KMT-1")).onPort port fun x =>
          { x with partner := some (s.partnerOf hs h g "KX-KMT-1") }
        else t)
      else (s.loseSession session).hsFail port true) := by
  subst ht
  simp only [execFinish, if_neg hmode, hses, if_pos hport, hhs, hhello]
  split <;> rfl

end Finish

theorem execHandshakeTimeout_authenticating {s : State} {port : Nat} (hst : s.lpState port = 2) :
    execHandshakeTimeout port s = .next
      (((s.lnk.kmt.filter fun e => e.2.port == port && e.2.partner.isNone).foldl (fun s e => s.loseSession e.1) s).hsFail
        port true) :=
  if_pos hst

theorem execHandshakeRetry_waiting {s : State} {port : Nat} (hst : s.lpState port = 1)
    (hwait : (s.port port).waiting = true) : execHandshakeRetry port s = .next (s.startAuth port) :=
  if_pos ⟨hst, hwait⟩

/-- Settles O27, command by command; for a HELLO, by whether an admission rule matches the partner. -/
theorem linkUpCompletes : Obligations.LinkUpCompletes := by
  unfold Obligations.LinkUpCompletes
  refine ⟨?pmdUp, fun _ _ => rfl, ?helloScheduled, ?helloEthernet, ?finishScheduled, ?finishSession, ?timeout, ?retry⟩
  case pmdUp => exact fun port s hst hport href => execPmdUp_down hst hport href
  case helloScheduled =>
    intro port h s k hmode hst hhs hnew
    cases hrules : s.rulesFor port h with
    | nil => exact execHello_scheduled_noRule hmode hst hhs hnew hrules
    | cons g rest => exact execHello_scheduled_rule hmode hst hhs hnew hrules
  case helloEthernet =>
    intro port h s hmode hst hroom
    cases hrules : s.rulesFor port h with
    | nil => exact execHello_ethernet_noRule hmode hst hroom hrules
    | cons g rest => exact execHello_ethernet_rule hmode hst hroom hrules rfl rfl
  case finishScheduled => exact fun port session sig s k h g hmode hst hhs hhello => execFinish_scheduled hmode hst hhs hhello
  case finishSession =>
    exact fun port session sig s k hs h g t hmode hses hport hhs hhello ht =>
      execFinish_session hmode hses hport hhs hhello ht
  case timeout => exact fun port s hst => execHandshakeTimeout_authenticating hst
  case retry => exact fun port s hst hwait => execHandshakeRetry_waiting hst hwait

end Sys2Proof.Machine
end

section
/-! SUPPORT. Contributions to the accumulators, the NaN of the IEEE operations, and the operations of the vector unit. -/

namespace Sys2Proof.Machine

/-! ### Contributions to an accumulator (R53, R57, R58) -/

theorem contribution_nar {f : ArrFmt} {x w : Nat} (h : x = f.nar ∨ w = f.nar) : contribution f x w = ⟨0, true, false⟩ :=
  if_pos h

theorem contribution_not_nar {f : ArrFmt} {x w : Nat} (hx : x ≠ f.nar) (hw : w ≠ f.nar) :
    contribution f x w = ⟨product f x w, false, false⟩ :=
  if_neg (not_or.mpr ⟨hx, hw⟩)

/-- A contribution of 0 cannot saturate, so only its poison bit is left of it. -/
theorem Acc.combine_zero {f : AccFmt} {a : Acc} (h : AccOk f a) (p : Bool) :
    a.combine f ⟨0, p, false⟩ = { a with poison := a.poison || p } := by
  obtain ⟨hlo, hhi⟩ := h
  cases hovf : a.ovf with
  | true => simp only [combine, hovf, if_true]
  | false =>
    have hmax : ¬ ((2 ^ (accWidth f - 1) : Nat) : Int) - 1 < a.val := by omega
    have hmin : ¬ a.val < -((2 ^ (accWidth f - 1) : Nat) : Int) := by omega
    simp only [combine, hovf, add_zero, if_neg hmax, if_neg hmin, Bool.false_eq_true, if_false]

theorem product_of_zero {f : ArrFmt} {x w : Nat} (h : x = 0 ∨ w = 0) : product f x w = 0 := by
  cases f with
  | i8 =>
    have hzero : i8Value 0 = 0 := rfl
    obtain rfl | rfl := h <;> simp only [product, hzero, zero_mul, mul_zero]
  | l8 => exact if_pos (h.imp (by rintro rfl; rfl) (by rintro rfl; rfl))
  | l16 => exact if_pos (h.imp (by rintro rfl; rfl) (by rintro rfl; rfl))

/-- Settles O58: both contributions have the value 0, and one of value 0 leaves only its poison bit. -/
theorem naRContributesPoisonOnly : Obligations.NaRContributesPoisonOnly := by
  unfold Obligations.NaRContributesPoisonOnly
  constructor
  · intro f a x w ha hnar
    rw [Acc.mac, contribution_nar hnar, Acc.combine_zero ha, Bool.or_true]
  · intro f a x w ha hx hw hzero
    have hprod := product_of_zero (f := f) hzero
    refine ⟨hprod, ?_⟩
    rw [Acc.mac, contribution_not_nar hx hw, hprod, Acc.combine_zero ha, Bool.or_false]

/-! ### The NaN of the IEEE operations (R67) -/

/-- A result is a number, an infinity or the canonical NaN: one whose bits but the sign exceed those of infinity is the
canonical NaN. -/
def CanonNaN (f : IeeeFmt) (r : IRes) : Prop := f.infBits < r.1 % f.signW → r.1 = f.nan

theorem infBits_add_two_pow (f : IeeeFmt) : f.infBits + 2 ^ f.mb = f.signW := by
  rw [IeeeFmt.infBits, IeeeFmt.signW, pow_add, ← Nat.succ_mul, Nat.succ_eq_add_one, Nat.sub_add_cancel Nat.one_le_two_pow]

theorem infBits_lt_signW (f : IeeeFmt) : f.infBits < f.signW :=
  infBits_add_two_pow f ▸ Nat.lt_add_of_pos_right (Nat.two_pow_pos _)

theorem signBits_add_mod (f : IeeeFmt) (neg : Bool) (k : Nat) : (signBits f neg + k) % f.signW = k % f.signW := by
  cases neg with
  | true => exact Nat.add_mod_left ..
  | false => exact congrArg (· % f.signW) (Nat.zero_add k)

theorem canonNaN_nan {f : IeeeFmt} {fl : IFlags} : CanonNaN f (f.nan, fl) := fun _ => rfl

theorem canonNaN_nanOf {f : IeeeFmt} {xs : List IVal} : CanonNaN f (nanOf f xs) := canonNaN_nan

theorem canonNaN_invalid {f : IeeeFmt} : CanonNaN f (invalid f) := canonNaN_nan

/-- A sign with bits up to those of infinity is no NaN. -/
theorem canonNaN_signed {f : IeeeFmt} {neg : Bool} {k : Nat} {fl : IFlags} (hk : k ≤ f.infBits) :
    CanonNaN f (signBits f neg + k, fl) := by
  intro hnan
  rw [signBits_add_mod, Nat.mod_eq_of_lt (hk.trans_lt (infBits_lt_signW f))] at hnan
  exact absurd hk (Nat.not_le.mpr hnan)

theorem canonNaN_inf {f : IeeeFmt} {neg : Bool} {fl : IFlags} : CanonNaN f (signBits f neg + f.infBits, fl) :=
  canonNaN_signed le_rfl

theorem canonNaN_posInf {f : IeeeFmt} {fl : IFlags} : CanonNaN f (f.infBits, fl) :=
  fun hnan => absurd hnan (Nat.not_lt.mpr (Nat.mod_le ..))

theorem canonNaN_zero {f : IeeeFmt} {neg : Bool} {fl : IFlags} : CanonNaN f (signBits f neg, fl) :=
  canonNaN_signed (k := 0) (Nat.zero_le _)

theorem canonNaN_ite {f : IeeeFmt} {c : Prop} [Decidable c] {a b : IRes} (ha : CanonNaN f a) (hb : CanonNaN f b) :
    CanonNaN f (if c then a else b) := by
  split <;> assumption

/-! ### Rounding -/

/-- A value below 2^b quanta rounds to 2^b of them at most. -/
theorem roundAt_le {tz sticky : Bool} {n b : Nat} {e q : Int} (h : n < 2 ^ (b + (q - e).toNat)) :
    (roundAt tz sticky n e q).1 ≤ 2 ^ b := by
  have hdiv : n / 2 ^ (q - e).toNat < 2 ^ b := Nat.div_lt_of_lt_mul (by rwa [Nat.mul_comm, ← pow_add])
  unfold roundAt
  dsimp only
  split
  · exact hdiv
  · exact hdiv.le

/-- A quantum that leaves `b` bits of `n`, or a larger one, rounds `n` to 2^b quanta at most. -/
theorem roundAt_le_of_quantum {tz sticky : Bool} {n b : Nat} {e q : Int} (hq : e + (n.log2 + 1 : Int) - b ≤ q) :
    (roundAt tz sticky n e q).1 ≤ 2 ^ b :=
  roundAt_le (Nat.lt_log2_self.trans_le (Nat.pow_le_pow_right (by decide) (by omega)))

/-- Bits of a significand `m` in the finite range: below infinity where the biased exponent is. -/
theorem finiteBits_le {f : IeeeFmt} {m ex : Nat} (hm : m < 2 ^ (f.mb + 1)) (hsub : ex = 0 → m < 2 ^ f.mb)
    (hex : ex < 2 ^ f.eb - 1) : (if ex = 0 then m else (ex - 1) * 2 ^ f.mb + m) ≤ f.infBits := by
  have hrange : (ex + 1) * 2 ^ f.mb ≤ f.infBits := Nat.mul_le_mul_right _ hex
  rw [pow_succ] at hm
  cases ex with
  | zero =>
    have hm0 := hsub rfl
    rw [if_pos rfl]
    omega
  | succ k =>
    rw [if_neg k.succ_ne_zero, Nat.add_sub_cancel]
    simp only [Nat.add_mul] at hrange
    omega

/-- The carry of a rounding up leaves a significand that fits, at a quantum no smaller. -/
theorem carry_fits {b m : Nat} {q : Int} (hm : m ≤ 2 ^ (b + 1)) :
    (if 2 ^ (b + 1) ≤ m then (m / 2, q + 1) else (m, q)).1 < 2 ^ (b + 1) ∧
      q ≤ (if 2 ^ (b + 1) ≤ m then (m / 2, q + 1) else (m, q)).2 := by
  have hpos := Nat.two_pow_pos (b + 1)
  split <;> dsimp only <;> omega

/-- Rounding gives a number or an infinity. -/
theorem canonNaN_roundTo {f : IeeeFmt} {tz neg sticky : Bool} {n : Nat} {e : Int} :
    CanonNaN f (roundTo f tz neg sticky n e) := by
  unfold roundTo
  refine canonNaN_ite canonNaN_zero ?_
  extract_lets _ n' e' len qn q
  have hqn : qn ≤ q := by dsimp only [q]; split <;> omega
  have hqmin : f.qmin ≤ q := by dsimp only [q]; split <;> omega
  have hm : (roundAt tz sticky n' e' q).1 ≤ 2 ^ (f.mb + 1) := roundAt_le_of_quantum (by omega)
  generalize roundAt tz sticky n' e' q = mx at hm ⊢
  obtain ⟨m, nx⟩ := mx
  obtain ⟨hfit, hquantum⟩ := carry_fits (q := q) hm
  dsimp only at hfit hquantum ⊢
  generalize (if 2 ^ (f.mb + 1) ≤ m then (m / 2, q + 1) else (m, q)) = mq at hfit hquantum ⊢
  generalize hexp : (if mq.1 < 2 ^ f.mb then 0 else (mq.2 - f.qmin + 1).toNat) = ex
  have hsub : ex = 0 → mq.1 < 2 ^ f.mb := by split at hexp <;> omega
  by_cases hinf : 2 ^ f.eb - 1 ≤ ex
  · rw [if_pos hinf]
    exact canonNaN_signed (by split <;> omega)
  · rw [if_neg hinf]
    exact canonNaN_signed (finiteBits_le hfit hsub (Nat.lt_of_not_le hinf))

theorem canonNaN_addFin {f : IeeeFmt} {tz na nb : Bool} {a b : Nat} {ea eb : Int} :
    CanonNaN f (addFin f tz na a ea nb b eb) := by
  unfold addFin
  split
  · split
    · exact canonNaN_zero
    · exact canonNaN_zero (neg := false)
  · exact canonNaN_roundTo

/-- Bounds that agree on the rounding give a rounded value. -/
theorem canonNaN_roundEncl {f : IeeeFmt} {tz neg : Bool} {b : Encl} {e : Int} {r : IRes}
    (h : roundEncl f tz neg b e = some r) : CanonNaN f r := by
  unfold roundEncl at h
  dsimp only at h
  split at h
  · exact Option.some.inj h ▸ canonNaN_roundTo
  · cases h

theorem canonNaN_firstDecided {f : IeeeFmt} {g : Nat → Option IRes} {dflt : IRes}
    (hg : ∀ p r, g p = some r → CanonNaN f r) (hdflt : CanonNaN f dflt) (ps : List Nat) :
    CanonNaN f (firstDecided g dflt ps) := by
  induction ps with
  | nil => exact hdflt
  | cons p ps ih =>
    unfold firstDecided
    cases hp : g p with
    | none => exact ih
    | some r => exact hg p r hp

/-! ### The operations (Table 7-15) -/

section Operations

variable {f : IeeeFmt} {tz : Bool}

theorem canonNaN_ieeeAdd (a b : IVal) : CanonNaN f (ieeeAdd f tz a b) := by
  unfold ieeeAdd
  split
  · exact canonNaN_nanOf
  · exact canonNaN_nanOf
  · exact canonNaN_ite canonNaN_inf canonNaN_invalid
  · exact canonNaN_inf
  · exact canonNaN_inf
  · exact canonNaN_addFin

theorem canonNaN_ieeeMul (a b : IVal) : CanonNaN f (ieeeMul f tz a b) := by
  unfold ieeeMul
  split
  · exact canonNaN_nanOf
  · exact canonNaN_nanOf
  · exact canonNaN_inf
  · exact canonNaN_ite canonNaN_invalid canonNaN_inf
  · exact canonNaN_ite canonNaN_invalid canonNaN_inf
  · exact canonNaN_roundTo

theorem canonNaN_ieeeFma (a b c : IVal) : CanonNaN f (ieeeFma f tz a b c) := by
  unfold ieeeFma
  refine canonNaN_ite canonNaN_nanOf (canonNaN_ite canonNaN_nan (canonNaN_ite canonNaN_invalid ?_))
  split
  · exact canonNaN_addFin
  · split
    · exact canonNaN_inf
    · exact canonNaN_nan
  · extract_lets n
    split
    · exact canonNaN_ite canonNaN_inf canonNaN_invalid
    · exact canonNaN_inf

theorem canonNaN_ieeeDiv (a b : IVal) : CanonNaN f (ieeeDiv f tz a b) := by
  unfold ieeeDiv
  split
  · exact canonNaN_nanOf
  · exact canonNaN_nanOf
  · exact canonNaN_invalid
  · exact canonNaN_inf
  · exact canonNaN_zero
  · exact canonNaN_ite (canonNaN_ite canonNaN_invalid canonNaN_inf) canonNaN_roundTo

theorem canonNaN_ieeeSqrt (a : IVal) : CanonNaN f (ieeeSqrt f tz a) := by
  unfold ieeeSqrt
  split
  · exact canonNaN_nanOf
  · exact canonNaN_ite canonNaN_invalid canonNaN_posInf
  · exact canonNaN_ite canonNaN_zero (canonNaN_ite canonNaN_invalid canonNaN_roundTo)

theorem canonNaN_ieeeExp2 (a : IVal) : CanonNaN f (ieeeExp2 f tz a) := by
  unfold ieeeExp2
  split
  · exact canonNaN_nanOf
  · split
    · exact canonNaN_zero (neg := false)
    · exact canonNaN_posInf
  · refine canonNaN_ite canonNaN_roundTo (canonNaN_ite canonNaN_roundTo ?_)
    exact canonNaN_firstDecided (fun p r => canonNaN_roundEncl) canonNaN_roundTo _

theorem canonNaN_ieeeLog2 (a : IVal) : CanonNaN f (ieeeLog2 f tz a) := by
  unfold ieeeLog2
  split
  · exact canonNaN_nanOf
  · exact canonNaN_ite canonNaN_invalid canonNaN_posInf
  · refine canonNaN_ite canonNaN_inf (canonNaN_ite canonNaN_invalid (canonNaN_ite ?powerOfTwo ?between))
    case powerOfTwo => exact canonNaN_ite (canonNaN_zero (neg := false)) canonNaN_roundTo
    case between =>
      refine canonNaN_firstDecided (fun p r h => ?_) canonNaN_roundTo _
      dsimp only at h
      split at h <;> exact canonNaN_roundEncl h

theorem canonNaN_ieeeCvt (src : IeeeFmt) (w : Nat) : CanonNaN f (ieeeCvt src f tz w) := by
  unfold ieeeCvt
  split
  · exact canonNaN_nanOf
  · exact canonNaN_inf
  · exact canonNaN_roundTo

end Operations

/-- Settles O55: each result is a rounded value, an infinity, a zero or the canonical NaN, in every format. -/
theorem oneNaN : Obligations.OneNaN := by
  unfold Obligations.OneNaN
  refine ⟨by decide, fun f _ tz a b c w => ?_⟩
  simp only [List.forall_mem_cons]
  exact ⟨canonNaN_ieeeAdd a b, canonNaN_ieeeMul a b, canonNaN_ieeeFma a b c, canonNaN_ieeeDiv a b, canonNaN_ieeeSqrt a,
    canonNaN_ieeeExp2 a, canonNaN_ieeeLog2 a, canonNaN_ieeeCvt b32 w, canonNaN_ieeeCvt b16 w, List.forall_mem_nil _⟩

/-! ### Operations of the vector unit (R214, R255, R256) -/

/-- An operation that heads its queue and reads what is written has its effect. -/
theorem vecOp_of_go {bed opc : Nat} {o : UnitOp} {s : State} {r : Reads} {f : State → State} (h : VecGo bed opc o s r) :
    vecOp bed opc o s r f = .next (f s) := by
  obtain ⟨hready, hwritten⟩ := h
  simp only [vecOp, hready, hwritten, Bool.not_true, Bool.false_eq_true, if_false]

theorem lanewise_of_go {bed opc : Nat} {o : UnitOp} {s : State} {src : List Nat} {g : VecUnit → Nat → IRes}
    (h : VecGo bed opc o s ⟨src, [], [vPred o]⟩) : lanewise bed opc o s src g = .next (laneEffect bed o g s) :=
  vecOp_of_go h

/-- Settles O3: each is a lane-by-lane operation with the function of its row of Table 7-15. -/
theorem vectorArithmeticCompletes : Obligations.VectorArithmeticCompletes := by
  unfold Obligations.VectorArithmeticCompletes
  refine ⟨?vadd, ?vsub, ?vmul, ?vfma, ?vmin, ?vmax, ?vdiv, ?vsqrt, ?vexp2, ?vlog2, ?vcvt⟩
  all_goals exact fun bed o s hgo => lanewise_of_go hgo

/-- Settles O4: each has the effect of its meaning; the tree of VRED gives its result and flags as a pair. That VSEL with H 1
copies a whole element is the model's choice (log entry 144). -/
theorem vectorMovesComplete : Obligations.VectorMovesComplete := by
  unfold Obligations.VectorMovesComplete
  refine ⟨?vcmp, ?vsel, ?vred, ?vbcs, ?plog, ?flclr, ?sli, ?sget⟩
  case vred =>
    intro bed o s hgo
    refine ⟨_, _, ?effect, rfl⟩
    apply vecOp_of_go hgo
  all_goals
    intro bed o s hgo
    apply vecOp_of_go hgo

end Sys2Proof.Machine
end

section
/-! SUPPORT. The form of memory along every step, and what the operations of a cell store and of its banks do to
bytes. -/

namespace Sys2Proof.Machine

/-! ### The form of memory (R72, R336, R586) -/

/-- Every command keeps the queue, the order of the free values and the form of memory and flash, since its meaning does. An
operand that the meaning does not use is named, since its state does not fix it. -/
theorem exec_keeps {s0 s : State} (c : Instr) (h : Keeps s0 s) : OutKeeps s0 (exec c s) := by
  cases c with
  | registerWrite => exact execRegisterWrite_keeps h
  | d2dFlitReceive => exact execD2dFlitReceive_keeps h
  | d2dFlitTransmit => exact execD2dFlitTransmit_keeps h
  | d2dFlitRetransmit => exact execD2dFlitRetransmit_keeps h
  | d2dLaneFailover => exact execD2dLaneFailover_keeps h
  | d2dLaneDegrade => exact execD2dLaneDegrade_keeps h
  | d2dPortDown => exact execD2dPortDown_keeps h
  | d2dReroute => exact execD2dReroute_keeps h
  | lodgeBusFail => exact execLodgeBusFail_keeps h
  | referenceLost => exact execReferenceLost_keeps h
  | containedFault => exact execContainedFault_keeps h
  | sharedFaultEvent => exact execSharedFaultEvent_keeps h
  | laneStep => exact execLaneStep_keeps h
  | cellStoreBankAccess => exact execCellStoreBankAccess_keeps h
  | feederDeliver => exact execFeederDeliver_keeps h
  | drainRowAccept => exact execDrainRowAccept_keeps h
  | bedBusTransfer => exact execBedBusTransfer_keeps h
  | bedReset => exact execBedReset_keeps h
  | trlStage => exact execTrlStage_keeps h
  | trlStageCopyEnd => exact execTrlStageCopyEnd_keeps h
  | trlVerify => exact execTrlVerify_keeps h
  | trlVerifyDone => exact execTrlVerifyDone_keeps h
  | trlCommit => exact execTrlCommit_keeps h
  | trlPavCommitDone => exact execTrlPavCommitDone_keeps h
  | trlAbort => exact execTrlAbort_keeps h
  | digestRecomputeDone => exact execDigestRecomputeDone_keeps h
  | trlDigestCapture a => exact execTrlDigestCapture_keeps (x0 := a) h
  | trlAgdCapture a => exact execTrlAgdCapture_keeps (x0 := a) h
  | trlAgreeClear => exact execTrlAgreeClear_keeps h
  | beaconSend => exact execBeaconSend_keeps h
  | graceTimerExpire => exact execGraceTimerExpire_keeps h
  | orgRgnCommitGo => exact execOrgRgnCommitGo_keeps h
  | orgRgnCommitApply => exact execOrgRgnCommitApply_keeps h
  | smmuCtxCommitGo => exact execSmmuCtxCommitGo_keeps h
  | smmuCtxCommitApply => exact execSmmuCtxCommitApply_keeps h
  | wsCommitGo => exact execWsCommitGo_keeps h
  | wsCommitApply => exact execWsCommitApply_keeps h
  | wsOutCommitGo => exact execWsOutCommitGo_keeps h
  | wsOutCommitApply => exact execWsOutCommitApply_keeps h
  | cohBiasCommitGo => exact execCohBiasCommitGo_keeps h
  | cohBiasCommitApply => exact execCohBiasCommitApply_keeps h
  | pavProgCommitGo a => exact execPavProgCommitGo_keeps (x0 := a) h
  | pavProgCommitApply => exact execPavProgCommitApply_keeps h
  | programRegistrationDone => exact execProgramRegistrationDone_keeps h
  | pavQpCommitGo a => exact execPavQpCommitGo_keeps (x0 := a) h
  | pavQpCommitApply => exact execPavQpCommitApply_keeps h
  | wordIssue => exact execWordIssue_keeps h
  | prefetchWord => exact execPrefetchWord_keeps h
  | ctlRepeat => exact execCtlRepeat_keeps h
  | ctlLoop => exact execCtlLoop_keeps h
  | ctlBrp => exact execCtlBrp_keeps h
  | branchOutcome => exact execBranchOutcome_keeps h
  | ctlWait => exact execCtlWait_keeps h
  | ctlHalt => exact execCtlHalt_keeps h
  | pavilionHalted => exact execPavilionHalted_keeps h
  | ctlMark => exact execCtlMark_keeps h
  | markComplete => exact execMarkComplete_keeps h
  | ctlQuiet => exact execCtlQuiet_keeps h
  | quietClose => exact execQuietClose_keeps h
  | ctlPfh => exact execCtlPfh_keeps h
  | signalPart => exact execSignalPart_keeps h
  | replayRestore => exact execReplayRestore_keeps h
  | stlStateWrite => exact execStlStateWrite_keeps h
  | stlGroupWrite => exact execStlGroupWrite_keeps h
  | mmul => exact execMmul_keeps h
  | cvta => exact execCvta_keeps h
  | cvtm => exact execCvtm_keeps h
  | cvtSeed => exact execCvtSeed_keeps h
  | scld => exact execScld_keeps h
  | rsld => exact execRsld_keeps h
  | rsadd => exact execRsadd_keeps h
  | rsclr => exact execRsclr_keeps h
  | stex => exact execStex_keeps h
  | dld => exact execDld_keeps h
  | run => exact execRun_keeps h
  | streamRequestIssue => exact execStreamRequestIssue_keeps h
  | streamResponse => exact execStreamResponse_keeps h
  | burstDeliver => exact execBurstDeliver_keeps h
  | caravanBurstForward => exact execCaravanBurstForward_keeps h
  | caravanStopConfirm => exact execCaravanStopConfirm_keeps h
  | runComplete => exact execRunComplete_keeps h
  | contextStopped => exact execContextStopped_keeps h
  | moveRelease => exact execMoveRelease_keeps h
  | vadd => exact execVadd_keeps h
  | vsub => exact execVsub_keeps h
  | vmul => exact execVmul_keeps h
  | vfma => exact execVfma_keeps h
  | vmin => exact execVmin_keeps h
  | vmax => exact execVmax_keeps h
  | vdiv => exact execVdiv_keeps h
  | vsqrt => exact execVsqrt_keeps h
  | vexp2 => exact execVexp2_keeps h
  | vlog2 => exact execVlog2_keeps h
  | vcmp => exact execVcmp_keeps h
  | vsel => exact execVsel_keeps h
  | vred => exact execVred_keeps h
  | vbcs => exact execVbcs_keeps h
  | vcvt => exact execVcvt_keeps h
  | vld => exact execVld_keeps h
  | vst => exact execVst_keeps h
  | vrcv => exact execVrcv_keeps h
  | vbsnd => exact execVbsnd_keeps h
  | vbrcv => exact execVbrcv_keeps h
  | plog => exact execPlog_keeps h
  | flclr => exact execFlclr_keeps h
  | sli => exact execSli_keeps h
  | sget => exact execSget_keeps h
  | ordf => exact execOrdf_keeps h
  | endf => exact execEndf_keeps h
  | xchSignal => exact execXchSignal_keeps h
  | xchSet => exact execXchSet_keeps h
  | xchToken => exact execXchToken_keeps h
  | xchBind => exact execXchBind_keeps h
  | xchUnbind => exact execXchUnbind_keeps h
  | xchSend => exact execXchSend_keeps h
  | allred => exact execAllred_keeps h
  | rscat => exact execRscat_keeps h
  | agath => exact execAgath_keeps h
  | collectiveDone => exact execCollectiveDone_keeps h
  | fpol => exact execFpol_keeps h
  | homeAgentAccess => exact execHomeAgentAccess_keeps h
  | nextLinePrefetch => exact execNextLinePrefetch_keeps h
  | orgFlush => exact execOrgFlush_keeps h
  | orgFlushDone => exact execOrgFlushDone_keeps h
  | atomic => exact execAtomic_keeps h
  | blkadd => exact execBlkadd_keeps h
  | gddrAccess => exact execGddrAccess_keeps h
  | gddrTrackingRead => exact execGddrTrackingRead_keeps h
  | gddrRetrainDone => exact execGddrRetrainDone_keeps h
  | scrubGroup => exact execScrubGroup_keeps h
  | gdrPlotWrite => exact execGdrPlotWrite_keeps h
  | plotZeroFillDone => exact execPlotZeroFillDone_keeps h
  | translationWalk => exact execTranslationWalk_keeps h
  | smmuInvRange => exact execSmmuInvRange_keeps h
  | smmuInvTag => exact execSmmuInvTag_keeps h
  | smmuInvAll => exact execSmmuInvAll_keeps h
  | smmuInvTakeEffect => exact execSmmuInvTakeEffect_keeps h
  | smmuInvComplete => exact execSmmuInvComplete_keeps h
  | apertureAccess => exact execApertureAccess_keeps h
  | retryResend => exact execRetryResend_keeps h
  | commitStileApply => exact execCommitStileApply_keeps h
  | coreLoad => exact execCoreLoad_keeps h
  | coreStore => exact execCoreStore_keeps h
  | coreEviction => exact execCoreEviction_keeps h
  | readShared => exact execReadShared_keeps h
  | readOwn => exact execReadOwn_keeps h
  | upgrade => exact execUpgrade_keeps h
  | cleanEvict => exact execCleanEvict_keeps h
  | writeBack => exact execWriteBack_keeps h
  | snpShared => exact execSnpShared_keeps h
  | snpClean => exact execSnpClean_keeps h
  | snpOwn => exact execSnpOwn_keeps h
  | snpInv => exact execSnpInv_keeps h
  | backInvalidation => exact execBackInvalidation_keeps h
  | promote => exact execPromote_keeps h
  | snpQuery => exact execSnpQuery_keeps h
  | presenceRecord => exact execPresenceRecord_keeps h
  | endRecord => exact execEndRecord_keeps h
  | cohAck => exact execCohAck_keeps h
  | ackWb => exact execAckWb_keeps h
  | cohComplete => exact execCohComplete_keeps h
  | coherenceData dst la data => exact execCoherenceData_keeps (x2 := data) h
  | cohOoForce => exact execCohOoForce_keeps h
  | ownerOrderDrained => exact execOwnerOrderDrained_keeps h
  | biasRelease => exact execBiasRelease_keeps h
  | biasRecall => exact execBiasRecall_keeps h
  | biasDone => exact execBiasDone_keeps h
  | kxEfence => exact execKxEfence_keeps h
  | kxLclean => exact execKxLclean_keeps h
  | kxLflush => exact execKxLflush_keeps h
  | kxLzero => exact execKxLzero_keeps h
  | cboClean => exact execCboClean_keeps h
  | cboFlush => exact execCboFlush_keeps h
  | cboInval => exact execCboInval_keeps h
  | cboZero => exact execCboZero_keeps h
  | msiWrite => exact execMsiWrite_keeps h
  | kxsRegWrite => exact execKxsRegWrite_keeps h
  | kxsRegRead => exact execKxsRegRead_keeps h
  | kxsKeeper => exact execKxsKeeper_keeps h
  | srstWarmReboot a => exact execSrstWarmReboot_keeps (x0 := a) h
  | srstColdReboot a => exact execSrstColdReboot_keeps (x0 := a) h
  | pavReset a => exact execPavReset_keeps (x0 := a) h
  | pavResetDone => exact execPavResetDone_keeps h
  | pavRelease a => exact execPavRelease_keeps (x0 := a) h
  | pavFenceWrite => exact execPavFenceWrite_keeps h
  | sqEntryTake => exact execSqEntryTake_keeps h
  | sqDoorbell => exact execSqDoorbell_keeps h
  | cqHeadWrite => exact execCqHeadWrite_keeps h
  | pavQpTokenWrite => exact execPavQpTokenWrite_keeps h
  | pavEvecWrite => exact execPavEvecWrite_keeps h
  | pmdUp => exact execPmdUp_keeps h
  | pmdTrainingFail a => exact execPmdTrainingFail_keeps (x0 := a) h
  | hello => exact execHello_keeps h
  | finish => exact execFinish_keeps h
  | handshakeTimeout => exact execHandshakeTimeout_keeps h
  | handshakeRetry => exact execHandshakeRetry_keeps h
  | slpWrite => exact execSlpWrite_keeps h
  | slpRead => exact execSlpRead_keeps h
  | slpAtomic => exact execSlpAtomic_keeps h
  | slpToken => exact execSlpToken_keeps h
  | slpColl => exact execSlpColl_keeps h
  | slpAck => exact execSlpAck_keeps h
  | slpRdata => exact execSlpRdata_keeps h
  | slpRefuse => exact execSlpRefuse_keeps h
  | slpRetry => exact execSlpRetry_keeps h
  | slpBeacon => exact execSlpBeacon_keeps h
  | slpCredit => exact execSlpCredit_keeps h
  | lack => exact execLack_keeps h
  | lnak => exact execLnak_keeps h
  | linkIdle => exact execLinkIdle_keeps h
  | degrade => exact execDegrade_keeps h
  | failover => exact execFailover_keeps h
  | portFrameSend => exact execPortFrameSend_keeps h
  | lackTimer => exact execLackTimer_keeps h
  | creditReturnTimer => exact execCreditReturnTimer_keeps h
  | replayTimeout => exact execReplayTimeout_keeps h
  | idleTimer => exact execIdleTimer_keeps h
  | partnerAbsenceTimeout => exact execPartnerAbsenceTimeout_keeps h
  | creditTimeout => exact execCreditTimeout_keeps h
  | slowTimeout => exact execSlowTimeout_keeps h
  | lostHoldExpire => exact execLostHoldExpire_keeps h
  | fecDegrade => exact execFecDegrade_keeps h
  | unquar => exact execUnquar_keeps h
  | lpRetrain => exact execLpRetrain_keeps h
  | preset => exact execPreset_keeps h
  | portRetrainDone => exact execPortRetrainDone_keeps h
  | retrainTimeout => exact execRetrainTimeout_keeps h
  | endToEndTimeout => exact execEndToEndTimeout_keeps h
  | lpDevlostWrite => exact execLpDevlostWrite_keeps h
  | lpDevclrWrite => exact execLpDevclrWrite_keeps h
  | kmtAttach => exact execKmtAttach_keeps h
  | kmtSubmit => exact execKmtSubmit_keeps h
  | kmtCqAck => exact execKmtCqAck_keeps h
  | kmtWrite => exact execKmtWrite_keeps h
  | kmtRead => exact execKmtRead_keeps h
  | kmtRdata => exact execKmtRdata_keeps h
  | kmtToken => exact execKmtToken_keeps h
  | kmtAck => exact execKmtAck_keeps h
  | kmtRefuse => exact execKmtRefuse_keeps h
  | kmtKeepalive => exact execKmtKeepalive_keeps h
  | kmtClose => exact execKmtClose_keeps h
  | kmtRetransmitTimeout => exact execKmtRetransmitTimeout_keeps h
  | kmtAckTimer => exact execKmtAckTimer_keeps h
  | kmtKeepaliveTimer => exact execKmtKeepaliveTimer_keeps h
  | kmtSessionTimeout => exact execKmtSessionTimeout_keeps h
  | ibufParityError => exact execIbufParityError_keeps h
  | controlStateFault => exact execControlStateFault_keeps h
  | bedReplacement => exact execBedReplacement_keeps h
  | hangWindowExpire => exact execHangWindowExpire_keeps h
  | stallTimeout => exact execStallTimeout_keeps h
  | deviceLossDeclare => exact execDeviceLossDeclare_keeps h
  | keeperMismatch => exact execKeeperMismatch_keeps h
  | keeperSelftestDone => exact execKeeperSelftestDone_keeps h
  | keeperPeriodicSelftest => exact execKeeperPeriodicSelftest_keeps h
  | keeperWatchdogExpire => exact execKeeperWatchdogExpire_keeps h
  | keeperResume => exact execKeeperResume_keeps h
  | lodgeAlarm => exact execLodgeAlarm_keeps h
  | lodgeSummarySend => exact execLodgeSummarySend_keeps h
  | keeperAlarmEnqueue => exact execKeeperAlarmEnqueue_keeps h
  | alarmSummaryEnqueue => exact execAlarmSummaryEnqueue_keeps h
  | alarmSend => exact execAlarmSend_keeps h
  | alarmAck => exact execAlarmAck_keeps h
  | logRecord => exact execLogRecord_keeps h
  | traceRecord => exact execTraceRecord_keeps h
  | telemetryRead => exact execTelemetryRead_keeps h
  | governorTick => exact execGovernorTick_keeps h
  | paceRequestWrite => exact execPaceRequestWrite_keeps h
  | brakeLevelWrite => exact execBrakeLevelWrite_keeps h
  | regulatorAlert => exact execRegulatorAlert_keeps h
  | aclr => exact execAclr_keeps h
  | droopDetect => exact execDroopDetect_keeps h
  | droopEnd => exact execDroopEnd_keeps h
  | droopHoldEnd => exact execDroopHoldEnd_keeps h
  | sensorRead => exact execSensorRead_keeps h
  | thermalPaceStep => exact execThermalPaceStep_keeps h
  | upkeepGrant => exact execUpkeepGrant_keeps h
  | upkeepDeadline => exact execUpkeepDeadline_keeps h
  | spareSelftest => exact execSpareSelftest_keeps h
  | rotationRequest => exact execRotationRequest_keeps h
  | sysResetN => exact execSysResetN_keeps h
  | pwrGoodFall => exact execPwrGoodFall_keeps h
  | vauxOutOfRange => exact execVauxOutOfRange_keeps h
  | warmResetNFall => exact execWarmResetNFall_keeps h
  | warmResetNRise => exact execWarmResetNRise_keeps h
  | kprResetCold => exact execKprResetCold_keeps h
  | kprResetWarm => exact execKprResetWarm_keeps h
  | kprResetDie => exact execKprResetDie_keeps h
  | kprResetKeeper => exact execKprResetKeeper_keeps h
  | warmResetSequence => exact execWarmResetSequence_keeps h
  | dieReset => exact execDieReset_keeps h
  | coldBoot => exact execColdBoot_keeps h
  | uartRecovery => exact execUartRecovery_keeps h
  | kprMbxSubmit => exact execKprMbxSubmit_keeps h
  | reqInfo => exact execReqInfo_keeps h
  | reqWarmReset => exact execReqWarmReset_keeps h
  | reqColdReset => exact execReqColdReset_keeps h
  | reqDieReset => exact execReqDieReset_keeps h
  | reqKeeperReset => exact execReqKeeperReset_keeps h
  | reqAssignId => exact execReqAssignId_keeps h
  | reqEpochFloor => exact execReqEpochFloor_keeps h
  | reqFlashWrite => exact execReqFlashWrite_keeps h
  | reqFlashActivate => exact execReqFlashActivate_keeps h
  | reqSvnCommit => exact execReqSvnCommit_keeps h
  | reqDeviceLoss => exact execReqDeviceLoss_keeps h
  | reqSubscribe => exact execReqSubscribe_keeps h
  | reqDebugUnlock => exact execReqDebugUnlock_keeps h
  | spdmGetVersion => exact execSpdmGetVersion_keeps h
  | spdmGetCapabilities => exact execSpdmGetCapabilities_keeps h
  | spdmNegotiateAlgorithms => exact execSpdmNegotiateAlgorithms_keeps h
  | spdmGetDigests => exact execSpdmGetDigests_keeps h
  | spdmGetCertificate => exact execSpdmGetCertificate_keeps h
  | spdmChallenge => exact execSpdmChallenge_keeps h
  | spdmGetMeasurements => exact execSpdmGetMeasurements_keeps h
  | spdmKeyExchange => exact execSpdmKeyExchange_keeps h
  | spdmFinish => exact execSpdmFinish_keeps h
  | spdmHeartbeat => exact execSpdmHeartbeat_keeps h
  | spdmKeyUpdate => exact execSpdmKeyUpdate_keeps h
  | spdmEndSession => exact execSpdmEndSession_keeps h
  | jtagBypass => exact execJtagBypass_keeps h
  | jtagIdcode => exact execJtagIdcode_keeps h
  | jtagSamplePreload => exact execJtagSamplePreload_keeps h
  | jtagExtest => exact execJtagExtest_keeps h
  | jtagClamp => exact execJtagClamp_keeps h
  | jtagHighz => exact execJtagHighz_keeps h
  | jtagDtmcs => exact execJtagDtmcs_keeps h
  | jtagDmi => exact execJtagDmi_keeps h
  | smbAlertN => exact execSmbAlertN_keeps h
  | mtimecmpExpire => exact execMtimecmpExpire_keeps h
  | arpRequest => exact execArpRequest_keeps h
  | neighbourSolicitation => exact execNeighbourSolicitation_keeps h

theorem step_of_command {s : State} {c : Instr} {rest : List Instr} (h : s.pending = c :: rest) :
    step s = exec c { s with pending := rest } := by
  rw [step, h]

/-- A step keeps the form of memory and flash, whether it is a tick or takes a command from the queue. -/
theorem step_memOk {s t : State} (hs : s.MemOk) (ht : step s = .next t) : t.MemOk := by
  cases hq : s.pending with
  | nil =>
    rw [step_of_no_command hq] at ht
    cases ht
    exact (State.tick_keeps (.refl s)).memOk hs
  | cons c rest =>
    have hkeeps := exec_keeps c (.refl { s with pending := rest })
    rw [← step_of_command hq, ht] at hkeeps
    exact hkeeps.memOk hs

/-- Settles O50: neither lists a byte. -/
theorem resetKeepsTheMemoryForm : Obligations.ResetKeepsTheMemoryForm := by
  unfold Obligations.ResetKeepsTheMemoryForm
  exact ⟨rfl, rfl⟩

/-- Settles O51: the canonical form, the representation of the model (log entry 9), is part of what every command and the
tick keep. -/
theorem everyStepKeepsTheMemoryForm : Obligations.EveryStepKeepsTheMemoryForm := by
  unfold Obligations.EveryStepKeepsTheMemoryForm
  exact fun s t => step_memOk

/-! ### Bytes of a cell store (R37, R72, R229) -/

theorem offset_lt_cellSize (off : Nat) : off % cellSize < cellSize := Nat.mod_lt _ (by decide)

theorem cellAddr_eq_base_add (c off : Nat) : cellAddr c off = cellAddr c 0 + off % cellSize := by
  rw [cellAddr, cellAddr, Nat.zero_mod, Nat.add_zero]

theorem cellAddr_add_of_lt {c off k : Nat} (h : off % cellSize + k < cellSize) :
    cellAddr c (off + k) = cellAddr c off + k := by
  have hmod : (off + k) % cellSize = off % cellSize + k := by rw [← Nat.mod_add_mod, Nat.mod_eq_of_lt h]
  rw [cellAddr, cellAddr, hmod, Nat.add_assoc _ (off % cellSize) k]

theorem cellAddr_add_of_ge {c off k : Nat} (hk : k < cellSize) (h : cellSize ≤ off % cellSize + k) :
    cellAddr c (off + k) = cellAddr c 0 + (k - (cellSize - off % cellSize)) := by
  have hoff := offset_lt_cellSize off
  have hmod : (off + k) % cellSize = off % cellSize + k - cellSize := by
    rw [← Nat.mod_add_mod, Nat.mod_eq_sub_mod h, Nat.mod_eq_of_lt (by omega)]
  rw [cellAddr_eq_base_add, hmod]
  omega

/-- A write that wraps is one up to the end of the store and one from its beginning. -/
theorem State.cellStore_mem (s : State) (c off : Nat) (bs : List Byte) :
    (s.cellStore c off bs).mem =
      memWrite (memWrite s.mem (cellAddr c off) (bs.take (cellSize - off % cellSize))) (cellAddr c 0)
        (bs.drop (cellSize - off % cellSize)) := by
  have haddr : cellAddr c (off % cellSize) = cellAddr c off := by rw [cellAddr, cellAddr, Nat.mod_mod]
  simp only [State.cellStore, haddr]
  split
  case isTrue => rfl
  case isFalse h =>
    rw [List.drop_eq_nil_of_le (Nat.le_of_not_lt h)]
    rfl

/-- A byte of memory after a write into a cell store: one of the part at the beginning of the store, one of the part up to its
end, or as it was. -/
theorem State.memGet_cellStore {s : State} (hs : s.MemOk) (c off : Nat) (bs : List Byte) (x : Nat) :
    memGet (s.cellStore c off bs).mem x =
      if cellAddr c 0 ≤ x ∧ x < cellAddr c 0 + (bs.length - (cellSize - off % cellSize)) then
        (bs.drop (cellSize - off % cellSize)).getD (x - cellAddr c 0) 0
      else if cellAddr c off ≤ x ∧ x < cellAddr c off + min (cellSize - off % cellSize) bs.length then
        (bs.take (cellSize - off % cellSize)).getD (x - cellAddr c off) 0
      else memGet s.mem x := by
  rw [State.cellStore_mem, memGet_memWrite _ _ _ (wf_memWrite _ _ hs.1), memGet_memWrite _ _ _ hs.1, List.length_drop,
    List.length_take]

theorem State.memGet_cellStore_written {s : State} (hs : s.MemOk) (c off : Nat) {bs : List Byte} {k : Nat}
    (hlen : bs.length ≤ cellSize) (hk : k < bs.length) :
    memGet (s.cellStore c off bs).mem (cellAddr c (off + k)) = bs.getD k 0 := by
  have hoff := offset_lt_cellSize off
  have hbase := cellAddr_eq_base_add c off
  rw [State.memGet_cellStore hs]
  by_cases hwrap : off % cellSize + k < cellSize
  · rw [cellAddr_add_of_lt hwrap, if_neg (by omega), if_pos (by omega), Nat.add_sub_cancel_left]
    simp only [List.getD_eq_getElem?_getD, List.getElem?_take, if_pos (show k < cellSize - off % cellSize by omega)]
  · rw [cellAddr_add_of_ge (by omega) (by omega), if_pos (by omega), Nat.add_sub_cancel_left]
    simp only [List.getD_eq_getElem?_getD, List.getElem?_drop,
      Nat.add_sub_cancel' (show cellSize - off % cellSize ≤ k by omega)]

theorem State.memGet_cellStore_of_ne {s : State} (hs : s.MemOk) {c off : Nat} {bs : List Byte} {x : Nat}
    (hx : ∀ k, k < bs.length → x ≠ cellAddr c (off + k)) (hlen : bs.length ≤ cellSize) :
    memGet (s.cellStore c off bs).mem x = memGet s.mem x := by
  have hoff := offset_lt_cellSize off
  rw [State.memGet_cellStore hs, if_neg, if_neg]
  · rintro ⟨hlo, hhi⟩
    refine hx (x - cellAddr c off) (by omega) ?_
    rw [cellAddr_add_of_lt (by omega)]
    omega
  · rintro ⟨hlo, hhi⟩
    refine hx (x - cellAddr c 0 + (cellSize - off % cellSize)) (by omega) ?_
    rw [cellAddr_add_of_ge (by omega) (by omega)]
    omega

/-! ### Banks of a cell store (R73, R74) -/

/-- Reading a word takes away or reports its error mark; the bytes held are already the corrected ones. -/
@[simp] theorem eccWord_mem (c w : Nat) (s : State) : (eccWord c w s).mem = s.mem := by
  unfold eccWord
  split <;> rfl

@[simp] theorem State.eccRead_mem (s : State) (c off n : Nat) : (s.eccRead c off n).2.mem = s.mem :=
  foldlP (fun t => t.mem = s.mem) rfl fun t w ht => (eccWord_mem c w t).trans ht

/-- The state in which a bank serves a request that it has taken from its queue. -/
def State.takeBankReq (s : State) (cell bank : Nat) (r : BankReq) : State :=
  { s with arr := { s.arr with banks := tset s.arr.banks (cell, bank) ((tget s.arr.banks (cell, bank) []).erase r) } }

@[simp] theorem State.takeBankReq_mem (s : State) (cell bank : Nat) (r : BankReq) :
    (s.takeBankReq cell bank r).mem = s.mem := rfl

section Bank

variable {s t : State} {cell bank : Nat} {r : BankReq}
  (hr : nextReq ((tget s.arr.banks (cell, bank) []).filter fun r => !s.bankHeld (cell / 8) r) = some r)

include hr

theorem exec_cellStoreBankAccess_of_write {off : Nat} {bs : List Byte} (hw : r.write = some (off, bs)) :
    exec (.cellStoreBankAccess cell bank) s = .next ((s.takeBankReq cell bank r).cellStore cell off bs) := by
  simp only [exec, execCellStoreBankAccess, hr, hw, State.takeBankReq]

theorem mem_exec_cellStoreBankAccess_of_read (hw : r.write = none)
    (ht : exec (.cellStoreBankAccess cell bank) s = .next t) : t.mem = s.mem := by
  simp only [exec, execCellStoreBankAccess, hr, hw] at ht
  cases ht
  rw [State.setCell_mem, State.eccRead_mem]

end Bank

/-- Settles O56: a write is one range of bytes, or two where it wraps at 4 MiB; a bank that serves a write request makes that
write, and the reading of a line leaves memory as it is. -/
theorem cellStoresChangeTheirBytes : Obligations.CellStoresChangeTheirBytes := by
  unfold Obligations.CellStoresChangeTheirBytes
  refine ⟨?written, ?others, ?bankWrite, ?bankRead⟩
  case written => exact fun s c off bs k hs hlen hk => State.memGet_cellStore_written hs c off hlen hk
  case others => exact fun s c off bs x hs hx hlen => State.memGet_cellStore_of_ne hs hx hlen
  case bankWrite =>
    intro s cell bank r off bs x t hs hr hw hlen ht hx
    rw [exec_cellStoreBankAccess_of_write hr hw] at ht
    cases ht
    have hs' : (s.takeBankReq cell bank r).MemOk := hs
    rw [State.memGet_cellStore_of_ne hs' hx hlen, State.takeBankReq_mem]
  case bankRead =>
    intro s cell bank r x t hr hw ht
    rw [mem_exec_cellStoreBankAccess_of_read hr hw ht]

end Sys2Proof.Machine
end

section
/-! SUPPORT. Commits of shadows, programs and queue pairs, link frames, and the Trellis load with its digests and
agreement entries. -/

namespace Sys2Proof.Machine

/-! ### Requests of commits (R166, R167) -/

section CommitGo

variable {a : Actor} {s : State}

theorem execOrgRgnCommitGo_machine (h : machineActor a = true) :
    execOrgRgnCommitGo a s = .next ({ s with org := { s.org with rgnDone := [] } }.commitGo .orgRgnCommit 0) := by
  simp [execOrgRgnCommitGo, h]

theorem execOrgRgnCommitGo_other (h : machineActor a = false) : execOrgRgnCommitGo a s = .next s.refuse := by
  simp [execOrgRgnCommitGo, h]

theorem execCohBiasCommitGo_machine (h : machineActor a = true) :
    execCohBiasCommitGo a s = .next (s.commitGo .cohBiasCommit 0) := by
  simp [execCohBiasCommitGo, h]

theorem execCohBiasCommitGo_other (h : machineActor a = false) : execCohBiasCommitGo a s = .next s.refuse := by
  simp [execCohBiasCommitGo, h]

/-- A request that the Keeper or a hart in machine mode makes is taken. -/
theorem next_ite_machine {t : State} (h : machineActor a = true) :
    (.next (if machineActor a then t else s.refuse) : Out) = .next t :=
  congrArg _ (if_pos h)

/-- A request that anyone else makes is refused. -/
theorem next_ite_other {t : State} (h : machineActor a = false) :
    (.next (if machineActor a then t else s.refuse) : Out) = .next s.refuse :=
  congrArg _ (if_neg (Bool.eq_false_iff.mp h))

end CommitGo

/-- Settles O9: each commit by whether the Keeper or a hart in machine mode asks for it. -/
theorem commitRequestsComplete : Obligations.CommitRequestsComplete := by
  unfold Obligations.CommitRequestsComplete
  refine ⟨?regions, ?context, ?entries, ?slots, ?bias, ?refused⟩
  case regions => exact fun a s h => execOrgRgnCommitGo_machine h
  case context => exact fun a p s h => next_ite_machine h
  case entries => exact fun a s h => next_ite_machine h
  case slots => exact fun a s h => next_ite_machine h
  case bias => exact fun a s h => execCohBiasCommitGo_machine h
  case refused =>
    exact fun a p s h => ⟨execOrgRgnCommitGo_other h, next_ite_other h, next_ite_other h, next_ite_other h,
      execCohBiasCommitGo_other h⟩

/-! ### Commit points (R167 to R171) -/

section RegionCommit

variable {s : State} {die : Nat} (hdue : s.commitDue .orgRgnCommit 0 = true) (hnew : die ∉ s.org.rgnDone) (hdie : die < 8)

include hdue hnew hdie

/-- The regions take effect die by die, and the commit ends with the last one. -/
theorem execOrgRgnCommitApply_ok (hok : s.regionsOk = true) :
    execOrgRgnCommitApply die s = .next (if (List.range 8).all (s.takeRegions die).org.rgnDone.contains then
      (s.takeRegions die).commitEnd .orgRgnCommit 0 0 else s.takeRegions die) := by
  simp [execOrgRgnCommitApply, hdue, hnew, hdie, hok]

theorem execOrgRgnCommitApply_fails (hok : s.regionsOk = false) :
    execOrgRgnCommitApply die s = .next (s.commitEnd .orgRgnCommit 0 1) := by
  simp [execOrgRgnCommitApply, hdue, hnew, hdie, hok]

end RegionCommit

section ContextCommit

variable {s : State} {p : Nat} (hdue : s.commitDue .smmuCtxCommit p = true) (hquiet : s.pavQuiet p = true)

include hdue hquiet

/-- A context that passes takes effect; where its root or tag is another, what the caches hold of it is dropped. -/
theorem execSmmuCtxCommitApply_ok (hok : s.ctxOk p = true) :
    execSmmuCtxCommitApply p s = .next ((if (s.takeCtx p).reg .smmuCtxRoot p 0 = s.reg .smmuCtxRoot p 0 ∧
        (s.takeCtx p).reg .smmuCtxTag p 0 = s.reg .smmuCtxTag p 0 then s.takeCtx p
      else (s.takeCtx p).dropTag (some (s.ctxAst p))).commitEnd .smmuCtxCommit p 0) := by
  simp [execSmmuCtxCommitApply, hdue, hquiet, hok]

theorem execSmmuCtxCommitApply_fails (hok : s.ctxOk p = false) :
    execSmmuCtxCommitApply p s = .next (s.commitEnd .smmuCtxCommit p 1) := by
  simp [execSmmuCtxCommitApply, hdue, hquiet, hok]

end ContextCommit

section

variable {s : State}

/-- Waystation entries that pass take effect in one event, and their sections in force drift. -/
theorem execWsCommitApply_ok (hdue : s.commitDue .wsCommit 0 = true) (hok : s.wsCommitOk = true) :
    execWsCommitApply s = .next (((s.ws.trellis.filter fun e => s.wsChanged.contains e.1).foldl (fun t e => t.drift 8 e.2)
      (s.wsChanged.foldl (fun t w => t.wsInstall w (s.wsShadow w)) s)).commitEnd .wsCommit 0 0) := by
  simp [execWsCommitApply, hdue, hok]

theorem execWsCommitApply_fails (hdue : s.commitDue .wsCommit 0 = true) (hok : s.wsCommitOk = false) :
    execWsCommitApply s = .next (s.commitEnd .wsCommit 0 1) := by
  simp [execWsCommitApply, hdue, hok]

theorem execWsOutCommitApply_due (hdue : s.commitDue .wsOutCommit 0 = true) :
    execWsOutCommitApply s = .next ((s.wsOutSlots.foldl State.takeWsOut s).commitEnd .wsOutCommit 0 0) := by
  simp [execWsOutCommitApply, hdue]

/-- The end of the bias commit: the range of the shadows if it passes, the range in force if not. -/
theorem execCohBiasCommitApply_due {t : State} (hdue : s.commitDue .cohBiasCommit 0 = true)
    (hbusy : s.flag F.cohBiasCtl_BUSY 0 0 = false)
    (ht : t = (if s.biasRangeOk then
      ((s.commitField F.cohBiasBase_BASE 0 0 0 0).commitField F.cohBiasSize_LOG2 0 0 0 0).commitEnd .cohBiasCommit 0 0
      else s.commitEnd .cohBiasCommit 0 1)) :
    execCohBiasCommitApply s =
      .next (if t.coh.biasGo then { t with coh := { t.coh with biasGo := false } }.biasStart else t) := by
  subst ht
  simp [execCohBiasCommitApply, hdue, hbusy]

end

/-- Settles O10, commit by commit, by whether its check passes. That a waiting bias command also starts where the check
of the range fails, on the range in force, is the model's choice (log entry 111). -/
theorem commitsApply : Obligations.CommitsApply := by
  unfold Obligations.CommitsApply
  refine ⟨?regions, ?context, ?entries, ?slots, ?bias⟩
  case regions =>
    exact fun die s hdue hnew hdie =>
      ⟨execOrgRgnCommitApply_ok hdue hnew hdie, execOrgRgnCommitApply_fails hdue hnew hdie⟩
  case context =>
    exact fun p s hdue hquiet => ⟨execSmmuCtxCommitApply_ok hdue hquiet, execSmmuCtxCommitApply_fails hdue hquiet⟩
  case entries => exact fun s hdue => ⟨execWsCommitApply_ok hdue, execWsCommitApply_fails hdue⟩
  case slots => exact fun s hdue => execWsOutCommitApply_due hdue
  case bias => exact fun s t hdue hbusy ht => execCohBiasCommitApply_due hdue hbusy ht

/-! ### Programs and queue pairs (R175, R446, R447) -/

/-- Outside steps 1 to 6 of a warm reset a write to a pavilion page acts. -/
theorem State.pageWrite_of_warmOff {s : State} (h : s.sys.warmOn = false) (f : State → State) : s.pageWrite f = f s :=
  if_neg (Bool.eq_false_iff.mp h)

section Programs

variable {s : State} {p : Nat}

theorem execPavProgCommitApply_fits (hdue : s.commitDue .pavProgCommit p = true) (hquiet : s.pavQuiet p = true)
    (hlen : s.rdShadow F.pavProgLen_LEN p 0 ≤ 2 ^ 24) :
    execPavProgCommitApply p s = .next ((((((s.commitField F.pavProgBase_BASE p 0 p 0).commitField F.pavProgLen_LEN p 0 p
      0).commitEnd .pavProgCommit p 0).wr F.pavStatus_PROG_BUSY p 0 1)).clearBuffers p) := by
  simp only [execPavProgCommitApply, hdue, hquiet, if_neg (Nat.not_lt.mpr hlen), Bool.not_true, Bool.or_self,
    Bool.false_eq_true, if_false]

/-- The registration of a program that can be read whole stores its digest. -/
theorem execProgramRegistrationDone_readable {bs : List (Option Byte)} {t : State}
    (hbusy : s.flag F.pavStatus_PROG_BUSY p 0 = true) (hlen : s.progLen p ≠ 0) (hread : s.programBytes p = .ok bs t)
    (hall : allReadable bs = true) :
    execProgramRegistrationDone p s =
      .next ((t.setPav p { t.pav p with digest := Config.sha384 (plain bs) }).registered p) := by
  simp [execProgramRegistrationDone, hbusy, hlen, hread, hall]

/-- Changed queue pairs that pass their check are installed together. -/
theorem execPavQpCommitApply_ok (hdue : s.commitDue .pavQpCommit p = true)
    (hok : ∀ q < 16, s.qpChanged p q = true → s.qpOk p q = true) :
    execPavQpCommitApply p s = .next ((((List.range 16).filter (s.qpChanged p)).foldl (fun s q => s.qpInstall p q)
      s).commitEnd .pavQpCommit p 0) := by
  have hall : ((List.range 16).filter (s.qpChanged p)).all (s.qpOk p) = true := by
    simp only [List.all_eq_true, List.mem_filter, List.mem_range]
    exact fun q ⟨hq, hch⟩ => hok q hq hch
  simp [execPavQpCommitApply, hdue, hall]

end Programs

/-- Settles O23: a request by `State.pageWrite_of_warmOff`, each commit and the registration by its own lemma. -/
theorem programsRegister : Obligations.ProgramsRegister := by
  unfold Obligations.ProgramsRegister
  refine ⟨?progGo, ?progApply, ?registration, ?qpGo, ?qpApply⟩
  case progGo => exact fun a p s hwarm => congrArg _ (State.pageWrite_of_warmOff hwarm _)
  case progApply => exact fun p s hdue hquiet hlen => execPavProgCommitApply_fits hdue hquiet hlen
  case registration =>
    exact fun p s bs t hbusy hlen hread hall => execProgramRegistrationDone_readable hbusy hlen hread hall
  case qpGo => exact fun a p s hwarm => congrArg _ (State.pageWrite_of_warmOff hwarm _)
  case qpApply => exact fun p s hdue hok => execPavQpCommitApply_ok hdue hok

/-! ### Link frames (R472, R478 to R482) -/

/-- A link frame that passes its checks is acted on in the state that the checks leave. -/
theorem State.linkIn_of_pass {s t : State} {port typ : Nat} {f : SlpFrame} (h : s.linkGate port typ f = (t, true))
    (go : State → State) : s.linkIn port typ f go = .next (go t) := by
  rw [State.linkIn, h]
  rfl

/-- Settles O28: every link frame comes in through the same checks. That LACK and LNAK carry their LSEQ in the first 4 bytes
of the payload is the model's choice (log entry 68). -/
theorem linkFramesComplete : Obligations.LinkFramesComplete := by
  unfold Obligations.LinkFramesComplete
  refine ⟨?beacon, ?credit, ?lack, ?lnak, ?idle, ?degrade, ?failover⟩
  case beacon => exact fun port f s t h => State.linkIn_of_pass h fun s => s.beaconIn port f.payload
  case credit => exact fun port f s t h => State.linkIn_of_pass h fun s => s.creditIn port f.payload
  case lack => exact fun port f s t h => State.linkIn_of_pass h fun s => s.linkAcked port (beNat (f.payload.take 4))
  case lnak =>
    exact fun port f s t h =>
      State.linkIn_of_pass h fun s => (s.linkAcked port (beNat (f.payload.take 4))).resendAll port
  case idle => exact fun port f s t h => State.linkIn_of_pass h id
  case degrade => exact fun port f s t h => State.linkIn_of_pass h fun s => s.degradeIn port f.payload
  case failover => exact fun port f s t h => State.linkIn_of_pass h fun s => s.failoverIn port f.payload

/-! ### The Trellis load (R151 to R164, Table 5-6) -/

section Load

variable {s : State} {a : Actor} {w : BitVec 64}

section Write

variable (ha : machineActor a = true)

include ha

theorem State.trlWrite_stage (hw : w.toNat % 16 = 1)
    (hst : s.trlState = 0 ∨ s.trlState = 2 ∨ s.trlState = 4 ∨ s.trlState = 5) :
    s.trlWrite a w = s.trlStage := by
  simp [State.trlWrite, ha, hw, hst]

theorem State.trlWrite_verify (hw : w.toNat % 16 = 2) (hst : s.trlState = 2) : s.trlWrite a w = s.setTrl 3 := by
  simp [State.trlWrite, ha, hw, hst]

theorem State.trlWrite_commit {b : List Byte} (hw : w.toNat % 16 = 4) (hst : s.trlState = 4)
    (himg : s.trl.image = some b) : s.trlWrite a w = s.trlCommit b := by
  simp [State.trlWrite, ha, hw, hst, himg]

theorem State.trlWrite_abort (hw : w.toNat % 16 = 8)
    (hst : s.trlState = 2 ∨ s.trlState = 4 ∨ s.trlState = 5 ∨ s.trlState = 6) :
    s.trlWrite a w = s.dropImage.setTrl 0 := by
  simp [State.trlWrite, ha, hw, hst]

end Write

/-- A copy that can be read whole is the staged image. -/
theorem execTrlStageCopyEnd_readable {bs : List (Option Byte)} {t : State} (hst : s.trlState = 1)
    (hread : s.readAs .keeper true true s.trl.stage.1 s.trl.stage.2 = .done bs t) (hall : allReadable bs = true) :
    execTrlStageCopyEnd s = .next ({ t with trl := { t.trl with image := some (plain bs) } }.setTrl 2) := by
  simp [execTrlStageCopyEnd, hst, hread, hall]

theorem execTrlVerifyDone_verifying (hst : s.trlState = 3) (hkpr : s.keeperUp = true) :
    execTrlVerifyDone s = .next (if (s.verifyImage (s.trl.image.getD [])).1 = 0 then (s.trlReason 0).setTrl 4
      else s.trlFail (s.verifyImage (s.trl.image.getD []))) := by
  simp [execTrlVerifyDone, hst, hkpr]

/-- A pavilion image that still fits takes the place of its pavilion's sections. -/
theorem execTrlPavCommitDone_fits {b : List Byte} (himg : s.trl.image = some b) (hst : s.trlState = 7)
    (hkpr : s.keeperUp = true) (hfit : (s.fitCheck (imageSecs b) (s.afterImage b) false).1 = 0) :
    execTrlPavCommitDone s = .next (((s.commitPav b).dropImage.setTrl 0).lateFaults) := by
  simp [execTrlPavCommitDone, himg, hst, hkpr, hfit]

end Load

/-- Settles O34: the four commands by the rows of `State.trlWrite`, the ends of copy, verification and commit by their
states. -/
theorem trellisCommandsComplete : Obligations.TrellisCommandsComplete := by
  unfold Obligations.TrellisCommandsComplete
  refine ⟨?stage, ?verify, ?commit, ?abort, ?copyEnd, ?verifyDone, ?commitDone⟩
  case stage => exact fun a v s ha hw hst => congrArg _ (State.trlWrite_stage ha hw hst)
  case verify => exact fun a v s ha hw hst => congrArg _ (State.trlWrite_verify ha hw hst)
  case commit => exact fun a v s b ha hw hst himg => congrArg _ (State.trlWrite_commit ha hw hst himg)
  case abort => exact fun a v s ha hw hst => congrArg _ (State.trlWrite_abort ha hw hst)
  case copyEnd => exact fun s bs t hst hread hall => execTrlStageCopyEnd_readable hst hread hall
  case verifyDone => exact fun s hst hkpr => execTrlVerifyDone_verifying hst hkpr
  case commitDone => exact fun s b himg hst hkpr hfit => execTrlPavCommitDone_fits himg hst hkpr hfit

/-! ### Digests and agreement entries (R174 to R180, Table 5-9) -/

section Agreement

variable {s : State} {n i : Nat}

theorem execDigestRecomputeDone_due (h : s.flag F.trlStatus_DIGEST_BUSY 0 0 = true) :
    execDigestRecomputeDone s = .next (s.putDigests.wr F.trlStatus_DIGEST_BUSY 0 0 0) := by
  simp [execDigestRecomputeDone, h]

/-- A write of CLEAR (bit 3) takes a FENCED entry to UNAGREED and sends its beacon. -/
theorem State.agreeWrite_clear_fenced (h : s.rd F.trlAgree_STATE n i = 3) :
    s.agreeWrite n i 8 = (s.wr F.trlAgree_STATE n i 0).putBeacon n i := by
  have hclear : (8 : BitVec 64).toNat.testBit 3 = true := by decide
  exact if_pos (by rw [hclear, h]; rfl)

theorem execTrlAgreeClear_fenced {a : Actor} (ha : machineActor a = true) (h : s.rd F.trlAgree_STATE n i = 3) :
    execTrlAgreeClear a n i s = .next ((s.wr F.trlAgree_STATE n i 0).putBeacon n i) :=
  (next_ite_machine ha).trans (congrArg _ (State.agreeWrite_clear_fenced h))

theorem execBeaconSend_due (h : (n, i) ∈ s.lnk.beacons) :
    execBeaconSend n i s =
      .next ({ s with lnk := { s.lnk with beacons := s.lnk.beacons.erase (n, i) } }.putBeacon n i) :=
  congrArg _ (if_pos (List.contains_iff_mem.mpr h))

theorem execGraceTimerExpire_pending (h : s.rd F.trlAgree_STATE n i = 1) :
    execGraceTimerExpire n i s = .next (s.agreeFence n i) :=
  congrArg _ (if_pos h)

end Agreement

/-- Settles O35: a capture is not conditional, and the others act in the state that awaits them. That CLEAR is taken from the
Keeper and machine mode alike, beside the three writes of R156, is the model's choice (log entry 127). -/
theorem agreementCommandsComplete : Obligations.AgreementCommandsComplete := by
  unfold Obligations.AgreementCommandsComplete
  refine ⟨?recompute, fun _ _ => rfl, fun _ _ _ => rfl, ?clear, ?beacon, ?grace⟩
  case recompute => exact fun s h => execDigestRecomputeDone_due h
  case clear => exact fun a n i s ha h => execTrlAgreeClear_fenced ha h
  case beacon => exact fun n i s h => execBeaconSend_due h
  case grace => exact fun n i s h => execGraceTimerExpire_pending h

end Sys2Proof.Machine
end

section
/-! SUPPORT. Issue and the control slot, the exchange slot, the ends and restarts of pavilions, prefetch and QUIET windows, and
upkeep. -/

namespace Sys2Proof.Machine

/-! ### Issue and the control slot (R187 to R212) -/

section Control

variable {s : State} {p die : Nat}

/-- The dies of a pavilion follow from the owners of the beds. -/
@[simp] theorem State.setSlice_dies (d q : Nat) (x : SliceSt) : (s.setSlice p d x).dies q = s.dies q := rfl

/-- A usable word that its control operation permits and its queues have room for is issued. -/
theorem execWordIssue_issues {b : Byte} {bs : List Byte} (hword : s.sliceWord p die = some (b :: bs))
    (hfault : s.wordFault p (s.slice p die) (b :: bs) = none)
    (hpermits : (s.slice p die).permits (wordSlot (b :: bs) 0) = true)
    (hroom : s.placesFor (s.deliveries p die (s.slice p die) (b :: bs)) = true) :
    execWordIssue p die s = .next ((((((s.deliveries p die (s.slice p die) (b :: bs)).foldl State.enqueue s).enterXch p
      (s.slice p die) (wordSlot (b :: bs) 15)).setSlice p die
      ((s.slice p die).issue (wordSlot (b :: bs) 0) (wordSlot (b :: bs) 15))).wr F.pavStatus_CLEAN p 0 0).sliceBeat p die) := by
  simp [execWordIssue, hword, hfault, hpermits, hroom]

theorem execCtlRepeat_begins {n : Nat} (hat : s.atCtl p die 1 (fun w => slotField w 31 0 == n) = true)
    (hrep : (s.slice p die).rep = none) :
    execCtlRepeat p die n s = .next (s.setSlice p die { s.slice p die with rep := some (n, 0) }) := by
  simp [execCtlRepeat, hat, hrep]

/-- A loop that fits the stack, lies ahead within the loop around it and ends within the program is pushed. -/
theorem execCtlLoop_pushes {n last : Nat}
    (hdue : s.dueCtl p die 2 (fun w => slotField w 47 24 == n && slotField w 23 0 == last) = true)
    (hdepth : (s.slice p die).loops.length < 8) (hahead : (s.slice p die).pc < last)
    (hnested : ∀ e ∈ (s.slice p die).loops.getLast?, last ≤ e.last) (hlen : last < s.progLen p) :
    execCtlLoop p die n last s = .next (s.setSlice p die { s.slice p die with
      loops := (s.slice p die).loops ++ [⟨(s.slice p die).pc + 1, last, n, 0⟩],
      pc := (s.slice p die).pc + 1, post := none }) := by
  have houter : (s.slice p die).loops.getLast?.any (fun e => decide (e.last < last)) = false := by
    cases h : (s.slice p die).loops.getLast? with
    | none => rfl
    | some e => exact decide_eq_false (Nat.not_lt.mpr (hnested e h))
  simp [execCtlLoop, hdue, houter, Nat.not_le.mpr hdepth, Nat.not_le.mpr hahead, Nat.not_le.mpr hlen]

section Branch

variable {bed pred cond target : Nat}
  (hdue : s.dueCtl p die 3 (fun w => slotField w 47 42 == bed && slotField w 41 39 == pred && slotField w 38 37 == cond
    && slotField w 23 0 == target) = true)

include hdue

/-- The slice of the bed's die branches and sends its outcome to the other slices. -/
theorem execCtlBrp_decides (hdie : dieOfBed bed = die) (hqueue : ∀ q ∈ s.queue (.vec bed), writesPred pred q = false)
    (hwritten : (s.vec bed).unwritten ⟨[], [], [pred]⟩ = false) (hlen : target < s.progLen p) :
    execCtlBrp p die bed pred cond target s = .next (((s.dies p).filter (· != die)).foldl
      (sendOutcome p die (brpTaken cond ((s.vec bed).preg pred)) target)
      (s.setSlice p die ((s.slice p die).branch (brpTaken cond ((s.vec bed).preg pred)) target))) := by
  have hnone : (s.queue (.vec bed)).any (writesPred pred) = false := by simpa using hqueue
  simp [execCtlBrp, hdue, hdie, hnone, hwritten, Nat.not_le.mpr hlen]

/-- Every other slice branches by the oldest outcome that it has received. -/
theorem execCtlBrp_follows {k : Bool} {a : Nat} {rest : List (Bool × Nat)} (hdie : dieOfBed bed ≠ die)
    (hout : (s.slice p die).outcomes = (k, a) :: rest) :
    execCtlBrp p die bed pred cond target s =
      .next (s.setSlice p die ({ s.slice p die with outcomes := rest }.branch k a)) := by
  simp [execCtlBrp, hdue, hdie, hout]

end Branch

theorem execBranchOutcome_arrives {taken : Bool} {target : Nat} {rest : List (Bool × Nat)}
    (hcoming : (s.slice p die).coming = (taken, target) :: rest) :
    execBranchOutcome p die taken target s = .next (s.setSlice p die ({ s.slice p die with
      coming := rest, outcomes := (s.slice p die).outcomes ++ [(taken, target)] }.takeOutcome
      (s.dueCtl p die 3 fun w => dieOfBed (slotField w 47 42) != die))) := by
  simp [execBranchOutcome, hcoming]

/-- A slice that observes the count of its WAIT may issue the word. -/
theorem execCtlWait_permits {stile t sc level : Nat}
    (hat : s.atCtl p die 4 (fun w => slotField w 47 32 == stile && slotField w 31 8 == t && slotField w 7 4 == sc
      && slotField w 3 1 == level) = true) (hnew : (s.slice p die).permit = false)
    (hwhole : s.flag F.stlState_BROKEN stile 0 = false)
    (hcount : waitTarget (s.slice p die) t sc level ≤ s.rd F.stlState_COUNT stile 0) :
    execCtlWait p die stile t sc level s =
      .next (s.setSlice p die { s.slice p die with permit := true, waiting := none }) := by
  simp [execCtlWait, hat, hnew, hwhole, hcount]

theorem execCtlHalt_halts (hdue : s.dueCtl p die 5 (fun _ => true) = true) :
    execCtlHalt p die s = .next (s.setSlice p die { s.slice p die with halted := true, post := none }) :=
  if_pos hdue

/-- A slice with nothing incomplete writes its part of the snapshot that its pavilion gathers. -/
theorem execCtlMark_writes {k : Snapshot} (hat : s.atCtl p die 6 (fun _ => true) = true)
    (hnew : (s.slice p die).marked = false) (hdone : s.sliceBusy p die = false)
    (hk : k = s.snapPart p die
      ((s.pav p).snapNew.getD ((s.slice p die).snapshot (boolNat ((s.pav p).snap.any fun k => k.slot == 0))))) :
    execCtlMark p die true s =
      .next (((s.setPav p { s.pav p with parts := die :: (s.pav p).parts, snapNew := some k }).setSlice p die
        { s.slice p die with marked := true }).writeSnap p die k) := by
  subst hk
  simp [execCtlMark, hat, hnew, hdone]

/-- With every part written the new snapshot takes the place of the old one, and the slices go on. -/
theorem execMarkComplete_replaces {t : State} (hrun : s.pavState p = 2) (hmoves : (s.pav p).moves = [])
    (hdies : s.dies p ≠ []) (hparts : ∀ d ∈ s.dies p, d ∈ (s.pav p).parts ∧ (s.slice p d).held = true)
    (ht : t = (s.setPav p { s.pav p with
      snap := if (s.pav p).snapFail then none else (s.pav p).snapNew
      snapNew := none, snapFail := false, parts := [], confirmed := 0, suppress := 0 }).armMark p) :
    execMarkComplete p s = .next
      ((t.dies p).foldl (fun s' d => s'.setSlice p d { s'.slice p d with held := false, marked := false }) t) := by
  have hall : ((s.dies p).all fun d => (s.pav p).parts.contains d && (s.slice p d).held) = true := by
    simpa using hparts
  have hready : ¬ ((s.pavState p != 2 || !(s.pav p).moves.isEmpty || (s.dies p).isEmpty
      || !((s.dies p).all fun d => (s.pav p).parts.contains d && (s.slice p d).held)) = true) := by
    rw [hrun, hmoves, hall]
    simpa using hdies
  subst ht
  exact if_neg hready

end Control

/-- Settles O6, command by command; a BRP by whether its bed is on the slice's own die. -/
theorem issueCommandsComplete : Obligations.IssueCommandsComplete := by
  unfold Obligations.IssueCommandsComplete
  refine ⟨?issue, ?begins, ?loop, ?decides, ?follows, ?outcome, ?wait, ?halt, ?mark, ?markComplete⟩
  case issue => exact fun p die s b bs hword hfault hpermits hroom => execWordIssue_issues hword hfault hpermits hroom
  case begins => exact fun p die n s hat hrep => execCtlRepeat_begins hat hrep
  case loop => exact fun p die n last s hdue hdepth hahead hnested hlen => execCtlLoop_pushes hdue hdepth hahead hnested hlen
  case decides =>
    exact fun p die bed pred cond target s hdue hdie hqueue hwritten hlen =>
      execCtlBrp_decides hdue hdie hqueue hwritten hlen
  case follows => exact fun p die bed pred cond target s k a rest hdue hdie hout => execCtlBrp_follows hdue hdie hout
  case outcome => exact fun p die taken target s rest hcoming => execBranchOutcome_arrives hcoming
  case wait => exact fun p die stile t sc level s hat hnew hwhole hcount => execCtlWait_permits hat hnew hwhole hcount
  case halt => exact fun p die s hdue => execCtlHalt_halts hdue
  case mark => exact fun p die s k hat hnew hdone hk => execCtlMark_writes hat hnew hdone hk
  case markComplete =>
    exact fun p s t hrun hmoves hdies hparts ht => execMarkComplete_replaces hrun hmoves hdies hparts ht

/-! ### The exchange slot (R204, R207, R213, R261, R262, R266) -/

section Exchange

variable {s : State} {o : UnitOp}

/-- A slice that owes its part of a signal, and has completed what it issued before in the scope, contributes it. -/
theorem execSignalPart_contributes {p die sig : Nat} {g : SigSt}
    (hsig : (s.pav p).sigs.find? (fun g => g.op.seq == sig) = some g) (hneed : die ∈ g.need) (hnew : die ∉ g.have_)
    (hissued : s.issuedPast p die sig = true) (hfree : s.xchHeld p sig = false)
    (hdone : s.busy p (opField g.op 11 0) sig (fun b => b / 8 == die) = false) :
    execSignalPart p die sig s = .next (s.setPav p { s.pav p with sigs := (s.pav p).sigs.map fun h =>
      if h.op.seq == sig then { h with have_ := h.have_ ++ [die] } else h }) := by
  simp [execSignalPart, hsig, hneed, hnew, hissued, hfree, hdone]

theorem execXchSignal_whole {g : SigSt} (hsig : (s.pav o.pav).sigs.find? (fun g => g.op == o && g.dev.isNone) = some g)
    (hwhole : g.whole = true) :
    execXchSignal o s = .next (((s.dropSig o.pav o.seq).confirm o.pav).addStile g.stile g.inc) := by
  simp [execXchSignal, hsig, hwhole]

theorem execXchSet_sets (hready : s.xchReady (s.lead o.pav) 4 o = true) (hfirst : s.stileEarlier o = false)
    (hfree : s.stileInUse o.pav (opField o 47 32) = false) :
    execXchSet o s = .next ((s.xchTake 4 o).wr F.stlState_COUNT (opField o 47 32) 0 (opField o 31 0)) := by
  simp [execXchSet, hready, hfirst, hfree]

/-- A stile bound to no other device is bound; to one already lost, it is marked BROKEN. -/
theorem execXchBind_binds (hready : s.xchReady (s.lead o.pav) 6 o = true) (hop : opBit o 0 = false)
    (hfirst : s.stileEarlier o = false) (hbound : ∀ d ∈ s.boundTo (opField o 47 32), d = opField o 31 23) :
    execXchBind o s = .next (
      let t := { s.xchTake 6 o with binds := tset s.binds (opField o 47 32) (opField o 31 23) }.wr
        F.stlState_BOUND (opField o 47 32) 0 1
      if t.devLost (opField o 31 23) then t.wr F.stlState_BROKEN (opField o 47 32) 0 1 else t) := by
  have hother : (s.boundTo (opField o 47 32)).any (· != opField o 31 23) = false := by simpa using hbound
  have hbinds : (s.xchTake 6 o).binds = s.binds := rfl
  simp [execXchBind, hready, hop, hfirst, hother, hbinds]

theorem execXchUnbind_unbinds (hready : s.xchReady (s.lead o.pav) 6 o = true) (hop : opBit o 0 = true)
    (hfirst : s.stileEarlier o = false) :
    execXchUnbind o s = .next ({ s.xchTake 6 o with binds := terase (s.xchTake 6 o).binds (opField o 47 32) }.wr
      F.stlState_BOUND (opField o 47 32) 0 0) := by
  simp [execXchUnbind, hready, hop, hfirst]

section Fences

variable (hissued : ∀ d ∈ s.scopeDies o.pav (opField o 11 0), s.issuedPast o.pav d o.seq = true)

include hissued

theorem execOrdf_leaves (hmem : ⟨1, o⟩ ∈ (s.pav o.pav).xq) : execOrdf o s = .next (s.xchTake 1 o) := by
  have hall := List.all_eq_true.mpr hissued
  simp [execOrdf, hmem, hall]

/-- An ENDF that every slice of its scope has issued is satisfied once nothing earlier of the scope is incomplete. -/
theorem execEndf_satisfied (hmem : ⟨2, o⟩ ∈ (s.pav o.pav).xq)
    (hdone : s.busy o.pav (opField o 11 0) o.seq (fun _ => true) = false) : execEndf o s = .next (s.xchTake 2 o) := by
  have hall := List.all_eq_true.mpr hissued
  simp [execEndf, hmem, hall, hdone]

end Fences

/-- The oldest FPOL that is ready sets the policy. -/
theorem execFpol_sets (hready : s.xchReady (s.lead o.pav) 11 o = true)
    (holdest : ∀ q ∈ (s.pav o.pav).xq, q.opc = 11 → o.seq ≤ q.op.seq) :
    execFpol o s =
      .next ((s.xchTake 11 o).setPav o.pav { (s.xchTake 11 o).pav o.pav with poison := opBit o 0 }) := by
  have hnone : (s.pav o.pav).xq.any (fun q => q.opc == 11 && decide (q.op.seq < o.seq)) = false := by
    simpa using holdest
  simp [execFpol, hready, hnone]

end Exchange

/-- Settles O7, command by command. -/
theorem exchangeCommandsComplete : Obligations.ExchangeCommandsComplete := by
  unfold Obligations.ExchangeCommandsComplete
  refine ⟨?part, ?signal, ?set, ?bind, ?unbind, ?ordf, ?endf, ?fpol⟩
  case part =>
    exact fun p die sig s g hsig hneed hnew hissued hfree hdone =>
      execSignalPart_contributes hsig hneed hnew hissued hfree hdone
  case signal => exact fun o s g hsig hwhole => execXchSignal_whole hsig hwhole
  case set => exact fun o s hready hfirst hfree => execXchSet_sets hready hfirst hfree
  case bind => exact fun o s hready hop hfirst hbound => execXchBind_binds hready hop hfirst hbound
  case unbind => exact fun o s hready hop hfirst => execXchUnbind_unbinds hready hop hfirst
  case ordf => exact fun o s hmem hissued => execOrdf_leaves hissued hmem
  case endf => exact fun o s hmem hissued hdone => execEndf_satisfied hissued hmem hdone
  case fpol => exact fun o s hready holdest => execFpol_sets hready holdest

/-! ### The end of a request, reset, release and replay (R200, R213, R302, R311 to R313, R444, R449, R459) -/

section Ends

variable {s : State} {p : Nat}

/-- A request ends with the record of its success. -/
theorem execPavilionHalted_ends {r : Request} {t : State} (hrun : s.pavState p = 2) (hhalt : s.allHalted p = true)
    (hdone : s.anyBusy p = false) (hmoves : (s.pav p).moves = []) (hinv : s.moveInv p = false)
    (hreq : (s.pav p).req = some r) (hrec : s.writeRecord p r St.success (s.lastWord p) = some t) :
    execPavilionHalted p s = .next ((t.setPav p { t.pav p with req := none }).setPavState p 1) := by
  simp [execPavilionHalted, hrun, hhalt, hdone, hmoves, hinv, hreq, hrec]

/-- The oldest MOVE is released, and the translations of its two ranges are invalidated. -/
theorem execMoveRelease_due {m : MovePage} {rest : List MovePage} {t : State} (hmoves : (s.pav p).moves = m :: rest)
    (hdue : s.releaseDue p = true) (hpages : State.releasePages p (m.size / 65536) m.srcVa m.va m.size
      (s.setPav p { s.pav p with moves := rest }) = some t) :
    execMoveRelease p s = .next ((t.invOwn 0 (s.ctxAst p) m.srcVa m.size).invOwn 0 (s.ctxAst p) m.va m.size) := by
  simp [execMoveRelease, hmoves, hdue, hpages]

section Request

variable {v : BitVec 64} {t : State} (hwarm : s.sys.warmOn = false)
  (ht : t = (s.wr F.pavCtl_SCRUB p 0 (natField v.toNat 10 8)).wr F.pavCtl_AUTOREL p 0 (natField v.toNat 2 2))
  (hfenced : t.pavState p = 3)

include hwarm ht hfenced

theorem execPavReset_fenced (a : Actor) (hrel : v.toNat.testBit 1 = false) :
    execPavReset a p v s = .next ((t.setPav p { t.pav p with soiled := false }).setPavState p 4) := by
  rw [execPavReset, State.pavCtlFields, State.pageWrite_of_warmOff hwarm, hrel, ← ht]
  exact congrArg _ (if_pos hfenced)

theorem execPavRelease_clean (a : Actor) (hres : v.toNat.testBit 0 = false)
    (hclean : t.flag F.pavStatus_CLEAN p 0 = true) (hmay : t.releasable p = true) :
    execPavRelease a p v s = .next (t.release p) := by
  rw [execPavRelease, State.pavCtlFields, State.pageWrite_of_warmOff hwarm, hres, ← ht]
  simp [hfenced, hclean, hmay]

end Request

/-- A drained reset cleans the pavilion, and releases it where AUTOREL asks for that and nothing refuses it. -/
theorem execPavResetDone_drained {r t u : State} (hres : s.pavState p = 4) (hdrained : s.drainedPav p = true)
    (hdies : ∀ d ∈ s.dies p, d ∉ s.sys.dieReq) (hrec : s.drainRecord p = some r) (hmoves : r.discardMoves p = some t)
    (hu : u = (((t.clearPav p).scrubPav p).wr F.pavStatus_CLEAN p 0 (boolNat !(s.pav p).soiled)).setPavState p 3) :
    execPavResetDone p s = .next
      (if u.flag F.pavCtl_AUTOREL p 0 && !(s.pav p).soiled && u.releasable p then u.release p else u) := by
  have hnone : (s.dies p).any s.sys.dieReq.contains = false := by simpa using hdies
  subst hu
  simp [execPavResetDone, hres, hdrained, hnone, hrec, hmoves]

/-- A replay with no exchange operation on its way goes back to the snapshot. -/
theorem execReplayRestore_settled {k : Snapshot} (hsnap : (s.pav p).snap = some k) (hfenced : s.pavState p = 3)
    (hreplay : (s.pav p).replay = true) (hsettled : s.xchSettled p = true) (hcommit : s.committing p = false) :
    execReplayRestore p s = .next (((((((s.flushPav p).resetBeds p).reloadContexts p).restoreSnap p k).armMark p).wr
      F.pavFence_CAUSE p 0 0).setPavState p 2) := by
  simp [execReplayRestore, hsnap, hfenced, hreplay, hsettled, hcommit]

end Ends

/-- Settles O25, command by command. That a reset does its steps 2 to 6 in one event is the model's choice (log entry 55). -/
theorem pavilionsEndAndRestart : Obligations.PavilionsEndAndRestart := by
  unfold Obligations.PavilionsEndAndRestart
  refine ⟨?halted, ?move, ?reset, ?release, ?resetDone, ?replay⟩
  case halted =>
    exact fun p s r t hrun hhalt hdone hmoves hinv hreq hrec =>
      execPavilionHalted_ends hrun hhalt hdone hmoves hinv hreq hrec
  case move => exact fun p s m rest t hmoves hdue hpages => execMoveRelease_due hmoves hdue hpages
  case reset => exact fun a p v s t hwarm hrel ht hfenced => execPavReset_fenced hwarm ht hfenced a hrel
  case release =>
    exact fun a p v s t hwarm hres ht hfenced hclean hmay => execPavRelease_clean hwarm ht hfenced a hres hclean hmay
  case resetDone =>
    exact fun p s r t u hres hdrained hdies hrec hmoves hu => execPavResetDone_drained hres hdrained hdies hrec hmoves hu
  case replay =>
    exact fun p s k hsnap hfenced hreplay hsettled hcommit =>
      execReplayRestore_settled hsnap hfenced hreplay hsettled hcommit

/-! ### Prefetch, hints, QUIET windows and tokens (R188, R190, R191, R215, R217, R263) -/

section Helpers

variable {s : State} {p die : Nat}

theorem execPrefetchWord_fetches {w : Nat} {bs : List Byte} {t : State} (hnext : s.nextMissing p (s.slice p die) = some w)
    (hrun : s.pavState p = 2) (hlive : (s.slice p die).run = true) (hhalt : (s.slice p die).halted = false)
    (hfetch : s.fetchWord p die w = some (bs, t)) :
    execPrefetchWord p die s = .next (t.setSlice p die ((s.slice p die).bufPut w bs)) := by
  simp [execPrefetchWord, hnext, hrun, hlive, hhalt, hfetch]

/-- The slice goes on and loads the words of its hint that the program has and its buffer lacks. -/
theorem execCtlPfh_due {target count : Nat} {t : State}
    (hdue : s.dueCtl p die 8 (fun w => slotField w 23 0 == target && slotField w 29 24 == count) = true)
    (ht : t = s.setSlice p die (s.slice p die).advance) :
    execCtlPfh p die target count s = .next ((((List.range (count + 1)).map (target + ·)).filter fun w =>
      decide (w < t.progLen p) && (tfind (t.slice p die).buf w).isNone).foldl (State.hintWord p die) t) := by
  subst ht
  simp [execCtlPfh, hdue]

/-- A window that has a request granted, or one that can be, opens and grants what can start. -/
theorem execCtlQuiet_opens {classes len : Nat} {t : State} (hdue : s.quietDue p die classes len = true)
    (ht : t = s.openQuiet p classes len (s.slice p die).issued)
    (huse : t.quietUse p classes = true ∨ t.quietGranted p ≠ []) :
    execCtlQuiet p die classes len s = .next (allUpkeep.foldl (quietGrant p classes) t) := by
  subst ht
  have hopen : ¬ ((!(s.openQuiet p classes len (s.slice p die).issued).quietUse p classes
      && ((s.openQuiet p classes len (s.slice p die).issued).quietGranted p).isEmpty) = true) := by
    simpa [or_iff_not_imp_left] using huse
  simp only [execCtlQuiet, hdue, if_neg hopen, Bool.not_true, Bool.false_eq_true, if_false]

/-- A window closes at once where it has granted nothing; else it ends, and what it granted stays. -/
theorem execQuietClose_open {q : Quiet} (hquiet : (s.pav p).quiet = some q) :
    execQuietClose p s = .next (if q.granted.isEmpty then s.closeQuiet p q
      else s.setPav p { s.pav p with quiet := some { q with ended := true } }) := by
  simp only [execQuietClose, hquiet]
  split <;> rfl

/-- A token with every part that finds a port open to its pavilion, and a free tag, is sent. -/
theorem execXchToken_sends {o : UnitOp} {g : SigSt} {d n k es : Nat} {t : State}
    (hsig : (s.pav o.pav).sigs.find? (fun g => g.op == o) = some g) (hdev : g.dev = some d) (hwhole : g.whole = true)
    (hnew : g.sent = false) (hroute : s.route d o.pav (some o.pav) = .port n)
    (hopen : s.closedTo o.pav (.link n) = false) (hslot : s.freeSlot = some k) (hes : s.nextEseq 1001 o.pav = (es, t)) :
    execXchToken o s = .next ((t.sigSent o).sendReq n (t.tokenFrame o g d (128 + k) es) (.token o.pav o.seq)) := by
  simp [execXchToken, hsig, hdev, hwhole, hnew, hroute, hopen, hslot, hes]

end Helpers

/-- Settles O26, command by command; the end of a window by whether it has granted anything. That a window opens once every
slice stands at its word is the model's choice (log entry 59). -/
theorem sliceHelpersComplete : Obligations.SliceHelpersComplete := by
  unfold Obligations.SliceHelpersComplete
  refine ⟨?prefetch, ?hint, ?opens, ?closes, ?ends, ?token⟩
  case prefetch =>
    exact fun p die s w bs t hnext hrun hlive hhalt hfetch => execPrefetchWord_fetches hnext hrun hlive hhalt hfetch
  case hint => exact fun p die target count s t hdue ht => execCtlPfh_due hdue ht
  case opens => exact fun p die classes len s t hdue ht huse => execCtlQuiet_opens hdue ht huse
  case closes =>
    intro p s q hquiet hgranted
    exact (execQuietClose_open hquiet).trans (congrArg _ (if_pos (List.isEmpty_iff.mpr hgranted)))
  case ends =>
    intro p s q hquiet hgranted
    exact (execQuietClose_open hquiet).trans (congrArg _ (if_neg (mt List.isEmpty_iff.mp hgranted)))
  case token =>
    exact fun o s g d n k es t hsig hdev hwhole hnew hroute hopen hslot hes =>
      execXchToken_sends hsig hdev hwhole hnew hroute hopen hslot hes

/-! ### Upkeep (R216, R570 to R573) -/

section Upkeep

variable {s : State}

theorem execUpkeepGrant_now {r : Upkeep} (h : s.grantNow r = true) : execUpkeepGrant r s = .next (s.grant r) :=
  congrArg _ (if_pos h)

/-- A request past its deadline is deferred once: its counter counts it and its alarm is raised. -/
theorem execUpkeepDeadline_defers {r : Upkeep} {t : State} (hpend : s.upkeepPending r = true)
    (hnew : s.pwr.deferred.contains r = false)
    (ht : t = { s with pwr := { s.pwr with deferred := s.pwr.deferred ++ [r] } }) :
    execUpkeepDeadline r s = .next ((t.countDeferral r).alarm (deferReport r).die 0x16 (deferReport r)) := by
  subst ht
  simp only [execUpkeepDeadline, hpend, hnew, Bool.not_true, Bool.or_self, Bool.false_eq_true, if_false]

section Spare

variable {die : Nat} (hspare : s.goodSpare die ≠ 0xF) (hperiod : s.rd F.pwrCal_BT_PERIOD 0 0 ≠ 0)

include hspare hperiod

theorem execSpareSelftest_passes : execSpareSelftest die true s = .next { s with pwr := { s.pwr with
    tested := if s.pwr.tested.contains die then s.pwr.tested else s.pwr.tested ++ [die] } } := by
  simp [execSpareSelftest, hspare, hperiod]

theorem execSpareSelftest_fails {t : State} (ht : t = (s.markBad die (s.goodSpare die)).setSlots die (s.slotsOf die)) :
    execSpareSelftest die false s = .next { t with pwr := { t.pwr with
      tested := t.pwr.tested.filter (· != die), rotate := terase t.pwr.rotate die } } := by
  subst ht
  simp [execSpareSelftest, hspare, hperiod]

end Spare

theorem execRotationRequest_asks {die b : Nat} (hmay : s.mayRotate die = true) (hbed : s.rotationBed die = some b) :
    execRotationRequest die s = .next { s with pwr := { s.pwr with rotate := tset s.pwr.rotate die b } } := by
  simp [execRotationRequest, hmay, hbed]

end Upkeep

/-- Settles O40, command by command; the self-test by its result. -/
theorem upkeepCompletes : Obligations.UpkeepCompletes := by
  unfold Obligations.UpkeepCompletes
  refine ⟨?grant, ?deadline, ?passes, ?fails, ?rotation⟩
  case grant => exact fun r s h => execUpkeepGrant_now h
  case deadline => exact fun r s t hpend hnew ht => execUpkeepDeadline_defers hpend hnew ht
  case passes => exact fun die s hspare hperiod => execSpareSelftest_passes hspare hperiod
  case fails => exact fun die s t hspare hperiod ht => execSpareSelftest_fails hspare hperiod ht
  case rotation => exact fun die s b hmay hbed => execRotationRequest_asks hmay hbed

end Sys2Proof.Machine
end

section
/-! SUPPORT. The registers that a fence and a fault of a pavilion write, and the overflow of a stile. -/

namespace Sys2Proof.Machine

/-! ### Registers that a fault of a pavilion does not write (R31, R445, R455, R512) -/

theorem State.rd_eq_of_reg_eq {s t : State} {f : Fld} {i j : Nat} (h : t.reg f.r i j = s.reg f.r i j) :
    t.rd f i j = s.rd f i j := by
  rw [State.rd, State.rd, h]

section Registers

variable {s : State} {q : Reg} {m n : Nat}

theorem State.reg_wr_of_ne {f : Fld} (h : q ≠ f.r) (i j v : Nat) : (s.wr f i j v).reg q m n = s.reg q m n :=
  reg_setReg_ne s _ fun e => h e.1

theorem State.reg_bump_of_ne {f : Fld} (h : q ≠ f.r) (i j v : Nat) : (s.bump f i j v).reg q m n = s.reg q m n :=
  State.reg_wr_of_ne h i j _

/-! Traffic between dies and messages to the host write no register. -/

@[simp] theorem State.carry_reg (cls : D2dClass) (src dst : Nat) (bs : List Byte) :
    (s.carry cls src dst bs).reg q m n = s.reg q m n := by
  unfold State.carry State.putFlits
  split
  · rfl
  · split <;> rfl

@[simp] theorem State.manage_reg (die : Nat) (up : Bool) (bs : List Byte) :
    (s.manage die up bs).reg q m n = s.reg q m n := by
  unfold State.manage
  split
  · rfl
  split
  · exact foldlP (fun t : State => t.reg q m n = s.reg q m n) rfl fun _ _ ht => ht
  split
  · split <;> exact State.carry_reg ..
  · rfl

@[simp] theorem State.record_reg (r : FaultReport) : (s.record r).reg q m n = s.reg q m n :=
  State.manage_reg ..

@[simp] theorem State.msi_reg (src hart file ident : Nat) : (s.msi src hart file ident).reg q m n = s.reg q m n := by
  unfold State.msi
  split
  · rfl
  · exact State.carry_reg ..

@[simp] theorem State.kmtPump_reg (k fuel : Nat) : (s.kmtPump k fuel).reg q m n = s.reg q m n := by
  induction fuel generalizing s with
  | zero => rfl
  | succ fuel ih =>
    unfold State.kmtPump
    split
    · rfl
    split
    · rfl
    split
    · rfl
    · exact ih

@[simp] theorem State.kmtPost_reg (k : Nat) (msg : KmtOut) : (s.kmtPost k msg).reg q m n = s.reg q m n := by
  unfold State.kmtPost
  split
  · rfl
  · exact State.kmtPump_reg ..

@[simp] theorem State.fenceSignal_reg (p code : Nat) : (s.fenceSignal p code).reg q m n = s.reg q m n :=
  foldlP (fun t : State => t.reg q m n = s.reg q m n) rfl fun _ _ ht => (State.carry_reg ..).trans ht

/-- The delivery of an event sets at most a pending bit. -/
theorem State.deliverVec_reg_of_ne (hvec : q ≠ .pavEvec) (p v : Nat) : (s.deliverVec p v).reg q m n = s.reg q m n := by
  unfold State.deliverVec
  dsimp only
  split
  · rfl
  split
  · exact State.reg_wr_of_ne hvec ..
  split
  · exact State.kmtPost_reg ..
  · exact State.msi_reg ..

/-- An event writes the counts of events and at most a pending bit. -/
theorem State.event_reg_of_ne (hvec : q ≠ .pavEvec) (hstat : q ≠ .pavEvtStat) (p src sel : Nat) :
    (s.event p src sel).reg q m n = s.reg q m n := by
  unfold State.event
  split
  · exact State.reg_bump_of_ne hstat ..
  · dsimp only
    rw [State.deliverVec_reg_of_ne hvec]
    split
    · rfl
    · exact State.reg_bump_of_ne hstat ..

/-- The state of a pavilion is shown in its status and in that of its beds. -/
theorem State.setPavState_reg_of_ne_bed (hbed : q ≠ .bedStatus) (p st : Nat) :
    (s.setPavState p st).reg q m n = (s.wr F.pavStatus_STATE p 0 st).reg q m n := by
  refine foldlP (fun t : State => t.reg q m n = (s.wr F.pavStatus_STATE p 0 st).reg q m n) rfl fun t b ht => ?_
  split
  · exact ht
  · exact (State.reg_wr_of_ne hbed ..).trans ht

end Registers

/-! ### The fence (R31, R33, R445) -/

/-- A pavilion that is idle or running shown as fenced, with its cause or the count of a further one. -/
def State.markFenced (s : State) (p code : Nat) : State :=
  let t := (s.setPavState p 3).wr F.pavStatus_CLEAN p 0 0
  if t.rd F.pavFence_CAUSE p 0 = 0 then t.wr F.pavFence_CAUSE p 0 code else t.bump F.pavFenceInfo_COUNT p 0 1

section Fence

variable {s : State} {p : Nat}

/-- Of the registers but those of events, a fence writes what shows the pavilion as fenced. -/
theorem State.fence_reg_of_live (hlive : s.pavState p = 1 ∨ s.pavState p = 2) {q : Reg} (hvec : q ≠ .pavEvec)
    (hstat : q ≠ .pavEvtStat) (code m n : Nat) : (s.fence p code).reg q m n = (s.markFenced p code).reg q m n := by
  rw [State.fence, if_pos hlive]
  dsimp only
  rw [State.event_reg_of_ne hvec hstat, State.fenceSignal_reg]
  exact foldlP (fun t : State => t.reg q m n = (s.markFenced p code).reg q m n) rfl fun _ _ ht => ht

theorem State.markFenced_reg_of_ne {q : Reg} (hcause : q ≠ .pavFence) (hinfo : q ≠ .pavFenceInfo) (code m n : Nat) :
    (s.markFenced p code).reg q m n = ((s.setPavState p 3).wr F.pavStatus_CLEAN p 0 0).reg q m n := by
  unfold State.markFenced
  dsimp only
  split
  · exact State.reg_wr_of_ne hcause ..
  · exact State.reg_bump_of_ne hinfo ..

theorem State.markFenced_pavState (code : Nat) : (s.markFenced p code).pavState p = 3 := by
  have hclean : ((s.setPavState p 3).wr F.pavStatus_CLEAN p 0 0).pavState p = (s.setPavState p 3).pavState p :=
    rd_wr_ne _ _ _ (by decide) (by decide) _ _ _ _ _ (.inr (.inl (by decide)))
  have hset : (s.setPavState p 3).pavState p = 3 :=
    (State.rd_eq_of_reg_eq (State.setPavState_reg_of_ne_bed (by decide) p 3)).trans
      (rd_wr_self s F.pavStatus_STATE (by decide) (by decide) p 0 3)
  exact (State.rd_eq_of_reg_eq (State.markFenced_reg_of_ne (by decide) (by decide) code p 0)).trans (hclean.trans hset)

/-- The first cause is kept. -/
theorem State.markFenced_cause {code : Nat} (hcode : code < 2 ^ 8) : (s.markFenced p code).rd F.pavFence_CAUSE p 0 =
    if s.rd F.pavFence_CAUSE p 0 = 0 then code else s.rd F.pavFence_CAUSE p 0 := by
  have hcause : ((s.setPavState p 3).wr F.pavStatus_CLEAN p 0 0).rd F.pavFence_CAUSE p 0 = s.rd F.pavFence_CAUSE p 0 :=
    State.rd_eq_of_reg_eq ((State.reg_wr_of_ne (by decide) ..).trans
      ((State.setPavState_reg_of_ne_bed (by decide) p 3).trans (State.reg_wr_of_ne (by decide) ..)))
  unfold State.markFenced
  dsimp only
  rw [hcause]
  split
  · exact (rd_wr_self _ F.pavFence_CAUSE (by decide) (by decide) p 0 code).trans (Nat.mod_eq_of_lt hcode)
  · exact (State.rd_eq_of_reg_eq (State.reg_bump_of_ne (by decide) ..)).trans hcause

/-- The registers that a fence, and a fault that leads to one, may write. -/
def fenceRegNames : List Reg := [.bedStatus, .pavStatus, .pavFence, .pavFenceInfo, .pavEvec, .pavEvtStat]

theorem State.fence_reg_of_not_mem {q : Reg} (hq : q ∉ fenceRegNames) (code m n : Nat) :
    (s.fence p code).reg q m n = s.reg q m n := by
  simp only [fenceRegNames, List.mem_cons, List.not_mem_nil, or_false, not_or] at hq
  obtain ⟨hbed, hstatus, hcause, hinfo, hvec, hstat⟩ := hq
  by_cases hlive : s.pavState p = 1 ∨ s.pavState p = 2
  · rw [State.fence_reg_of_live hlive hvec hstat, State.markFenced_reg_of_ne hcause hinfo,
      State.reg_wr_of_ne hstatus, State.setPavState_reg_of_ne_bed hbed, State.reg_wr_of_ne hstatus]
  · rw [State.fence, if_neg hlive]
    split
    · rfl
    · exact State.reg_bump_of_ne hinfo ..

end Fence

/-! ### A fault of a pavilion that is not on a bed (R31, R461, R512) -/

section Fault

variable {s : State} {p : Nat} {r : FaultReport} (hbed : r.lbed = 0xFF)

include hbed

/-- Beside the fence such a fault writes PAV_FENCE_INFO alone. -/
theorem State.faultPav_reg_of_ne_info {q : Reg} (hinfo : q ≠ .pavFenceInfo) (m n : Nat) :
    (s.faultPav p r).reg q m n = ((s.record r).fence p r.code).reg q m n := by
  have hnow : ¬ ((s.committing p && r.lbed != 0xFF) = true) := by simp [hbed]
  rw [State.faultPav, if_neg hnow]
  dsimp only
  split
  · split
    · rfl
    · exact State.reg_bump_of_ne hinfo ..
  · iterate 4 rw [State.reg_wr_of_ne hinfo]
    exact State.reg_wr_of_ne hinfo ..

theorem State.faultPav_reg_of_not_mem {q : Reg} (hq : q ∉ fenceRegNames) (m n : Nat) :
    (s.faultPav p r).reg q m n = s.reg q m n := by
  have hinfo : q ≠ .pavFenceInfo := fun h => hq (h ▸ by decide)
  rw [State.faultPav_reg_of_ne_info hbed hinfo, State.fence_reg_of_not_mem hq, State.record_reg]

section Live

variable (hlive : s.pavState p = 1 ∨ s.pavState p = 2)

include hlive

theorem State.faultPav_reg_of_live {q : Reg} (hinfo : q ≠ .pavFenceInfo) (hvec : q ≠ .pavEvec) (hstat : q ≠ .pavEvtStat)
    (m n : Nat) : (s.faultPav p r).reg q m n = ((s.record r).markFenced p r.code).reg q m n := by
  have hlive' : (s.record r).pavState p = 1 ∨ (s.record r).pavState p = 2 := by
    have hsame : (s.record r).pavState p = s.pavState p := State.rd_eq_of_reg_eq (State.record_reg r)
    rwa [hsame]
  rw [State.faultPav_reg_of_ne_info hbed hinfo, State.fence_reg_of_live hlive' hvec hstat]

theorem State.faultPav_pavState : (s.faultPav p r).pavState p = 3 :=
  (State.rd_eq_of_reg_eq (State.faultPav_reg_of_live hbed hlive (by decide) (by decide) (by decide) p 0)).trans
    (State.markFenced_pavState r.code)

theorem State.faultPav_cause (hcode : r.code < 2 ^ 8) : (s.faultPav p r).rd F.pavFence_CAUSE p 0 =
    if s.rd F.pavFence_CAUSE p 0 = 0 then r.code else s.rd F.pavFence_CAUSE p 0 := by
  have hsame : (s.record r).rd F.pavFence_CAUSE p 0 = s.rd F.pavFence_CAUSE p 0 :=
    State.rd_eq_of_reg_eq (State.record_reg r)
  rw [← hsame, ← State.markFenced_cause hcode]
  exact State.rd_eq_of_reg_eq (State.faultPav_reg_of_live hbed hlive (by decide) (by decide) (by decide) p 0)

end Live

end Fault

/-! ### Overflow of a stile (R206) -/

/-- The count of a stile says nothing about the owner of its group. -/
theorem State.wr_count_stileOwner {s : State} {st v : Nat} :
    (s.wr F.stlState_COUNT st 0 v).stileOwner st = s.stileOwner st := by
  have hgroup : ∀ f ∈ [F.stlGroup_V, F.stlGroup_PAV], ∀ g,
      (s.wr F.stlState_COUNT st 0 v).rd f g 0 = s.rd f g 0 := by
    simp only [List.forall_mem_cons]
    exact ⟨fun g => State.rd_eq_of_reg_eq (State.reg_wr_of_ne (by decide) ..),
      fun g => State.rd_eq_of_reg_eq (State.reg_wr_of_ne (by decide) ..), List.forall_mem_nil _⟩
  rw [State.stileOwner, State.stileOwner, State.flag, State.flag, hgroup _ (by simp), hgroup _ (by simp)]

section Overflow

variable {s : State} {st inc : Nat} (hover : 0xFFFFFFFF < s.rd F.stlState_COUNT st 0 + inc)

include hover

/-- Past its largest count a stile stays there, and its owner has a fault. -/
theorem State.addStile_of_owner {p : Nat} (howner : s.stileOwner st = some p) :
    s.addStile st inc = (s.wr F.stlState_COUNT st 0 0xFFFFFFFF).stileFault p st St.stileOverflow := by
  rw [← State.wr_count_stileOwner (v := 0xFFFFFFFF)] at howner
  rw [State.addStile, if_neg (by omega)]
  simp only [howner]

theorem State.addStile_of_no_owner (howner : s.stileOwner st = none) :
    s.addStile st inc = s.wr F.stlState_COUNT st 0 0xFFFFFFFF := by
  rw [← State.wr_count_stileOwner (v := 0xFFFFFFFF)] at howner
  rw [State.addStile, if_neg (by omega)]
  simp only [howner]

theorem State.addStile_overflows_count : (s.addStile st inc).rd F.stlState_COUNT st 0 = 0xFFFFFFFF := by
  have hcount : (s.wr F.stlState_COUNT st 0 0xFFFFFFFF).rd F.stlState_COUNT st 0 = 0xFFFFFFFF :=
    rd_wr_self s F.stlState_COUNT (by decide) (by decide) st 0 _
  cases howner : s.stileOwner st with
  | none => rw [State.addStile_of_no_owner hover howner, hcount]
  | some p =>
    rw [State.addStile_of_owner hover howner]
    exact (State.rd_eq_of_reg_eq (State.faultPav_reg_of_not_mem rfl (by decide) ..)).trans hcount

theorem State.addStile_overflows_fences {p : Nat} (howner : s.stileOwner st = some p)
    (hlive : s.pavState p = 1 ∨ s.pavState p = 2) : (s.addStile st inc).pavState p = 3 ∧
      (s.addStile st inc).rd F.pavFence_CAUSE p 0 =
        if s.rd F.pavFence_CAUSE p 0 = 0 then 0x08 else s.rd F.pavFence_CAUSE p 0 := by
  have hlive' : (s.wr F.stlState_COUNT st 0 0xFFFFFFFF).pavState p = 1 ∨
      (s.wr F.stlState_COUNT st 0 0xFFFFFFFF).pavState p = 2 := by
    have hsame : (s.wr F.stlState_COUNT st 0 0xFFFFFFFF).pavState p = s.pavState p :=
      State.rd_eq_of_reg_eq (State.reg_wr_of_ne (by decide) ..)
    rwa [hsame]
  have hcause : (s.wr F.stlState_COUNT st 0 0xFFFFFFFF).rd F.pavFence_CAUSE p 0 = s.rd F.pavFence_CAUSE p 0 :=
    State.rd_eq_of_reg_eq (State.reg_wr_of_ne (by decide) ..)
  rw [State.addStile_of_owner hover howner, ← hcause]
  exact ⟨State.faultPav_pavState rfl hlive', State.faultPav_cause rfl hlive' (show 0x08 < 2 ^ 8 by decide)⟩

end Overflow

/-- An increment of a final frame is added once its write is complete. -/
theorem execCommitStileApply_due {s : State} {k st inc : Nat} (h : s.lnk.commits[k]? = some (st, inc)) :
    execCommitStileApply k s =
      .next ({ s with lnk := { s.lnk with commits := s.lnk.commits.eraseIdx k } }.addStile st inc) := by
  simp only [execCommitStileApply, h]

/-- Settles O57: of the registers, the fault of the owner writes those of `fenceRegNames` alone, and the fence keeps the first
cause. -/
theorem stileOverflowFences : Obligations.StileOverflowFences := by
  unfold Obligations.StileOverflowFences
  refine ⟨?overflow, ?signal, ?commit⟩
  case overflow =>
    exact fun s st inc hover =>
      ⟨State.addStile_overflows_count hover, fun p howner hlive => State.addStile_overflows_fences hover howner hlive⟩
  case signal => exact fun o s g hsig hwhole => execXchSignal_whole hsig hwhole
  case commit => exact fun k s st inc h => execCommitStileApply_due h

end Sys2Proof.Machine
end

section
/-! SUPPORT. What a lane-by-lane operation of the vector unit leaves as it was, and its transfers. -/

namespace Sys2Proof.Machine

/-! ### Registers of a vector unit (Table 3-8) -/

@[simp] theorem VecUnit.setV_vreg_self (u : VecUnit) (n : Nat) (x : List Nat) : (u.setV n x).vreg n = x :=
  tget_tset_self ..

theorem VecUnit.setV_vreg_of_ne (u : VecUnit) {n k : Nat} (x : List Nat) (h : k ≠ n) :
    (u.setV n x).vreg k = u.vreg k :=
  tget_tset_ne _ _ _ h

@[simp] theorem VecUnit.setV_sreg (u : VecUnit) (n k : Nat) (x : List Nat) : (u.setV n x).sreg k = u.sreg k := rfl

@[simp] theorem VecUnit.setV_preg (u : VecUnit) (n k : Nat) (x : List Nat) : (u.setV n x).preg k = u.preg k := rfl

theorem State.setVec_vec_of_ne (s : State) {bed b : Nat} (u : VecUnit) (h : b ≠ bed) :
    (s.setVec bed u).vec b = s.vec b :=
  tget_tset_ne _ _ _ h

/-- An inactive lane keeps its old element. -/
theorem merge_getD_of_inactive {p : BitVec 128} {old new : List Nat} {i : Nat} (hi : i < 128)
    (hp : p.getLsbD i = false) : (merge p old new).getD i 0 = old.getD i 0 := by
  simp only [merge, List.getD_eq_getElem?_getD, List.getElem?_map, List.getElem?_range hi, Option.map_some,
    Option.getD_some, hp, Bool.false_eq_true, if_false]

/-! ### Flags and the end of an operation (R65, R94) -/

@[simp] theorem State.orFlags_vec (s : State) (bed b : Nat) (fl : IFlags) : (s.orFlags bed fl).vec b = s.vec b := rfl

@[simp] theorem State.vecDone_vec (s : State) (bed b : Nat) : (s.vecDone bed).vec b = s.vec b := rfl

@[simp] theorem State.orFlags_reg_self (s : State) (bed : Nat) (fl : IFlags) :
    (s.orFlags bed fl).reg .bedVflags bed 0 = s.reg .bedVflags bed 0 ||| BitVec.ofNat 64 fl.bits :=
  reg_setReg_self ..

theorem State.orFlags_reg_of_ne (s : State) {bed : Nat} (fl : IFlags) {r : Reg} {i : Nat} (j : Nat)
    (h : ¬ (r = .bedVflags ∧ i = bed)) : (s.orFlags bed fl).reg r i j = s.reg r i j :=
  reg_setReg_ne s _ fun e => h ⟨e.1, e.2.1⟩

theorem State.vecDone_reg_of_ne (s : State) {bed : Nat} {r : Reg} {i : Nat} (j : Nat)
    (h : ¬ (r = .bedProgress ∧ i = bed)) : (s.vecDone bed).reg r i j = s.reg r i j :=
  reg_setReg_ne (s.dequeue (.vec bed)) _ fun e => h ⟨e.1, e.2.1⟩

/-! ### The frame (R65, R94, R256, R258) -/

/-- A destination merged under its predicate, flags added and the operation ended: the frame holds whatever the new elements
and the flags are. -/
theorem vecFrame_merge (s : State) (bed d : Nat) (p : BitVec 128) (new : List Nat) (fl : IFlags) :
    VecFrame bed d p s
      (((s.setVec bed ((s.vec bed).setV d (merge p ((s.vec bed).vreg d) new))).orFlags bed fl).vecDone bed) := by
  refine ⟨fun _ => rfl, rfl, ?regs, ?flags, ?units, ?vectors, ?lanes, ?scalars, rfl, rfl, rfl, rfl, rfl, rfl, rfl⟩
  case regs =>
    intro r i j hflags hprogress
    rw [State.vecDone_reg_of_ne _ j hprogress, State.orFlags_reg_of_ne _ fl j hflags, State.setVec_reg]
  case flags =>
    rw [State.vecDone_reg_of_ne _ 0 (by simp), State.orFlags_reg_self, State.setVec_reg]
    exact BitVec.eq_of_getLsbD_eq fun k _ => by simp [Bool.and_comm, Bool.and_or_distrib_left]
  case units =>
    intro b hb
    rw [State.vecDone_vec, State.orFlags_vec, State.setVec_vec_of_ne s _ hb]
  case vectors =>
    intro n hn
    rw [State.vecDone_vec, State.orFlags_vec, State.setVec_self, VecUnit.setV_vreg_of_ne _ _ hn]
  case lanes =>
    intro i hi hp
    rw [State.vecDone_vec, State.orFlags_vec, State.setVec_self, VecUnit.setV_vreg_self, merge_getD_of_inactive hi hp]
  case scalars =>
    intro n
    rw [State.vecDone_vec, State.orFlags_vec, State.setVec_self]
    exact ⟨VecUnit.setV_sreg .., VecUnit.setV_preg ..⟩

/-- Settles O60: a lane-by-lane operation merges its results into its destination, adds their flags and ends. -/
theorem laneResultsStayInTheirLanes : Obligations.LaneResultsStayInTheirLanes := by
  unfold Obligations.LaneResultsStayInTheirLanes
  exact fun bed o g s => vecFrame_merge s bed (vD o) ((s.vec bed).preg (vPred o)) _ _

/-! ### Transfers (R75, R101, R248, R257, R290) -/

section Transfers

variable {bed : Nat} {o : UnitOp} {s : State}

/-- A load whose bytes have come, each readable or poisoned by its policy, merges them into its destination. -/
theorem execVld_loads {bs : List (Option Byte)} {t : State} (hgo : VecGo bed 0x10 o s ⟨[], [], [vPred o]⟩)
    (hstored : s.vecStores (vecAddr bed o).1 = false)
    (hread : bankRead s (vecAddr bed o).1 4 6 (vecAddr bed o).2 512 = (some bs, t))
    (hgood : o.poison = false → allSome bs = true) :
    execVld bed o s = .next ((t.setVec bed ((t.vec bed).setV (vD o) (merge ((t.vec bed).preg (vPred o))
      ((t.vec bed).vreg (vD o)) (loadElems (vfmt o) bs)))).vecDone bed) := by
  have hnofault : (!o.poison && !allSome bs) = false := by simpa using hgood
  rw [execVld, if_neg (by simp [hstored]), vecOp_of_go hgo, vldEffect, hread]
  simp only [hnofault, Bool.false_eq_true, if_false]

theorem execVst_stores (hgo : VecGo bed 0x11 o s ⟨[vD o], [], [vPred o]⟩) :
    execVst bed o s = .next ((storeLanes s (vecAddr bed o).1 o.seq (vecAddr bed o).2 ((s.vec bed).preg (vPred o))
      ((s.vec bed).vreg (vD o))).vecDone bed) := by
  apply vecOp_of_go hgo

theorem execVrcv_receives {r : Nat × List Nat} (hgo : VecGo bed 0x12 o s ⟨[], [], [vPred o]⟩)
    (hrow : (s.vec bed).rows.find? (fun r => r.1 == opField o 32 30) = some r) :
    execVrcv bed o s = .next ((s.setVec bed ({ s.vec bed with rows := (s.vec bed).rows.erase r }.setV (vD o)
      (merge ((s.vec bed).preg (vPred o)) ((s.vec bed).vreg (vD o)) r.2))).vecDone bed) := by
  simp only [execVrcv, hrow]
  exact vecOp_of_go hgo

theorem execVbsnd_sends {ds : List BusDst} (hgo : VecGo bed 0x13 o s ⟨[vD o], [], []⟩)
    (hfree : s.trackHeld bed (opField o 32 31) o = false) (hgroup : s.group bed (opField o 30 27) = some ds) :
    execVbsnd bed o s = .next ((postXfer s bed (opField o 32 31) o.seq (2 ^ 10)
      (((s.vec bed).vreg (vD o)).flatMap (leBytes 4)) ds none).vecDone bed) := by
  rw [execVbsnd, if_neg (by simp [hfree]), vecOp_of_go hgo, hgroup]

theorem execVbrcv_receives {x : List Byte} {ts : List (List Byte)} (hgo : VecGo bed 0x14 o s ⟨[], [], [vPred o]⟩)
    (hrx : tget s.arr.rx (bed, opField o 32 31, BusDst.vec) [] = x :: ts) :
    execVbrcv bed o s = .next
      (({ s with arr := { s.arr with rx := tset s.arr.rx (bed, opField o 32 31, BusDst.vec) ts } }.setVec bed
        ((s.vec bed).setV (vD o) (merge ((s.vec bed).preg (vPred o)) ((s.vec bed).vreg (vD o))
          ((List.range 128).map fun i => fieldLe x (4 * i) 4)))).vecDone bed) := by
  simp only [execVbrcv, hrx]
  exact vecOp_of_go hgo

end Transfers

/-- Settles O5, command by command. That VST and VBSND take the register of VD is the model's choice (log entry 143). -/
theorem vectorTransfersComplete : Obligations.VectorTransfersComplete := by
  unfold Obligations.VectorTransfersComplete
  refine ⟨?vld, ?vst, ?vrcv, ?vbsnd, ?vbrcv⟩
  case vld => exact fun bed o s bs t hgo hstored hread hgood => execVld_loads hgo hstored hread hgood
  case vst => exact fun bed o s hgo => execVst_stores hgo
  case vrcv => exact fun bed o s r hgo hrow => execVrcv_receives hgo hrow
  case vbsnd => exact fun bed o s ds hgo hfree hgroup => execVbsnd_sends hgo hfree hgroup
  case vbrcv => exact fun bed o s x ts hgo hrx => execVbrcv_receives hgo hrx

end Sys2Proof.Machine
end

section
/-! SUPPORT. The commands of cells, feeders, drains, banks and the bed bus, and of the converter. -/

namespace Sys2Proof.Machine

/-! ### The arrays (R71 to R73, R82, R87, R96, R99, R104, R105, R108, R235) -/

theorem execMmul_begins {bed ag : Nat} {o : UnitOp} {s t : State} {es : List (Nat × List (Option Byte))}
    (hready : s.ready (.ag bed ag) 1 o = true) (hmode : (s.agCells bed ag).any (s.otherMode o) = false)
    (hread : s.mmulEntries bed ag o = (some es, t)) (hcodes : s.mmulCodes o es = []) :
    execMmul ag ⟨bed, o⟩ s =
      .next ((s.mmulPasses o es).foldl (fun s e => beginPass s e.1 e.2) (t.dequeue (.ag bed ag))) := by
  simp [execMmul, hready, hmode, hread, hcodes]

/-- A lane whose step has its inputs and room; in L16 it is the first of its gang. -/
theorem execLaneStep_steps {cell row col : Nat} {s t : State} {p : Pass}
    (hpass : ((laneReady s cell row col).cell cell).passAt ((laneReady s cell row col).lane cell row col).pass = some p)
    (hgang : p.fmt = .l16 → col % 4 = 0)
    (hstep : (if p.mode = .os then
        stepOS (laneReady s cell row col) cell row col p ((laneReady s cell row col).lane cell row col)
      else stepWS (laneReady s cell row col) cell row col p ((laneReady s cell row col).lane cell row col)) = some t) :
    execLaneStep cell row col s = .next (laneAfter t cell row col) := by
  have hlead : ¬ ((decide (p.fmt = .l16) && col % 4 != 0) = true) := by simpa using hgang
  simp only [execLaneStep, hpass, hstep, if_neg hlead, Option.getD_some]

section Feeder

variable {cell : Nat} {s : State} (hon : s.pwr.shut = false)

include hon

theorem execFeederDeliver_west : execFeederDeliver cell true s =
    .next (refillWest ((List.range (s.shapeR cell)).foldl (deliverWest (s.shapeR cell) cell) s) cell) := by
  simp [execFeederDeliver, hon]

theorem execFeederDeliver_north : execFeederDeliver cell false s =
    .next (refillSums (refillStat (refillCols
      ((List.range (128 * (128 / s.shapeR cell))).foldl (deliverNorth (s.shapeR cell) cell) s) cell) cell) cell) := by
  simp [execFeederDeliver, hon]

end Feeder

/-- An open drain takes the next row of its pass when every column has brought its sum. -/
theorem execDrainRowAccept_takes {cell : Nat} {s : State} {p : Pass} {js : List Nat}
    (hpass : (s.cell cell).passes.find? (fun p => decide (p.rows < p.drainRows)) = some p)
    (hopen : s.drainOpen cell p = true)
    (hjs : js = ((List.range (perRow p.fmt)).map (physCol p.fmt)).flatMap (valueCols p.fmt))
    (hsums : ∀ j ∈ js, tget (s.cell cell).drainIn j [] ≠ []) :
    execDrainRowAccept cell s = .next (takeRow
      (s.setCell cell { s.cell cell with
        drainIn := js.foldl (fun t j => tset t j (tget t j []).tail) (s.cell cell).drainIn })
      cell p (s.rowPos cell p) (((List.range (perRow p.fmt)).map (physCol p.fmt)).map fun k =>
        ofHalves ((valueCols p.fmt k).map fun j => (tget (s.cell cell).drainIn j []).headD .zero))) := by
  have hcame : (js.any fun j => (tget (s.cell cell).drainIn j []).isEmpty) = false := by
    simpa [List.any_eq_false] using hsums
  subst hjs
  simp only [execDrainRowAccept, hpass, hopen, hcame, Bool.not_true, Bool.or_self, Bool.false_eq_true, if_false]

theorem execCellStoreBankAccess_reads {cell bank : Nat} {s t : State} {r : BankReq} {bs : List (Option Byte)}
    (hr : nextReq ((tget s.arr.banks (cell, bank) []).filter fun r => !s.bankHeld (cell / 8) r) = some r)
    (hw : r.write = none) (hread : (s.takeBankReq cell bank r).eccRead cell r.line 128 = (bs, t)) :
    execCellStoreBankAccess cell bank s =
      .next (t.setCell cell { t.cell cell with lines := tset (t.cell cell).lines (r.tag, r.line) bs }) := by
  rw [State.takeBankReq] at hread
  simp only [execCellStoreBankAccess, hr, hw, hread]

section Track

variable {bed track : Nat} {s : State} {x : Xfer} {rest : List Xfer}
  (hnext : tget s.arr.tracks (bed, track) [] = x :: rest) (hroom : ∀ d ∈ x.dsts, s.roomAt bed track x d = true)

include hnext hroom

theorem execBedBusTransfer_delivers : execBedBusTransfer bed track true s = .next (x.dsts.foldl (deliverTo bed track x)
    { s with arr := { s.arr with tracks := tset s.arr.tracks (bed, track) rest } }) := by
  have hall : (x.dsts.all fun d => s.roomAt bed track x d) = true := List.all_eq_true.mpr hroom
  simp [execBedBusTransfer, hnext, hall]

theorem execBedBusTransfer_badParity : execBedBusTransfer bed track false s =
    .next ((s.bedFault bed (s.bedReport St.bedFault 0x06 bed)).alarm (dieOfBed bed) 0x05
      (s.bedReport St.bedFault 0x06 bed)) := by
  have hall : (x.dsts.all fun d => s.roomAt bed track x d) = true := List.all_eq_true.mpr hroom
  simp [execBedBusTransfer, hnext, hall]

end Track

theorem execBedReset_resets {a : Actor} {bed : Nat} {s : State} (hwarm : s.sys.warmOn = false)
    (hst : s.rd F.bedStatus_STATE bed 0 = 3 ∨ s.rd F.bedStatus_STATE bed 0 = 0) :
    execBedReset a bed s = .next (s.bedReset bed) :=
  if_pos ⟨by simp [hwarm], hst⟩

/-- Settles O1, command by command; a bank's by the kind of its request, a transfer's by its parity. -/
theorem arrayCommandsComplete : Obligations.ArrayCommandsComplete := by
  unfold Obligations.ArrayCommandsComplete
  refine ⟨?mmul, ?lane, ?feeder, ?drain, ?bank, ?track, ?reset⟩
  case mmul => exact fun bed ag o s es t hready hmode hread hcodes => execMmul_begins hready hmode hread hcodes
  case lane => exact fun cell row col s p t hpass hgang hstep => execLaneStep_steps hpass hgang hstep
  case feeder => exact fun cell s hon => ⟨execFeederDeliver_west hon, execFeederDeliver_north hon⟩
  case drain => exact fun cell s p js hpass hopen hjs hsums => execDrainRowAccept_takes hpass hopen hjs hsums
  case bank =>
    exact fun cell bank s r hr =>
      ⟨fun off bs hw => exec_cellStoreBankAccess_of_write hr hw,
        fun bs t hw hread => execCellStoreBankAccess_reads hr hw hread⟩
  case track =>
    exact fun bed track s x rest hnext hroom =>
      ⟨execBedBusTransfer_delivers hnext hroom, execBedBusTransfer_badParity hnext hroom⟩
  case reset => exact fun a bed s hwarm hst => execBedReset_resets hwarm hst

/-! ### The converter (R121, R133, R138, R140, R245, R246, R249) -/

/-- In a plan without an unlisted combination the check for one finds none. -/
theorem any_isNone_of_listed {α : Type} {plan : List (Nat × Option α)} (h : ∀ e ∈ plan, e.2.isSome = true) :
    (plan.any fun e => e.2.isNone) = false :=
  List.any_eq_false.mpr fun e he => by simpa [Option.isSome_iff_ne_none] using h e he

/-- In a plan whose conversions none holds the check for a held one finds none. -/
theorem any_held_of_free {α : Type} {plan : List (Nat × Option α)} {held : Nat → α → Bool}
    (h : ∀ e ∈ plan, ∀ v ∈ e.2, held e.1 v = false) : (plan.any fun e => e.2.any (held e.1)) = false := by
  refine List.any_eq_false.mpr fun e he => ?_
  cases hv : e.2 with
  | none => exact Bool.false_ne_true
  | some v => simp [h e he v hv]

section Converter

variable {bed : Nat} {o : UnitOp} {s : State}

theorem any_drainWrites_of_idle (h : ∀ c ∈ s.cvtCells bed o, s.drainWrites c = false) :
    (s.cvtCells bed o).any s.drainWrites = false :=
  List.any_eq_false.mpr fun c hc => by simp [h c hc]

theorem execCvta_converts {es : List (Nat × List (Option Byte))} {t : State} (hready : s.cvtReady bed 1 o = true)
    (hfull : s.outsFull bed o = true) (hread : s.readEntries bed o = (some es, t)) (hgood : entriesGood es = true)
    (hlisted : ∀ e ∈ s.cvtaPlan o es, e.2.isSome = true)
    (hfree : ∀ e ∈ s.cvtaPlan o es, ∀ v ∈ e.2, s.convHeld e.1 v.1 o = false) :
    execCvta ⟨bed, o⟩ s = .next (((s.cvtaPlan o es).foldl (convertOut o) t).cvtDone bed) := by
  have hnone := any_isNone_of_listed hlisted
  have hheld := any_held_of_free (held := fun c (v : Conv × ArrOut) => s.convHeld c v.1 o) hfree
  simp only [execCvta, hready, hfull, hread, hgood, hnone, hheld, Bool.not_true, Bool.or_self, Bool.false_eq_true,
    if_false]

/-- A CVTM whose input has come through the banks converts it; bytes that cannot be read only where it poisons. -/
theorem execCvtm_converts {es ds : List (Nat × List (Option Byte))} {fs : Option (List (Nat × List (Option Byte)))}
    {t u w : State} (hready : s.cvtReady bed 2 o = true) (hidle : ∀ c ∈ s.cvtCells bed o, s.drainWrites c = false)
    (hread : s.readEntries bed o = (some es, t)) (hgood : entriesGood es = true)
    (hlisted : ∀ e ∈ s.cvtmPlan o es, e.2.isSome = true)
    (hfree : ∀ e ∈ s.cvtmPlan o es, ∀ v ∈ e.2, s.convHeld e.1 v o = false)
    (hinput : bankReads s 2 5 (cvtmPlaces (s.cvtmPlan o es)) = (some ds, u)) (hagain : u.readEntries bed o = (fs, w))
    (hbytes : o.poison = false → ∀ e ∈ ds, allSome e.2 = true) :
    execCvtm ⟨bed, o⟩ s =
      .next ((((s.cvtmPlan o es).zip (ds.map (·.2))).foldl (convertMat o) w).cvtDone bed) := by
  have hwrites := any_drainWrites_of_idle hidle
  have hnone := any_isNone_of_listed hlisted
  have hheld := any_held_of_free (held := fun c v => s.convHeld c v o) hfree
  have hnofault : (!o.poison && ds.any fun e => !allSome e.2) = false := by
    cases hpoison : o.poison with
    | true => rfl
    | false => exact List.any_eq_false.mpr fun e he => by simp [hbytes hpoison e he]
  simp only [execCvtm, cvtmWith, hready, hwrites, hread, hgood, hnone, hheld, hinput, hagain, hnofault, Bool.not_true,
    Bool.or_self, Bool.false_eq_true, if_false]

/-- What SCLD, RSLD and RSADD share: bytes that can all be read and pass the operation's check are applied to every drain. -/
theorem loadOp_loads {opc n : Nat} {ok : List Byte → Bool} {f : State → Nat → List Byte → State}
    {ds : List (Nat × List (Option Byte))} {t : State} (hready : s.cvtReady bed opc o = true)
    (hidle : ∀ c ∈ s.cvtCells bed o, s.drainWrites c = false) (hread : s.loadBytes bed o n = (some ds, t))
    (hbytes : ∀ e ∈ ds, allSome e.2 = true) (hok : ∀ e ∈ ds, ok (plain e.2) = true) :
    loadOp bed opc n o s ok f = .next ((ds.foldl (fun s e => f s e.1 (plain e.2)) t).cvtDone bed) := by
  have hwrites := any_drainWrites_of_idle hidle
  have hreadable : (ds.any fun e => !allSome e.2) = false :=
    List.any_eq_false.mpr fun e he => by simp [hbytes e he]
  have hpass : (ds.any fun e => !ok (plain e.2)) = false :=
    List.any_eq_false.mpr fun e he => by simp [hok e he]
  simp only [loadOp, hready, hwrites, hread, hreadable, hpass, Bool.not_true, Bool.or_self, Bool.false_eq_true, if_false]

/-- The guard of the operations that read no bytes. -/
theorem ite_cvtReady {opc : Nat} {t : State} (hready : s.cvtReady bed opc o = true) :
    (if !s.cvtReady bed opc o then .next s else .next t : Out) = .next t :=
  if_neg (by simp [hready])

end Converter

/-- Settles O2, command by command. -/
theorem converterCommandsComplete : Obligations.ConverterCommandsComplete := by
  unfold Obligations.ConverterCommandsComplete
  refine ⟨?cvta, ?cvtm, ?seed, ?scld, ?rsld, ?rsadd, ?rsclr, ?stex⟩
  case cvta =>
    exact fun bed o s es t hready hfull hread hgood hlisted hfree =>
      execCvta_converts hready hfull hread hgood hlisted hfree
  case cvtm =>
    exact fun bed o s es t ds u fs w hready hidle hread hgood hlisted hfree hinput hagain hbytes =>
      execCvtm_converts hready hidle hread hgood hlisted hfree hinput hagain hbytes
  case seed => exact fun bed o s hready => ite_cvtReady hready
  case scld => exact fun bed o s ds t hready hidle hread hbytes hok => loadOp_loads hready hidle hread hbytes hok
  case rsld =>
    exact fun bed o s ds t hready hidle hread hbytes =>
      loadOp_loads (ok := fun _ => true) hready hidle hread hbytes fun _ _ => rfl
  case rsadd =>
    exact fun bed o s ds t hready hidle hread hbytes =>
      loadOp_loads (ok := fun _ => true) hready hidle hread hbytes fun _ _ => rfl
  case rsclr => exact fun bed o s hready => ite_cvtReady hready
  case stex => exact fun bed o s hready => ite_cvtReady hready

end Sys2Proof.Machine
end

section
/-! SUPPORT. Descriptor loads, runs and sends, the requests of a run, and the start and end of collectives. -/

namespace Sys2Proof.Machine

/-! ### Starts of runs (R253, R264, R271, R277) -/

/-- A context that is LOADED or DONE passes the check of its state. -/
theorem not_wrongState_of_startable {st : Nat} (h : st = 1 ∨ st = 4) : ¬ (st ≠ 1 ∧ st ≠ 4) := by omega

section Start

variable {o : UnitOp} {s t : State}

theorem execDld_loads {bs : List (Option Byte)} (hready : s.ready (.eng (opField o 47 40)) 1 o = true)
    (hfree : s.ctxFree (opField o 47 40) (opField o 39 36) = true)
    (hst : s.rd F.seCtxStatus_STATE (opField o 47 40) (opField o 39 36) ≠ 3) (hread : s.descBytes o = (some bs, t))
    (hgood : allReadable bs = true) (hcheck : s.loadCheck o.pav (opField o 47 40) (descOf (plain bs)) = 0) :
    execDld o s = .next (((t.storeDesc (opField o 47 40) (opField o 39 36) (plain bs)).markCtx (opField o 47 40)
      (opField o 39 36) 1 St.success 0).engDone (opField o 47 40)) := by
  simp [execDld, hready, hfree, hst, hread, hgood, hcheck]

variable {stops : List CarStop} (hfree : s.ctxFree (opField o 47 40) (opField o 39 36) = true)
  (hst : s.rd F.seCtxStatus_STATE (opField o 47 40) (opField o 39 36) = 1 ∨
    s.rd F.seCtxStatus_STATE (opField o 47 40) (opField o 39 36) = 4)
  (hroom : s.bufUsed (opField o 47 40) + (s.desc (opField o 47 40) (opField o 39 36)).reserve ≤ 65536)

include hfree hst hroom

theorem execRun_begins (hready : s.ready (.eng (opField o 47 40)) 2 o = true)
    (hsrc : (s.desc (opField o 47 40) (opField o 39 36)).src ≠ 3)
    (htgt : (s.desc (opField o 47 40) (opField o 39 36)).tgt ≠ 3)
    (hgo : s.beginChecks (opField o 47 40) o (s.desc (opField o 47 40) (opField o 39 36))
      ((s.desc (opField o 47 40) (opField o 39 36)).start (toSigned 32 (opField o 31 0) * o.index)) (opBit o 0) =
        .go stops t) :
    execRun o s = .next ((t.beginRun (opField o 47 40) (opField o 39 36) 2 o
      ((s.desc (opField o 47 40) (opField o 39 36)).start (toSigned 32 (opField o 31 0) * o.index)) (opBit o 0) stops
      none).engDone (opField o 47 40)) := by
  simp only [execRun, hready, hfree, if_neg (not_wrongState_of_startable hst), hsrc, htgt, Nat.not_lt.mpr hroom, hgo,
    Bool.not_true, Bool.or_self, or_self, Bool.false_eq_true, if_false]

theorem execXchSend_begins (hrun : s.pavState o.pav = 2) (hready : s.xchReady (opField o 47 40 / 32) 7 o = true)
    (hbeds : s.bedsClosed o = false)
    (hport : (s.desc (opField o 47 40) (opField o 39 36)).car = true ∨
      s.portForeign o.pav (natField (s.desc (opField o 47 40) (opField o 39 36)).aux 60 52) = false)
    (htgt : (s.desc (opField o 47 40) (opField o 39 36)).tgt = 3)
    (hgo : s.beginChecks (opField o 47 40) o (s.desc (opField o 47 40) (opField o 39 36))
      ((s.desc (opField o 47 40) (opField o 39 36)).start (toSigned 12 (opField o 11 0) * 4096 * o.index)) false =
        .go stops t) :
    execXchSend o s = .next ((t.beginRun (opField o 47 40) (opField o 39 36) 7 o
      ((s.desc (opField o 47 40) (opField o 39 36)).start (toSigned 12 (opField o 11 0) * 4096 * o.index)) false stops
      none).xchTake 7 o) := by
  have hown : (!(s.desc (opField o 47 40) (opField o 39 36)).car &&
      s.portForeign o.pav (natField (s.desc (opField o 47 40) (opField o 39 36)).aux 60 52)) = false := by
    rcases hport with h | h <;> simp [h]
  simp only [execXchSend, hrun, hready, hfree, hbeds, not_wrongState_of_startable hst, hown, htgt, Nat.not_lt.mpr hroom, hgo,
    Bool.not_true, Bool.or_self, ne_eq, not_true, or_self, Bool.false_eq_true, if_false]

/-- What ALLRED, RSCAT and AGATH share: a stop of the plan with a context that suits the collective begins it. -/
theorem State.startCollective_begins {kind : Nat} {x : PlanStop} (hrun : s.pavState o.pav = 2)
    (hready : s.xchReady (opField o 47 40 / 32) kind o = true) (hbeds : s.bedsClosed o = false)
    (hplan : s.planStop o.pav (opField o 35 28) (opField o 47 40) = some x)
    (hfits : colFits kind (opField o 27 26) (s.desc (opField o 47 40) (opField o 39 36)) x = true)
    (hgo : s.beginChecks (opField o 47 40) o (s.desc (opField o 47 40) (opField o 39 36))
      ((s.desc (opField o 47 40) (opField o 39 36)).start 0) false = .go stops t) :
    s.startCollective kind o = t.beginCollective (opField o 47 40) (opField o 39 36) kind o
      ((s.desc (opField o 47 40) (opField o 39 36)).start 0) x := by
  simp only [State.startCollective, hrun, hready, hfree, hbeds, hplan, not_wrongState_of_startable hst, hfits,
    Nat.not_lt.mpr hroom, hgo, Bool.not_true, Bool.or_self, ne_eq, not_true, or_self, Bool.false_eq_true, if_false]

end Start

/-! ### Requests of a run (R278, R283, R289) -/

section Requests

variable {eng ctx : Nat} {s : State} {x : RunSt} (hx : tfind s.str.runs (eng, ctx) = some x)

include hx

/-- A run that nothing holds issues its next request, or asks the banks for the lines that the request needs. -/
theorem execStreamRequestIssue_issues {t : State} (hheld : s.runHeld x = false) (hon : s.pwr.shut = false)
    (hissue : s.nextIssue eng ctx x (s.desc eng ctx) = .ok t ∨ s.nextIssue eng ctx x (s.desc eng ctx) = .ask t) :
    execStreamRequestIssue eng ctx s = .next t := by
  rcases hissue with h | h <;> simp [execStreamRequestIssue, hx, hheld, hon, h]

variable {tag : Nat} {q : SReq} {bs : List (Option Byte)}
  (hq : x.reqs.find? (fun q => q.tag == tag && q.resp.isSome) = some q) (hresp : q.resp = some (St.success, bs))
  (hlive : x.dead = false) (hrun : s.pavState x.op.pav = 2)

include hq hresp hlive hrun

/-- The data of a read fill their bursts. -/
theorem execStreamResponse_fills (hread : q.write = false) (hgood : allReadable bs = true) :
    execStreamResponse eng ctx tag s = .next ((s.dropReq eng ctx x q).setRun eng ctx
      (({ x with reqs := x.reqs.erase q } : RunSt).fill (s.desc eng ctx) q bs)) := by
  simp [execStreamResponse, hx, hq, hresp, hlive, hrun, hread, hgood, St.success, St.peerLost]

/-- The answer to a write frees its tag. -/
theorem execStreamResponse_written (hwrite : q.write = true) :
    execStreamResponse eng ctx tag s = .next (s.dropReq eng ctx x q) := by
  simp [execStreamResponse, hx, hq, hresp, hlive, hrun, hwrite, St.success, St.peerLost]

end Requests

/-- Settles O20, command by command; an answer by whether its request reads or writes. -/
theorem streamStartsComplete : Obligations.StreamStartsComplete := by
  unfold Obligations.StreamStartsComplete
  refine ⟨?dld, ?run, ?send, ?issue, ?filled, ?written⟩
  case dld =>
    exact fun o s bs t hready hfree hst hread hgood hcheck => execDld_loads hready hfree hst hread hgood hcheck
  case run =>
    exact fun o s stops t hready hfree hst hsrc htgt hroom hgo => execRun_begins hfree hst hroom hready hsrc htgt hgo
  case send =>
    exact fun o s stops t hrun hready hfree hbeds hport hst htgt hroom hgo =>
      execXchSend_begins hfree hst hroom hrun hready hbeds hport htgt hgo
  case issue => exact fun eng ctx s x t hx hheld hon hissue => execStreamRequestIssue_issues hx hheld hon hissue
  case filled =>
    exact fun eng ctx tag s x q bs hx hq hresp hlive hrun hread hgood =>
      execStreamResponse_fills hx hq hresp hlive hrun hread hgood
  case written =>
    exact fun eng ctx tag s x q bs hx hq hresp hlive hrun hwrite =>
      execStreamResponse_written hx hq hresp hlive hrun hwrite

/-! ### Collectives (R265, R267, R268, R501, R502, R505) -/

/-- A collective that has its whole result and made all its sends ends with success. -/
theorem execCollectiveDone_ends {p eng plan e c : Nat} {s : State} {x : RunSt} {t : ColSt}
    (hcol : s.colRun p eng plan = some ((e, c), x)) (ht : x.col = some t) (hlive : x.dead = false) (hwhole : x.lost = false)
    (hrun : s.pavState p = 2) (hreqs : x.reqs = []) (hresult : t.result (s.desc eng c) ≤ t.wr)
    (hsent : t.sentAll (s.desc eng c) = true) :
    execCollectiveDone p eng plan s =
      .next ((((s.addStile t.dstile 1).confirm p).endCollective eng c St.success).colClear t (s.desc eng c)) := by
  simp [execCollectiveDone, hcol, ht, hlive, hwhole, hrun, hreqs, hresult, hsent]

/-- Settles O22: the three starts are one operation of their kind, and a collective ends once it is complete. -/
theorem collectivesComplete : Obligations.CollectivesComplete := by
  unfold Obligations.CollectivesComplete
  refine ⟨?allred, ?rscat, ?agath, ?done⟩
  case done =>
    exact fun p eng plan s e c x t hcol ht hlive hwhole hrun hreqs hresult hsent =>
      execCollectiveDone_ends hcol ht hlive hwhole hrun hreqs hresult hsent
  all_goals
    exact fun o s x stops t hrun hready hbeds hfree hplan hst hfits hroom hgo =>
      congrArg _ (State.startCollective_begins hfree hst hroom hrun hready hbeds hplan hfits hgo)

end Sys2Proof.Machine
end

section
/-! SUPPORT. Bursts, caravan stops and the ends of runs; responses and the remote aperture. -/

namespace Sys2Proof.Machine

/-! ### Bursts, caravan stops and the ends of runs (R270, R289, R296, R298, R301) -/

/-- A run of a fenced or failed pavilion whose tags are all released passes the check of CONTEXT_STOPPED. -/
theorem State.contextStopped_guard_eq_false {s : State} {x : RunSt} (hst : s.pavState x.op.pav = 3 ∨ s.pavState x.op.pav = 4)
    (hreqs : x.reqs = []) :
    ((s.pavState x.op.pav != 3 && s.pavState x.op.pav != 4) || !x.reqs.isEmpty) = false := by
  rcases hst with h | h <;> simp [h, hreqs]

section Steps

variable {eng ctx : Nat} {s : State} {x : RunSt} (hx : tfind s.str.runs (eng, ctx) = some x)

include hx

/-- A complete burst that its consumer takes is counted. -/
theorem execBurstDeliver_delivers {t : State} (hheld : s.runHeld x = false) (hcol : x.col = none)
    (hready : x.burstReady (s.desc eng ctx) = true)
    (hok : s.deliver eng ctx x (s.desc eng ctx) x.sent (x.nextLen (s.desc eng ctx)) = .ok t) :
    execBurstDeliver eng ctx s = .next ((t.bump F.sePoison_ELEMENTS eng 0
      (x.narCount (s.desc eng ctx) x.sent (x.nextLen (s.desc eng ctx)))).bump F.seCtxStatus_BURSTS eng ctx 1) := by
  simp [execBurstDeliver, hx, hheld, hcol, hready, hok]

/-- A stop that can serve its oldest burst does so, and drops what it has passed on. -/
theorem execCaravanBurstForward_serves {stop i : Nat} {u : CarBurst} {t : State} (hheld : s.runHeld x = false)
    (hstop : stop < x.stops.length)
    (holdest : (tget x.at_ stop .init).bursts.zipIdx.find? (fun u => !u.1.passed) = some (u, i))
    (hok : s.stopStep eng ctx stop i x u = .ok t) :
    execCaravanBurstForward eng ctx stop s = .next (t.pruneStop eng ctx stop) := by
  simp only [execCaravanBurstForward, hx, hheld, Nat.not_le.mpr hstop, holdest, hok, decide_false, Bool.or_self,
    Bool.false_eq_true, if_false]

theorem execCaravanStopConfirm_confirms {stop : Nat} (hlive : x.dead = false) (hstop : stop < x.stops.length)
    (hnew : (tget x.at_ stop .init).confirmed = false) (hdone : s.stopDone eng ctx stop x = true) :
    execCaravanStopConfirm eng ctx stop s = .next (s.setRun eng ctx { x with
      at_ := tset x.at_ stop { tget x.at_ stop .init with confirmed := true, slot := false } }) := by
  simp [execCaravanStopConfirm, hx, hlive, hnew, Nat.not_le.mpr hstop, hdone]

/-- A whole run that lost no partner goes to DONE without an error. -/
theorem execRunComplete_completes (hlive : x.dead = false) (hpartner : x.lost = false) (hcol : x.col = none)
    (hrun : s.pavState x.op.pav = 2) (hwhole : s.runWhole eng x (s.desc eng ctx) = true) :
    execRunComplete eng ctx s = .next
      ((((s.wr F.seCtxStatus_STATE eng ctx 4).wr F.seCtxStatus_CODE eng ctx 0).endRun eng ctx).runEnded x.op.pav
        (s.desc eng ctx) x) := by
  simp [execRunComplete, hx, hlive, hpartner, hcol, hrun, hwhole]

/-! A fenced or failed pavilion's run whose tags are all released stops, by whether it was applied. -/

section Stopped

variable (hst : s.pavState x.op.pav = 3 ∨ s.pavState x.op.pav = 4) (hreqs : x.reqs = [])

include hst hreqs

theorem execContextStopped_unapplied (happlied : s.runApplied eng ctx x (s.desc eng ctx) = false) :
    execContextStopped eng ctx s =
      .next ((if x.dead then s else s.wr F.seCtxStatus_STATE eng ctx 3).endRun eng ctx) := by
  simp only [execContextStopped, hx, State.contextStopped_guard_eq_false hst hreqs, happlied, Bool.false_eq_true, if_false]

/-- An applied SEND is confirmed. -/
theorem execContextStopped_applied (happlied : s.runApplied eng ctx x (s.desc eng ctx) = true) (hcol : x.col = none) :
    execContextStopped eng ctx s =
      .next (((if x.dead then s else s.wr F.seCtxStatus_STATE eng ctx 3).confirm x.op.pav).endRun eng ctx) := by
  simp only [execContextStopped, hx, State.contextStopped_guard_eq_false hst hreqs, happlied, hcol, Bool.false_eq_true,
    if_false, if_true]

/-- An applied collective is confirmed and adds to its stile. -/
theorem execContextStopped_collective {k : ColSt} (happlied : s.runApplied eng ctx x (s.desc eng ctx) = true)
    (hcol : x.col = some k) :
    execContextStopped eng ctx s = .next ((((if x.dead then s else s.wr F.seCtxStatus_STATE eng ctx 3).confirm
      x.op.pav).addStile k.dstile 1).endRun eng ctx) := by
  simp only [execContextStopped, hx, State.contextStopped_guard_eq_false hst hreqs, happlied, hcol, Bool.false_eq_true,
    if_false, if_true]

end Stopped

end Steps

/-- Settles O21, command by command; a stop by whether its run was applied and is a collective. That such a run is
confirmed, and its collective adds to its stile, is the model's choice (log entry 51). -/
theorem streamStepsComplete : Obligations.StreamStepsComplete := by
  unfold Obligations.StreamStepsComplete
  refine ⟨?burst, ?forward, ?confirm, ?complete, ?stopped⟩
  case burst => exact fun eng ctx s x t hx hheld hcol hready hok => execBurstDeliver_delivers hx hheld hcol hready hok
  case forward =>
    exact fun eng ctx stop s x u i t hx hheld hstop holdest hok =>
      execCaravanBurstForward_serves hx hheld hstop holdest hok
  case confirm =>
    exact fun eng ctx stop s x hx hlive hstop hnew hdone => execCaravanStopConfirm_confirms hx hlive hstop hnew hdone
  case complete =>
    exact fun eng ctx s x hx hlive hpartner hcol hrun hwhole =>
      execRunComplete_completes hx hlive hpartner hcol hrun hwhole
  case stopped =>
    rintro eng ctx s x u hx hst hreqs rfl
    exact ⟨fun happlied => execContextStopped_unapplied hx hst hreqs happlied,
      fun happlied hcol => execContextStopped_applied hx hst hreqs happlied hcol,
      fun k happlied hcol => execContextStopped_collective hx hst hreqs happlied hcol⟩

/-! ### Responses (R283, R374, R477, R492, R497) -/

/-- A response for a request of this device, over a port that its pavilion agrees to, acts on that request. -/
theorem State.takeResponse_of_reqOf {s u : State} {port typ : Nat} {f : SlpFrame} {g : OFrame} {r : OutReq}
    (hgate : s.gate port typ f = .take g u) (hdst : g.dst = u.devId) (hr : u.reqOf g = some r)
    (hagree : u.agrees port r.frame.srcpav = true) (go : State → OFrame → OutReq → State) :
    s.takeResponse port typ f go = go u g r := by
  simp only [State.takeResponse, hgate, hdst, ne_eq, not_true, if_false, hr, hagree, if_true]

theorem execRetryResend_resends {port tag n : Nat} {s : State} {r : OutReq} (hr : s.retryReq port tag = some r)
    (hroute : s.route r.frame.dst r.frame.srcpav (askerPav r) = .port n) :
    execRetryResend port tag s = .next
      ((s.mapOut fun q => if q == r then { q with retry := false, port := n } else q).putFrame n r.frame) := by
  simp only [execRetryResend, hr, hroute]

theorem execEndToEndTimeout_losesDevice {k : Nat} {s : State} {r : OutReq} (hr : s.lnk.outst[k]? = some r) :
    execEndToEndTimeout k s = .next (s.loseDevice r.frame.dst) := by
  simp only [execEndToEndTimeout, hr]

/-- A hart's access through a valid outbound slot, the hart's only one, is sent on the port of its route. -/
theorem execApertureAccess_sends {hart addr size m k es : Nat} {kind : ApertureKind} {v : BitVec 64} {s t : State}
    (hvalid : s.flag F.wsOut_V (apertureSlot addr) 0 = true) (hok : apertureOk addr size kind = true)
    (honly : s.lnk.outst.any (askedBy hart) = false)
    (hroute : s.route (s.rd F.wsOut_DEV (apertureSlot addr) 0) (s.rd F.wsOut_SRCPAV (apertureSlot addr) 0) none = .port m)
    (hslot : s.freeSlot = some k) (heseq : s.nextEseq 1000 0 = (es, t)) :
    execApertureAccess hart addr size kind v s =
      .next (t.sendReq m (t.apertureFrame addr size kind v (128 + k) es) (.hart hart size)) := by
  simp only [execApertureAccess, apertureAccessOp, hvalid, hok, honly, hroute, hslot, heseq, Bool.not_true, Bool.or_self,
    Bool.false_eq_true, if_false]

/-- Settles O32: each kind of response acts on the request that it is for, and the other commands stand one by one. -/
theorem responsesComplete : Obligations.ResponsesComplete := by
  unfold Obligations.ResponsesComplete
  refine ⟨?ack, ?rdata, ?refuse, ?retry, ?resend, ?timeout, ?aperture⟩
  case resend => exact fun port tag s r n hr hroute => execRetryResend_resends hr hroute
  case timeout => exact fun k s r hr => execEndToEndTimeout_losesDevice hr
  case aperture =>
    exact fun hart addr size kind v s m k es t hvalid hok honly hroute hslot heseq =>
      execApertureAccess_sends hvalid hok honly hroute hslot heseq
  all_goals
    exact fun port f s g u r hgate hdst hr hagree =>
      congrArg Host.Outcome.next (State.takeResponse_of_reqOf hgate hdst hr hagree _)

end Sys2Proof.Machine
end

section
/-! SUPPORT. Prefetch, flush, upkeep and plots of the memory tiers; atomics at the home agent; requests from partners. -/

namespace Sys2Proof.Machine

/-! ### Prefetch and flush (R326, R327) -/

/-- A prefetch of a line that its partition has ways for and does not hold, and that its GDDR7 serves now, fills the line. -/
theorem execNextLinePrefetch_fills {die owner la : Nat} {rest : List (Nat × Nat)} {d : LineD} {s t u : State}
    (hqueue : tget s.org.pfq die [] = (owner, la) :: rest) (hmiss : s.partFind die owner la = none)
    (hways : (s.ways die owner la).isEmpty = false) (hserves : s.gddrServes (la * 256) 256 = .ok)
    (hidle : owner = 0xFE → s.lineBusy la = false) (hopen : s.gddrOpen la = true) (hfetch : s.gddrFetch la = (d, t))
    (hfill : t.fill die owner la 2 false d .none = some u) :
    execNextLinePrefetch die s = .next (u.popPrefetch die) := by
  have hfree : (owner == 0xFE && s.lineBusy la) = false := by
    by_cases howner : owner = 0xFE
    · simp [hidle howner]
    · simp [howner]
  simp [execNextLinePrefetch, hqueue, hmiss, hways, hserves, hfree, hopen, hfetch, hfill]

theorem execOrgFlush_starts {a : Actor} {die : Nat} {v : BitVec 64} {s : State} (ha : machineActor a = true)
    (howner : isOwner (natField v.toNat 15 8) = true) (hgo : v.toNat % 2 = 1) :
    execOrgFlush a die v s =
      .next ((s.wr F.orgFlush_OWNER die 0 (natField v.toNat 15 8)).wr F.orgFlush_GO die 0 1) := by
  simp [execOrgFlush, orgFlushOp, ha, howner, hgo]

/-- The end of a flush whose dirty lines all lie on a GDDR7 that takes writes now. -/
theorem execOrgFlushDone_cleans {die : Nat} {s : State} (hgo : s.flag F.orgFlush_GO die 0 = true)
    (hopen : ∀ e ∈ s.flushLines die, s.gddrOpen e.2.la = true) :
    execOrgFlushDone die s = .next ((((s.visitTags die (s.rd F.orgFlush_OWNER die 0) fun _ => true).flushLines die).foldl
      (cleanLineOf die) (s.visitTags die (s.rd F.orgFlush_OWNER die 0) fun _ => true)).wr F.orgFlush_GO die 0 0) := by
  have hready : (s.flushLines die).any (fun e => !s.gddrOpen e.2.la) = false :=
    List.any_eq_false.mpr fun e he => by simp [hopen e he]
  simp only [execOrgFlushDone, hgo, hready, Bool.not_true, Bool.or_self, Bool.false_eq_true, if_false]

/-! ### GDDR7 upkeep (R342 to R344) -/

/-- A margin below the threshold or a temperature more than 20 °C from that of the last training requests retraining. -/
theorem execGddrTrackingRead_requests {die : Nat} {temps margins : List Nat} {s : State}
    (hready : s.rd F.gdrStatus_STATE die 0 = 3)
    (hoff : (∃ m ∈ margins, m < s.rd F.gdrTrain_MARGIN die 0) ∨ (∃ e ∈ temps.zipIdx,
      tget s.org.trained (die, e.2) 0 + 20 < e.1 ∨ e.1 + 20 < tget s.org.trained (die, e.2) 0)) :
    execGddrTrackingRead die temps margins s = .next (s.wr F.gdrTrain_PENDING die 0 1) := by
  simp only [execGddrTrackingRead, hready, ne_eq, not_true, if_false]
  refine congrArg Host.Outcome.next (if_pos ?_)
  simp only [Bool.or_eq_true, List.any_eq_true, decide_eq_true_eq]
  exact hoff.symm

section Retrain

variable {die : Nat} (temps : List Nat) {s : State} (hstate : s.rd F.gdrStatus_STATE die 0 = 4)

include hstate

theorem execGddrRetrainDone_succeeds :
    execGddrRetrainDone die none temps s = .next ((s.upkeepEnded (.gddr die)).retrained die temps) :=
  if_neg (not_not_intro hstate)

theorem execGddrRetrainDone_fails {comp : Nat} :
    execGddrRetrainDone die (some comp) temps s = .next ((s.upkeepEnded (.gddr die)).retrainFailed die comp) :=
  if_neg (not_not_intro hstate)

end Retrain

/-- With scrubbing on and the GDDR7 READY, the 16 lines of the component's next group are scrubbed. -/
theorem execScrubGroup_scrubs {die comp : Nat} {s : State} (hready : s.rd F.gdrStatus_STATE die 0 = 3)
    (hon : s.rd F.gdrScrub_INTERVAL die 0 ≠ 0) (hcomp : comp < 3) :
    execScrubGroup die comp s = .next (((List.range 16).foldl (fun t i => t.scrubLine (die * 2 ^ 26 +
      16 * (3 * tget s.org.scrub (die, comp) 0 + comp) + i)) s).scrubNext die comp (tget s.org.scrub (die, comp) 0)) :=
  if_neg (by omega)

/-! ### Plots (R349, R350) -/

/-- A usable plot between quiet owners, within the quota of the new one and not being filled, goes to its new owner. -/
theorem execGdrPlotWrite_changesOwner {a : Actor} {die plot : Nat} {v : BitVec 64} {s : State} (ha : machineActor a = true)
    (howner : natField v.toNat 7 0 < 64 ∨ 0xFE ≤ natField v.toNat 7 0)
    (husable : plot * 2 ^ 30 < s.rd F.gdrCap_USABLE die 0)
    (hold : s.ownerQuiet (s.rd F.gdrPlot_OWNER die plot) = true) (hnew : s.ownerQuiet (natField v.toNat 7 0) = true)
    (hfill : s.flag F.gdrPlot_ZFILL die plot = false)
    (hquota : natField v.toNat 7 0 < 64 →
      ((s.plotsOf (natField v.toNat 7 0)).filter fun e => e != (die, plot)).length + 1 ≤
        s.rd F.pavQuota_GDDR (natField v.toNat 7 0) 0)
    (hother : natField v.toNat 7 0 ≠ s.rd F.gdrPlot_OWNER die plot) :
    execGdrPlotWrite a die plot v s =
      .next ((s.wr F.gdrPlot_OWNER die plot (natField v.toNat 7 0)).wr F.gdrPlot_ZFILL die plot 1) := by
  have hvalid : ¬ (64 ≤ natField v.toNat 7 0 ∧ natField v.toNat 7 0 < 0xFE) := by omega
  have hfits : (decide (natField v.toNat 7 0 < 64) && decide (s.rd F.pavQuota_GDDR (natField v.toNat 7 0) 0 <
      ((s.plotsOf (natField v.toNat 7 0)).filter fun e => e != (die, plot)).length + 1)) = false := by
    simp only [Bool.and_eq_false_imp, decide_eq_true_eq, decide_eq_false_iff_not, Nat.not_lt]
    exact hquota
  simp only [execGdrPlotWrite, gdrPlotWriteOp, ha, hvalid, Nat.not_le.mpr husable, hold, hnew, hfill, hfits, hother,
    Bool.not_true, Bool.or_self, Bool.false_eq_true, if_false]

theorem execPlotZeroFillDone_zeroes {die plot : Nat} {s : State} (hfill : s.flag F.gdrPlot_ZFILL die plot = true) :
    execPlotZeroFillDone die plot s = .next
      ((s.zeroRange (die * 2 ^ 34 + plot * 2 ^ 30) (die * 2 ^ 34 + plot * 2 ^ 30 + 2 ^ 30)).wr F.gdrPlot_ZFILL die plot 0) := by
  simp only [execPlotZeroFillDone, hfill, Bool.not_true, Bool.false_eq_true, if_false]

/-- Settles O11, command by command; a retraining by whether a component failed. -/
theorem orangeryCommandsComplete : Obligations.OrangeryCommandsComplete := by
  unfold Obligations.OrangeryCommandsComplete
  refine ⟨?prefetch, ?flush, ?flushed, ?tracking, ?retrained, ?scrub, ?plot, ?filled⟩
  case prefetch =>
    exact fun die s owner la rest d t u hqueue hmiss hways hserves hidle hopen hfetch hfill =>
      execNextLinePrefetch_fills hqueue hmiss hways hserves hidle hopen hfetch hfill
  case flush => exact fun a die v s ha howner hgo => execOrgFlush_starts ha howner hgo
  case flushed => exact fun die s hgo hopen => execOrgFlushDone_cleans hgo hopen
  case tracking => exact fun die temps margins s hready hoff => execGddrTrackingRead_requests hready hoff
  case retrained =>
    exact fun die temps comp s hstate => ⟨execGddrRetrainDone_succeeds temps hstate, execGddrRetrainDone_fails temps hstate⟩
  case scrub => exact fun die comp s hready hon hcomp => execScrubGroup_scrubs hready hon hcomp
  case plot =>
    exact fun a die plot v s ha howner husable hold hnew hfill hquota hother =>
      execGdrPlotWrite_changesOwner ha howner husable hold hnew hfill hquota hother
  case filled => exact fun die plot s hfill => execPlotZeroFillDone_zeroes hfill

/-! ### Atomics (R331 to R333, R416, R425, R426) -/

/-- An atomic that the home agent performs is counted and answered from the old bytes. -/
theorem State.atomicRun_of_done {r : Requester} {a n align : Nat} {f : List Byte → List Byte} {answer : List Byte → Sent}
    {s t : State} {old : List Byte} (h : s.atomicAt r a n align f = .done old t) :
    s.atomicRun r a n align f answer = (t.bump F.orgAtomic_DONE (atomicDie a) 0 1).send (answer old) := by
  simp only [State.atomicRun, h]

/-- LR of readable bytes answers them and reserves their 64-byte block. -/
theorem State.loadReserved_reserves {r : Requester} {h a n : Nat} {s t : State} {bs : List (Option Byte)}
    (hbuf : s.buffered r a n = false) (hread : s.readAs r true true a n = .done bs t) (hgood : allReadable bs = true) :
    s.loadReserved r h a n = { t.answerLoad h a false 4 bs with
      coh := { (t.answerLoad h a false 4 bs).coh with
        resv := tset (t.answerLoad h a false 4 bs).coh.resv h (a / 64 * 64) } } := by
  simp only [State.loadReserved, hbuf, hread, hgood, Bool.false_eq_true, if_false, if_true]

section StoreConditional

variable {r : Requester} {h a n v : Nat} {s : State}

/-- SC without its reservation stores nothing and answers 1. -/
theorem State.storeConditional_unreserved (hresv : tfind s.coh.resv h ≠ some (a / 64 * 64)) :
    s.storeConditional r h a n v =
      { s with coh := { s.coh with resv := terase s.coh.resv h } }.send (gotBy r 1) :=
  if_pos (bne_iff_ne.mpr hresv)

/-- SC with its reservation performs its store and answers 0. -/
theorem State.storeConditional_reserved {t : State} {old : List Byte} (hresv : tfind s.coh.resv h = some (a / 64 * 64))
    (hdone : s.atomicAt r a n n (fun _ => leBytes n v) = .done old t) :
    s.storeConditional r h a n v =
      { t with coh := { t.coh with resv := terase t.coh.resv h } }.send (gotBy r 0) := by
  simp only [State.storeConditional, hresv, hdone, bne_self_eq_false, Bool.false_eq_true, if_false]

end StoreConditional

/-! What ATOMIC does at 4 and 8 bytes, by its operation, and at the other sizes. -/

section Atomic

variable {r : Requester} {addr size : Nat} (v cmp : BitVec 64) {s : State}

/-- Sizes other than 4 and 8 are no atomic. -/
theorem execAtomic_badSize {op : HomeOp} (h4 : size ≠ 4) (h8 : size ≠ 8) :
    execAtomic r addr size op v cmp s = .next (s.send (refusedTo r St.accessFault)) :=
  if_pos ⟨h4, h8⟩

variable (hsize : size = 4 ∨ size = 8)

include hsize

theorem execAtomic_amo {op : AtomicOp} :
    execAtomic r addr size (.amo op) v cmp s = .next (s.atomicRun r addr size size
      (fun old => leBytes size
        (atomicValue op size (leNat old) (v.toNat % 2 ^ (8 * size)) (cmp.toNat % 2 ^ (8 * size))))
      fun old => gotBy r (BitVec.ofNat 64 (leNat old))) :=
  if_neg (by omega)

variable (hresv : reservable r addr size = true)

include hresv

theorem execAtomic_lr :
    execAtomic r addr size .lr v cmp s = .next (s.loadReserved r ((hartOf r).getD 0) addr size) :=
  (if_neg (by omega)).trans (congrArg _ (if_pos hresv))

theorem execAtomic_sc :
    execAtomic r addr size .sc v cmp s =
      .next (s.storeConditional r ((hartOf r).getD 0) addr size (v.toNat % 2 ^ (8 * size))) :=
  (if_neg (by omega)).trans (congrArg _ (if_pos hresv))

end Atomic

/-- Settles O12: the operations of Table 9-5 and BLKADD are one run at the home agent; LR by its read, SC by whether its
hart holds the reservation. That LR and SC are operations of ATOMIC, what they answer, and the access fault of a refused
size are the model's choice (log entry 40). -/
theorem atomicsComplete : Obligations.AtomicsComplete := by
  unfold Obligations.AtomicsComplete
  refine ⟨?amo, ?blkadd, ?lr, ?sc, ?badSize⟩
  case amo =>
    exact fun r addr size op v cmp s old t hsize hdone =>
      (execAtomic_amo v cmp hsize).trans (congrArg _ (State.atomicRun_of_done hdone))
  case blkadd => exact fun r addr fmt data s old t hdone => congrArg Host.Outcome.next (State.atomicRun_of_done hdone)
  case lr =>
    exact fun h mode addr size v cmp s bs t hsize hresv hbuf hread hgood =>
      (execAtomic_lr v cmp hsize hresv).trans (congrArg _ (State.loadReserved_reserves hbuf hread hgood))
  case sc =>
    exact fun h mode addr size v cmp s hsize hresv =>
      ⟨fun hnone => (execAtomic_sc v cmp hsize hresv).trans (congrArg _ (State.storeConditional_unreserved hnone)),
        fun old t hheld hdone =>
          (execAtomic_sc v cmp hsize hresv).trans (congrArg _ (State.storeConditional_reserved hheld hdone))⟩
  case badSize => exact fun r addr size op v cmp s h4 h8 => execAtomic_badSize v cmp h4 h8

/-! ### Requests from partners (R336, R372, R386, R472, R475, R504) -/

/-- A request for this device from an agreeing pavilion, with none of its port waiting, is performed when memory serves it. -/
theorem State.takeRequest_of_perform {s u t : State} {port typ : Nat} {f : SlpFrame} {g : OFrame}
    (hgate : s.gate port typ f = .take g u) (hdst : g.dst = u.devId) (hagree : u.agrees port (u.destPav g) = true)
    (hfirst : u.lnk.inb.any (fun w => w.port == port) = false) (hdone : u.perform port none g = some t) :
    s.takeRequest port typ f = t := by
  simp only [State.takeRequest, hgate, hdst, hagree, hfirst, hdone, ne_eq, not_true, Bool.not_true, Bool.false_eq_true,
    if_false, Option.getD_some]

/-- An access in turn at the home agent goes before the inbound requests that wait. -/
theorem execHomeAgentAccess_turn {die : Nat} {s t : State} (hturn : s.homeTurn die = some t) :
    execHomeAgentAccess die s = .next t := by
  simp only [execHomeAgentAccess, hturn, Option.getD_some]

/-- With no access in turn the oldest inbound request is tried again. -/
theorem execHomeAgentAccess_inbound {die : Nat} {s t : State} (hnone : s.homeTurn die = none)
    (hserve : s.serveIn = some t) : execHomeAgentAccess die s = .next t := by
  simp only [execHomeAgentAccess, hnone, hserve, Option.getD_none, Option.getD_some]

theorem execGddrAccess_turn {die : Nat} {s t : State} (hturn : s.gddrTurn die = some t) :
    execGddrAccess die s = .next t := by
  simp only [execGddrAccess, hturn, Option.getD_some]

/-- Settles O31: every kind of request is taken in the same way, and the other commands stand one by one. -/
theorem inboundRequestsComplete : Obligations.InboundRequestsComplete := by
  unfold Obligations.InboundRequestsComplete
  refine ⟨?write, ?read, ?atomic, ?token, ?coll, ?homeTurn, ?homeInbound, ?gddrTurn, ?commit⟩
  case homeTurn => exact fun die s t hturn => execHomeAgentAccess_turn hturn
  case homeInbound => exact fun die s t hnone hserve => execHomeAgentAccess_inbound hnone hserve
  case gddrTurn => exact fun die s t hturn => execGddrAccess_turn hturn
  case commit => exact fun k s st inc hk => execCommitStileApply_due hk
  all_goals
    exact fun port f s g u t hgate hdst hagree hfirst hdone =>
      congrArg Host.Outcome.next (State.takeRequest_of_perform hgate hdst hagree hfirst hdone)

end Sys2Proof.Machine
end

section
/-! SUPPORT. Coherence between the core dies and its repair, cache management by the harts, and their accesses. -/

namespace Sys2Proof.Machine

/-! ### Requests at the home (R384, R385, R390 to R392) -/

section Requests

variable {cd la : Nat} {s : State}

/-- The first request of a line without a transaction begins its own. -/
theorem State.takeReq_begins {k : CReqKind} {d : Option LineD} (hfirst : s.firstReq la = some (k, cd, d))
    (hfree : s.txn la = none) : s.takeReq k cd la = s.begin k cd la := by
  simp only [State.takeReq, hfirst, hfree, and_self, if_true]

/-- A CleanEvict of the responder promotes the other holder, if there is one; any other clears the presence alone. -/
theorem execCleanEvict_clears {d : Option LineD} (hfirst : s.firstReq la = some (.cleanEvict, cd, d))
    (hfree : s.txn la = none) :
    execCleanEvict cd la s = .next (
      if (s.dir la).own == some cd && (s.dir la).has (1 - cd) then
        (((((s.take (.req .cleanEvict cd la none)).setDir la ((s.dir la).put cd false)).snoops (homeDie la) 1).post
          (.snp .promote (1 - cd) la)).setTxn ⟨la, .cleanEvict, cd, [1 - cd], [], false, none, false, false⟩)
      else (s.take (.req .cleanEvict cd la none)).setDir la ((s.dir la).put cd false)) := by
  simp only [execCleanEvict, hfirst, hfree, ne_eq, not_true, if_false]
  split <;> rfl

/-- A WriteBack whose data the home can take is taken back. -/
theorem execWriteBack_takes {d : LineD} {t : State} (hfirst : s.firstReq la = some (.writeBack, cd, some d))
    (hfree : s.txn la = none) (hput : (s.take (.req .writeBack cd la (some d))).homePut la d = some t) :
    execWriteBack cd la s = .next (t.tookBack cd la) := by
  simp [execWriteBack, hfirst, hfree, hput]

end Requests

/-- Settles O14: the three requests that begin a transaction are taken in the same way; CleanEvict and WriteBack end one
agent's hold. -/
theorem coherenceRequestsComplete : Obligations.CoherenceRequestsComplete := by
  unfold Obligations.CoherenceRequestsComplete
  refine ⟨?shared, ?own, ?upgrade, ?cleanEvict, ?writeBack⟩
  case cleanEvict => exact fun cd la s d hfirst hfree => execCleanEvict_clears hfirst hfree
  case writeBack => exact fun cd la s d t hfirst hfree hput => execWriteBack_takes hfirst hfree hput
  all_goals exact fun cd la s d hfirst hfree => congrArg Host.Outcome.next (State.takeReq_begins hfirst hfree)

/-! ### Snoops at an agent (R382, R385, R386) -/

/-- A snoop on its way is answered by its agent, whatever its command does without one. -/
theorem next_ite_snoop {k : SnpKind} {cd la : Nat} {s t : State} (hsent : s.coh.msgs.contains (.snp k cd la) = true) :
    (.next (if s.coh.msgs.contains (.snp k cd la) then s.answerSnoop k cd la else t) : Out) =
      .next (s.answerSnoop k cd la) :=
  congrArg _ (if_pos hsent)

/-- Settles O15: every kind of snoop that is on its way is answered in the same way. -/
theorem snoopsComplete : Obligations.SnoopsComplete := by
  unfold Obligations.SnoopsComplete
  refine ⟨?shared, ?clean, ?own, ?inv, ?back, ?promote⟩
  all_goals exact fun cd la s hsent => next_ite_snoop hsent

/-! ### Answers, line data and evictions (R384, R385, R390, R391) -/

section Answers

variable {cd la : Nat} {s : State}

theorem execCohAck_answers_home {was : LineState} (hmsg : s.coh.msgs.findSome? (CMsg.ackOf cd la) = some was) :
    execCohAck cd la s = .next ((s.take (.ack cd la was)).answered cd la was false) := by
  simp only [execCohAck, hmsg]

theorem execAckWb_answers_home (hmsg : s.coh.msgs.contains (.ackWb cd la) = true) :
    execAckWb cd la s = .next ((s.take (.ackWb cd la)).answered cd la .i true) :=
  if_neg (by simpa using hmsg)

/-- A Complete grants its state to the agent's request. -/
theorem execCohComplete_grants {st : LineState} {r : CReq}
    (hmsg : s.coh.msgs.findSome? (CMsg.completeOf cd la) = some st)
    (hreq : (s.take (.complete cd la st)).creq cd la = some r) :
    execCohComplete cd la s =
      .next (((s.take (.complete cd la st)).setCreq cd la { r with grant := some st }).agentDone cd la) := by
  simp only [execCohComplete, hmsg, hreq]

/-- Line data for a core die goes to its request. -/
theorem execCoherenceData_requester (bs : List Byte) {d : LineD} {r : CReq}
    (hmsg : s.coh.msgs.findSome? (CMsg.dataOf (.cd cd) la) = some d)
    (hreq : (s.take (.data (.cd cd) la d)).creq cd la = some r) :
    execCoherenceData (.cd cd) la bs s =
      .next (((s.take (.data (.cd cd) la d)).setCreq cd la { r with data := some d }).agentDone cd la) := by
  simp only [execCoherenceData, hmsg, hreq]

/-- Line data for the home is kept there, and the transaction of its line waits for it no more. -/
theorem execCoherenceData_home (bs : List Byte) {d : LineD} {t : State} {x : Txn}
    (hmsg : s.coh.msgs.findSome? (CMsg.dataOf .home la) = some d)
    (hput : (s.take (.data .home la d)).homePut la d = some t) (htxn : t.txn la = some x) :
    execCoherenceData .home la bs s = .next ((t.setTxn { x with data := false }).finishTxn la) := by
  simp only [execCoherenceData, hmsg, hput, htxn]

theorem State.evictCore_dirty (hst : (s.cline cd la).st = .d) :
    s.evictCore cd la = (((s.givenErrs la (s.cline cd la)).setCline cd la .gone).setCreq cd la
      ⟨.writeBack, none, none, []⟩).post (.req .writeBack cd la (some (s.cline cd la).given)) := by
  simp only [State.evictCore, hst]

theorem State.evictCore_clean (hdirty : (s.cline cd la).st ≠ .d) (hinvalid : (s.cline cd la).st ≠ .i) :
    s.evictCore cd la = (s.setCline cd la .gone).post (.req .cleanEvict cd la none) := by
  dsimp only [State.evictCore]
  split
  case h_1 h => exact absurd h hinvalid
  case h_2 h => exact absurd h hdirty
  case h_3 => rfl

/-- A line with no request outstanding leaves its core die. -/
theorem execCoreEviction_evicts (hnone : (s.creq cd la).isSome = false) (hcd : cd < 2) :
    execCoreEviction cd la s = .next (s.evictCore cd la) :=
  congrArg _ (if_neg (by simp [hnone, hcd]))

end Answers

/-- Settles O16: each answer by whether its message is on its way, line data by where it goes, and an eviction by whether the
line is dirty. -/
theorem coherenceAnswersComplete : Obligations.CoherenceAnswersComplete := by
  unfold Obligations.CoherenceAnswersComplete
  refine ⟨?ack, ?ackWb, ?complete, ?requester, ?home, ?dirty, ?clean⟩
  case ack => exact fun cd la s was hmsg => execCohAck_answers_home hmsg
  case ackWb => exact fun cd la s hmsg => execAckWb_answers_home hmsg
  case complete => exact fun cd la s st r hmsg hreq => execCohComplete_grants hmsg hreq
  case requester => exact fun cd la bs s d r hmsg hreq => execCoherenceData_requester bs hmsg hreq
  case home => exact fun la bs s d t x hmsg hput htxn => execCoherenceData_home bs hmsg hput htxn
  case dirty =>
    exact fun cd la s hnone hcd hst =>
      (execCoreEviction_evicts hnone hcd).trans (congrArg _ (State.evictCore_dirty hst))
  case clean =>
    exact fun cd la s hnone hcd hdirty hinvalid =>
      (execCoreEviction_evicts hnone hcd).trans (congrArg _ (State.evictCore_clean hdirty hinvalid))

/-! ### Owner order and presence (R393 to R395) -/

/-- OO_FORCE set puts the home in owner order; cleared, it lets it drain unless a query is still open. -/
theorem State.ooForceWrite_machine {a : Actor} {die : Nat} {v : BitVec 64} {s : State} (ha : machineActor a = true) :
    s.ooForceWrite a die v =
      if s.rd F.cohCtl_OO_FORCE die 0 = 0 ∧ v.toNat % 2 = 1 then
        (((s.wr F.cohCtl_OO_FORCE die 0 1).wr F.cohStatus_MODE die 0 1).wr F.cohStatus_DRAIN die 0 0).wr F.cohStatus_CAUSE die 0 3
      else if s.rd F.cohCtl_OO_FORCE die 0 = 1 ∧ v.toNat % 2 = 0 ∧ (tget s.coh.ends die []).isEmpty then
        (s.wr F.cohCtl_OO_FORCE die 0 0).wr F.cohStatus_DRAIN die 0 1
      else s.wr F.cohCtl_OO_FORCE die 0 (v.toNat % 2) := by
  simp only [State.ooForceWrite, ha, Bool.not_true, Bool.false_eq_true, if_false, State.wr_coh]
  split
  case isTrue hset => rw [hset.2]
  case isFalse => exact ite_congr rfl (fun hclear => by rw [hclear.2.1]) fun _ => rfl

/-- A query is answered with a record for each line of its scope, then the end record. -/
theorem execSnpQuery_answers_records {die cd : Nat} {s : State} {set : Option Nat}
    (hmsg : s.coh.msgs.findSome? (CMsg.queryOf die cd) = some set) :
    execSnpQuery die cd s = .next (((s.linesOf die cd set).foldl
      (fun (s : State) (e : (Nat × Nat) × CLine) => s.post (.presence die cd e.1.2 e.2.st)) (s.take (.query die cd set))).post
      (.endRec die cd set)) := by
  simp only [execSnpQuery, hmsg]

section Presence

variable {die cd la : Nat} {st : LineState} {s : State}
  (hmsg : s.coh.msgs.contains (.presence die cd la st) = true)

include hmsg

/-- A record for a line that the home holds with an unknown entry. -/
theorem execPresenceRecord_held {w : Nat} {x : PLine}
    (hline : (s.take (.presence die cd la st)).homeLine la = some (w, x)) (hunknown : x.dir.unknown = true) :
    execPresenceRecord die cd la st s = .next ((s.take (.presence die cd la st)).learn die cd la st x.dir) := by
  simp only [execPresenceRecord, hmsg, hline, hunknown, Bool.not_true, Bool.false_eq_true, if_false, if_true]

/-- A record for a line that the home does not hold, but can allocate. -/
theorem execPresenceRecord_absent {d : LineD} {t : State}
    (hline : (s.take (.presence die cd la st)).homeLine la = none)
    (hfetch : (s.take (.presence die cd la st)).homeFetch la = some (d, t)) :
    execPresenceRecord die cd la st s = .next (t.learn die cd la st .none) := by
  simp only [execPresenceRecord, hmsg, hline, hfetch, Bool.not_true, Bool.false_eq_true, if_false]

end Presence

@[simp] theorem State.take_ends (s : State) (m : CMsg) : (s.take m).coh.ends = s.coh.ends := rfl

/-- An end record counts once no presence record of its agent is before it. -/
theorem execEndRecord_settles {die cd : Nat} {set : Option Nat} {s : State}
    (hmsg : s.coh.msgs.findSome? (CMsg.endOf die cd) = some set) (hlast : s.coh.msgs.any (CMsg.isPresence die cd) = false) :
    execEndRecord die cd s = .next ({ s.take (.endRec die cd set) with
      coh := { (s.take (.endRec die cd set)).coh with
        ends := tset s.coh.ends die ((tget s.coh.ends die []).erase (cd, set)) } }.allKnown die) := by
  simp only [execEndRecord, hmsg, hlast, Bool.false_eq_true, if_false, State.take_ends]

/-- A draining home with no transaction of owner order left is back in home order. -/
theorem execOwnerOrderDrained_returns {die : Nat} {s : State} (hdrain : s.flag F.cohStatus_DRAIN die 0 = true)
    (hdone : ∀ t ∈ s.coh.txns, homeDie t.la = die → t.owner = false) :
    execOwnerOrderDrained die s =
      .next (((s.wr F.cohStatus_MODE die 0 0).wr F.cohStatus_DRAIN die 0 0).wr F.cohStatus_CAUSE die 0 0) := by
  have hnone : (s.coh.txns.any fun t => t.owner && homeDie t.la == die) = false := by
    simp only [List.any_eq_false, Bool.and_eq_true, beq_iff_eq, not_and]
    exact fun t ht howner hhome => by simp [hdone t ht hhome] at howner
  simp only [execOwnerOrderDrained, hdrain, hnone, Bool.not_true, Bool.or_self, Bool.false_eq_true, if_false]

/-! ### Bias (R404, R405) -/

section Bias

variable {s : State}

theorem execBiasRelease_machine {a : Actor} (v : BitVec 64) (ha : machineActor a = true) :
    execBiasRelease a v s = .next (s.biasFields (v.toNat.testBit 2) 0 (natField v.toNat 15 8) true) := by
  simp [execBiasRelease, ha]

theorem execBiasRecall_machine {a : Actor} (v : BitVec 64) (ha : machineActor a = true) :
    execBiasRecall a v s = .next (s.biasFields (v.toNat.testBit 2) 1 (natField v.toNat 15 8) true) := by
  simp [execBiasRecall, ha]

/-- A bias command whose visit need not wait clears its range and ends. -/
theorem execBiasDone_clears {t : State} (hbusy : s.flag F.cohBiasCtl_BUSY 0 0 = true) (hgo : s.biasWaits = false)
    (ht : t = (List.range 8).foldl (fun t die => t.visitTags die
      (if s.biasCalls then sharedOwner else s.rd F.cohBiasCtl_OWNER 0 0) (s.biasPasses die))
      (s.biasHeld.foldl State.recallLine s)) :
    execBiasDone s = .next (((t.clearLines t.biasVisit).wr F.cohBiasCtl_BUSY 0 0 0).wr F.cohBiasCtl_GO 0 0 0) := by
  dsimp only [execBiasDone]
  rw [← ht]
  exact if_neg (by simp [hbusy, hgo])

end Bias

/-- Settles O17, command by command; a presence record by whether the home holds its line. -/
theorem directoryRepairCompletes : Obligations.DirectoryRepairCompletes := by
  unfold Obligations.DirectoryRepairCompletes
  refine ⟨?force, ?query, ?held, ?absent, ?endRecord, ?drained, ?release, ?callBack, ?done⟩
  case force => exact fun a die v s ha => congrArg Host.Outcome.next (State.ooForceWrite_machine ha)
  case query => exact fun die cd s set hmsg => execSnpQuery_answers_records hmsg
  case held => exact fun die cd la st s w x hmsg hline hunknown => execPresenceRecord_held hmsg hline hunknown
  case absent => exact fun die cd la st s d t hmsg hline hfetch => execPresenceRecord_absent hmsg hline hfetch
  case endRecord => exact fun die cd set s hmsg hlast => execEndRecord_settles hmsg hlast
  case drained => exact fun die s hdrain hdone => execOwnerOrderDrained_returns hdrain hdone
  case release => exact fun a v s ha => execBiasRelease_machine v ha
  case callBack => exact fun a v s ha => execBiasRecall_machine v ha
  case done => exact fun s t hbusy hgo ht => execBiasDone_clears hbusy hgo ht

/-! ### The words of Table 12-4 (R427) -/

/-- The word of a KX instruction has its opcode, funct3 and address register side by side. -/
theorem kxWord_toNat (op : KxOp) (r : BitVec 5) :
    (kxWord op r).toNat = 0x0B + op.funct3 * 4096 + (if op = .efence then 0 else r.toNat) * 2 ^ 15 := by
  have hr := r.isLt
  have hfunct3 : op.funct3 ≤ 3 := by cases op <;> decide
  rw [kxWord, BitVec.toNat_ofNat, Nat.mod_eq_of_lt]
  split <;> omega

/-- Every KX instruction is read back from its word, whatever its address register. -/
theorem kxOf_kxWord (op : KxOp) (r : BitVec 5) : kxOf (kxWord op r) = some op := by
  have hword := kxWord_toNat op r
  have hfunct3 : op.funct3 ≤ 3 := by cases op <;> decide
  have hopcode : (kxWord op r).toNat % 4096 = 0x0B := by omega
  have hhigh : (kxWord op r).toNat / 2 ^ 20 = 0 := by split at hword <;> omega
  have hfield : (kxWord op r).toNat / 4096 % 8 = op.funct3 := by omega
  simp only [kxOf, hopcode, hhigh, hfield, ne_eq, not_true, or_self, if_false]
  cases op
  case efence => exact if_pos (by simp [hword, KxOp.funct3])
  all_goals rfl

/-! ### Checks of cache management (R423, R427, R430) -/

section CacheOp

variable {hart pa : Nat} {s t : State}

theorem State.kx_spelled {w : BitVec 32} {op : KxOp} (hop : kxOf w = some op) : s.kx hart w op t = t := if_pos hop

theorem State.kx_reserved {w : BitVec 32} {op : KxOp} (hop : kxOf w ≠ some op) : s.kx hart w op t = s.trap hart 2 :=
  if_neg hop

/-- Enabled and permitted, an instruction that manages a line acts on a cacheable address. -/
theorem State.cacheOp_cacheable (hgddr : inGddr pa = true) (hcacheable : s.cacheable pa = true) :
    s.cacheOp hart pa .on .ok false t = t := by
  simp [State.cacheOp, hgddr, hcacheable]

/-- Enabled and permitted, an instruction that writes zeros acts on every address of the GDDR aperture. -/
theorem State.cacheOp_zero (hgddr : inGddr pa = true) : s.cacheOp hart pa .on .ok true t = t := by
  simp [State.cacheOp, hgddr]

/-- The exceptions of a disabled instruction and of a refused address, in the order of their checks (log entry 109). -/
theorem State.cacheOp_traps {g : CboGate} {m : CboPerm} {c : Nat} {zero : Bool}
    (hcause : g = .illegal ∧ c = 2 ∨ g = .virt ∧ c = 22 ∨ g = .on ∧ m = .page ∧ c = 15 ∨ g = .on ∧ m = .access ∧ c = 7) :
    s.cacheOp hart pa g m zero t = s.trap hart c := by
  obtain ⟨rfl, rfl⟩ | ⟨rfl, rfl⟩ | ⟨rfl, rfl, rfl⟩ | ⟨rfl, rfl, rfl⟩ := hcause <;> rfl

end CacheOp

/-- Settles O18: each instruction is its word's check, then the checks of cache management, then its effect. The order of the
exceptions and how far KX.EFENCE performs its stores are the model's choices (log entries 109 and 110). -/
theorem lineManagementCompletes : Obligations.LineManagementCompletes := by
  unfold Obligations.LineManagementCompletes
  refine ⟨kxOf_kxWord, ?efence, ?kxLine, ?kxZero, ?reserved, ?cboLine, ?cboZero, ?traps⟩
  case efence =>
    exact fun hart w s => ⟨fun hop => congrArg Host.Outcome.next (State.kx_spelled hop),
      fun hop => congrArg Host.Outcome.next (State.kx_reserved hop)⟩
  case kxLine =>
    intro hart w pa s hgddr hcacheable
    refine ⟨fun hop => ?kxClean, fun hop => ?kxFlush⟩
    all_goals exact congrArg Host.Outcome.next ((State.kx_spelled hop).trans (State.cacheOp_cacheable hgddr hcacheable))
  case kxZero =>
    exact fun hart w pa s hgddr hop =>
      congrArg Host.Outcome.next ((State.kx_spelled hop).trans (State.cacheOp_zero hgddr))
  case reserved =>
    intro hart w pa g m s
    refine ⟨fun hop => ?noClean, fun hop => ?noFlush, fun hop => ?noZero⟩
    all_goals exact congrArg Host.Outcome.next (State.kx_reserved hop)
  case cboLine =>
    intro hart pa s hgddr hcacheable
    refine ⟨?cboClean, ?cboFlush, ?cboInval⟩
    all_goals exact congrArg Host.Outcome.next (State.cacheOp_cacheable hgddr hcacheable)
  case cboZero => exact fun hart pa s hgddr => congrArg Host.Outcome.next (State.cacheOp_zero hgddr)
  case traps =>
    intro hart pa g m c s hcause
    refine ⟨?trapClean, ?trapFlush, ?trapInval, ?trapZero⟩
    all_goals exact congrArg Host.Outcome.next (State.cacheOp_traps hcause)

/-! ### Loads and stores of the harts (R385, R425) -/

section Memory

variable {hart pa size : Nat} {mode : Mode} {io : Bool} {s : State}

section Place

variable (haperture : inAperture pa = false) (hregs : inRegs pa = false) (hmem : inMemory pa size = true)
  (hcells : inCells pa = false)

include haperture hregs hmem hcells

theorem execCoreLoad_memory (fetch : Bool) :
    execCoreLoad hart mode pa size io fetch s = .next (s.memLoad hart mode pa size io fetch) := by
  simp [execCoreLoad, haperture, hregs, hmem, hcells]

theorem execCoreStore_memory (v : BitVec 64) :
    execCoreStore hart mode pa size io v s = .next (s.memStore hart mode pa io (leBytes size v.toNat)) := by
  simp [execCoreStore, haperture, hregs, hmem, hcells]

end Place

theorem State.memLoad_uncached (fetch : Bool) {bs : List (Option Byte)} {t : State}
    (hcache : s.throughCache io pa size = false) (hread : s.readAs (.hart hart mode io) false false pa size = .done bs t) :
    s.memLoad hart mode pa size io fetch = t.answerLoad hart pa fetch 4 bs := by
  simp only [State.memLoad, hcache, hread, Bool.false_eq_true, if_false]

theorem State.memLoad_cached (fetch : Bool) (hcache : s.throughCache io pa size = true)
    (hadmit : s.admitHart (.hart hart mode io) false pa size = .ok) :
    s.memLoad hart mode pa size io fetch = s.loadTry false ⟨hart, pa, size, fetch⟩ := by
  simp only [State.memLoad, hcache, hadmit, if_true]

theorem State.memStore_uncached {bs : List Byte} {old : List (Option Byte)} {t : State}
    (hcache : s.throughCache io pa bs.length = false)
    (hwrite : s.writeAs (.hart hart mode io) false false pa bs = .done old t) : s.memStore hart mode pa io bs = t := by
  simp only [State.memStore, hcache, hwrite, Bool.false_eq_true, if_false]

theorem State.memStore_cached {bs : List Byte} (hcache : s.throughCache io pa bs.length = true)
    (hadmit : s.admitHart (.hart hart mode io) true pa bs.length = .ok) :
    s.memStore hart mode pa io bs =
      s.pushStores hart ((linePieces pa bs.length).map fun e => ⟨e.1, (bs.drop (e.1 - pa)).take e.2⟩) := by
  simp only [State.memStore, hcache, hadmit, if_true]

end Memory

/-! ### MSIs and supervisor calls (R433, R437, R438, R440) -/

theorem execMsiWrite_sets {hart file : Nat} (ident : Nat) {s : State} (hhart : hart < 96) (hfile : file < 9) :
    execMsiWrite hart file ident s = .next (s.msi 10 hart file ident) :=
  congrArg _ (if_pos ⟨hhart, hfile⟩)

section Supervisor

variable {hart pa : Nat} {s t : State}

/-- An allowed register write that has not to wait in the invalidation queue returns success. -/
theorem execKxsRegWrite_writes {v : BitVec 64} {d : Nat} (halign : pa % 8 = 0) (hallow : s.kxsAllows pa = true)
    (hwrite : s.spaceWrite (.hart hart .m) pa 8 v.toNat = .done d t)
    (hplace : t.smmu.waiting.length ≤ s.smmu.waiting.length) :
    execKxsRegWrite hart pa v s = .next (t.send (.sbi hart 0 0)) := by
  simp only [execKxsRegWrite, halign, hallow, hwrite, Nat.not_lt.mpr hplace, ne_eq, not_true, Bool.not_true,
    Bool.false_eq_true, if_false]

theorem execKxsRegRead_reads {d : Nat} (halign : pa % 8 = 0) (hallow : s.kxsAllows pa = true)
    (hread : s.spaceRead pa 8 = .done d t) :
    execKxsRegRead hart pa s = .next (t.send (.sbi hart 0 (BitVec.ofNat 64 d))) := by
  simp only [execKxsRegRead, halign, hallow, hread, ne_eq, not_true, Bool.not_true, Bool.false_eq_true, if_false]

/-- A well-formed request with a free place is submitted and answered with its number. -/
theorem execKxsKeeper_submits {len : Nat} (halign : pa % 16 = 0) (hplace : s.kpr.queue.length < kPlaces)
    (haddr : pa < 2 ^ 52) (hlen : len % 16 = 0) (hmax : len ≤ 4096)
    (hwrite : s.mbxWrite (BitVec.ofNat 64 (len / 16 * 2 ^ 52 + pa)) = (true, t)) :
    execKxsKeeper hart pa len s =
      .next (t.send (.sbi hart 0 (BitVec.ofNat 64 (t.rd F.kprMbxStatus_SUBMITTED 0 0)))) := by
  have halign8 : ¬ pa % 8 ≠ 0 := by omega
  have hform : ¬ (pa % 16 ≠ 0 ∨ 2 ^ 52 ≤ pa ∨ len % 16 ≠ 0 ∨ 4096 < len) := by omega
  simp only [execKxsKeeper, if_neg halign8, if_neg hform, if_neg (Nat.not_le.mpr hplace), hwrite, if_true]

end Supervisor

/-- Settles O19: a load and a store by whether they go through the core caches, and the other commands one by one. -/
theorem hartAccessesComplete : Obligations.HartAccessesComplete := by
  unfold Obligations.HartAccessesComplete
  refine ⟨?load, ?cachedLoad, ?store, ?cachedStore, ?msi, ?regWrite, ?regRead, ?keeper⟩
  case load =>
    exact fun hart mode pa size io fetch s bs t haperture hregs hmem hcells hcache hread =>
      (execCoreLoad_memory haperture hregs hmem hcells fetch).trans
        (congrArg _ (State.memLoad_uncached fetch hcache hread))
  case cachedLoad =>
    exact fun hart mode pa size io fetch s haperture hregs hmem hcells hcache hadmit =>
      (execCoreLoad_memory haperture hregs hmem hcells fetch).trans
        (congrArg _ (State.memLoad_cached fetch hcache hadmit))
  case store =>
    exact fun hart mode pa size io v s bs t haperture hregs hmem hcells hcache hwrite =>
      (execCoreStore_memory haperture hregs hmem hcells v).trans (congrArg _ (State.memStore_uncached hcache hwrite))
  case cachedStore =>
    exact fun hart mode pa size io v s haperture hregs hmem hcells hcache hadmit =>
      (execCoreStore_memory haperture hregs hmem hcells v).trans (congrArg _ (State.memStore_cached hcache hadmit))
  case msi => exact fun hart file ident s hhart hfile => execMsiWrite_sets ident hhart hfile
  case regWrite => exact fun hart pa v s d t halign hallow hwrite hplace => execKxsRegWrite_writes halign hallow hwrite hplace
  case regRead => exact fun hart pa s d t halign hallow hread => execKxsRegRead_reads halign hallow hread
  case keeper =>
    exact fun hart pa len s t halign hplace haddr hlen hmax hwrite =>
      execKxsKeeper_submits halign hplace haddr hlen hmax hwrite

end Sys2Proof.Machine
end

section
/-! SUPPORT. Requests of cold reset and recovery, and requests of the Keeper. -/

namespace Sys2Proof.Machine

/-! ### Cold reset and its requests (R577 to R579, R590, R593, R607, R630) -/

theorem execPwrGoodFall_running {s t : State} (hphase : s.sys.phase ≠ .inReset)
    (ht : t = { s with sys := { s.sys with pwrGood := false } }.deviceLoss 5 0) :
    execPwrGoodFall s = .next { t with sys := { t.sys with coldAt := some (s.mtime + pwrTicks) } } := by
  subst ht
  exact if_neg hphase

section ResetRegister

variable {a : Actor} {v : BitVec 64} {s : State} (ha : machineActor a = true)

include ha

theorem State.kprResetWrite_cold (hv : v.toNat % 16 = 1) : s.kprResetWrite a v = s.coldRequest 2 := by
  simp [State.kprResetWrite, ha, hv]

theorem State.kprResetWrite_warm (hv : v.toNat % 16 = 2) : s.kprResetWrite a v = s.warmRequest 4 := by
  simp [State.kprResetWrite, ha, hv]

theorem State.kprResetWrite_die (hv : v.toNat % 16 = 4) (hdie : natField v.toNat 11 8 ≤ 9) :
    s.kprResetWrite a v = s.dieRequest (natField v.toNat 11 8) := by
  simp [State.kprResetWrite, ha, hv, resetsDie, hdie]

theorem State.kprResetWrite_keeper (hv : v.toNat % 16 = 8) : s.kprResetWrite a v = s.keeperReset := by
  simp [State.kprResetWrite, ha, hv]

end ResetRegister

theorem execSrstColdReboot_keeperUp {s : State} (hart : Nat) (hkpr : s.keeperUp = true) :
    execSrstColdReboot hart s = .next (s.coldRequest 5) :=
  congrArg _ (if_pos hkpr)

/-- With no cold reset due, the supplies up in order and the device not too hot, the boot runs. -/
theorem execColdBoot_boots {b : BootInputs} {s : State} (hnone : s.sys.coldAt = none) (hphase : s.sys.phase = .booting)
    (hreset : s.sys.resetN = true) (hordered : b.ordered = true) (hcool : s.hotShut = false) :
    execColdBoot b s = .next (s.powered.boot b) := by
  simp [execColdBoot, hnone, hphase, hreset, hordered, hcool]

/-- A Keeper that waits for a bundle answers whether it verified. -/
theorem execUartRecovery_awaited {s : State} (bundle : List Byte) (hwait : s.awaitsBundle = true) :
    execUartRecovery bundle s = .next
      (if bundleOk s.sys.fuses bundle then (s.recoverBundle bundle).send (.uart [1]) else s.send (.uart [0])) := by
  simp only [execUartRecovery, hwait, Bool.not_true, Bool.false_eq_true, if_false]
  split <;> rfl

/-- Settles O42, command by command; a write of KPR_RESET by the one bit that it sets. That the answer of recovery on the UART
is the byte 1 or 0 is the model's choice (log entry 112). -/
theorem coldResetCommandsComplete : Obligations.ColdResetCommandsComplete := by
  unfold Obligations.ColdResetCommandsComplete
  refine ⟨fun _ => rfl, fun _ => rfl, ?pwrGood, ?vaux, ?cold, ?warm, ?die, ?keeper, fun _ _ => rfl, ?srstCold, ?boot, ?uart⟩
  case pwrGood => exact fun s t hphase ht => execPwrGoodFall_running hphase ht
  case vaux =>
    rintro s t rfl
    rfl
  case cold => exact fun a v s ha hv => congrArg Host.Outcome.next (State.kprResetWrite_cold ha hv)
  case warm => exact fun a v s ha hv => congrArg Host.Outcome.next (State.kprResetWrite_warm ha hv)
  case die => exact fun a v s ha hv hdie => congrArg Host.Outcome.next (State.kprResetWrite_die ha hv hdie)
  case keeper => exact fun a v s ha hv => congrArg Host.Outcome.next (State.kprResetWrite_keeper ha hv)
  case srstCold => exact fun hart s hkpr => execSrstColdReboot_keeperUp hart hkpr
  case boot => exact fun b s hnone hphase hreset hordered hcool => execColdBoot_boots hnone hphase hreset hordered hcool
  case uart => exact fun bundle s hwait => execUartRecovery_awaited bundle hwait

/-! ### Requests of the Keeper (R598 to R605) -/

section KeeperRequest

variable {s t u : State} {r : KReq} {rest : List KReq} {via : Option Nat} {m : List Byte} {k : KRes} {op : Nat}

/-- The head of the queue, read whole, is served on the turn of its operation. -/
theorem State.kServe_head (hqueue : s.kpr.queue = r :: rest) (hkpr : s.keeperUp = true)
    (hread : s.kFetch r = some (via, m, true, t)) (hop : kOp m = op) :
    s.kServe op = (t.kFinish rest r m (t.kOperate via m)).getD s := by
  simp [State.kServe, hqueue, hkpr, hread, hop]

/-- The row of an operation finishes the request at the head with the result of that operation. -/
theorem State.kRow_head_finishes (hqueue : s.kpr.queue = r :: rest) (hkpr : s.keeperUp = true)
    (hread : s.kFetch r = some (via, m, true, t)) (hop : kOp m = op) (hresult : t.kOperate via m = k)
    (hfinish : t.kFinish rest r m k = some u) : s.kRow op .head = .next u := by
  rw [State.kRow, State.kServe_head hqueue hkpr hread hop, hresult, hfinish, Option.getD_some]

end KeeperRequest

/-- Settles O44: each request at the head is finished with the result that its row of Table 17-12 gives, for any source, under
the condition of the row, or for the management port alone. That a row serves the head on the turn of its operation, and the
byte order of a request, are the model's choices (log entries 123 and 150). -/
theorem keeperRequestsComplete : Obligations.KeeperRequestsComplete := by
  unfold Obligations.KeeperRequestsComplete
  refine ⟨?info, ?warm, ?cold, ?die, ?keeper, ?assignId, ?epochFloor, ?flashWrite, ?flashActivate, ?svnCommit, ?deviceLoss,
    ?subscribe, ?debugUnlock, ?submit⟩
  case info | warm | cold | keeper | flashActivate =>
    exact fun s r rest via m t u hqueue hkpr hread hop hform hfinish =>
      State.kRow_head_finishes hqueue hkpr hread hop (by simp [State.kOperate, hform, hop, kPortOnly]) hfinish
  case die | flashWrite =>
    exact fun s r rest via m t u hqueue hkpr hread hop hform hallowed hfinish =>
      State.kRow_head_finishes hqueue hkpr hread hop (by simp [State.kOperate, hform, hop, kPortOnly, hallowed]) hfinish
  case assignId | epochFloor | svnCommit | deviceLoss | subscribe | debugUnlock =>
    exact fun s r rest via m t u hqueue hkpr hread hop hform hport hfinish =>
      State.kRow_head_finishes hqueue hkpr hread hop
        (by simp [State.kOperate, hform, hop, Option.isNone_eq_false_iff.mpr hport]) hfinish
  case submit => exact fun a v s ha => next_ite_machine ha

end Sys2Proof.Machine
end

section
/-! SUPPORT. The command at the front of the queue and the queue behind it, and the queue pairs of a pavilion. -/

namespace Sys2Proof.Machine

/-! ### The queue of commands -/

/-- Settles O47: the case of a step in which a command waits. -/
theorem stepRunsTheFront : Obligations.StepRunsTheFront := by
  unfold Obligations.StepRunsTheFront
  exact fun c q s => step_of_command (s := { s with pending := c :: q }) rfl

/-- Settles O53: both are part of what every command keeps (`exec_keeps`). -/
theorem commandsKeepTheQueue : Obligations.CommandsKeepTheQueue := by
  unfold Obligations.CommandsKeepTheQueue
  intro c s t hexec
  have hkeeps := exec_keeps c (.refl s)
  rw [hexec] at hkeeps
  exact ⟨hkeeps.pending, hkeeps.freeCtr⟩

/-! ### Queue pairs (R445, R448, R450, R451, R453, R456) -/

/-- The next pair of an idle pavilion with a program has a RUN at its head, and the pavilion starts it. -/
theorem execSqEntryTake_run {p q : Nat} {s t : State} {bs : List (Option Byte)} (hq : s.nextQp p = some q)
    (hidle : s.pavState p = 1) (hlen : s.progLen p ≠ 0) (hbusy : s.flag F.pavStatus_PROG_BUSY p 0 = false)
    (hread : s.sqRead p q = .ok bs t) (hall : allReadable bs = true) (hrun : fieldLe (plain bs) 0 1 = 1)
    (hflags : fieldLe (plain bs) 1 1 < 2) (hstart : fieldLe (plain bs) 4 4 < s.progLen p) :
    execSqEntryTake p s = .next ((t.sqTaken p q ((s.rd F.pavQpState_SQ_HEAD p q + 1) % 65536)).startRun p
      (requestOf q ((s.rd F.pavQpState_SQ_HEAD p q + 1) % 65536) (plain bs)) (fieldLe (plain bs) 4 4)
      ((List.range 6).map fun i => fieldLe (plain bs) (8 + 8 * i) 8)) := by
  simp [execSqEntryTake, hq, hidle, hlen, hbusy, hread, hall, hrun, hflags, hstart]

section PageWrite

variable {s : State} (hwarm : s.sys.warmOn = false) (a : Actor) {p q : Nat} {v : BitVec 64}

include hwarm

theorem execSqDoorbell_inRange (hlocal : s.flag F.pavQpSq_REMOTE p q = false)
    (hok : s.tailOk p q (natField v.toNat 15 0) = true) :
    execSqDoorbell a p q v s = .next (s.wr F.pavSqTail_TAIL p q (natField v.toNat 15 0)) := by
  simp [execSqDoorbell, sqDoorbellOp, State.pageWrite_of_warmOff hwarm, hlocal, hok]

theorem execCqHeadWrite_inRange (hlocal : s.flag F.pavQpSq_REMOTE p q = false)
    (hok : s.headOk p q (natField v.toNat 15 0) = true) :
    execCqHeadWrite a p q v s = .next (s.wr F.pavCqHead_HEAD p q (natField v.toNat 15 0)) := by
  simp [execCqHeadWrite, cqHeadWriteOp, State.pageWrite_of_warmOff hwarm, hlocal, hok]

/-- A token word of a pair that is not LOCKED is stored, and that is all. -/
theorem execPavQpTokenWrite_unlocked (hst : (s.setReg .pavQpToken0 p q v).qpState p q ≠ 4) :
    execPavQpTokenWrite a p q 0 v s = .next (s.setReg .pavQpToken0 p q v) := by
  rw [execPavQpTokenWrite, pavQpTokenWriteOp, State.pageWrite_of_warmOff hwarm]
  exact congrArg _ (if_pos hst)

/-- The second of the two token words of a LOCKED pair makes it DETACHED. -/
theorem execPavQpTokenWrite_unlocks {t : State} (ht : t = s.setReg .pavQpToken1 p q v) (hst : t.qpState p q = 4)
    (hfirst : tget (t.pav p).lastTok q 0 = 1) :
    execPavQpTokenWrite a p q 1 v s = .next (((t.setPav p { t.pav p with lastTok := terase (t.pav p).lastTok q }).wr
      F.pavQpState_FAILS p q 0).setQp p q 2) := by
  subst ht
  simp [execPavQpTokenWrite, pavQpTokenWriteOp, State.pageWrite_of_warmOff hwarm, hst, hfirst]

/-- A vector that is not masked takes its fields and delivers nothing. -/
theorem execPavEvecWrite_unmasked {vec : Nat} (hmask : s.flag F.pavEvec_MASK p vec = false)
    (hhart : natField v.toNat 24 18 < 96) (hfile : natField v.toNat 17 14 < 9)
    (hid : 1 ≤ natField v.toNat F.pavEvec_ID.hi F.pavEvec_ID.lo)
    (hid' : natField v.toNat F.pavEvec_ID.hi F.pavEvec_ID.lo ≤ 511) (hpend : v.toNat.testBit 61 = false) :
    execPavEvecWrite a p vec v s = .next (((([F.pavEvec_V, F.pavEvec_MASK, F.pavEvec_KIND, F.pavEvec_QP].foldl
      (fun t f => t.wr f p vec (natField v.toNat f.hi f.lo)) s).wr F.pavEvec_ID p vec
      (natField v.toNat F.pavEvec_ID.hi F.pavEvec_ID.lo)).wr F.pavEvec_HART p vec (natField v.toNat 24 18)).wr
      F.pavEvec_FILE p vec (natField v.toNat 17 14)) := by
  simp only [execPavEvecWrite, pavEvecWriteOp, State.pageWrite_of_warmOff hwarm, State.evecWrite, hmask, hhart, hfile, hid,
    hid', hpend, and_self, if_true, Bool.false_and, Bool.false_eq_true, if_false]

/-- A write of 1 fences a pavilion that is idle or runs. -/
theorem execPavFenceWrite_fences (hset : v.toNat.testBit 0 = true) (hst : s.pavState p = 1 ∨ s.pavState p = 2) :
    execPavFenceWrite a p v s = .next (s.fence p St.aborted) := by
  simp [execPavFenceWrite, pavFenceWriteOp, State.pageWrite_of_warmOff hwarm, hset, hst]

end PageWrite

/-- Settles O24, command by command; the writes of a pavilion page outside a warm reset. -/
theorem queuePairsAct : Obligations.QueuePairsAct := by
  unfold Obligations.QueuePairsAct
  refine ⟨?entry, ?doorbell, ?cqHead, ?tokenStored, ?tokenUnlocks, ?vector, ?fence⟩
  case entry =>
    exact fun p s q bs t hq hidle hlen hbusy hread hall hrun hflags hstart =>
      execSqEntryTake_run hq hidle hlen hbusy hread hall hrun hflags hstart
  case doorbell => exact fun a p q v s hwarm hlocal hok => execSqDoorbell_inRange hwarm a hlocal hok
  case cqHead => exact fun a p q v s hwarm hlocal hok => execCqHeadWrite_inRange hwarm a hlocal hok
  case tokenStored => exact fun a p q v s hwarm hst => execPavQpTokenWrite_unlocked hwarm a hst
  case tokenUnlocks => exact fun a p q v s hwarm hst hfirst => execPavQpTokenWrite_unlocks hwarm a rfl hst hfirst
  case vector =>
    exact fun a p vec v s hwarm hmask hhart hfile hid hid' hpend =>
      execPavEvecWrite_unmasked hwarm a hmask hhart hfile hid hid' hpend
  case fence => exact fun a p v s hwarm hset hst => execPavFenceWrite_fences hwarm a hset hst

end Sys2Proof.Machine
end

section
/-! SUPPORT. Schedulers, timers and control of link ports, address resolution, and messages and timers of KMT sessions. -/

namespace Sys2Proof.Machine

/-! ### Schedulers and timers of a port (R478 to R480, R493, R495) -/

section Timers

variable {port : Nat} {s : State}

theorem execPortFrameSend_scheduled (hup : s.sys.lost = false) (hmode : s.lpMode port = 2) (hopen : s.lpOpen port = true) :
    execPortFrameSend port s = .next (s.slpSend port) := by
  simp only [execPortFrameSend, hup, hmode, hopen, Bool.false_eq_true, if_false, if_true]

theorem execPortFrameSend_ethernet (hup : s.sys.lost = false) (hmode : s.lpMode port = 1) (hst : s.lpState port = 3) :
    execPortFrameSend port s = .next (s.ethSend port) := by
  simp [execPortFrameSend, hup, hmode, hst]

theorem execLackTimer_due (hlistens : s.listens port = true) (hdue : (s.port port).lackDue = true) :
    execLackTimer port s = .next ((s.putLack port false).putCredit port) := if_pos ⟨hlistens, hdue⟩

theorem execCreditReturnTimer_listens (hlistens : s.listens port = true) :
    execCreditReturnTimer port s = .next (s.putCredit port) := if_pos hlistens

theorem execReplayTimeout_listens (hlistens : s.listens port = true) :
    execReplayTimeout port s = .next (s.resendAll port) := if_pos hlistens

theorem execIdleTimer_listens (hlistens : s.listens port = true) :
    execIdleTimer port s = .next (s.putLink port ⟨0x24, false, []⟩) := if_pos hlistens

theorem execPartnerAbsenceTimeout_open (hopen : s.lpOpen port = true) :
    execPartnerAbsenceTimeout port s = .next (s.leavePort port 6) := if_pos hopen

/-- A port that is UP becomes SLOW where frames wait for credit. -/
theorem execCreditTimeout_stuck {vc : Nat} (hst : s.lpState port = 3) (hmode : s.lpMode port = 2)
    (hstuck : s.creditStuck port vc = true) :
    execCreditTimeout port vc s = .next
      (((s.wr F.lpStatus_STATE port 0 4).onPort port fun x => { x with slowVc := vc }).portAlarm port 0x13 1) :=
  if_pos ⟨hst, hmode, hstuck⟩

theorem execSlowTimeout_slow (hst : s.lpState port = 4) : execSlowTimeout port s = .next (s.leavePort port 6) := if_pos hst

theorem execLostHoldExpire_lost (hst : s.lpState port = 6) :
    execLostHoldExpire port s = .next (s.wr F.lpStatus_STATE port 0 1) := if_pos hst

end Timers

/-- Settles O29: the scheduler of each mode, and each timer in the state in which it acts. -/
theorem portTimersComplete : Obligations.PortTimersComplete := by
  unfold Obligations.PortTimersComplete
  refine ⟨?scheduled, ?ethernet, ?lack, ?credit, ?replay, ?idle, ?absence, ?stuck, ?slow, ?lost⟩
  case scheduled => exact fun port s hup hmode hopen => execPortFrameSend_scheduled hup hmode hopen
  case ethernet => exact fun port s hup hmode hst => execPortFrameSend_ethernet hup hmode hst
  case lack => exact fun port s hlistens hdue => execLackTimer_due hlistens hdue
  case credit => exact fun port s hlistens => execCreditReturnTimer_listens hlistens
  case replay => exact fun port s hlistens => execReplayTimeout_listens hlistens
  case idle => exact fun port s hlistens => execIdleTimer_listens hlistens
  case absence => exact fun port s hopen => execPartnerAbsenceTimeout_open hopen
  case stuck => exact fun port vc s hst hmode hstuck => execCreditTimeout_stuck hst hmode hstuck
  case slow => exact fun port s hst => execSlowTimeout_slow hst
  case lost => exact fun port s hst => execLostHoldExpire_lost hst

/-! ### Control of a port (R465, R481, R483, R495, R497, R506) -/

/-- Behind the check of its actor, a command of the Keeper or of machine mode acts. -/
theorem ite_not_machine {a : Actor} {x y : Out} (ha : machineActor a = true) :
    (if !machineActor a then x else y) = y := by
  simp [ha]

section Control

variable {port : Nat} {s : State}

/-- A lane that fails on a scheduled port with more than 4 lanes is removed with the next in order of count. -/
theorem execFecDegrade_removes {lane : Nat} {counts : List Nat} {bad : Bool} {t : State}
    (ht : s.fecCount port counts bad = t) (hfails : t.fecFails port lane counts bad = true) (hmode : t.lpMode port = 2)
    (hlanes : 4 < t.rd F.lpStatus_LANES port 0) :
    execFecDegrade port lane counts bad s = .next (t.removeLanes port
      ((lane :: (nextLane lane counts (t.goodLanes port)).toList).foldl (fun b i => b ||| 2 ^ i)
        (t.rd F.lpFec_BADLANES port 0))) := by
  subst ht
  simp [execFecDegrade, hfails, hmode, Nat.not_le.mpr hlanes]

theorem execPortRetrainDone_training (hst : s.lpState port = 5) :
    execPortRetrainDone port s = .next ((((s.retrainOver port).wr F.lpStatus_STATE port 0 3).setBadLanes port 0).onPort port
      fun x => { x with moving := false }) := if_neg (not_not_intro hst)

theorem execRetrainTimeout_training (hst : s.lpState port = 5) :
    execRetrainTimeout port s = .next ((s.retrainOver port).leavePort port 6) := if_pos hst

section Devices

variable {a : Actor} {ix : Nat} {v : BitVec 64} (ha : machineActor a = true) (hix : ix < 8)

include ha hix

theorem execLpDevlostWrite_machine : execLpDevlostWrite a ix v s = .next
    ((List.range 64).foldl (fun s j => if v.toNat.testBit j then s.loseDevice (64 * ix + j) else s) s) := by
  simp [execLpDevlostWrite, lpDevlostWriteOp, ha, Nat.not_le.mpr hix]

theorem execLpDevclrWrite_machine :
    execLpDevclrWrite a ix v s = .next (s.setReg .lpDevlost ix 0 (s.reg .lpDevlost ix 0 &&& ~~~v)) := by
  simp [execLpDevclrWrite, lpDevclrWriteOp, ha, Nat.not_le.mpr hix]

end Devices

variable {ip : Nat} (mac : Nat)

theorem execArpRequest_own (hanswers : s.answersFor port false = true) (hip : s.rd F.lpIpv4_ADDR port 0 = ip) :
    execArpRequest port ip mac s = .next (s.send (.neighbour port ip mac false)) := if_pos ⟨hanswers, hip⟩

theorem execNeighbourSolicitation_own (hanswers : s.answersFor port true = true)
    (hip : s.rd F.lpIpv6Hi_ADDR port 0 * 2 ^ 64 + s.rd F.lpIpv6Lo_ADDR port 0 = ip) :
    execNeighbourSolicitation port ip mac s = .next (s.send (.neighbour port ip mac true)) :=
  if_pos ⟨hanswers, .inl hip⟩

end Control

/-- Settles O30, command by command; the requests of LP_CTL behind the check of their actor. That the end of a retraining
clears BADLANES is the model's choice (log entry 78). -/
theorem portControlCompletes : Obligations.PortControlCompletes := by
  unfold Obligations.PortControlCompletes
  refine ⟨?degrade, ?unquar, ?retrain, ?preset, ?done, ?timeout, ?devlost, ?devclr, ?arp, ?neighbour⟩
  case degrade => exact fun port lane counts bad s t ht hfails hmode hlanes => execFecDegrade_removes ht hfails hmode hlanes
  case unquar | retrain | preset => exact fun a port v s ha => ite_not_machine ha
  case done => exact fun port s hst => execPortRetrainDone_training hst
  case timeout => exact fun port s hst => execRetrainTimeout_training hst
  case devlost => exact fun a ix v s ha hix => execLpDevlostWrite_machine ha hix
  case devclr => exact fun a ix v s ha hix => execLpDevclrWrite_machine ha hix
  case arp => exact fun port ip mac s hanswers hip => execArpRequest_own mac hanswers hip
  case neighbour => exact fun port ip mac s hanswers hip => execNeighbourSolicitation_own mac hanswers hip

/-! ### Messages and timers of a session (R451, R453, R475, R486 to R488) -/

/-- A message that passes its checks acts as its kind says; then the acknowledgment that it carries is taken, and the messages
that waited for it follow. -/
theorem State.kmtIn_of_take {s t u : State} {port kind : Nat} {m : KmtMsg} {p : Partner}
    (hgate : s.kmtGate port kind m = .take p t) (hact : t.kmtAct port kind m p = some u) :
    s.kmtIn port kind m = .next ((u.kmtAcked m.session m.ack).kmtEarly port m.session kmtWindow) := by
  simp only [State.kmtIn, hgate, hact]

section Session

variable {n : Nat} {s : State} {k : KmtSt} (hses : s.session n = some k)

include hses

/-- The oldest unacknowledged message is sent again, and the interval is doubled up to its bound. -/
theorem execKmtRetransmitTimeout_resends {q : Nat} {m : KmtOut} {rest : List (Nat × KmtOut)}
    (hunacked : k.unacked = (q, m) :: rest) (htries : k.tries < 16) (hmute : s.mute k = false) :
    execKmtRetransmitTimeout n s = .next ((s.setSession n
      { k with tries := k.tries + 1, rto := min maxRto (2 * k.rto), ackDue := false }).send (.kmt n q k.rxSeq m)) := by
  simp [execKmtRetransmitTimeout, hses, hunacked, Nat.not_le.mpr htries, hmute]

theorem execKmtAckTimer_due (hdue : k.ackDue = true) (hmute : s.mute k = false) :
    execKmtAckTimer n s = .next
      ((s.setSession n { k with ackDue := false }).send (.kmt n k.txSeq k.rxSeq (hsMsg kmtAckKind []))) := by
  simp [execKmtAckTimer, hses, hdue, hmute]

theorem execKmtSessionTimeout_loses : execKmtSessionTimeout n s = .next (s.loseSession n) := by
  simp [execKmtSessionTimeout, hses]

end Session

/-- Settles O33: every kind of message comes in through the same checks, and the timers stand one by one. ATTACH and SUBMIT
act when memory serves them. -/
theorem kmtMessagesComplete : Obligations.KmtMessagesComplete := by
  unfold Obligations.KmtMessagesComplete
  refine ⟨?attach, ?submit, ?cqAck, ?write, ?read, ?rdata, ?token, ?refuse, ?ack, ?keepalive, ?close, ?retransmit, ?ackTimer,
    ?keepaliveTimer, ?timeout⟩
  case attach | submit => exact fun port m s p t u hgate hact => State.kmtIn_of_take hgate hact
  case cqAck | write | read | rdata | token | refuse | ack | keepalive | close =>
    exact fun port m s p t hgate => State.kmtIn_of_take hgate rfl
  case retransmit => exact fun n s k q m rest hses hunacked htries hmute =>
    execKmtRetransmitTimeout_resends hses hunacked htries hmute
  case ackTimer => exact fun n s k hses hdue hmute => execKmtAckTimer_due hses hdue hmute
  case keepaliveTimer => exact fun n s => rfl
  case timeout => exact fun n s k hses => execKmtSessionTimeout_loses hses

end Sys2Proof.Machine
end

section
/-! SUPPORT. The states of the Keeper; alarms, logs and traces; power, droop and temperature. -/

namespace Sys2Proof.Machine

/-! ### The states of the Keeper (R532, R533, R535, R536) -/

section Keeper

variable {s : State}

theorem execKeeperMismatch_running (hrun : s.keeper = 0) : execKeeperMismatch s = .next (s.setKeeper 1) :=
  congrArg _ (if_pos hrun)

section Selftest

variable (hheld : s.keeper = 1)

include hheld

/-- A passing self-test after one of the first two mismatches in 10 s resets the Keeper. -/
theorem execKeeperSelftestDone_resets (hfew : s.noteMismatch.tel.mism.length < 3) :
    execKeeperSelftestDone true s = .next
      (((s.noteMismatch.bump F.telKeeper_MISMATCH 0 0 1).keeperAlarm 0x15).setKeeper 2) := by
  simp [execKeeperSelftestDone, hheld, Nat.not_le.mpr hfew]

/-- The third mismatch in 10 s halts the Keeper although its self-test passes. -/
theorem execKeeperSelftestDone_halts (hmany : 3 ≤ s.noteMismatch.tel.mism.length) :
    execKeeperSelftestDone true s = .next s.noteMismatch.keeperHalt := by
  simp [execKeeperSelftestDone, hheld, hmany]

theorem execKeeperSelftestDone_fails : execKeeperSelftestDone false s = .next s.checkerFault := by
  simp [execKeeperSelftestDone, hheld]

end Selftest

theorem execKeeperPeriodicSelftest_fails (hrun : s.keeper = 0) :
    execKeeperPeriodicSelftest false s = .next s.checkerFault := congrArg _ (if_pos ⟨hrun, rfl⟩)

theorem execKeeperPeriodicSelftest_passes : execKeeperPeriodicSelftest true s = .next s :=
  congrArg _ (if_neg fun h => Bool.noConfusion h.2)

/-- The mark on buffered records is in no register. -/
theorem State.markBuffered_flag {f : Fld} {i j : Nat} : s.markBuffered.flag f i j = s.flag f i j := rfl

/-- With good firmware the Keeper runs on, checked or not as before. -/
theorem execKeeperResume_good {d r : Bool} (hreset : s.keeper = 2) (hgood : (d || r) = true) :
    execKeeperResume d r s = .next
      (s.markBuffered.setKeeper (if s.markBuffered.flag F.telKeeper_DEGRADED 0 0 then 3 else 0)) := by
  rw [execKeeperResume, if_neg (not_not_intro hreset), if_pos hgood, State.markBuffered_flag]

end Keeper

/-- Settles O37, by the state of the Keeper and the outcome of its self-test. -/
theorem keeperStatesMove : Obligations.KeeperStatesMove := by
  unfold Obligations.KeeperStatesMove
  refine ⟨?mismatch, ?resets, ?halts, ?fails, ?periodicFails, ?periodicPasses, ?watchdog, ?resume⟩
  case mismatch => exact fun s hrun => execKeeperMismatch_running hrun
  case resets => exact fun s hheld hfew => execKeeperSelftestDone_resets hheld hfew
  case halts => exact fun s hheld hmany => execKeeperSelftestDone_halts hheld hmany
  case fails => exact fun s hheld => execKeeperSelftestDone_fails hheld
  case periodicFails => exact fun s hrun => execKeeperPeriodicSelftest_fails hrun
  case periodicPasses => exact fun s => execKeeperPeriodicSelftest_passes
  case watchdog => exact fun s => rfl
  case resume => exact fun d r s hreset hgood => execKeeperResume_good hreset hgood

/-! ### Alarms (R534, R538 to R540) -/

section Lodge

variable {die : Nat} {r : AlarmRec} {s t : State}

/-- An alarm takes a place in its Lodge. -/
theorem execLodgeAlarm_holds (ht : t = { s with raised := s.raised.erase (die, r) })
    (hroom : (t.lodgeHeld die).length < lodgePlaces) (hkpr : t.keeper ≠ 2) :
    execLodgeAlarm die r s = .next (t.setLodge die (t.lodgeHeld die ++ [r])) := by
  subst ht
  exact if_neg (not_or.mpr ⟨Nat.not_le.mpr hroom, hkpr⟩)

/-- An alarm is counted where its Lodge is full. -/
theorem execLodgeAlarm_counts (ht : t = { s with raised := s.raised.erase (die, r) })
    (hfull : lodgePlaces ≤ (t.lodgeHeld die).length) : execLodgeAlarm die r s = .next (t.countAt die r) := by
  subst ht
  exact if_pos (.inl hfull)

theorem execLodgeSummarySend_room (hroom : (s.lodgeHeld die).length ≤ lodgePlaces - 8) (hkpr : s.keeper ≠ 2) :
    execLodgeSummarySend die s = .next ((s.lodgeCodes die).foldl (lodgeSummary die) s) :=
  if_neg (not_or.mpr ⟨Nat.not_lt.mpr hroom, hkpr⟩)

section Enqueue

variable (hkpr : s.keeperUp = true)
  (ht : t = (s.setLodge die ((s.lodgeHeld die).erase r)).manage die true (s.alarmBytes r))

include hkpr ht

/-- An alarm that its Lodge sends enters the Keeper's queue. -/
theorem execKeeperAlarmEnqueue_room (hroom : t.tel.queue.length < alarmPlaces) :
    execKeeperAlarmEnqueue die r s = .next
      { t with tel := { t.tel with queue := t.tel.queue ++ [(die, none, r)] } }.alqSync := by
  subst ht
  simp only [execKeeperAlarmEnqueue, hkpr, Nat.not_le.mpr hroom, Bool.not_true, Bool.false_eq_true, if_false]

/-- An alarm is coalesced where the queue is full. -/
theorem execKeeperAlarmEnqueue_full (hfull : alarmPlaces ≤ t.tel.queue.length) :
    execKeeperAlarmEnqueue die r s = .next (t.coalesce die r) := by
  subst ht
  simp only [execKeeperAlarmEnqueue, hkpr, hfull, Bool.not_true, Bool.false_eq_true, if_false, if_true]

end Enqueue

theorem execAlarmSummaryEnqueue_room (hroom : s.tel.queue.length ≤ alarmPlaces - 16) (hkpr : s.keeperUp = true) :
    execAlarmSummaryEnqueue s = .next (((List.range 352).foldl queueSummary s).alqSync) := by
  simp [execAlarmSummaryEnqueue, Nat.not_lt.mpr hroom, hkpr]

/-- The oldest record not yet sent goes to the subscriber. -/
theorem execAlarmSend_sends {n i : Nat} {e : Nat × Option (Nat × Nat) × AlarmRec} {k : KmtSt} (hn : s.subscriber = some n)
    (hi : s.unsent = some i) (he : s.tel.queue[i]? = some e) (hk : s.session n = some k) (hkpr : s.keeperUp = true) :
    execAlarmSend s = .next (s.sentAlarm n i e k) := by
  simp only [execAlarmSend, hn, hi, he, hk, hkpr, Bool.true_or, Bool.not_true, Bool.false_eq_true, if_false]

theorem execAlarmAck_leaves {i : Nat} (hi : s.ackedAlarm = some i) :
    execAlarmAck s = .next { s with tel := { s.tel with queue := s.tel.queue.eraseIdx i } }.alqSync := by
  simp only [execAlarmAck, hi]

end Lodge

/-! ### Logs and traces (R541, R542) -/

section Logs

variable {die unit : Nat} {r : FaultReport} {s : State}

/-- A log within the rate of its source takes a record's worth from the bucket and is sent. -/
theorem execLogRecord_within (hrate : 100000 ≤ s.logTokens die unit) :
    execLogRecord die unit r s = .next (((s.setLogTokens die unit (s.logTokens die unit - 100000)).manage die true
      (faultBytes r 0xFFFFFFFF s.mtime)).putLog r) := if_neg (Nat.not_lt.mpr hrate)

theorem execLogRecord_limited (hrate : s.logTokens die unit < 100000) :
    execLogRecord die unit r s =
      .next ((s.setLogTokens die unit (s.logTokens die unit)).bump F.telLog_LIMITED 0 0 1) := if_pos hrate

end Logs

section Traces

variable {r : TraceSrc} {data : BitVec 64} {s : State}

/-- A trace with credit, for a subscriber, travels to the hub die and waits there. -/
theorem execTraceRecord_travels {t : State} (hsub : s.subscriber.isSome = true)
    (ht : t = s.carry .debug r.die hubDie (s.traceBytes r data)) :
    execTraceRecord r data true s = .next { t with tel := { t.tel with traces := t.tel.traces ++ [s.traceBytes r data] } } := by
  subst ht
  exact if_neg (by simp [Option.isNone_eq_false_iff.mpr hsub])

/-- A trace without credit, or for nobody, is dropped and counted. -/
theorem execTraceRecord_drops {c : Bool} (hdrop : c = false ∨ s.subscriber = none) :
    execTraceRecord r data c s = .next (s.bump F.telTrace_DROPPED 0 0 1) := if_pos (by simpa using hdrop)

end Traces

/-- Settles O38, command by command, by whether there is room, rate or credit. The unit of the log bucket, and what
becomes of summaries and the alarm ring, are the model's choices (log entry 106), as is a trace without a subscriber (log
entry 155). -/
theorem alarmsTravel : Obligations.AlarmsTravel := by
  unfold Obligations.AlarmsTravel
  refine ⟨?holds, ?counts, ?summary, ?enqueue, ?coalesce, ?queueSummary, ?send, ?ack, ?log, ?logLimited, ?trace, ?traceDrop⟩
  case holds => exact fun die r s t ht hroom hkpr => execLodgeAlarm_holds ht hroom hkpr
  case counts => exact fun die r s t ht hfull => execLodgeAlarm_counts ht hfull
  case summary => exact fun die s hroom hkpr => execLodgeSummarySend_room hroom hkpr
  case enqueue => exact fun die r s t hkpr ht hroom => execKeeperAlarmEnqueue_room hkpr ht hroom
  case coalesce => exact fun die r s t hkpr ht hfull => execKeeperAlarmEnqueue_full hkpr ht hfull
  case queueSummary => exact fun s hroom hkpr => execAlarmSummaryEnqueue_room hroom hkpr
  case send => exact fun s n i e k hn hi he hk hkpr => execAlarmSend_sends hn hi he hk hkpr
  case ack => exact fun s i hi => execAlarmAck_leaves hi
  case log => exact fun die unit r s hrate => execLogRecord_within hrate
  case logLimited => exact fun die unit r s hrate => execLogRecord_limited hrate
  case trace => exact fun r data s t hsub ht => execTraceRecord_travels hsub ht
  case traceDrop => exact fun r data c s hdrop => execTraceRecord_drops hdrop

/-! ### Power, the brake and temperature (R548 to R566) -/

section Power

variable {s : State}

theorem execTelemetryRead_keeperUp (rs : List RailSample) (hkpr : s.keeperUp = true) :
    execTelemetryRead rs s = .next ((s.readRails rs).showPower.capStep ((s.readRails rs).powerOf (List.range 14))) := by
  simp only [execTelemetryRead, hkpr, Bool.not_true, Bool.false_eq_true, if_false]

theorem execGovernorTick_keeperUp {paces : List Nat} (hkpr : (s.showPaces paces).keeperUp = true) :
    execGovernorTick paces s = .next
      (((s.showPaces paces).loopSteps paces).1.shortNow ((s.showPaces paces).loopSteps paces).2) := by
  simp only [execGovernorTick, hkpr, Bool.not_true, Bool.false_eq_true, if_false]

section Machine

variable {a : Actor} {v : BitVec 64} (ha : machineActor a = true)

include ha

/-- A pace from 400 to 1450 is requested, and drifts from the sections in force where there are any. -/
theorem execPaceRequestWrite_inRange {t : State} (hlow : 400 ≤ natField v.toNat 10 0) (hhigh : natField v.toNat 10 0 ≤ 1450)
    (ht : t = s.wr F.pwrPaceReq_REQ 0 0 (natField v.toNat 10 0)) :
    execPaceRequestWrite a v s = .next (if t.trl.force.isEmpty then t else t.drift 0xB 0xFFFF).retarget := by
  subst ht
  simp only [execPaceRequestWrite, paceRequestWriteOp, ha, Nat.not_lt.mpr hlow, Nat.not_lt.mpr hhigh, or_self, Bool.not_true,
    Bool.false_eq_true, if_false]

theorem State.brakeWrite_machine : s.brakeWrite a v = s.brakeFields (natField v.toNat 3 0) (v.toNat.testBit 12) := by
  simp [State.brakeWrite, ha]

end Machine

/-- A droop over is counted, and the one that makes more than LIMIT in a second raises the alarm. -/
theorem execDroopEnd_inDroop {die : Nat} {t : State} (hdroop : s.pwr.inDroop.contains die = true)
    (ht : t = (s.droopOver die (s.droopsNow die)).bump F.pwrDie_DROOPS die 0 1) :
    execDroopEnd die s = .next (if s.droopsNow die = t.rd F.pwrDroop_LIMIT 0 0 + 1 then
      t.alarm die 0x0D (FaultReport.blank St.success 3 0x15 die 0xFF) else t) := by
  subst ht
  simp only [execDroopEnd, hdroop, Bool.not_true, Bool.false_eq_true, if_false]

section Sensor

variable {die : Nat} {ts : List Nat}

/-- Sensors below 115 °C warn and brake. -/
theorem execSensorRead_below (hcool : ∀ x ∈ ts, x < 115) : execSensorRead die ts s = .next
    (((s.takeTemp die (ts.foldl max 0)).warnTemp die (ts.foldl max 0)).thermBrake) :=
  congrArg _ (if_neg (by simpa using hcool))

/-- A sensor at 115 °C or more shuts the device down besides. -/
theorem execSensorRead_hot {x : Nat} (hx : x ∈ ts) (hhot : 115 ≤ x) : execSensorRead die ts s = .next
    (((s.takeTemp die (ts.foldl max 0)).warnTemp die (ts.foldl max 0)).thermBrake).shutdown :=
  congrArg _ (if_pos (List.any_eq_true.mpr ⟨x, hx, decide_eq_true hhot⟩))

end Sensor

end Power

/-- Settles O39, command by command; a read of the sensors by whether one is at 115 °C. -/
theorem powerCommandsComplete : Obligations.PowerCommandsComplete := by
  unfold Obligations.PowerCommandsComplete
  refine ⟨?telemetry, ?governor, ?pace, ?brake, ?aclr, ?alert, ?droop, ?droopEnd, ?holdEnd, ?cool, ?hot, ?thermal⟩
  case telemetry => exact fun rs s hkpr => execTelemetryRead_keeperUp rs hkpr
  case governor => exact fun paces s hkpr => execGovernorTick_keeperUp hkpr
  case pace => exact fun a v s t ha hlow hhigh ht => execPaceRequestWrite_inRange ha hlow hhigh ht
  case brake => exact fun a v s ha => congrArg Host.Outcome.next (State.brakeWrite_machine ha)
  case aclr => exact fun a v s ha => ite_not_machine ha
  case alert | holdEnd => exact fun _ _ => rfl
  case droop => exact fun _ _ _ => rfl
  case droopEnd => exact fun die s t hdroop ht => execDroopEnd_inDroop hdroop ht
  case cool => exact fun die ts s hcool => execSensorRead_below hcool
  case hot => exact fun die ts s x hx hhot => execSensorRead_hot hx hhot
  case thermal => exact fun _ => rfl

end Sys2Proof.Machine
end

section
/-! SUPPORT. Warm and die resets, and requests of SPDM. -/

namespace Sys2Proof.Machine

/-! ### Warm reset (R577, R580, R581, R624) -/

section Warm

variable {s : State}

/-- The pin requests a warm reset once the boot is complete. -/
theorem execWarmResetNFall_booted (hstep : s.rd F.kprBoot_STEP 0 0 = 9) (hpin : s.sys.warmN = true) :
    execWarmResetNFall s = .next ({ s with sys := { s.sys with warmN := false } }.warmRequest 3) :=
  congrArg _ (if_pos ⟨hstep, hpin⟩)

theorem execWarmResetNRise_held (hheld : s.sys.warmHeld = true) :
    execWarmResetNRise s = .next { s with sys := { s.sys with warmN := true } }.warmEnd := congrArg _ (if_pos hheld)

section Sequence

variable {f : State} (hreq : s.sys.warmReq.isSome = true) (hheld : s.sys.warmHeld = false) (hkpr : s.keeperUp = true)
  (hphase : s.sys.phase = .running) (hlost : s.sys.lost = false)
  (hf : f = { s.warmFence with sys := { s.warmFence.sys with warmOn := true } })

include hreq hheld hkpr hphase hlost

/-- A requested warm reset of a running device whose Keeper runs does not wait. -/
theorem State.warmWaits_eq_false :
    (s.sys.warmReq.isNone || s.sys.warmHeld || !s.keeperUp || s.sys.phase != .running || s.sys.lost) = false := by
  simp [Option.isNone_eq_false_iff.mpr hreq, hheld, hkpr, hphase, hlost]

include hf

/-- With every pavilion drained and its records written, the steps of Table 17-2 run, and the last one waits for the pin. -/
theorem execWarmResetSequence_drained {t : State} (hdrained : ∀ p ∈ f.assigned, f.drainedPav p = true)
    (hrec : f.warmRecords = some t) :
    execWarmResetSequence s = .next (if t.warmSteps.sys.warmN then t.warmSteps.warmEnd
      else { t.warmSteps with sys := { t.warmSteps.sys with warmHeld := true } }) := by
  have hall : f.assigned.all f.drainedPav = true := List.all_eq_true.mpr hdrained
  subst hf
  simp only [execWarmResetSequence, State.warmWaits_eq_false hreq hheld hkpr hphase hlost, hall, hrec, Bool.not_true,
    Bool.false_eq_true, if_false]

/-- While a pavilion drains, the pavilions are fenced and nothing more happens. -/
theorem execWarmResetSequence_draining (hleft : ∃ p ∈ f.assigned, f.drainedPav p = false) :
    execWarmResetSequence s = .next f := by
  have hnot : f.assigned.all f.drainedPav = false := List.all_eq_false.mpr (by simpa using hleft)
  subst hf
  simp only [execWarmResetSequence, State.warmWaits_eq_false hreq hheld hkpr hphase hlost, hnot, Bool.not_false,
    Bool.false_eq_true, if_false, if_true]

end Sequence

end Warm

/-! ### Die reset (R583, R584) -/

section Die

variable {die : Nat} {s : State} (answers : Bool) (hreq : s.sys.dieReq.contains die = true) (hkpr : s.keeperUp = true)
  (hwarm : s.sys.warmReq = none) (hcut : s.dieCut die = false)

include hreq hkpr hwarm hcut

/-- The pavilions of a tensor die are fenced before its reset. -/
theorem execDieReset_tensor {f : State} (hdie : die < 8)
    (hf : f = (s.diePavilions die).foldl (fun s p => (s.fence p St.dieReset).needReset p) s) :
    execDieReset die answers s =
      .next ({ f with sys := { f.sys with dieReq := f.sys.dieReq.erase die } }.resetTensorDie die) := by
  have hresets : resetsDie die = true := decide_eq_true (Nat.le_succ_of_le hdie.le)
  subst hf
  simp only [execDieReset, hreq, hkpr, hresets, hwarm, hcut, hdie, Option.isSome_none, Bool.not_true, Bool.or_self,
    Bool.false_eq_true, if_false, if_true]

theorem execDieReset_core (hdie : die = 8 ∨ die = 9) :
    execDieReset die answers s =
      .next ({ s with sys := { s.sys with dieReq := s.sys.dieReq.erase die } }.resetCoreDie (die - 8) answers) := by
  have hresets : resetsDie die = true := decide_eq_true (by omega)
  have hcore : ¬ die < 8 := by omega
  simp only [execDieReset, hreq, hkpr, hresets, hwarm, hcut, hcore, Option.isSome_none, Bool.not_true, Bool.or_self,
    Bool.false_eq_true, if_false]

end Die

/-- Settles O43: the pin, the sequence by whether the pavilions are drained, and a die reset by the kind of its die. That a
warm reset not yet drained only fences (log entry 117), that a die reset waits for the transactions that it would cut (log
entry 118), and that its pavilions need a pavilion reset after it (log entry 154), are the model's choices. -/
theorem warmAndDieResetsComplete : Obligations.WarmAndDieResetsComplete := by
  unfold Obligations.WarmAndDieResetsComplete
  refine ⟨?fall, ?rise, ?sequence, ?tensor, ?core⟩
  case fall => exact fun s hstep hpin => execWarmResetNFall_booted hstep hpin
  case rise => exact fun s hheld => execWarmResetNRise_held hheld
  case sequence =>
    exact fun s f hreq hheld hkpr hphase hlost hf =>
      ⟨fun hdrained t hrec => execWarmResetSequence_drained hreq hheld hkpr hphase hlost hf hdrained hrec,
        fun hleft => execWarmResetSequence_draining hreq hheld hkpr hphase hlost hf hleft⟩
  case tensor =>
    exact fun die answers s f hreq hkpr hdie hwarm hcut hf => execDieReset_tensor answers hreq hkpr hwarm hcut hdie hf
  case core => exact fun die answers s hreq hkpr hdie hwarm hcut => execDieReset_core answers hreq hkpr hwarm hcut hdie

/-! ### Requests of SPDM (R591, R595, R596) -/

/-- A request with the code of its row, of the right version and far enough in the negotiation, is answered the way it came. -/
theorem State.spdmRow_inTurn {s t u : State} {via : Option Nat} {m r : List Byte} {code version stage : Nat}
    {go : State → List Byte × State} (hon : s.spdmOn = true) (hcode : byteAt m 1 = code) (hlen : 4 ≤ m.length)
    (htake : s.spdmTake via = some t) (hversion : byteAt m 0 = version) (hstage : stage ≤ t.kpr.spdm.stage)
    (hgo : go t = (r, u)) : s.spdmRow via m code version stage go = .next (u.spdmSend via r) := by
  simp only [State.spdmRow, hon, hcode, Nat.not_lt.mpr hlen, htake, hversion, Nat.not_lt.mpr hstage, hgo, ne_eq, not_true,
    Bool.not_true, Bool.false_eq_true, or_self, if_false]

/-- A session that is open takes the requests of sessions. -/
theorem State.inSpdm_up {s : State} {r : List Byte} {x : SpdmSt} (hup : s.kpr.spdm.up = true) :
    s.inSpdm r x = (r, s.setSpdm x) := if_pos hup

/-- Settles O45: every request is answered as its row says (`State.spdmRow_inTurn`), once the checks of its own form and
place hold. The codes, layouts and errors of DSP0274 are the model's reading of it (log entry 124). -/
theorem spdmRequestsComplete : Obligations.SpdmRequestsComplete := by
  unfold Obligations.SpdmRequestsComplete
  refine ⟨?version, ?capabilities, ?algorithms, ?digests, ?certificate, ?measurements, ?challenge, ?keyExchange, ?finish,
    ?heartbeat, ?keyUpdate, ?endSession⟩
  case version =>
    exact fun via msg s t r u hon hcode hlen htake hversion hstage hreply =>
      State.spdmRow_inTurn (go := (State.versionReply · msg)) hon hcode hlen htake hversion hstage hreply
  case digests =>
    exact fun via msg s t r u hon hcode hlen htake hversion hstage hreply =>
      State.spdmRow_inTurn (go := (State.digestsReply · msg)) hon hcode hlen htake hversion hstage hreply
  case capabilities =>
    exact fun via msg s t r u hon hcode hlen htake hversion hstage hat hreply =>
      State.spdmRow_inTurn hon hcode hlen htake hversion hstage ((if_neg (not_not_intro hat)).trans hreply)
  case algorithms =>
    exact fun via msg s t r u hon hcode hlen htake hversion hstage hat hsign hgroup hreply =>
      State.spdmRow_inTurn hon hcode hlen htake hversion hstage
        ((if_neg (not_not_intro hat)).trans ((if_neg (by simp [hsign, hgroup])).trans hreply))
  case certificate =>
    exact fun via msg s t r u hon hcode hlen htake hversion hstage hslot hform hoffset hreply =>
      State.spdmRow_inTurn hon hcode hlen htake hversion hstage ((if_neg (by omega)).trans hreply)
  case measurements =>
    exact fun via msg s t r u hon hcode hlen htake hversion hstage hok hreply =>
      State.spdmRow_inTurn hon hcode hlen htake hversion hstage ((if_neg (by simp [hok])).trans hreply)
  case challenge | keyExchange =>
    exact fun via msg s t r u hon hcode hlen htake hversion hstage hslot hform hreply =>
      State.spdmRow_inTurn hon hcode hlen htake hversion hstage ((if_neg (by omega)).trans hreply)
  case finish =>
    exact fun via msg s t r u hon hcode hlen htake hversion hstage hses hnew hreply =>
      State.spdmRow_inTurn hon hcode hlen htake hversion hstage
        ((if_neg (by simp [Option.isNone_eq_false_iff.mpr hses, hnew])).trans ((ite_not ..).trans hreply))
  case heartbeat | endSession =>
    exact fun via msg s t r u hon hcode hlen htake hversion hstage hup hreply =>
      State.spdmRow_inTurn hon hcode hlen htake hversion hstage ((State.inSpdm_up hup).trans hreply)
  case keyUpdate =>
    exact fun via msg s t r u hon hcode hlen htake hversion hstage hup hlow hhigh hreply =>
      State.spdmRow_inTurn hon hcode hlen htake hversion hstage
        ((if_neg (by omega)).trans ((State.inSpdm_up hup).trans hreply))

end Sys2Proof.Machine
end
